-- ==== Sys2Proof/Word.lean ====
section
/-! DEFINITION. The word types of the model and the shape of its sparse tables. -/

namespace Sys2Proof

/-- A byte of any store. -/
abbrev Byte := BitVec 8

/-- A 32-bit word: lane, accumulator entry, register. -/
abbrev W32 := BitVec 32

/-- A 64-bit word: mask register, digest, 64-bit register. -/
abbrev W64 := BitVec 64

/-- A sparse table: pairs of a key and a value, keys strictly rising; an absent key reads as a default that the reader names. -/
abbrev Tab (α : Type) := List (Nat × α)

/-- A byte store in canonical form (see `Machine.memWf`): address and byte pairs, an unlisted address reads 0. -/
abbrev Bytes := List (Nat × BitVec 8)

end Sys2Proof
end

