-- ==== Sys2Proof/Config.lean ====
section
/-! DEFINITION. What the spec fixes as numbers, and the free values it leaves open: opaque constants with no body, so no proof can rest on a value of one (log 5). -/

namespace Sys2Proof.Config

/-- Clients of a wafer (R14). -/
abbrev clients : Nat := 128
/-- Partitions of a wafer (R252). -/
abbrev partitions : Nat := 64
/-- Strips of a wafer (R8). -/
abbrev strips : Nat := 512
/-- Active tile IDs of a wafer (R9). -/
abbrev activeTiles : Nat := 8192
/-- Physical tiles of a wafer (R9). -/
abbrev physTiles : Nat := 8704
/-- Lot Table entries (R227). -/
abbrev lotEntries : Nat := 131072
/-- Bytes of one tile frame of a park area (R277). -/
abbrev frameBytes : Nat := 0x333000
/-- Offset of tile frame 0 in a park area (R277). -/
abbrev framesAt : Nat := 0xD000
/-- Bytes of one pseudo-channel (R396). -/
abbrev pcBytes : Nat := 0x30000000
/-- Bytes of HBM of a wafer with every pseudo-channel working: 576 GiB (R396). -/
abbrev hbmBytes : Nat := 0x9000000000

/-- The byte of a boundary-scan or scan-chain capture: the spec gives no cell map (R474). Free value, log 5. -/
opaque freeScan : Nat → W64
/-- The version a GetPLDMVersion answers for a type (R463 names no number). Free value, log 5. -/
opaque pldmVersion : Nat → W32
/-- The terminus ID that GetTID answers (R463 names no value). Free value, log 5. -/
opaque pldmTid : Nat → Byte
/-- Word `i` of the answer to GetPDRRepositoryInfo and of sensor PDRs beyond what R463 states. Free value, log 5. -/
opaque pldmPdr : Nat → Nat → W32
/-- The vat offset (tile and byte address of R433) of byte `o` of record `r` of a client on another wafer: R198 gives only the record index. Free value, log 5. -/
opaque remoteVatOffset : (wafer record byte : Nat) → Nat
/-- A value the spec leaves open at a corner; the first argument is `State.freeCtr`, the second says which corner. Free value, log 5. -/
opaque free64 : Nat → Nat → W64

end Sys2Proof.Config
end

