-- ==== Sys2Proof/Syntax.lean ====
section
/-! DEFINITION. The commands of the block: one constructor for each row of spec/opcode_table.json, with its operands. -/

namespace Sys2Proof

/-- The way by which a BAR0 access arrives (R383, R480, R474, R433). -/
inductive Via where
  /-- PF BAR0 of host port Hn. -/
  | pf (port : Nat)
  /-- VF BAR0 of a client (R14). -/
  | vf (client : Nat)
  /-- JTAG MEMACC (R474). -/
  | jtag
  /-- REG space of a Tranyx transaction from the lead (R434). -/
  | lead
  deriving DecidableEq, Repr

/-- How a descriptor fetch read completes (R393). -/
inductive FetchResult where
  /-- Descriptors of the ring, in ring order; for a ring in HBM the device reads HBM itself and this list is not used. -/
  | data (descs : List (BitVec 512))
  | unsupportedRequest
  | completerAbort
  | poisoned
  deriving DecidableEq, Repr

/-- A BAR2, HBM or store access. -/
inductive Access where
  | read (len : Nat)
  | write (data : List Byte)
  deriving DecidableEq, Repr

/-- What a check of one copy of a stored word or entry finds (R313). -/
inductive Ecc where
  | clean
  /-- ECC fails on a field in use. -/
  | failUsed
  /-- ECC fails, but only in unused fields. -/
  | failUnused
  deriving DecidableEq, Repr

/-- What a scrub or patrol check of one word finds (R314, R402). -/
inductive Finding where
  | clean
  | corrected
  | uncorrectable
  deriving DecidableEq, Repr

/-- A Tranyx transaction: the header fields of R435 and its data. -/
structure Trans where
  typ : Nat := 0
  src : Nat := 0
  dst : Nat := 0
  resp : Bool := false
  tid : W32 := 0
  addr : W64 := 0
  len : Nat := 0
  client : Nat := 0
  status : Nat := 0
  arg : W64 := 0
  data : List Byte := []
  deriving DecidableEq, Repr

/-- A route of the stack configuration (R440). -/
structure Route where
  dst : Nat
  primary : Nat
  alternate : Option Nat
  deriving DecidableEq, Repr, Inhabited

/-- The stack configuration that a boot image carries (R357, R441, "Topologies and stack configuration"). -/
structure StackCfg where
  /-- Member wafers. -/
  members : List Nat := []
  routes : List Route := []
  /-- Partner endpoint, the wafer and the port it is on. -/
  partners : List (Nat × Nat × Nat) := []
  /-- Strips of other wafers in a home partition: partition, wafer, working tiles there (R448; log 24). -/
  widened : List (Nat × Nat × Nat) := []
  /-- CFG_CRC of R441. -/
  crc : W32 := 0
  deriving DecidableEq, Repr, Inhabited

/-- The lead's stack configuration, which a follower reads over REG space (R441): the register map of 26_register_map.md gives it no place, so its contents are a free value (log 5). The first argument is `State.freeCtr`, the second the lead's CFG_CRC. -/
opaque Config.leadStackCfg : Nat → W32 → StackCfg

/-- One image of the boot flash (R357). -/
structure BootImage where
  magic : W32
  version : W32
  length : Nat
  crc : W32
  body : List Byte
  cfg : StackCfg
  subsystem : BitVec 16
  deriving DecidableEq, Repr

/-- Straps and fuses sampled at power-good (R485, R377, R350, R326). -/
structure Straps where
  waferId : Nat
  leadLow : Bool
  serial : W64
  deriving DecidableEq, Repr

/-- Configuration-space fields that 20_host_pcie.md names (R377 to R381). -/
inductive CfgField where
  | vendorId | deviceId | revisionId | classCode | subsystemVendorId | subsystemId | serialNumber
  | interruptPin | totalVfs | initialVfs | firstVfOffset | vfStride | pageSizes | numVfs | vfDeviceId
  | barSizeLog2 (bar : Nat) | busMasterEnable | powerState
  | capPowerManagement | capPciExpressFlr | capMsix | capAer | capAri | capSriov | capAcs | capSerial | capDataLink
  | capPhysicalLayer | capLaneMargining | capDevice3
  | capMsi | capIntx | capAspm | capAts | capPri | capPasid | capTph | capAtomic | capLtr | capPtm | capResizableBar
  | capFrs | capDoe | capIde
  deriving DecidableEq, Repr

/-- What FEC corrected on a lane in the codewords that carried a flit (R426). -/
structure FecSeen where
  lane : Nat
  codewords : Nat
  symbols : Nat
  deriving DecidableEq, Repr

/-- A flit as it comes in: its bits, and what FEC corrected in its codewords. -/
structure FlitIn where
  word : BitVec 2048
  fec : List FecSeen
  deriving DecidableEq, Repr

/-- A read of registers: its address and how many bytes it reads (R382). -/
structure RegRead where
  addr : Nat
  size : Nat
  deriving DecidableEq, Repr

/-- What JTAG MEMACC reaches (R474). -/
inductive MemTarget where
  | vat (tile addr : Nat)
  | acc (tile entry : Nat)
  | palStore (tile bank addr : Nat)
  | tblStore (tile bank addr : Nat)
  /-- One copy of one Lot Table entry: copy 0 north, 1 south. -/
  | lotStore (copy entry : Nat)
  | hbm (addr : Nat)
  | reg (addr : Nat)
  deriving DecidableEq, Repr

/-- What JTAG FUSE reaches (R474, R326, R350, R377). -/
inductive FuseOp where
  | readLedger (slot : Nat)
  /-- Programs bits of a ledger slot: OTP bits are only ever set. -/
  | programLedger (slot : Nat) (bits : BitVec 10240)
  | readCeiling
  | programCeiling (value : Nat)
  | readSerial
  deriving DecidableEq, Repr

/-- A handoff that a command names: a HANDOFF descriptor that starts, or the HANDOFF stage that a running chain member has reached. -/
inductive HandoffSel where
  | descriptor (client queue : Nat) (tag : W32)
  | stage (unit : Nat)
  deriving DecidableEq, Repr

/-- A watermark group (R458). -/
inductive WmId where
  | queue (client q : Nat)
  | defer (client : Nat)
  | lotOcc
  | power
  | temp
  | slowdown (part : Nat)
  | upset
  deriving DecidableEq, Repr

/-- What a shadow comparison of a unit in probation gives (R332, R334). -/
inductive ProbeResult where
  | equal
  | mismatch
  /-- An error that R300 would charge to the unit, with its source code. -/
  | error (source : Nat)
  /-- The shadow could not keep pace: it neither counts nor fails. -/
  | abandoned
  deriving DecidableEq, Repr

/-- How STACK_FORM ends (R365). -/
inductive FormResult where
  | formed
  | noLead
  | idConflict
  deriving DecidableEq, Repr

/-- The commands. `client`, `q`, `tile` (active tile ID), `ptile` (physical tile ID), `part`, `port`, `dom` name units; `unit` names a live commit unit of the model. -/
inductive Instr where
  -- tile issue
  | longWordIssue (tile : Nat)
  | synDeferredIssue (tile : Nat)
  | barrierRelease (unit : Nat)
  | slotComplete (tile : Nat)
  | tileReady (tile : Nat)
  | remoteReadRequest (tile : Nat)
  | remoteReadData (tile : Nat)
  | fabricAccWrite (src dst : Nat)
  -- members, trap and commit
  | memberStart (tile : Nat)
  | spillCopyDone (tile : Nat)
  | spillDrainDone (tile : Nat)
  | commitInstant (unit : Nat)
  | thirdRunStart (unit : Nat)
  | thirdRunDone (unit : Nat)
  | postCommitDrainDone (unit : Nat)
  | coalesceTimer (client ring : Nat)
  | unitRerunStart (unit : Nat)
  | currentMergeDone (unit : Nat)
  | paletteBankSwap (tile : Nat)
  | tableBankSwap (tile : Nat)
  -- queues
  | descriptorFetch (client q : Nat) (res : FetchResult)
  | fetchRetry (client q : Nat) (res : FetchResult)
  | descriptorAccept (client q : Nat)
  | depTimeout (client q : Nat) (tag : W32)
  -- descriptor kinds
  | op (client q : Nat) (tag : W32)
  | move (client q : Nat) (tag : W32)
  | lot (client q : Nat) (tag : W32)
  | seqAdmit (client q : Nat) (tag : W32)
  | seqRetire (client q : Nat) (tag : W32)
  | seqKick (client q : Nat) (tag : W32)
  | seqSetDeadline (client q : Nat) (tag : W32)
  | seqSetPeriod (client q : Nat) (tag : W32)
  | seqSetCounts (client q : Nat) (tag : W32)
  | palette (client q : Nat) (tag : W32)
  | table (client q : Nat) (tag : W32)
  | fence (client q : Nat) (tag : W32)
  | mark (client q : Nat) (tag : W32)
  | record (client q : Nat) (tag : W32)
  | handoff (sel : HandoffSel)
  -- doorbells and queue control
  | cliDbQ (client q : Nat) (pc : W32)
  | cliDbC (client q : Nat) (consumed : W32)
  | cliDbOut (client : Nat) (consumed : W32)
  | queueEnable (client q : Nat) (cfg : W32)
  | queueDisable (client q : Nat) (cfg : W32)
  | outcomeRingEnable (client : Nat) (cfg : W32)
  | resume (client q : Nat)
  | flush (client q : Nat)
  -- Lot Table
  | buildEnd (client : Nat)
  | retiringFreed (entry : Nat)
  | ltScrubCompare (entry : Nat) (north south : Ecc)
  | cliLtSel (client : Nat) (value : W32)
  -- scheduler and context
  | schedEvaluate (part : Nat)
  | stopComplete (part : Nat)
  | saveComplete (part : Nat)
  | restoreComplete (part : Nat)
  | rebuild (part : Nat)
  | rebuildBegin (part : Nat) (lost : List (Nat × Nat))
  | rebuildEnd (part : Nat)
  | prtStripsWrite (part word : Nat) (value : W32)
  | contextCreate (client : Nat) (bind : W32)
  | contextTeardown (client : Nat) (bind : W32)
  -- accounting and range slots
  | accClr (via : Via) (client : Nat) (value : W32)
  | counterLowHalfRead (via : Via) (addr : RegRead)
  | sdWindowEnd (part : Nat) (ltWaitPs : Nat)
  | sdPublish (part : Nat)
  | rsClr (client slot : Nat) (value : W32)
  -- errors
  | vatCorrectedError (ptile : Nat)
  | correctedReadback (cls unit : Nat) (stillBad : Bool)
  | vatUncorrectable (ptile window : Nat)
  | laneParityError (ptile : Nat)
  | residueError (ptile : Nat)
  | storeCorrectedError (ptile : Nat)
  | storeUncorrectable (tile : Nat) (isPalette : Bool) (bank : Nat) (cleanCopy : Option Nat)
  | linkTimeout (ptile : Nat) (units : List Nat)
  | hbmCorrectedError (addr : Nat)
  | hbmUncorrectable (addr : Nat)
  | hbmReissueResult (addr : Nat) (clean : Bool)
  | rimStoreCorrectedError (copy entry : Nat)
  | rimStoreUncorrectable (copy entry : Nat) (other : Ecc)
  | partitionBistDone (part : Nat) (failed : List Nat)
  | syncTimeout (tile : Nat)
  | vatScrubCheck (ptile window : Nat) (finding : Finding)
  | retrim (strip : Nat)
  | retrimForced (strip : Nat)
  | retrimDone (strip : Nat)
  -- ledger and probation
  | ledgerCommit (via : Via) (value : W32)
  | ledgerCommitDone (verified : Bool)
  | probationRequest (value : W32)
  | probationStep (record : Nat) (result : ProbeResult)
  -- clocks, domains, power
  | freqSetpointWrite (dom code : Nat)
  | voltageRiseDone (dom : Nat)
  | frequencyStepDone (dom : Nat)
  | timeBeacon
  | domainTargetWrite (dom target : Nat)
  | retainDelayExpiry (dom : Nat)
  | domainWake (dom : Nat)
  | domainTransitionDone (dom : Nat)
  | domainPowerUpDone (dom : Nat)
  | domainBistLiteDone (dom : Nat) (failed : List Nat)
  | powerWindowEnd (watts : Nat) (temps : List Nat)
  | thermalTrip (sensor reading : Nat)
  | ceilingLower (via : Via) (value : W32)
  | ceilingProgrammed
  -- start-up and resets
  | powerGood (straps : Straps)
  | powerGoodLoss
  | frameBootDone (imageA imageB : BootImage)
  | domainSwitchOn (dom : Nat)
  | tileBistRoundDone (round : Nat) (failed : List Nat)
  | ledgerMerge
  | hbmTrainDone (stacksDown failedPcs : List Nat)
  | txTrainDone
  | stackFormDone (result : FormResult)
  | startupTimeout
  | configRequest (client : Nat) (field : CfgField)
  | frmReset (via : Via) (value : W32)
  | warmReset
  | perstHotReset (port : Nat)
  -- HBM controllers
  | hbmRetrain (stack : Nat)
  | hbmRetrainDone (stack : Nat) (failedPcs : List Nat)
  | pcRetirementCopyDone (pc : Nat) (unreadable : List Nat)
  | hbmPatrolRead (addr : Nat) (finding : Finding)
  -- functions and BAR2
  | vfFlr (client : Nat)
  | pfFlr (port : Nat)
  | vfEnableClear (port numVfs : Nat)
  | busMasterEnableChange (client : Nat) (on : Bool)
  | powerStateChange (client : Nat) (d3hot : Bool)
  | pfBar2Access (port offset : Nat) (acc : Access)
  | vfBar2Access (client offset : Nat) (acc : Access)
  | poisonedWrite (client bar offset : Nat)
  | registerWrite (via : Via) (addr size : Nat) (value : W64)
  -- Tranyx link
  | trainingDetectDone (port : Nat) (signal : List Nat)
  | trainingEqualizeDone (port : Nat) (failed : List Nat)
  | trainingFecLockDone (port : Nat) (failed : List Nat)
  | trainingLaneTestDone (port : Nat) (failed : List Nat)
  | trainingLaneMapDone (port : Nat) (farMap : BitVec 68)
  | trainingDeskewDone (port : Nat)
  | trainingTimeout (port : Nat)
  | initFlit (port : Nat) (flit : BitVec 2048)
  | initResend (port : Nat)
  | idleFlit (port : Nat) (flit : FlitIn)
  | dataFlit (port : Nat) (flit : FlitIn)
  | ctrlFlit (port : Nat) (flit : FlitIn)
  | flitSend (port : Nat)
  | nakRepeat (port : Nat)
  | ackTimeout (port : Nat)
  | uncorrectableCodeword (port lane : Nat)
  | fecLockLoss (port lane : Nat)
  | recoveryTimeout (port : Nat)
  | txlReset (port : Nat)
  | txlRetrain (port : Nat)
  | txlEnable (port : Nat) (enable : Bool)
  | downPortRetry (port : Nat)
  -- stack transactions
  | rd (t : Trans)
  | rdResponse (t : Trans)
  | wr (t : Trans)
  | wrResponse (t : Trans)
  | wrp (t : Trans)
  | descFwd (t : Trans)
  | descFwdResponse (t : Trans)
  | handoffTransaction (t : Trans)
  | handback (t : Trans)
  | handoffQueuedSend (unit : Nat)
  | busyResend (unit : Nat)
  | handoffTimeout (unit : Nat)
  | routeTimeout (unit : Nat)
  | admitReq (t : Trans)
  | admitReqResponse (t : Trans)
  | admitReqTimeout (client q : Nat) (tag : W32)
  | lotSyncRelease (t : Trans)
  | lotSyncCount (t : Trans)
  | countRebuildEnd
  | lotSyncReady (t : Trans)
  | lotSyncBarrier (t : Trans)
  | barrierGo (t : Trans)
  | merge (t : Trans)
  | mergeResult (t : Trans)
  | lotSyncCommit (t : Trans)
  | lotSyncCommitResponse (t : Trans)
  | leadBeaconSend
  | timeBeaconReceive (t : Trans)
  | timeSyncSend
  | timeSyncRequest (t : Trans)
  | timeSyncReply (t : Trans)
  | notice (t : Trans)
  | id (t : Trans)
  | idResponse (t : Trans)
  | leadLossTimeout
  | claimTimeout
  | noticeForward
  -- watermarks
  | wmCrossedClear (wm : WmId)
  | wmMarkWrite (wm : WmId) (mark : W32)
  | deferWindowEnd (client : Nat)
  | upsetWindowEnd
  -- SMBus and PLDM
  | setEndpointId (eid : Nat)
  | getTid
  | getPldmVersion (typ : Nat)
  | getPldmTypes
  | getPldmCommands (typ : Nat)
  | getPdrRepositoryInfo
  | getPdr (handle : Nat)
  | getSensorReading (sensor : Nat)
  | getStateSensorReadings (sensor : Nat)
  | unsupportedPldmCmd (typ cmd : Nat)
  -- debug
  | haltComplete (client : Nat)
  | halt (client : Nat)
  | release (client : Nat)
  | stepDesc (client : Nat)
  | stepLw (client : Nat)
  | stepComplete (client : Nat)
  -- JTAG
  | bypass (tdi : W64)
  | idcode
  | samplePreload (cells : W64)
  | extest
  | scan (chain : Nat) (tdi : W64)
  | memacc (target : MemTarget) (acc : Access)
  | fuse (op : FuseOp)
  | jtagReset
  -- the rows at the table's end
  | capPauseEnd
  | fetchCompletionTimeout (client q : Nat)
  | pcieLinkUp (port : Nat)
  | pcieLinkDown (port : Nat)
  | laneRetireWaitExpiry (port : Nat)
  | msixVectorUnmask (client : Nat) (vector : Option Nat)
  | outcomeRingDisable (client : Nat)
  | traceEnable (value : W32)
  | vfFlrDone (client : Nat)
  deriving DecidableEq, Repr

end Sys2Proof
end

