-- ==== Sys2Proof/Machine/State.lean ====
section
/-! DEFINITION. The state of the block as plain data, its faults and refusals, and the state after a cold reset. Default field values are the reset values. -/

namespace Sys2Proof.Machine

open Sys2Proof

/-- Reasons a step stops with a fault. The block has none: every error the spec names is an effect on State (16_upsets_and_faults.md), so no constructor exists and no step faults. Safe. -/
inductive Fault where
  deriving DecidableEq, Repr

/-- Reasons a step has no meaning. -/
inductive Refusal where
  /-- Raised by `exec` for a command whose meaning is not written yet. Safe: the run stops. -/
  | notModelled (mnemonic : String)
  deriving DecidableEq, Repr

/-! ### What the block sends (log 3) -/

/-- What the block sends or answers to the outside. -/
inductive Output where
  /-- A posted write to host memory on a client's port (R391). -/
  | hostWrite (client addr : Nat) (data : List Byte)
  /-- A descriptor fetch read of host memory (R393). -/
  | hostRead (client addr bytes : Nat)
  /-- An MSI-X message of a client's function (R223, R461). -/
  | msix (client vector : Nat)
  /-- The data a register read or BAR2 read returns. -/
  | readData (value : W64)
  | readBytes (data : List Byte)
  | unsupportedRequest
  | configReply (field : CfgField) (value : W64)
  | configRetry
  | deviceReadiness (port : Nat)
  | flit (port : Nat) (bits : BitVec 2048)
  | smbus (completion : Nat) (data : List W32)
  | jtagOut (value : W64)
  | timeBeacon (time : Nat)
  | aerPoisoned (client : Nat)
  deriving DecidableEq, Repr

/-! ### Tiles -/

/-- Window states of R24; window 47 is always SPILL. -/
inductive WinState where
  | free | dry | wet
  deriving DecidableEq, Repr

/-- What a window's data belongs to. -/
inductive Owner where
  | nobody
  /-- Window-list slot `slot` of a sequence (R228). -/
  | seq (client entry slot : Nat)
  /-- Window `slot` of a tile's share of a VAT record in one generation of it (R199, R208); `key`: see `recKey`. -/
  | record (client key slot : Nat)
  /-- Staging window `slot` of handle `hnd` of a commit unit (R43). -/
  | staged (client hnd slot : Nat)
  deriving DecidableEq, Repr

/-- One window of a vat (R24). -/
structure Window where
  state : WinState := .free
  owner : Owner := .nobody
  /-- The commit unit a WET window belongs to (R25). -/
  unit : Nat := 0
  /-- Blocks of a WET window, 0 to 255, that its unit has written: an LD reads the others from the DRY window (R53). -/
  blocks : List Nat := []
  deriving DecidableEq, Repr

/-- The spill path of window 47 (R34, R35, R40). -/
inductive SpillPhase where
  | idle
  /-- Copying window `src` of sequence `entry`, list slot `slot`; the copy began at tile cycle `since`. -/
  | copying (src entry slot since : Nat)
  /-- Draining window 47 to the spill area of `entry`, slot `slot`, since tile cycle `since`. -/
  | draining (entry slot since : Nat)
  deriving DecidableEq, Repr

/-- A palette or table store of a tile: two banks, the active one, and whether the other is eligible (R28, R130). -/
structure BankStore where
  bank0 : Bytes := []
  bank1 : Bytes := []
  active : Nat := 0
  pending : Bool := false
  /-- Number, in the order of starts and commits, of the commit that made it eligible (R130). -/
  since : Nat := 0
  swaps : Nat := 0
  deriving DecidableEq, Repr

/-- Slots of a long word, in the order of R29. -/
inductive Slot where
  | ld | ari | pal | red | cvt | skn | st | syn
  deriving DecidableEq, Repr

/-- A complete node of a reduction tree (R110, R152, R179): its value pattern and, for ARGMAX and ARGMIN, the key it stands for. -/
structure Node where
  row : Nat
  level : Nat
  index : Nat
  bits : Nat
  key : Int
  deriving DecidableEq, Repr

/-- A term a RED slot has read: row, position, the two operand patterns and the format each is in. -/
structure RedTerm where
  row : Nat
  pos : Nat
  a : Nat
  fa : Nat
  b : Nat
  fb : Nat
  deriving DecidableEq, Repr

/-- A reduction stream of a commit unit on a tile, until a SYN has waited for its result (R152). -/
structure Stream where
  acc : Nat
  op : Nat
  hnd : Nat
  /-- Format of operand A. -/
  fmt : Nat
  /-- One strict-mode chain (R508) instead of groups and a tree. -/
  chain : Bool
  k : Nat
  rows : Nat
  /-- First logical index of the share (b of R143). -/
  b : Nat
  /-- Elements of the tile's share. -/
  count : Nat
  r0 : Nat
  g64 : Bool
  /-- Terms fed so far (t of R152). -/
  terms : Nat := 0
  /-- Terms of groups that are not complete yet. -/
  waiting : List RedTerm := []
  nodes : List Node := []
  /-- Strict chains: row, running value pattern, next position (R508). -/
  chains : List (Nat × Nat × Nat) := []
  /-- Rows whose result has landed on this tile. -/
  results : List Nat := []
  /-- For a SPLIT share: blocks of the tensor, elements of a block, working tiles, index of this tile (R200); none where the tile's share is the whole tensor. -/
  split : Option (Nat × Nat × Nat × Nat) := none
  deriving DecidableEq, Repr

/-- What an issued slot does when its latency has passed (R30). -/
inductive Write where
  /-- Bits of a vector register selected by `sel` take `bits`; the format tag becomes `tag`. -/
  | vreg (r : Nat) (sel bits : BitVec 2048) (tag : Nat)
  /-- Bits of a mask register selected by `sel` take `bits`. -/
  | mreg (m : Nat) (sel bits : W64)
  /-- Accumulator entries from `entry` take these patterns; their rows take the format code. -/
  | acc (entry : Nat) (vals : List W32) (fmt : Nat)
  /-- Terms of a reduction stream arrive. -/
  | red (acc : Nat) (terms : List RedTerm)
  /-- Bytes of the destination: handle; byte offset in the share, the bits of the byte that are written, their value. -/
  | store (hnd : Nat) (data : List (Nat × Byte × Byte))
  deriving DecidableEq, Repr

/-- An issued slot that has not completed. -/
structure Flight where
  due : Nat
  slot : Slot
  w : Write
  deriving DecidableEq, Repr

/-- One running loop (R160). -/
structure Loop where
  counter : Nat
  /-- Byte offset of the LOOP word; position and byte offset of the body's first long word. -/
  wordOff : Nat
  startPos : Nat
  startOff : Nat
  /-- Position of the body's last long word. -/
  endPos : Nat
  remain : Nat
  deriving DecidableEq, Repr

/-- A pending range-slot contribution (R90, R278). -/
structure RangeC where
  slot : Nat
  amax : W32 := 0
  nan : Nat := 0
  inf : Nat := 0
  sat : Nat := 0
  pub : Option W32 := none
  deriving DecidableEq, Repr

/-- Where a remote read of an LD gets its data (R178). -/
inductive ReadFrom where
  | hbm (addr : Nat)
  /-- Another tile of this wafer: active tile, vat byte address resolved when the request arrives; client, record and byte in the record. -/
  | tile (tile client rec byte : Nat)
  /-- Another wafer, reached by RD. -/
  | wafer (tid : Nat)
  deriving DecidableEq, Repr

/-- Why a tile is stalled (R33), since which tile cycle, and, where SYNC_TIMEOUT runs, since which device time (R302). -/
inductive Stall where
  | remote (src : ReadFrom) (bytes : Nat) (data : Option (List Byte)) (since : Nat)
  /-- A SYN A2V or BCAST waits for a result (R115): slot word, and ACC′ as it stood when its long word issued (R156). -/
  | syn (word : W32) (acc : Nat) (since : Nat) (sinceTime : Nat)
  | barrier (num : Nat) (since : Nat) (sinceTime : Nat)
  /-- A strict chain waits for a fabric value (R508). -/
  | chain (since : Nat)
  deriving DecidableEq, Repr

/-- Which side of a unit a tile runs (R307, R308). -/
inductive Side where
  | main | pair | third
  deriving DecidableEq, Repr

/-- The run of a commit unit on one tile: everything R22 zeroes at its start. -/
structure TileRun where
  unit : Nat
  side : Side := .main
  /-- Index of the chain stage that runs (R194). -/
  stage : Nat := 0
  /-- Pass 1 or 2 of R94; 0 outside CURRENT. -/
  pass : Nat := 0
  vreg : Tab (BitVec 2048) := []
  vtag : Tab Nat := []
  mask : Tab W64 := []
  acc : Tab W32 := []
  /-- Format code of each accumulator row written (R509). -/
  accFmt : Tab Nat := []
  /-- Position and bank offset of the next long word, and its repetition (R138). -/
  pos : Nat := 0
  off : Nat := 0
  rho : Nat := 0
  /-- Bank offset and repetition of the long word last issued (TIL_SEQ_POS). -/
  lastOff : Nat := 0
  lastRho : Nat := 0
  loops : List Loop := []
  x0 : Nat := 0
  x1 : Nat := 0
  x2 : Nat := 0
  x3 : Nat := 0
  counts : List Nat := []
  /-- Tile cycle before which nothing issues (R30). -/
  nextCyc : Nat := 0
  startCyc : Nat := 0
  /-- Tile cycle up to which the run's busy cycles are counted (R292). -/
  counted : Nat := 0
  /-- Cycle at which the ARI slot and the RED slot are free again (R32). -/
  ariFree : Nat := 0
  redFree : Nat := 0
  /-- Cycle in which terms or a fabric write last reached a stream (R115). -/
  lastRed : Nat := 0
  inflight : List Flight := []
  streams : List Stream := []
  streamCount : Nat := 0
  flags : BitVec 8 := 0
  eos : Bool := false
  ranges : List RangeC := []
  /-- Flags, end-of-sequence flag and contributions as they stood when pass 1 began: what pass 1 raises is discarded (R94). -/
  preFlags : BitVec 8 := 0
  preEos : Bool := false
  preRanges : List RangeC := []
  /-- Elements each destination handle's CVT slots have produced (k of R83); the key is 4 × stage + handle. -/
  cvtCount : Tab Nat := []
  stall : Option Stall := none
  /-- The last long word has issued. -/
  ended : Bool := false
  ready : Bool := false
  /-- Stopped at a long-word boundary (R273, R467) or paused for re-trim. -/
  stopped : Bool := false
  /-- One more issue cycle is allowed (R469). -/
  stepOne : Bool := false
  /-- Blocks written wet: 4 × stage + handle, logical block of the tensor (R307). -/
  written : List (Nat × Nat) := []
  /-- Bytes for HBM and remote destinations, by staging key (R43). -/
  staged : Tab Byte := []
  /-- Bits of those staged bytes of which only some are written (R142). -/
  halves : Tab Byte := []
  deriving DecidableEq, Repr

/-- One tile, by active tile ID. -/
structure Tile where
  windows : Tab Window := []
  vat : Bytes := []
  spill : SpillPhase := .idle
  spillSrc : Nat := 0
  traps : Nat := 0
  /-- Windows a starting member still needs from the trap: unit, how many (R34, R35). -/
  trapFor : Option (Nat × Nat) := none
  /-- Tile cycle since which that start waits for window 47 (R35). -/
  trapSince : Nat := 0
  pal : BankStore := {}
  tbl : BankStore := {}
  run : Option TileRun := none
  /-- LOT members placed here and not started, oldest first (R245): unit ids. -/
  queue : List Nat := []
  /-- Cycle and bank of each fabric accumulator write since the run's last issue (R27). -/
  bankHits : List (Nat × Nat) := []
  /-- Cycle in which banks are granted to a stalled local access, and those banks (R41). -/
  bankGrant : Option (Nat × List Nat) := none
  busy : Nat := 0
  stall : Nat := 0
  fstall : Nat := 0
  bridgePeak : Nat := 0
  dbgSpace : Nat := 0
  dbgBank : Nat := 0
  dbgPage : Nat := 0
  /-- An upset held until a break is released (R318). -/
  heldUpset : Bool := false
  /-- TIL_SEQ_POS: bank offset and repetition of the long word last issued. -/
  lastPos : Nat := 0
  deriving DecidableEq, Repr

/-- What a fabric accumulator write carries. -/
inductive FabricBody where
  /-- A right child's value for its parent's left tile (R179). -/
  | node (level index : Nat) (bits : Nat) (key : Int)
  /-- A strict chain's running value; the next position in the row (R508). -/
  | chain (next bits : Nat)
  /-- A strict chain's result for the tile of the row's group 0 (R508). -/
  | result (bits : Nat)
  /-- Terms of a group whose first term lies on the receiving tile (log 9). -/
  | terms (ts : List RedTerm)
  /-- A read request of a remote LD: it shares the request channel with accumulator writes (R174, R175). -/
  | read
  deriving DecidableEq, Repr

/-- A message on the fabric's request channel: active tiles, unit, stream base and row. -/
structure FabricMsg where
  src : Nat
  dst : Nat
  unit : Nat
  acc : Nat
  row : Nat
  body : FabricBody
  /-- Device time at which it was sent (R302). -/
  sent : Nat := 0
  deriving DecidableEq, Repr

/-! ### Descriptors and commit units -/

/-- A tensor record as a unit holds it: the fields of R196 and what is sampled at start (R85, R92, R195). -/
structure Handle where
  index : Nat
  /-- Generation of the record (R195). -/
  gen : Nat := 0
  readonly : Bool
  cls : Nat
  dist : Nat
  fmt : Nat
  rank : Nat
  dims : List Nat
  strides : List Nat
  base : Nat
  rslot : Nat
  /-- Effective scale of R85. -/
  scale : W32
  bound : Bool
  margin : Nat
  /-- Committed AMAX of the range slot when the unit started (R93). -/
  amax : W32
  deriving DecidableEq, Repr

/-- A stage of a commit unit: one descriptor of a chain and its handles A to D. -/
structure Stage where
  desc : BitVec 512
  handles : List (Option Handle)
  deriving DecidableEq, Repr

/-- A LOT member's own data. -/
structure Member where
  entry : Nat
  /-- Deadline under which it was placed (R242). -/
  deadline : Nat
  /-- STEP of the entry when the member starts (R83). -/
  step : Nat
  m0 : Nat := 0
  m1 : Nat := 0
  /-- Where its outcome slots are reserved (R222). -/
  ring : Nat := 0
  /-- What its outcome entry will say, once it has committed: outcome, deferrals, step count after the event, RETIRED detail. -/
  outcome : Nat := 0
  defers : Nat := 0
  stepAfter : W32 := 0
  retire : Option Nat := none
  /-- Moves of the first stage: list slot, source tile (none: spill area), source window, destination window (R243). -/
  moves : List (Nat × Option Nat × Nat × Nat) := []
  deriving DecidableEq, Repr

/-- Where a commit unit stands. -/
inductive Phase where
  /-- A LOT member placed, not started. -/
  | placed
  | running
  /-- Every tile has signalled ready (R44 step 1). -/
  | ready
  /-- A third run is requested or runs (R308). -/
  | third
  /-- Past its commit instant; the drain and the record remain. -/
  | committed
  /-- Ended without commit; the record remains. -/
  | failed
  /-- Killed; it will rerun (R49). -/
  | killed
  /-- Saved under FULL (R276). -/
  | saved
  deriving DecidableEq, Repr

/-- A HANDOFF in progress (R449, R451). -/
structure HandoffRun where
  partner : Nat
  tid : Nat
  /-- First send of this HANDOFF. -/
  firstSend : Nat
  /-- False while it waits for MAX_OUT room, a route or a BUSY resend. -/
  outstanding : Bool
  /-- Time at which a BUSY reply arrived. -/
  busyAt : Option Nat := none
  answered : Bool := false
  /-- Stage of the chain that hands off. -/
  stage : Nat := 0
  /-- An answer held while the client is halted (R468). -/
  held : Option Trans := none
  deriving DecidableEq, Repr

/-- A commit unit (R42). -/
structure CUnit where
  id : Nat
  client : Nat
  q : Nat
  tag : W32
  ordinal : Nat := 0
  part : Nat
  kind : Nat
  stages : List Stage
  member : Option Member := none
  /-- Tiles of the main side, ascending, with the index of the first in the whole partition and T (R200, R448). -/
  tiles : List Nat := []
  first : Nat := 0
  total : Nat := 1
  pairTiles : List Nat := []
  thirdTiles : List Nat := []
  phase : Phase := .running
  start : Nat := 0
  /-- Numbers of the descriptor's start and of the commit instant in the order of such events (R47, R130): the model's own. -/
  startNo : Nat := 0
  commitNo : Nat := 0
  runStart : Nat := 0
  runNs : Nat := 0
  retries : Nat := 0
  kills : Nat := 0
  stage : Nat := 0
  flags : BitVec 8 := 0
  eos : Bool := false
  ranges : List RangeC := []
  /-- Merged A of the CURRENT mode by 1024 × side + destination slot, once merged (R94). -/
  merged : List (Nat × W32) := []
  /-- After the commit instant: bytes that the drain writes to HBM and remote destinations, by staging key (R43, R46). -/
  staged : Tab Byte := []
  /-- Bits of those staged bytes of which only some are written (R142). -/
  halves : Tab Byte := []
  /-- Reads of partly written blocks on other wafers that the drain awaits: TID, the block's staged bytes with the bits written (R46, R142). -/
  waitMerge : List (Nat × List (Nat × Byte × Byte)) := []
  /-- Digest of the main and the pair side (R307). -/
  digest : Option W64 := none
  pairDigest : Option W64 := none
  commitT : Nat := 0
  /-- Status and code of a unit that ended without commit (R218). -/
  status : Nat := 0
  code : Nat := 0
  handoff : Option HandoffRun := none
  /-- Other wafers that contribute to the unit (R448). -/
  others : List Nat := []
  /-- Other wafers whose ready, barrier, flip or WR answers are awaited (R436, R448, R46). On a contributing wafer, `waitFlip` holds the TID of its home's COMMIT while the unit is not ready again. -/
  waitReady : List Nat := []
  waitBarrier : List (Nat × Nat) := []
  waitFlip : List Nat := []
  waitWr : List Nat := []
  /-- Reads of operands on other wafers that are awaited: TID, place in `image`, bytes (R178). -/
  waitRd : List (Nat × Nat × Nat) := []
  /-- A of each slot that other wafers have sent for the CURRENT merge (R436): wafer, slots. -/
  merges : List (Nat × List (Nat × W32)) := []
  /-- Home wafer and request of a unit forwarded here (R437). -/
  home : Option (Nat × Nat) := none
  /-- HANDOFF that this unit answers (R449): source endpoint and TID. -/
  answers : Option (Nat × Nat) := none
  /-- Operands that a MOVE, PALETTE, TABLE or HANDOFF has read whole: handle × 2^48 + byte of the packed stream (R128, R163, R188, R193). -/
  image : Bytes := []
  /-- A pre-emption has killed it, and it has not started again (R256, R274). -/
  preempted : Bool := false
  /-- Whether the switch in progress stops it under FULL: the decision of R270. -/
  stopFull : Option Bool := none
  /-- Sides of a paired unit that are killed and wait for their rerun while the other side goes on (R49, R317). -/
  down : List Side := []
  /-- Killed by a tile retirement or waiting for a rebuild before it reruns (R49). -/
  afterRebuild : Bool := false
  deriving DecidableEq, Repr

/-- Where an accepted descriptor stands. -/
inductive DState where
  | waiting
  | started (unit : Nat)
  /-- Part of a chain headed by an earlier descriptor (R194). -/
  | chained (head : Nat)
  | done
  deriving DecidableEq, Repr

/-- An accepted descriptor without a record (R215, R216). -/
structure ADesc where
  /-- Ring count k of the descriptor (R213). -/
  idx : Nat
  /-- 64-bit accepted-descriptor ordinal after its acceptance (R215). -/
  ordinal : Nat
  desc : BitVec 512
  accepted : Nat
  /-- Acceptance time moved by halts of the client: the base of DEP_TIMEOUT (R205, R468). -/
  timer : Nat
  doorbell : Nat
  state : DState := .waiting
  /-- Killed by pre-emption, to start before every other (R274). -/
  killed : Bool := false
  kills : Nat := 0
  retries : Nat := 0
  /-- Lowest fault code found at acceptance, 0 for none (R206). -/
  fault : Nat := 0
  /-- Head of a chain whose last descriptor is not accepted yet (R194). -/
  chainOpen : Bool := false
  firstStart : Option Nat := none
  /-- Queue wait has been counted (R287). -/
  counted : Bool := false
  deriving DecidableEq, Repr

/-- What a queue remembers of an accepted descriptor's tag (R205). -/
structure TagRec where
  tag : W32
  ordinal : Nat
  accepted : Nat
  /-- Status of its completion record once written. -/
  status : Option Nat := none
  deriving DecidableEq, Repr

/-- A failed fetch (R393). -/
structure FetchFail where
  cause : Nat
  at_ : Nat
  deriving DecidableEq, Repr

/-- Queue states of CLI_Q_STATE (R210, R211, R224, R225). -/
inductive QState where
  | disabled | running | stopped | tornDown
  deriving DecidableEq, Repr

/-- A completion record to be written (R217); PHASE follows from the ring's count. -/
structure Rec where
  q : Nat
  ordinal : Nat
  tag : W32
  status : Nat
  code : Nat := 0
  flags : BitVec 8 := 0
  retries : Nat := 0
  kills : Nat := 0
  start : Nat := 0
  commit : Nat := 0
  counts : Nat := 0
  notify : Bool := false
  halt : Bool := false
  /-- START or COMMIT is the time at which the record is written (R217, R247). -/
  startW : Bool := false
  commitW : Bool := false
  /-- The record of a LOT, which follows the LOT's outcome entries (R221). -/
  lot : Bool := false
  deriving DecidableEq, Repr

/-- A command queue and its completion ring (11_queues_and_completions.md). -/
structure Queue where
  baseLoc : Nat := 0
  base : Nat := 0
  cbaseLoc : Nat := 0
  cbase : Nat := 0
  log2 : Nat := 0
  clog2 : Nat := 0
  state : QState := .disabled
  dbErr : Bool := false
  cc : W32 := 0
  pc : W32 := 0
  acceptedCount : Nat := 0
  ccount : W32 := 0
  skipped : W32 := 0
  coalCount : Nat := 1
  coalTime : Nat := 0
  qdeadline : Nat := 10000000
  /-- Records consumed, by CLI_DB_C. -/
  consumed : W32 := 0
  /-- Doorbells taken: producer count and time (R287). -/
  doorbells : List (W32 × Nat) := []
  /-- Fetched descriptors not yet accepted, oldest first (R215). -/
  fetched : List (BitVec 512) := []
  /-- A descriptor fetch read is outstanding: how many descriptors (R393). -/
  reading : Option Nat := none
  fetchFail : Option FetchFail := none
  accepted : List ADesc := []
  tags : List TagRec := []
  pend : Nat := 0
  oldest : Nat := 0
  /-- ENABLE = 0 was written; the queue is DISABLED when its last record is written (R211). -/
  closing : Bool := false
  /-- Records of a teardown or a partition reset that follow those of units that committed first (R225). -/
  late : List Rec := []
  deriving DecidableEq, Repr

/-- The outcome ring (R209, R220, R222). -/
structure OutRing where
  loc : Nat := 0
  base : Nat := 0
  log2 : Nat := 0
  enable : Bool := false
  count : W32 := 0
  consumed : W32 := 0
  coalCount : Nat := 1
  coalTime : Nat := 0
  pend : Nat := 0
  oldest : Nat := 0
  reserved : Nat := 0
  /-- How often the ring has been enabled: names the enabling in which a slot was reserved (R222). The model's own. -/
  epoch : Nat := 0
  deriving DecidableEq, Repr

/-- A range slot (R90 to R92). -/
structure RSlot where
  amax : W32 := 0
  scale : W32 := 0x3F800000
  gen : W32 := 0
  nan : W32 := 0
  inf : W32 := 0
  sat : W32 := 0
  margin : Nat := 0
  bind : Bool := false
  deriving DecidableEq, Repr

/-- A watermark group (R454). LEVEL is kept live. -/
structure Wm where
  level : Nat := 0
  mark : Nat := 0
  peak : Nat := 0
  count : Nat := 0
  crossed : Bool := false
  deriving DecidableEq, Repr

/-- Accounting counters, 64 bits each, wrapping (R286). -/
structure Acct where
  qsum0 : W64 := 0
  qsum1 : W64 := 0
  qmax0 : W64 := 0
  qmax1 : W64 := 0
  lots : W64 := 0
  served : W64 := 0
  late : W64 := 0
  deferred : W64 := 0
  skipped : W64 := 0
  failed : W64 := 0
  refused : W64 := 0
  preempts : W64 := 0
  stopFull : W64 := 0
  stopKill : W64 := 0
  parkedNs : W64 := 0
  saveNs : W64 := 0
  restoreNs : W64 := 0
  cleared : W64 := 0
  deriving DecidableEq, Repr

/-- Client areas of HBM (R403). -/
structure Areas where
  lo : Nat := 0
  hi : Nat := 0
  recs : Nat := 0
  park : Nat := 0
  parkSize : Nat := 0
  spill : Nat := 0
  spillSize : Nat := 0
  deriving DecidableEq, Repr

/-- A build in progress (R238, R242): t_b, the LOT's tag and queue, the placed members (entry, tile, deadline). -/
structure Build where
  tb : Nat
  q : Nat
  tag : W32
  ordinal : Nat
  placed : List (Nat × Nat × Nat)
  /-- Where its members' outcome slots are reserved (R222). -/
  ring : Nat := 0
  deriving DecidableEq, Repr

/-- A LOT descriptor that has started (R247): its counts and members still to end. -/
structure LotRun where
  q : Nat
  tag : W32
  ordinal : Nat
  start : Nat
  /-- Number of its start in the order of starts and commits (R130): the model's own. -/
  startNo : Nat := 0
  stages : List Stage
  served : Nat := 0
  late : Nat := 0
  deferred : Nat := 0
  skipped : Nat := 0
  failedAny : Bool := false
  retries : Nat := 0
  kills : Nat := 0
  flags : BitVec 8 := 0
  lastCommit : Option Nat := none
  /-- Number of its last commit in the order of such events (R219): the model's own. -/
  commitNo : Nat := 0
  /-- Units of its members that have not ended. -/
  members : List Nat := []
  building : Bool := true
  /-- Members that its build placed. -/
  placed : Nat := 0
  /-- Members were killed by a pre-emption whose save has not completed (R275, R505). -/
  awaitSave : Bool := false
  deriving DecidableEq, Repr

/-- A saved tile of a parked context: the frame's tile, windows and run (R277). -/
structure SavedTile where
  tile : Nat
  windows : Tab Window
  run : Option TileRun
  /-- Saved units whose side on this tile has not begun (R276). -/
  queue : List Nat := []
  /-- The vat of the other side of a paired context, for which the park area has no frame (R403; log 29). -/
  vat : Bytes := []
  deriving DecidableEq, Repr

/-- The park area's content that the device needs to restore (R277 to R282). -/
structure Parked where
  complete : Bool := false
  layout : List Nat := []
  /-- Index of the first working tile in the whole partition, and T (R200, R448). -/
  first : Nat := 0
  total : Nat := 0
  pal : BankStore := {}
  tbl : BankStore := {}
  tiles : List SavedTile := []
  pairTiles : List SavedTile := []
  deriving DecidableEq, Repr

/-- An ADMIT that waits for the lead, or for its commit instant (R235, R445). -/
structure AdmitWait where
  q : Nat
  tag : W32
  /-- Time of the first request, and TID of the last. -/
  since : Nat
  tid : Nat
  /-- Where its outcome slot is reserved (R222). -/
  ring : Nat := 0
  /-- The lead's answer: 0 grants, 7 refuses. -/
  answer : Option Nat := none
  deriving DecidableEq, Repr

/-- A client's break and halt state (25_debug_and_physical_access.md). -/
structure Dbg where
  count0 : W64 := 0
  count1 : W64 := 0
  tag0 : W64 := 0
  tag1 : W64 := 0
  tagEn0 : Bool := false
  tagEn1 : Bool := false
  halted : Bool := false
  stepping : Bool := false
  stepped : Bool := false
  cause : Nat := 0
  q : Nat := 0
  parked : Bool := false
  tag : W32 := 0
  /-- A HOST halt is requested (R466), or a break has been met and the tiles are stopping (R467). -/
  hostReq : Bool := false
  breaking : Bool := false
  /-- Queue and ordinal of the descriptor that the break holds, and of one that RELEASE or a step lets past its break. -/
  held : Option (Nat × Nat) := none
  pass : Option (Nat × Nat) := none
  /-- The descriptor that STEP_DESC lets run to its record (R469). -/
  stepDesc : Option (Nat × Nat) := none
  /-- Device time at which the client halted (R468). -/
  since : Nat := 0
  deriving DecidableEq, Repr

/-- An outcome entry to be written (R220). -/
structure OutE where
  seq : Nat
  outcome : Nat
  detail : Nat := 0
  flags : BitVec 8 := 0
  step : W32 := 0
  time : Nat := 0
  /-- The enabling of the ring in which its slot was reserved (R222); 0 where the ring was disabled. -/
  ring : Nat := 0
  deriving DecidableEq, Repr

/-- DMA or a message that waits for Bus Master Enable and D0 (R390). -/
inductive Dma where
  | record (r : Rec)
  | outcome (e : OutE)
  | msix (vector : Nat)
  deriving DecidableEq, Repr

/-- The PCIe function of a client (20_host_pcie.md). -/
structure Func where
  bme : Bool := false
  d3hot : Bool := false
  /-- Masked vectors and pending vectors, by number (R386). -/
  masked : List Nat := [0, 1, 2, 3, 4, 5, 6, 7]
  pendingBits : List Nat := []
  funcMask : Bool := false
  flr : Bool := false
  /-- DMA and messages held by BME = 0 or D3hot, oldest first (R390). -/
  held : List Dma := []
  /-- MSI-X table entries: address and data words as programmed (R386). -/
  msixTable : Tab W32 := []
  deriving DecidableEq, Repr

/-- A client: CLI block n and what the device keeps for it. -/
structure Client where
  depTimeout : Nat := 100000
  lastMark : W64 := 0
  q0 : Queue := {}
  q1 : Queue := {}
  out : OutRing := {}
  latePolicy : Nat := 0
  winSeq : Nat := 0
  migRange : Nat := 1
  deferLimit : Nat := 4
  lotInterval : Nat := 100
  stepEst : Nat := 100000
  moveEst : Nat := 20000
  refuse : Nat := 0
  ltSel : Nat := 0
  ltData : BitVec 512 := 0
  erd : Option Nat := none
  preemptMode : Nat := 2
  killLimit : Nat := 50
  pcieErr0 : Bool := false
  pcieErr1 : Bool := false
  pcieBar2 : Bool := false
  pcieCause : Nat := 0
  acct : Acct := {}
  areas : Areas := {}
  hbmStatus : Nat := 0
  rslots : Tab RSlot := []
  wmQ0 : Wm := {}
  wmQ1 : Wm := {}
  wmDefer : Wm := {}
  /-- DEFERRED outcomes of the present window and the last window closed (R458). -/
  deferNow : Nat := 0
  deferEnd : Nat := 0
  /-- SCH registers of the client: SCH_BIND, SCH_LT_QUOTA, SCH_STACK_QUOTA. -/
  bindPart : Nat := 0
  pairPart : Nat := 0
  pairEn : Bool := false
  en : Bool := false
  quota : Nat := 0
  stackQuota : Nat := 0x200000
  resident : Bool := false
  parked : Parked := {}
  /-- Time since which the context is parked (R289). -/
  parkedSince : Nat := 0
  build : Option Build := none
  lastBuild : Option Nat := none
  lots : List LotRun := []
  /-- ADMIT refusals since the last LOT record (R217). -/
  refusals : Nat := 0
  /-- ADMITs that have asked the lead and not committed (R235, R445). -/
  admits : List AdmitWait := []
  /-- FAILED entries still to be written for sequences lost by a partition reset (R306). -/
  lostSeqs : List (Nat × W32 × Nat) := []
  dbg : Dbg := {}
  func : Func := {}
  deriving DecidableEq, Repr

/-! ### Lot Table -/

/-- Sequence states of R230. -/
inductive LState where
  | free | admitted | ready | running | waiting | parked | retiring
  deriving DecidableEq, Repr

/-- A Lot Table entry (R228). WINLIST slots hold a window number, 0x3E (NONE) or 0x3F (SPILLED). -/
structure Entry where
  client : Nat := 0
  state : LState := .free
  kicked : Bool := false
  dlSet : Bool := false
  retirePend : Bool := false
  eos : Bool := false
  spilled : Bool := false
  deferCount : Nat := 0
  period : Nat := 0
  deadline : Nat := 0
  step : W32 := 0
  res : Nat := 0
  resValid : Bool := false
  win : List Nat := [0x3E, 0x3E, 0x3E, 0x3E, 0x3E, 0x3E, 0x3E, 0x3E]
  m0 : Nat := 0
  m1 : Nat := 0
  lateCount : Nat := 0
  skipCount : Nat := 0
  deferTotal : Nat := 0
  lastCommit : Nat := 0
  spillAddr : Nat := 0
  deriving DecidableEq, Repr

/-! ### Partitions -/

/-- A switch in progress (R258, R273, R280, R281). -/
inductive SwPhase where
  | stopping | saving | restoring
  deriving DecidableEq, Repr

/-- A decided switch. -/
structure Switch where
  out : Option Nat
  incoming : Option Nat
  phase : SwPhase
  since : Nat
  idle : Bool
  /-- Time at which the stop of the outgoing context's tiles began: step 3 of R273. -/
  stopAt : Option Nat := none
  deriving DecidableEq, Repr

/-- A partition: PRT block p. -/
structure Part where
  strips : BitVec 512 := 0
  /-- Strips that a write added while clients are bound (R252). -/
  adding : BitVec 512 := 0
  resident : Option Nat := none
  switch : Option Switch := none
  rebuilding : Bool := false
  rebuildPend : Bool := false
  rebuildSince : Nat := 0
  /-- A change waits for a rebuild at the next switch (R261). -/
  changePend : Bool := false
  bist : Bool := false
  switchEst : Nat := 400000
  horizon : Nat := 1000000
  minQuantum : Nat := 20000
  since : Nat := 0
  preempts : Nat := 0
  idleSwitches : Nat := 0
  denied : Nat := 0
  rebuilds : Nat := 0
  rebuildNs : Nat := 0
  saveNs : Nat := 0
  restoreNs : Nat := 0
  saveBytes : Nat := 0
  faultMode : Nat := 0
  /-- The home partition on another wafer that this partition lends its strips to (R448). -/
  homeWafer : Nat := 0
  homePart : Nat := 0
  homeEn : Bool := false
  commits : W64 := 0
  kUpset : Nat := 0
  kPreempt : Nat := 0
  kRetire : Nat := 0
  kPair : Nat := 0
  sdTotal : Nat := 0
  sdForeign : Nat := 0
  sdHbm : Nat := 0
  sdTx : Nat := 0
  sdFab : Nat := 0
  sdLtWait : Nat := 0
  /-- Weighted busy and foreign cycles of the present slowdown window, in ps, of the tiles that the partition owned at each cycle: busy, HBM, Tranyx, fabric (R294). -/
  wBusy : Nat := 0
  wHbm : Nat := 0
  wTx : Nat := 0
  wFab : Nat := 0
  /-- Sums of the window that has ended and is not published yet (R294, R295): TOTAL, FOREIGN, HBM, Tranyx, fabric, T × LTWAIT. -/
  sdClosed : Option (Nat × Nat × Nat × Nat × Nat × Nat) := none
  sdEnd : Nat := 0
  sd : Wm := { level := 0x100, peak := 0x100 }
  /-- Last evaluation instant (R257); instant at which a pair was chosen, the pair, and whether as an idle switch (R260). -/
  lastEval : Option Nat := none
  pairChoice : Option (Nat × Nat × Bool) := none
  /-- Working tiles when the resident context's records were last laid out (R262). -/
  laidOut : List Nat := []
  /-- Index of the first of them in the whole partition, and T, then (R200, R448). -/
  laidFirst : Nat := 0
  laidTotal : Nat := 0
  deriving DecidableEq, Repr

/-! ### Domains and frame -/

/-- Domain states (18_clocks_time_power.md). -/
inductive DomState where
  | off | retain | idle | active
  deriving DecidableEq, Repr

/-- A step of a domain's frequency in progress (R338). -/
inductive FStep where
  | none
  | rising (code : Nat)
  | changing (code : Nat)
  deriving DecidableEq, Repr

/-- A compute domain (PWR_DOM_CTRL, PWR_DOM_STATUS). -/
structure Dom where
  target : Nat := 3
  freq : Nat := 12
  reqErr : Bool := false
  state : DomState := .off
  /-- State the domain is moving to, and since when (R342). -/
  trans : Option (DomState × Nat) := none
  /-- The BIST-lite after power-up runs (R342, R345). -/
  bist : Bool := false
  /-- Code the tiles run at. -/
  code : Nat := 0
  step : FStep := .none
  cap : Nat := 18
  therm : Nat := 18
  /-- Twentieths of a tile cycle since the clocks started (R337, R346). -/
  ticks : Nat := 0
  /-- Time since which the domain has had no demand (R342). -/
  quiet : Nat := 0
  deriving DecidableEq, Repr

/-- Start-up states of R355. -/
inductive Startup where
  | frameBoot | domainUp | tileBist | ledgerMerge | hbmTrain | txTrain | stackForm | ready | failed
  deriving DecidableEq, Repr

/-- Physical column of each logical column of a strip (0x1F: ABSENT), the unused column, retired flag (FRM_COLMAP). -/
structure ColMap where
  cols : List Nat := [0, 1, 2, 3, 4, 5, 6, 7, 8, 9, 10, 11, 12, 13, 14, 15]
  unused : Nat := 16
  retired : Bool := false
  deriving DecidableEq, Repr

/-- A probation record (FRM_PROBE). -/
structure Probe where
  unit : Nat := 0
  cls : Nat := 0
  state : Nat := 0
  steps : Nat := 0
  /-- Number, in the order of commits, from which on a commit is a source of a tile's next step (R332): the model's own. -/
  next : Nat := 0
  deriving DecidableEq, Repr

/-- Ledger commit in progress (R328). -/
structure LedgerOp where
  reason : Nat
  force : Bool
  time : Nat
  tiles : BitVec 8704
  lanes : BitVec 544
  pch : BitVec 768
  /-- A COMMIT written while BUSY (R328). -/
  again : Bool := false
  deriving DecidableEq, Repr

/-- The FRM block and frame controller. -/
structure Frm where
  waferId : Nat := 0
  lead : Bool := true
  serial : W64 := 0
  image : Nat := 0
  aValid : Bool := false
  bValid : Bool := false
  bootVersion : W32 := 0
  subsystem : BitVec 16 := 0
  state : Startup := .frameBoot
  reason : Nat := 0
  afterWarm : Bool := false
  stateTime : Nat := 0
  /-- Domains switched on and BIST rounds done so far. -/
  switched : Nat := 0
  rounds : Nat := 0
  bistFailed : List Nat := []
  hbmDown : List Nat := []
  resetReason : Nat := 1
  warms : Nat := 0
  resetTime : Nat := 0
  /-- A warm reset is requested, with its reason code (R488, R352, R474). -/
  resetReq : Option Nat := none
  /-- Programmed slots of the repair ledger, one-time programmable (R326). -/
  ledger : Tab (BitVec 10240) := []
  ledgerOp : Option LedgerOp := none
  ledgerResult : Nat := 0
  probeSteps : Nat := 10000
  probes : Tab Probe := []
  probeErr : Bool := false
  bar2Base : Tab Nat := []
  hbmLimit : Nat := 0
  guard : Nat := 4
  mig : Nat := 4
  scrubPeriod : Nat := 600
  rTiles : BitVec 8704 := 0
  rLanes : BitVec 544 := 0
  rPch : BitVec 768 := 0
  colmaps : Tab ColMap := []
  /-- Tiles retired for their router (R173), physical IDs. -/
  badRouters : List Nat := []
  /-- Tiles retired (false) or returned from probation (true) whose row changes at the next rebuild, oldest first (R321, R333). -/
  rowChanges : List (Bool × Nat) := []
  /-- Pseudo-channels withdrawn (R398), and those with no redirection. -/
  withdrawn : Nat := 0
  unmapped : List Nat := []
  copying : List Nat := []
  -- stack
  role : Nat := 0
  leadId : Nat := 0
  deputy : Nat := 0
  members : BitVec 16 := 0
  leadLoss : Nat := 5000
  routeTimeout : Nat := 10
  timeOffset : Int := 0
  partnerTo : Tab Nat := []
  stack : StackCfg := {}
  deriving DecidableEq, Repr

/-- Power block (PWR). -/
structure Pwr where
  cap : Nat := 20000
  hyst : Nat := 400
  /-- Programmed fuse slots of the ceiling (R350). -/
  fuses : List Nat := []
  ceilErr : Bool := false
  lowering : Option Nat := none
  watts : Nat := 0
  pause : Nat := 0
  pausing : Bool := false
  pauseStart : Nat := 0
  thermLimit : Nat := 90
  retainDelay : Nat := 1000
  doms : Tab Dom := []
  temps : Tab Nat := []
  wmPower : Wm := { mark := 20000 }
  wmTemp : Wm := { mark := 360 }
  lastWindow : Option Nat := none
  deriving DecidableEq, Repr

/-- A fault log entry (16_upsets_and_faults.md). -/
structure FltEntry where
  time : Nat
  source : Nat
  result : Nat
  cls : Nat
  unit : Nat
  client : Option Nat
  deriving DecidableEq, Repr

/-- The FLT block. -/
structure Flt where
  limits : Tab Nat := []
  windows : Tab Nat := []
  linkTimeout : Nat := 50
  syncTimeout : Nat := 1000
  scrub : Nat := 8000
  retrimMax : Nat := 10000
  arbPart : Nat := 0
  arbEn : Bool := false
  corrected : W64 := 0
  upsets : W64 := 0
  permanent : W64 := 0
  latent : W64 := 0
  losses : W64 := 0
  mismatch : W64 := 0
  pairFail : W64 := 0
  head : W32 := 0
  log : Tab FltEntry := []
  /-- Times of the last 15 upsets of a unit, newest first, keyed by class and unit number (R303). -/
  history : Tab (List Nat) := []
  wm : Wm := {}
  upsetNow : Nat := 0
  upsetEnd : Nat := 0
  /-- Rim store banks no longer used: 16 × copy + bank (R304). -/
  rimBad : List Nat := []
  /-- Units awaiting a read-back of a corrected word: class, number (R299). -/
  readbacks : List (Nat × Nat) := []
  /-- HBM reads re-issued: address (R300). -/
  reissues : List Nat := []
  /-- Third runs waiting, in order of mismatch (R308). -/
  thirds : List Nat := []
  /-- Strips paused or re-trimming, with the start (R316); time of each strip's last re-trim. -/
  retrims : Tab Nat := []
  lastRetrim : Tab Nat := []
  retrimForced : List Nat := []
  /-- For each swatch, the tile of it and the window that its scrub engine checks now (R314). -/
  scrubAt : Tab (Nat × Nat) := []
  deriving DecidableEq, Repr

/-- A notice log entry (R460). -/
structure NtcEntry where
  time : Nat
  code : Nat
  wafer : Nat
  forwarded : Bool
  index : Nat
  value : Nat
  deriving DecidableEq, Repr

/-- The NTC block and notices waiting to be forwarded (R462). -/
structure Ntc where
  head : W32 := 0
  route : Nat := 1
  fwd : Bool := true
  log : Tab NtcEntry := []
  toForward : List NtcEntry := []
  deriving DecidableEq, Repr

/-- The trace buffer registers (R473). -/
structure Trace where
  base : Nat := 0
  size : Nat := 0
  en : Bool := false
  stop : Bool := false
  members : Bool := false
  head : W64 := 0
  drops : W64 := 0
  deriving DecidableEq, Repr

/-! ### Tranyx -/

/-- Port states of TXL_STATUS (R414). -/
inductive PState where
  | down | detect | equalize | fecLock | laneTest | laneMap | deskew | init | active | recovery
  deriving DecidableEq, Repr

/-- Lane states of TXL_LANE. -/
inductive LaneState where
  | active | spare | retired | probation
  deriving DecidableEq, Repr

/-- A physical lane of a port. -/
structure Lane where
  state : LaneState := .spare
  logical : Option Nat := none
  corrCw : W64 := 0
  corrSym : W64 := 0
  uncorr : W64 := 0
  crcCharged : W64 := 0
  deriving DecidableEq, Repr

/-- A flit held in the retry buffer: sequence number and the flit as first sent (R421). -/
structure Held where
  seq : Nat
  vc : Nat
  kind : Nat
  len : Nat
  sot : Bool
  eot : Bool
  payload : List Byte
  sentAt : Nat
  deriving DecidableEq, Repr

/-- A flit payload waiting to be sent. -/
structure Chunk where
  len : Nat
  sot : Bool
  eot : Bool
  payload : List Byte
  deriving DecidableEq, Repr

/-- One Tranyx port (22_tranyx_link.md). -/
structure Port where
  state : PState := .down
  since : Nat := 0
  width : Nat := 0
  enable : Bool := true
  lanes : Tab Lane := []
  /-- Lanes that have passed training so far. -/
  pass : BitVec 68 := BitVec.allOnes 68
  ackTimeout : Nat := 2000
  replayLimit : Nat := 4
  peer : W32 := 0
  peerNext : Nat := 0
  peerCred : List Nat := [0, 0, 0, 0]
  peerGood : Bool := false
  peerSeenUs : Bool := false
  /-- This end sends RESET = 1 in INIT (R428). -/
  resetting : Bool := true
  /-- Next SEQ to send and next SEQ expected. -/
  sendSeq : Nat := 0
  expect : Nat := 0
  nak : Bool := false
  /-- A discard episode is open, and when its NAK was last sent (R420). -/
  episode : Bool := false
  nakAt : Nat := 0
  held : List Held := []
  /-- SEQ of the next held flit to replay (R421). -/
  replay : Option Nat := none
  replays : Nat := 0
  replayOf : Nat := 0
  ctrlQ : List (List Byte) := []
  vcQ : List (List Chunk) := [[], [], [], []]
  /-- DATA flits sent and the far end's freed counters, by VC (R423). -/
  sent : List Nat := [0, 0, 0, 0]
  farFreed : List Nat := [0, 0, 0, 0]
  freed : List Nat := [0, 0, 0, 0]
  rr : Nat := 0
  /-- Partial transaction received on each VC. -/
  rx : List (Option (List Byte)) := [none, none, none, none]
  /-- LANE_RETIRE sent and not acknowledged: SEQ, time (R427). -/
  retireWait : Option (Nat × Nat) := none
  lastInit : Nat := 0
  lastTry : Nat := 0
  /-- Start of the recovery in progress, and whether a recovery, or the full training it has become, keeps the retry buffer (R415). -/
  recSince : Option Nat := none
  keeping : Bool := false
  crcFail : W64 := 0
  unattr : W64 := 0
  proto : W64 := 0
  nakTx : W64 := 0
  nakRx : W64 := 0
  replayCount : W64 := 0
  replayFlits : W64 := 0
  recoveries : W64 := 0
  trainings : W64 := 0
  /-- Identity of the far endpoint (R441). -/
  farEp : Option Nat := none
  deriving DecidableEq, Repr

/-- What a wafer knows of an endpoint from its identity block (R441). -/
structure Peer where
  kindEp : Nat := 0
  cfgCrc : W32 := 0
  fmts : BitVec 16 := 0
  maxOut : Nat := 0
  serial : W64 := 0
  lead : Bool := false
  deriving DecidableEq, Repr

/-- An HBM controller. -/
structure HbmCtl where
  up : Bool := false
  retraining : Bool := false
  retrainPend : Bool := false
  corrected : W64 := 0
  uncorrected : W64 := 0
  deriving DecidableEq, Repr

/-- A stage slot SCH_STAGE (R449). -/
structure StageSlot where
  client : Nat := 0
  q : Nat := 0
  en : Bool := false
  template : BitVec 512 := 0
  deriving DecidableEq, Repr

/-- Stack-wide work of this wafer (23_stacks_and_partners.md). -/
structure Stack where
  peers : Tab Peer := []
  nextTid : Nat := 0
  /-- Outstanding requests: TID, destination, unit, port by which it left (R371, R435). -/
  requests : List (Nat × Nat × Nat × Option Nat) := []
  lastBeacon : Nat := 0
  beacons : Nat := 0
  lastSync : Nat := 0
  syncT1 : Option Nat := none
  /-- Slew still to apply to device time, in ns (R443). -/
  slew : Int := 0
  slewCount : Nat := 0
  /-- Non-FREE entries of each client on each follower, by 128 × wafer + client (R445, R447). -/
  counts : Tab Nat := []
  /-- Lead device time of the last beacon, as it arrived, and device time then (R438). -/
  leadTime : Option (Nat × Nat) := none
  /-- The lead rebuilds its counts: wafers whose COUNT is missing, and since when (R447). -/
  rebuilding : Option (List Nat × Nat) := none
  lost : Bool := false
  claimSince : Nat := 0
  /-- ADMIT_REQs that wait for the count rebuild to end (R447). -/
  waitingReqs : List Trans := []
  /-- Transactions without a route: since when, the commit unit they belong to (0: none), the transaction (R440). -/
  unsent : List (Nat × Nat × Trans) := []
  deriving DecidableEq, Repr

/-- JTAG test access port (R474). -/
structure Jtag where
  ir : Nat := 1
  boundary : W64 := 0
  driven : Bool := false
  deriving DecidableEq, Repr

/-- A latched high half of a 64-bit register: function and address (R290). -/
structure HighLatch where
  via : Via
  addr : Nat
  value : W32
  deriving DecidableEq, Repr

/-- The whole block. -/
structure State where
  /-- Commands waiting, first in first out (the block's own queue). -/
  pending : List Instr := []
  /-- Power-good is asserted (R493). -/
  power : Bool := true
  /-- Device time in ns (R339). -/
  now : Nat := 0
  frm : Frm := {}
  pwr : Pwr := {}
  flt : Flt := {}
  ntc : Ntc := {}
  trace : Trace := {}
  clients : Tab Client := []
  parts : Tab Part := []
  tiles : Tab Tile := []
  units : List CUnit := []
  nextUnit : Nat := 1
  fabric : List FabricMsg := []
  /-- North and south Lot Table copies (R229). -/
  north : Tab Entry := []
  south : Tab Entry := []
  ltLimit : Nat := 0x20000
  wmLot : Wm := {}
  swShare : Nat := 16
  stageSlots : Tab StageSlot := []
  hbm : Bytes := []
  hbmCtl : Tab HbmCtl := []
  ports : Tab Port := []
  stk : Stack := {}
  /-- Whole transactions received and not yet acted on, oldest first (R439). -/
  inbox : List Trans := []
  numVfs : Tab Nat := []
  linkUp : Tab Bool := []
  latches : List HighLatch := []
  jtag : Jtag := {}
  smbusEid : Nat := 0
  /-- Numbers starts and commits in their order, which times of one nanosecond do not show: the model's own field. -/
  order : Nat := 1
  /-- Counter applied to the opaque free values of Config: the model's own field (log 5). -/
  freeCtr : Nat := 0
  /-- What the block has sent, newest first (log 3). -/
  out : List Output := []
  deriving DecidableEq, Repr

/-- The block right after cold reset (R368, R356): device time 0, start-up state FRAME_BOOT, every field at its reset value. -/
def State.reset : State := {}

end Sys2Proof.Machine
end

