-- ==== Sys2Proof/Machine/Tab.lean ====
section
/-! DEFINITION. Sparse tables and byte stores as sorted lists: reading, writing, canonical form. -/

namespace Sys2Proof.Machine

open Sys2Proof

/-- What key `i` of a table holds; `d` where it is not listed. -/
def tabGet {α : Type} (d : α) : Tab α → Nat → α
  | [], _ => d
  | (k, v) :: r, i => if i = k then v else tabGet d r i

/-- The table with `x` at key `i`. -/
def tabPut {α : Type} : Tab α → Nat → α → Tab α
  | [], i, x => [(i, x)]
  | (k, v) :: r, i, x =>
    if i = k then (i, x) :: r
    else if i < k then (i, x) :: (k, v) :: r
    else (k, v) :: tabPut r i x

/-- Changes key `i` of a table by `f`. -/
def tabMod {α : Type} (d : α) (t : Tab α) (i : Nat) (f : α → α) : Tab α := tabPut t i (f (tabGet d t i))

/-- Whether a table lists key `i`. -/
def tabHas {α : Type} : Tab α → Nat → Bool
  | [], _ => false
  | (k, _) :: r, i => i == k || tabHas r i

/-- The table without key `i`. -/
def tabDel {α : Type} (t : Tab α) (i : Nat) : Tab α := t.filter fun p => p.1 != i

/-- Byte at address `a`: an unlisted address reads 0 (log 4). -/
def memGet (m : Bytes) (a : Nat) : Byte := tabGet 0 m a

/-- A byte store keeps its canonical form: addresses strictly rising, no listed byte equal to 0. -/
def memWf : Bytes → Bool
  | [] => true
  | [(_, v)] => v != 0
  | (k, v) :: (k', v') :: r => v != 0 && decide (k < k') && memWf ((k', v') :: r)

/-- The store with byte `v` at address `a`. -/
def memPut (m : Bytes) (a : Nat) (v : Byte) : Bytes :=
  if v = 0 then tabDel m a else tabPut m a v

/-- The store with the bytes `bs` at `a`, `a + 1`, …. -/
def memWrite (m : Bytes) (a : Nat) : List Byte → Bytes
  | [] => m
  | b :: bs => memWrite (memPut m a b) (a + 1) bs

/-- The `n` bytes at `a`, `a + 1`, …. -/
def memRead (m : Bytes) (a : Nat) : Nat → List Byte
  | 0 => []
  | n + 1 => memGet m a :: memRead m (a + 1) n

/-- The store with the listed bytes written. -/
def memPutAll (m : Bytes) : List (Nat × Byte) → Bytes
  | [] => m
  | (a, b) :: r => memPutAll (memPut m a b) r

/-- The store with the `n` bytes from `a` on cleared to 0. -/
def memClear (m : Bytes) (a n : Nat) : Bytes := m.filter fun p => !(decide (a ≤ p.1) && decide (p.1 < a + n))

/-- The listed bytes of the `n` bytes from `a` on, addressed from 0. -/
def memSlice (m : Bytes) (a n : Nat) : Bytes :=
  (m.filter fun p => decide (a ≤ p.1) && decide (p.1 < a + n)).map fun p => (p.1 - a, p.2)

/-- The store with the `n` bytes from `a` on replaced by the store `src`, addressed from 0 (copies a window or a bank). -/
def memPaste (m : Bytes) (a n : Nat) (src : Bytes) : Bytes :=
  memPutAll (memClear m a n) ((src.filter fun p => decide (p.1 < n)).map fun p => (a + p.1, p.2))

/-- Little-endian value of a list of bytes (R2). -/
def leVal : List Byte → Nat
  | [] => 0
  | b :: bs => b.toNat + 256 * leVal bs

/-- The `n` bytes of `v`, least significant first (R2). -/
def leBytes (v : Nat) : Nat → List Byte
  | 0 => []
  | n + 1 => BitVec.ofNat 8 v :: leBytes (v / 256) n

/-- Little-endian value of the `n` bytes at `a`. -/
def memVal (m : Bytes) (a n : Nat) : Nat := leVal (memRead m a n)

/-- The store with the `n` low bytes of `v` at `a`, little-endian. -/
def memWriteVal (m : Bytes) (a n v : Nat) : Bytes := memWrite m a (leBytes v n)

/-- Element `i` of a list of naturals; 0 beyond its end. -/
def nth (l : List Nat) (i : Nat) : Nat := l.getD i 0

/-- Bits `hi` down to `lo` of `n`. -/
def bits (n hi lo : Nat) : Nat := (n / 2 ^ lo) % 2 ^ (hi + 1 - lo)

/-- Bit `i` of `n`. -/
def bit (n i : Nat) : Bool := Nat.testBit n i

/-- 1 for true, 0 for false. -/
def b2n (b : Bool) : Nat := if b then 1 else 0

/-- `n` with bits `hi` down to `lo` taken from `v`. -/
def setBits (n hi lo v : Nat) : Nat :=
  n - bits n hi lo * 2 ^ lo + (v % 2 ^ (hi + 1 - lo)) * 2 ^ lo

/-- The smaller of a count and the maximum of a saturating counter. -/
def satTo (max n : Nat) : Nat := if n ≤ max then n else max

/-- Numbers `0` to `n - 1`. -/
abbrev upTo (n : Nat) : List Nat := List.range n

/-- The least of a list, if it has one. -/
def least : List Nat → Option Nat
  | [] => none
  | a :: r => match least r with
    | none => some a
    | some b => some (if a ≤ b then a else b)

/-- The greatest of a list and `d`. -/
def greatest (d : Nat) : List Nat → Nat
  | [] => d
  | a :: r => let b := greatest d r; if b ≤ a then a else b

/-- Sum of a list. -/
def total : List Nat → Nat
  | [] => 0
  | a :: r => a + total r

/-- `l` with `x` inserted in rising order, once. -/
def insertUp (x : Nat) : List Nat → List Nat
  | [] => [x]
  | a :: r => if x = a then a :: r else if x < a then x :: a :: r else a :: insertUp x r

/-- A list sorted into rising order without repeats. -/
def sortUp (l : List Nat) : List Nat := l.foldr insertUp []

/-- Inserts before the first element that comes after `x` under `le`. -/
def insertBy {α : Type} (le : α → α → Bool) (x : α) : List α → List α
  | [] => [x]
  | a :: r => if le x a then x :: a :: r else a :: insertBy le x r

/-- Stable insertion sort under `le`. -/
def sortBy {α : Type} (le : α → α → Bool) (l : List α) : List α := l.foldr (insertBy le) []

/-- The first element with the least key. -/
def minBy {α : Type} (key : α → Nat) : List α → Option α
  | [] => none
  | a :: r => match minBy key r with
    | none => some a
    | some b => if key a ≤ key b then some a else some b

/-- Replaces element `i` of a list. -/
def listPut {α : Type} (l : List α) (i : Nat) (x : α) : List α := l.set i x

/-- CRC-32 of the spec (R417): polynomial 0x04C11DB7 reflected, one bit. -/
def crcBit (c : Nat) : Nat := if c % 2 = 1 then (c / 2) ^^^ 0xEDB88320 else c / 2

/-- CRC-32, one byte. -/
def crcByte (c : Nat) (b : Byte) : Nat :=
  crcBit (crcBit (crcBit (crcBit (crcBit (crcBit (crcBit (crcBit (c ^^^ b.toNat))))))))

/-- CRC-32 of a byte string. -/
def crc32 (bs : List Byte) : Nat := (bs.foldl crcByte 0xFFFFFFFF) ^^^ 0xFFFFFFFF

end Sys2Proof.Machine
end

