-- ==== Sys2Proof/Machine/Ops.lean ====
section
/-! DEFINITION. Named operations over the state: reading and changing its parts, HBM, ring writes, messages, notices, watermarks, trace and the fault log. -/

namespace Sys2Proof.Machine

open Sys2Proof

/-! ### Parts of the state -/

/-- Client `n`. -/
def State.client (s : State) (n : Nat) : Client := tabGet {} s.clients n
/-- Changes client `n`. -/
def State.modClient (s : State) (n : Nat) (f : Client → Client) : State := { s with clients := tabMod {} s.clients n f }
/-- Partition `p`. -/
def State.part (s : State) (p : Nat) : Part := tabGet {} s.parts p
/-- Changes partition `p`. -/
def State.modPart (s : State) (p : Nat) (f : Part → Part) : State := { s with parts := tabMod {} s.parts p f }
/-- Tile with active tile ID `a`. -/
def State.tile (s : State) (a : Nat) : Tile := tabGet {} s.tiles a
/-- Changes tile `a`. -/
def State.modTile (s : State) (a : Nat) (f : Tile → Tile) : State := { s with tiles := tabMod {} s.tiles a f }
/-- Domain `d`. -/
def State.dom (s : State) (d : Nat) : Dom := tabGet {} s.pwr.doms d
/-- Changes domain `d`. -/
def State.modDom (s : State) (d : Nat) (f : Dom → Dom) : State := { s with pwr := { s.pwr with doms := tabMod {} s.pwr.doms d f } }
/-- Tranyx port `p`. -/
def State.port (s : State) (p : Nat) : Port := tabGet {} s.ports p
/-- Changes Tranyx port `p`. -/
def State.modPort (s : State) (p : Nat) (f : Port → Port) : State := { s with ports := tabMod {} s.ports p f }
/-- Queue `q` of a client. -/
def Client.queue (c : Client) (q : Nat) : Queue := if q = 0 then c.q0 else c.q1
/-- Changes queue `q` of a client. -/
def Client.modQueue (c : Client) (q : Nat) (f : Queue → Queue) : Client := if q = 0 then { c with q0 := f c.q0 } else { c with q1 := f c.q1 }
/-- Queue `q` of client `n`. -/
def State.queue (s : State) (n q : Nat) : Queue := (s.client n).queue q
/-- Changes queue `q` of client `n`. -/
def State.modQueue (s : State) (n q : Nat) (f : Queue → Queue) : State := s.modClient n fun c => c.modQueue q f
/-- Range slot `i` of a client. -/
def Client.rslot (c : Client) (i : Nat) : RSlot := tabGet {} c.rslots i
/-- HBM controller `m`. -/
def State.ctl (s : State) (m : Nat) : HbmCtl := tabGet {} s.hbmCtl m
/-- Changes HBM controller `m`. -/
def State.modCtl (s : State) (m : Nat) (f : HbmCtl → HbmCtl) : State := { s with hbmCtl := tabMod {} s.hbmCtl m f }
/-- The commit unit `id`, if it is live. -/
def State.unit? (s : State) (id : Nat) : Option CUnit := s.units.find? fun u => u.id == id
/-- Changes commit unit `id`. -/
def State.modUnit (s : State) (id : Nat) (f : CUnit → CUnit) : State :=
  { s with units := s.units.map fun u => if u.id = id then f u else u }
/-- Removes commit unit `id`. -/
def State.dropUnit (s : State) (id : Nat) : State := { s with units := s.units.filter fun u => u.id != id }
/-- Changes accounting counters of client `n`. -/
def State.modAcct (s : State) (n : Nat) (f : Acct → Acct) : State := s.modClient n fun c => { c with acct := f c.acct }
/-- The state after the device sends `o`. -/
def State.emit (s : State) (o : Output) : State := { s with out := o :: s.out }
/-- Changes FRM. -/
def State.modFrm (s : State) (f : Frm → Frm) : State := { s with frm := f s.frm }
/-- Changes FLT. -/
def State.modFlt (s : State) (f : Flt → Flt) : State := { s with flt := f s.flt }
/-- Changes PWR. -/
def State.modPwr (s : State) (f : Pwr → Pwr) : State := { s with pwr := f s.pwr }
/-- Changes the stack-wide work. -/
def State.modStk (s : State) (f : Stack → Stack) : State := { s with stk := f s.stk }

/-- Applies `f` for each element of a list, from the first. -/
def State.each {α : Type} (s : State) (l : List α) (f : State → α → State) : State := l.foldl f s

/-- Applies `f` where `c` holds. -/
def State.when (s : State) (c : Bool) (f : State → State) : State := if c then f s else s

/-- A free value of the spec's open corners; each draw advances the counter (log 5). -/
def State.draw (s : State) (corner : Nat) : W64 × State := (Config.free64 s.freeCtr corner, { s with freeCtr := s.freeCtr + 1 })

/-! ### Geometry (R7 to R12, R14) -/

/-- Swatch of a strip. -/
def swatchOf (strip : Nat) : Nat := strip / 8
/-- Compute domain of a strip (R12). -/
def domOfStrip (strip : Nat) : Nat := 4 * (swatchOf strip / 8 / 2) + swatchOf strip % 8 / 2
/-- Strip `i`, 0 to 31, of a compute domain (R12). -/
def stripOfDom (d i : Nat) : Nat := 8 * (8 * (2 * (d / 4) + i / 8 / 2) + 2 * (d % 4) + i / 8 % 2) + i % 8
/-- Compute domain of an active tile ID. -/
def domOfTile (a : Nat) : Nat := domOfStrip (a / 16)
/-- Host port of a client (R14). -/
def portOf (client : Nat) : Nat := client / 32
/-- Function number of a client on its port (R14). -/
def funOf (client : Nat) : Nat := client % 32
/-- Vectors of a client's MSI-X table (R386). -/
def vectorsOf (client : Nat) : Nat := if funOf client = 0 then 8 else 4
/-- Swatch distance of two strips, |Δx| + |Δy| (R240). -/
def swatchDist (a b : Nat) : Nat :=
  let d := fun x y : Nat => if x ≤ y then y - x else x - y
  d (swatchOf a % 8) (swatchOf b % 8) + d (swatchOf a / 8) (swatchOf b / 8)

/-- The column map of a strip (FRM_COLMAP). -/
def State.colmap (s : State) (strip : Nat) : ColMap := tabGet {} s.frm.colmaps strip
/-- Physical column of a logical column; 0x1F: absent (R17, R321). -/
def State.physCol (s : State) (strip col : Nat) : Nat := (s.colmap strip).cols.getD col 0x1F
/-- Whether an active tile ID has a physical tile behind it and its strip is not retired. -/
def State.working (s : State) (a : Nat) : Bool :=
  !(s.colmap (a / 16)).retired && s.physCol (a / 16) (a % 16) != 0x1F && decide (a < Config.activeTiles)
/-- Physical tile ID behind an active tile ID (R9). -/
def State.physTile (s : State) (a : Nat) : Nat := 17 * (a / 16) + s.physCol (a / 16) (a % 16)
/-- Active tile ID that a physical tile stands behind, if any. -/
def State.activeOf (s : State) (pt : Nat) : Option Nat :=
  let strip := pt / 17
  if (s.colmap strip).retired then none
  else ((upTo 16).find? fun c => s.physCol strip c == pt % 17).map fun c => 16 * strip + c

/-- Strips of a partition, rising. -/
def State.stripsOf (s : State) (p : Nat) : List Nat := (upTo Config.strips).filter fun i => (s.part p).strips.getLsbD i
/-- Working tiles of a partition on this wafer, in ascending active tile ID (R200). -/
def State.tilesOf (s : State) (p : Nat) : List Nat :=
  (s.stripsOf p).flatMap fun i => ((upTo 16).map fun c => 16 * i + c).filter s.working
/-- The partition that holds a strip. -/
def State.partOfStrip (s : State) (strip : Nat) : Option Nat :=
  (upTo Config.partitions).find? fun p => (s.part p).strips.getLsbD strip
/-- The partition that holds a tile. -/
def State.partOfTile (s : State) (a : Nat) : Option Nat := s.partOfStrip (a / 16)

/-- Twentieths of a tile cycle that a domain's tiles count in a nanosecond: (12 + code) in ACTIVE and in the BIST-lite, code 0 in IDLE, none elsewhere, in a frequency change or in a cap pause (R337, R338, R346, R348 and the table Domain states). -/
def Dom.rate (d : Dom) (pausing : Bool) : Nat :=
  match d.state, d.step with
  | .active, .changing _ => 0
  | .active, _ => if pausing then 0 else 12 + d.code
  | .idle, _ => 12
  | .off, _ => if d.bist then 12 + d.code else 0
  | .retain, _ => 0

/-- Tile cycles of a domain since its clocks last started (R38, R337): twentieths of a cycle, (12 + code) a ns. -/
def State.domCycle (s : State) (d : Nat) : Nat := (s.dom d).ticks / 20
/-- TIL_CYCLE of a tile (R38). -/
def State.cycle (s : State) (a : Nat) : Nat := s.domCycle (domOfTile a)

/-! ### Entries of the Lot Table (R227 to R229) -/

/-- Store bank of an entry (R304). -/
def ltBank (i : Nat) : Nat := i / 8192
/-- Entry `i` as a read sees it: the north copy, or the south copy where the north bank is no longer used (R229, R304). -/
def State.entry (s : State) (i : Nat) : Entry :=
  if s.flt.rimBad.contains (ltBank i) then tabGet {} s.south i else tabGet {} s.north i
/-- Non-FREE entries of the wafer (SCH_LT_OCC). -/
def State.ltOcc (s : State) : Nat := (s.north.filter fun e => e.2.state != .free).length
/-- Non-FREE entries of a client, by local index. -/
def State.entriesOf (s : State) (client : Nat) : List Nat :=
  (s.north.filter fun e => e.2.state != .free && e.2.client == client).map Prod.fst
/-- Sequence ID of a local index (R227). -/
def State.seqId (s : State) (i : Nat) : Nat := s.frm.waferId * 2 ^ 17 + i

/-! ### HBM (R384, R397, R398) -/

/-- TOP (R398). -/
def State.hbmTop (s : State) : Nat := Config.hbmBytes - Config.pcBytes * s.frm.withdrawn
/-- Pseudo-channel number of a device address: 32 × stack + pseudo-channel (R396, R397). -/
def pcOf (a : Nat) : Nat := let j := a / 256 % 768; 32 * (j % 24) + j / 24
/-- Writes bytes to HBM; bytes at or above TOP have no HBM behind them (R397), and those of a pseudo-channel retired without redirection are discarded (R398). -/
def State.hbmWrite (s : State) (a : Nat) (bs : List Byte) : State :=
  let l := bs.take (s.hbmTop - a)
  if s.frm.unmapped.isEmpty then { s with hbm := memWrite s.hbm a l }
  else { s with hbm := memPutAll s.hbm ((l.zipIdx.map fun p => (a + p.2, p.1)).filter fun x => !s.frm.unmapped.contains (pcOf x.1)) }
/-- Whether an access of `n` bytes at `a` meets a stack that is re-training, and waits (R372). -/
def State.hbmWaits (s : State) (a n : Nat) : Bool :=
  s.hbmCtl.any (fun (x : Nat × HbmCtl) => x.2.retraining) && (upTo ((a % 256 + n + 255) / 256)).any fun i => (s.ctl (pcOf (a + 256 * i) / 32)).retraining
/-- Reads bytes of HBM. -/
def State.hbmRead (s : State) (a n : Nat) : List Byte := memRead s.hbm a n
/-- Little-endian value of bytes of HBM. -/
def State.hbmVal (s : State) (a n : Nat) : Nat := memVal s.hbm a n
/-- Clears bytes of HBM to 0. -/
def State.hbmClear (s : State) (a n : Nat) : State := { s with hbm := memClear s.hbm a n }

/-! ### Watermarks and notices (R454 to R462) -/

/-- An update of LEVEL: the new group and whether a notice is raised (R454, R455, R465). -/
def wmUpdate (w : Wm) (level : Nat) : Wm × Bool :=
  let l := satTo 0xFFFFFFFF level
  let cross := w.mark != 0 && decide (w.mark < l) && decide (w.level ≤ w.mark)
  ({ w with
      level := l, peak := if w.peak ≤ l then l else w.peak
      count := if cross then satTo 0xFFFF (w.count + 1) else w.count
      crossed := w.crossed || cross },
   cross && !w.crossed)

/-- A write of MARK (R455). -/
def wmSetMark (w : Wm) (mark : Nat) : Wm × Bool :=
  let cross := mark != 0 && decide (mark < w.level) && (decide (w.level ≤ w.mark) || w.mark == 0)
  ({ w with
      mark := mark
      count := if cross then satTo 0xFFFF (w.count + 1) else w.count
      crossed := w.crossed || cross },
   cross && !w.crossed)

/-- A write of 1 to CROSSED (R456). -/
def wmClear (w : Wm) : Wm × Bool :=
  let again := w.mark != 0 && decide (w.mark < w.level)
  ({ w with crossed := again, count := 0, peak := w.level }, again)

/-- Whether a client's traffic to host memory and its messages may proceed (R390, R376). -/
def State.canDma (s : State) (client : Nat) : Bool :=
  let f := (s.client client).func
  f.bme && !f.d3hot && tabGet false s.linkUp (portOf client)

/-- Sends an MSI-X message, or sets its pending bit where it is masked, or holds it (R223, R386, R390). -/
def State.msix (s : State) (client vector : Nat) : State :=
  let f := (s.client client).func
  if f.masked.contains vector || f.funcMask then
    s.modClient client fun c => { c with func := { c.func with pendingBits := insertUp vector c.func.pendingBits } }
  else if s.canDma client then s.emit (.msix client vector)
  else s.modClient client fun c => { c with func := { c.func with held := c.func.held ++ [.msix vector] } }

/-- Signals a vector-4 notice on every routed host port (R461). -/
def State.msix4 (s : State) : State :=
  s.each [0, 1, 2, 3] fun s p => s.when (bit s.ntc.route p) fun s => s.msix (32 * p) 4

/-- Writes an entry into the NTC log (R460). -/
def State.ntcWrite (s : State) (e : NtcEntry) : State :=
  { s with ntc := { s.ntc with log := tabPut s.ntc.log (s.ntc.head.toNat % 64) e, head := s.ntc.head + 1 } }

/-- Raises a notice: the log entry first, then the message; a follower also queues it for the lead (R460 to R462). `client` names a vector-3 notice. -/
def State.notice (s : State) (code index value : Nat) (client : Option Nat) : State :=
  let e : NtcEntry := { time := s.now, code := code, wafer := s.frm.waferId, forwarded := false, index := index, value := value }
  let s := s.ntcWrite e
  let s := match client with
    | some c => s.msix c 3
    | none => s.msix4
  if s.frm.role = 2 && s.ntc.fwd then { s with ntc := { s.ntc with toForward := s.ntc.toForward ++ [e] } } else s

/-- Queue fill of R458. -/
def Queue.fill (q : Queue) : Nat := (q.pc - q.ccount - q.skipped).toNat

/-- Updates a queue's watermark (R458). -/
def State.wmQueue (s : State) (n q : Nat) : State :=
  let c := s.client n
  let (w, raise) := wmUpdate (if q = 0 then c.wmQ0 else c.wmQ1) (c.queue q).fill
  let s := s.modClient n fun c => if q = 0 then { c with wmQ0 := w } else { c with wmQ1 := w }
  s.when raise fun s => s.notice 0x01 (2 * n + q) w.level (some n)

/-- Updates the Lot Table occupancy watermark (R458). -/
def State.wmLtOcc (s : State) : State :=
  let (w, raise) := wmUpdate s.wmLot s.ltOcc
  let s := { s with wmLot := w }
  s.when raise fun s => s.notice 0x03 0 w.level none

/-- Writes an entry to both copies in one step (R229), with the occupancy update where it enters or leaves FREE. -/
def State.setEntry (s : State) (i : Nat) (e : Entry) : State :=
  let old := s.entry i
  let s := { s with north := tabPut s.north i e, south := tabPut s.south i e }
  s.when ((old.state == .free) != (e.state == .free)) State.wmLtOcc

/-- Changes an entry (R229). -/
def State.modEntry (s : State) (i : Nat) (f : Entry → Entry) : State := s.setEntry i (f (s.entry i))

/-! ### Trace (R473) -/

/-- What a trace record holds beside TIME. -/
structure TraceRec where
  event : Nat
  client : Nat := 0
  q : Nat := 0
  flags : Nat := 0
  detail : Nat := 0
  tag : Nat := 0
  seq : Option Nat := none
  part : Nat := 0
  unit : Nat := 0
  value : Nat := 0
  deriving DecidableEq, Repr

/-- The 32 bytes of a trace record (R473). -/
def traceBytes (now : Nat) (t : TraceRec) : List Byte :=
  leBytes now 8 ++ leBytes t.event 1 ++ leBytes (t.client + 128 * t.q) 1 ++ leBytes t.flags 1 ++ leBytes t.detail 1
    ++ leBytes t.tag 4 ++ leBytes (match t.seq with | some i => 2 ^ 31 + i | none => 0) 4
    ++ leBytes t.part 1 ++ leBytes 0 1 ++ leBytes t.unit 2 ++ leBytes t.value 8

/-- Writes a trace record where tracing is on and, with STOP, the ring is not full (R473). -/
def State.trace1 (s : State) (t : TraceRec) : State :=
  let n := s.trace.size / 32
  if s.trace.en && !(s.trace.stop && decide (n ≤ s.trace.head.toNat)) then
    let s := s.hbmWrite (s.trace.base + 32 * (s.trace.head.toNat % n)) (traceBytes s.now t)
    { s with trace := { s.trace with head := s.trace.head + 1 } }
  else s

/-- Writes a MEMBER trace record where MEMBERS = 1 (R473). -/
def State.traceMember (s : State) (client q tag seq part outcome : Nat) : State :=
  s.when s.trace.members fun s => s.trace1 { event := 0x0B, client := client, q := q, detail := outcome, tag := tag, seq := some seq, part := part }

/-! ### Fault log (16_upsets_and_faults.md) -/

/-- Writes a fault log entry, counts it, and raises notice FAULT for PERMANENT and LOSS (R459). -/
def State.fltLog (s : State) (source result cls unit : Nat) (client : Option Nat) : State :=
  let e : FltEntry := { time := s.now, source := source, result := result, cls := cls, unit := unit, client := client }
  let s := s.modFlt fun f => { f with
    log := tabPut f.log (f.head.toNat % 64) e, head := f.head + 1
    upsets := if result = 1 || result = 2 then f.upsets + 1 else f.upsets
    permanent := if result = 2 then f.permanent + 1 else f.permanent
    losses := if result = 3 then f.losses + 1 else f.losses
    latent := if result = 4 then f.latent + 1 else f.latent
    upsetNow := if result = 1 then f.upsetNow + 1 else f.upsetNow }
  s.when (result == 2 || result == 3) fun s => s.notice 0x15 (s.flt.head.toNat % 2 ^ 16) 0 none

/-! ### Completion records and outcome entries (R217 to R223) -/

/-- The 32 bytes of a completion record (R217). -/
def recBytes (r : Rec) (phase : Bool) : List Byte :=
  leBytes r.tag.toNat 4 ++ leBytes (r.status + 128 * b2n phase) 1 ++ leBytes r.code 1
    ++ leBytes (if r.status = 1 || r.status = 2 then r.flags.toNat else 0) 1
    ++ leBytes (satTo 15 r.retries + 16 * satTo 15 r.kills) 1
    ++ leBytes r.start 8 ++ leBytes r.commit 8 ++ leBytes r.counts 8

/-- The 16 bytes of an outcome entry (R220). -/
def outBytes (e : OutE) (phase : Bool) : List Byte :=
  leBytes (e.seq + e.outcome * 2 ^ 21 + b2n phase * 2 ^ 31) 4 ++ leBytes e.detail 1
    ++ leBytes (if e.outcome = 1 || e.outcome = 2 then e.flags.toNat else 0) 1
    ++ leBytes e.step.toNat 2 ++ leBytes e.time 8

/-- Phase of the entry with ring count `k` in a ring of 2^l entries: 1 on the first pass (R217). -/
def phaseOf (k l : Nat) : Bool := k / 2 ^ l % 2 == 0

/-- Writes bytes of a ring, in host memory or in HBM (R209, R391). -/
def State.ringWrite (s : State) (client loc addr : Nat) (bs : List Byte) : State :=
  if loc = 0 then s.emit (.hostWrite client addr bs) else s.hbmWrite addr bs

/-- Sends a completion ring's message and clears its pending count (R223). -/
def State.ringSignal (s : State) (n q : Nat) : State :=
  (s.modQueue n q fun x => { x with pend := 0 }).msix n q

/-- Sends the outcome ring's message and clears its pending count (R223). -/
def State.outSignal (s : State) (n : Nat) : State :=
  (s.modClient n fun c => { c with out := { c.out with pend := 0 } }).msix n 2

/-- Every run of a client's units stops at its next long-word boundary (R273, R467). -/
def State.stopRuns (s : State) (n : Nat) : State :=
  let own := fun (r : TileRun) => (s.unit? r.unit).any fun u => u.client == n
  let stop := fun (t : Tile) => { t with run := t.run.map fun r => if own r then { r with stopped := true } else r }
  { s with tiles := s.tiles.map fun (x : Nat × Tile) => (x.1, stop x.2) }

/-- Whether an accepted descriptor is the one with ordinal `o` or a later stage of the chain it heads. -/
def ADesc.ofHead (d : ADesc) (o : Nat) : Bool := d.ordinal == o || d.state == .chained o

/-- The device writes a completion record (R217, R219, R223, R224, R211). -/
def State.recWrite (s : State) (n : Nat) (r : Rec) : State :=
  let x := s.queue n r.q
  let r := { r with start := if r.startW then s.now else r.start, commit := if r.commitW then s.now else r.commit }
  let s := s.ringWrite n x.cbaseLoc (x.cbase + 32 * (x.ccount.toNat % 2 ^ x.clog2)) (recBytes r (phaseOf x.ccount.toNat x.clog2))
  let gone := (x.accepted.filter fun d => d.ofHead r.ordinal).map ADesc.ordinal
  let rest := x.accepted.filter fun d => !d.ofHead r.ordinal
  let fail := r.status != 1 && r.status != 2
  let s := s.modQueue n r.q fun x => { x with
    ccount := x.ccount + 1
    accepted := rest
    tags := x.tags.map fun t => if gone.contains t.ordinal then { t with status := some r.status } else t
    oldest := if x.pend = 0 then s.now else x.oldest
    pend := x.pend + 1
    state := if x.closing && rest.isEmpty then .disabled
      else if r.halt && fail && x.state == .running then .stopped else x.state
    closing := x.closing && !rest.isEmpty }
  let s := s.wmQueue n r.q
  let s := s.when ((s.client n).dbg.stepDesc == some (r.q, r.ordinal)) fun s =>
    (s.modClient n fun c => { c with dbg := { c.dbg with stepDesc := none, breaking := true } }).stopRuns n
  let x := s.queue n r.q
  s.when (r.notify || decide ((if x.coalCount = 0 then 1 else x.coalCount) ≤ x.pend)) fun s => s.ringSignal n r.q

/-- Whether a held item goes before a record: another record of its queue, or an outcome entry of the LOT whose record it is (R219, R221, R395). -/
def Dma.before (d : Dma) (r : Rec) : Bool :=
  match d with
  | .record x => x.q == r.q
  | .outcome _ => r.lot
  | .msix _ => false

/-- An accepted descriptor has ended; only the write of its record is still to come (R395). -/
def Queue.ended (x : Queue) (ordinal : Nat) : Queue :=
  { x with accepted := x.accepted.map fun d => if d.ordinal = ordinal then { d with state := .done } else d }

/-- Writes a completion record, or holds it while the client's host traffic is held (R390, R395). -/
def State.putRec (s : State) (n : Nat) (r : Rec) : State :=
  if ((s.queue n r.q).cbaseLoc = 0 && !s.canDma n) || (s.client n).func.held.any (fun d => d.before r) then
    (s.modQueue n r.q fun x => x.ended r.ordinal).modClient n fun c => { c with func := { c.func with held := c.func.held ++ [.record r] } }
  else s.recWrite n r

/-- The device writes an outcome entry into a reserved slot (R220, R222, R223). -/
def State.outWrite (s : State) (n : Nat) (e : OutE) : State :=
  let o := (s.client n).out
  let s := s.ringWrite n o.loc (o.base + 16 * (o.count.toNat % 2 ^ o.log2)) (outBytes e (phaseOf o.count.toNat o.log2))
  let s := s.modClient n fun c => { c with out := { c.out with
    count := c.out.count + 1, reserved := c.out.reserved - 1
    oldest := if c.out.pend = 0 then s.now else c.out.oldest, pend := c.out.pend + 1 } }
  let o := (s.client n).out
  s.when (decide ((if o.coalCount = 0 then 1 else o.coalCount) ≤ o.pend)) fun s => s.outSignal n

/-- Where an outcome slot that is reserved now is reserved: the present enabling of the ring, or 0 where it is disabled (R222). -/
def OutRing.token (o : OutRing) : Nat := if o.enable then o.epoch else 0

/-- Whether a slot reserved in an enabling of the ring is still reserved (R222). -/
def OutRing.holds (o : OutRing) (ring : Nat) : Bool := o.enable && o.epoch == ring

/-- Writes an outcome entry, holds it (R390), or writes none where no slot is reserved for it (R222). -/
def State.putOut (s : State) (n : Nat) (e : OutE) : State :=
  let o := (s.client n).out
  if !o.holds e.ring then s
  else if o.loc = 0 && !s.canDma n then
    s.modClient n fun c => { c with func := { c.func with held := c.func.held ++ [.outcome e] } }
  else s.outWrite n e

/-- Slots of the outcome ring neither holding an unconsumed entry nor reserved (R216, R222). -/
def OutRing.free (o : OutRing) : Nat := 2 ^ o.log2 - (o.count - o.consumed).toNat - o.reserved

/-- Reserves outcome slots where the ring is enabled (R222). -/
def State.outReserve (s : State) (n k : Nat) : State :=
  s.modClient n fun c => if c.out.enable then { c with out := { c.out with reserved := c.out.reserved + k } } else c

/-- Releases outcome slots that were reserved in an enabling of the ring (R222, R275). -/
def State.outRelease (s : State) (n ring k : Nat) : State :=
  s.modClient n fun c => if c.out.holds ring then { c with out := { c.out with reserved := c.out.reserved - k } } else c

/-- Lets one held item proceed (R390). -/
def State.dmaGo (s : State) (n : Nat) (d : Dma) : State :=
  match d with
  | .record r => s.recWrite n r
  | .outcome e => if (s.client n).out.holds e.ring then s.outWrite n e else s
  | .msix v => s.msix n v

/-- Lets a client's held traffic proceed in its original order where it may (R390). -/
def State.dmaRelease (s : State) (n : Nat) : State :=
  if s.canDma n then
    let l := (s.client n).func.held
    (s.modClient n fun c => { c with func := { c.func with held := [] } }).each l fun s d => s.dmaGo n d
  else s

end Sys2Proof.Machine
end

