-- ==== Sys2Proof/Machine/Clock.lean ====
section
/-! DEFINITION. The tick of device time and the frame of a command's meaning (log 1, log 2). -/

namespace Sys2Proof.Machine

open Sys2Proof

/-- The meaning of a command that may change device time, power or one-time programmable bits: its effect on everything but the command queue. -/
def runAny (f : State → State) (s : State) : Host.Outcome State Fault Refusal := .next { f s with pending := s.pending }

/-- What the state `t` that a command makes of `s` keeps of `s`: the rest of the queue, the power-good level, device time, the wafer's serial, and the programmed ledger slots and fuses. Only the passing of time (`tick`) and the commands of `runAny` move them (R326, R339, R350, R368). -/
def State.keep (s t : State) : State :=
  { t with
    pending := s.pending, power := s.power, now := s.now
    frm := { t.frm with serial := s.frm.serial, ledger := s.frm.ledger }
    pwr := { t.pwr with fuses := s.pwr.fuses } }

/-- A command's meaning: its effect on everything but what `State.keep` names, while power-good is asserted. -/
def run (f : State → State) (s : State) : Host.Outcome State Fault Refusal := if !s.power then .next s else .next (s.keep (f s))

/-- Whether a tile has work that is demand (R343): a unit, placed members, a trap copy or a spill drain. -/
def Tile.hasWork (t : Tile) : Bool := t.run.isSome || !t.queue.isEmpty || t.trapFor.isSome || t.spill != .idle

/-- Whether work in progress on a domain is demand: units, traps and drains on its tiles, a switch or rebuild of a partition with strips in it, or a probation (R343). -/
def State.working? (s : State) (d : Nat) : Bool :=
  s.tiles.any (fun (x : Nat × Tile) => domOfTile x.1 == d && x.2.hasWork)
    || s.parts.any (fun (x : Nat × Part) => (x.2.rebuilding || (match x.2.switch with | some w => w.phase != .stopping | none => false))
        && (upTo 32).any fun i => x.2.strips.getLsbD (stripOfDom d i))
    || s.frm.probes.any fun (x : Nat × Probe) => x.2.state == 1 && x.2.cls == 0 && domOfStrip (x.2.unit / 17) == d

/-- One nanosecond passes (R339, R443; log 2): device time moves on, by one more or one less in 20,000 while a slew is applied (50 ppm), and clocked domains count. -/
def tick (s : State) : State :=
  if !s.power then s
  else
    let slewing := s.now % 20000 == 19999
    let up := slewing && decide (0 < s.stk.slew)
    let down := slewing && decide (s.stk.slew < 0)
    { s with
      now := s.now + (if up then 2 else if down then 0 else 1)
      stk := { s.stk with slew := s.stk.slew + (if up then -1 else if down then 1 else 0) }
      pwr := { s.pwr with doms := s.pwr.doms.map fun p => (p.1, { p.2 with
        ticks := p.2.ticks + p.2.rate s.pwr.pausing, quiet := if s.working? p.1 then s.now + 1 else p.2.quiet }) } }

end Sys2Proof.Machine
end

