-- ==== Sys2Proof/Machine/Flags.lean ====
section
/-! DEFINITION. Number formats, exact values, the input and output rules, rounding and the status flags (04_number_formats.md, 05_conversion_and_scales.md). -/

namespace Sys2Proof.Machine

open Sys2Proof

/-- The FLAGS field of R74. -/
abbrev Fl := BitVec 8

/-- NV, bit 0 of R74. -/
def fNV : Fl := 1
/-- DZ, bit 1 of R74. -/
def fDZ : Fl := 2
/-- OF, bit 2 of R74. -/
def fOF : Fl := 4
/-- UF, bit 3 of R74. -/
def fUF : Fl := 8
/-- NX, bit 4 of R74. -/
def fNX : Fl := 16
/-- SAT, bit 5 of R74. -/
def fSAT : Fl := 32
/-- FZ, bit 6 of R74. -/
def fFZ : Fl := 64

/-- `f` where `c` holds, else no flag. -/
def flagIf (c : Bool) (f : Fl) : Fl := if c then f else 0

/-- Width in bits of a format code (R58). -/
def fmtWidth (c : Nat) : Nat :=
  match c with
  | 0 => 32 | 1 => 16 | 2 => 16 | 3 => 8 | 4 => 8 | 5 => 4 | 6 => 8 | 7 => 32 | _ => 32

/-- I8 or I32 (R58). -/
def fmtIsInt (c : Nat) : Bool := c == 6 || c == 7
/-- F32 or F16 (R62). -/
def fmtIsStd (c : Nat) : Bool := c == 0 || c == 1
/-- W16, E4, E5 or E2 (R61). -/
def fmtIsHouse (c : Nat) : Bool := c == 2 || c == 3 || c == 4 || c == 5

/-- Fraction bits p of a floating format (R58, R62). -/
def fmtFrac (c : Nat) : Nat :=
  match c with
  | 0 => 23 | 1 => 10 | 2 => 7 | 3 => 3 | 4 => 2 | 5 => 1 | _ => 0

/-- Exponent bias b of a floating format (R58, R62). -/
def fmtBias (c : Nat) : Nat :=
  match c with
  | 0 => 127 | 1 => 15 | 2 => 127 | 3 => 7 | 4 => 15 | 5 => 1 | _ => 0

/-- Pattern of the largest finite value (tables of R61 and R62). -/
def fmtMaxPat (c : Nat) : Nat :=
  match c with
  | 0 => 0x7F7FFFFF | 1 => 0x7BFF | 2 => 0x7FFF | 3 => 0x7F | 4 => 0x7F | 5 => 0x7 | 6 => 0x7F | 7 => 0x7FFFFFFF | _ => 0

/-- Pattern of +infinity of F32 and F16 (R62). -/
def fmtInfPat (c : Nat) : Nat := if c = 0 then 0x7F800000 else 0x7C00

/-- The canonical NaN of a floating format (R67). -/
def fmtNanPat (c : Nat) : Nat :=
  match c with
  | 0 => 0x7FC00000 | 1 => 0x7E00 | 2 => 0x8000 | 3 => 0x80 | 4 => 0x80 | 5 => 0x8 | _ => 0

/-- Pattern with the sign bit of the format set where `neg`. -/
def withSign (c : Nat) (neg : Bool) (pat : Nat) : Nat := if neg then pat + 2 ^ (fmtWidth c - 1) else pat

/-- The exact value of an element. A finite value is (−1)^neg × m × 2^e. A NaN keeps its sign, whether it is signalling, and its payload as F32 fraction bits [21:0] (R69). -/
inductive Val where
  | nan (neg sig : Bool) (payload : Nat)
  | inf (neg : Bool)
  | num (neg : Bool) (m : Nat) (e : Int)
  deriving DecidableEq, Repr

/-- The canonical quiet NaN, sign bit 0 (R68). -/
def Val.cnan : Val := .nan false false 0

/-- Whether a value is a NaN. -/
def Val.isNan : Val → Bool
  | .nan _ _ _ => true
  | _ => false

/-- Whether a value is a signalling NaN (R62). -/
def Val.isSig : Val → Bool
  | .nan _ s _ => s
  | _ => false

/-- Whether a value is a zero of either sign. -/
def Val.isZero : Val → Bool
  | .num _ m _ => m == 0
  | _ => false

/-- Whether a value is an infinity. -/
def Val.isInf : Val → Bool
  | .inf _ => true
  | _ => false

/-- Sign of a value. -/
def Val.sign : Val → Bool
  | .nan n _ _ => n
  | .inf n => n
  | .num n _ _ => n

/-- −v. -/
def Val.neg : Val → Val
  | .nan n s p => .nan (!n) s p
  | .inf n => .inf (!n)
  | .num n m e => .num (!n) m e

/-- |v|. -/
def Val.abs : Val → Val
  | .nan _ s p => .nan false s p
  | .inf _ => .inf false
  | .num _ m e => .num false m e

/-- Two's-complement reading of the low `w` bits of `n` (R63). -/
def sint (w n : Nat) : Int :=
  let v := n % 2 ^ w
  if v < 2 ^ (w - 1) then (v : Int) else (v : Int) - (2 ^ w : Nat)

/-- Low `w` bits of an integer (R103). -/
def wrapInt (w : Nat) (i : Int) : Nat := (i % (2 ^ w : Nat)).toNat

/-- The value that a pattern encodes, exactly (R61 to R63). -/
def decodeVal (c pat : Nat) : Val :=
  let w := fmtWidth c
  let pat := pat % 2 ^ w
  if fmtIsInt c then
    let i := sint w pat
    .num (decide (i < 0)) i.natAbs 0
  else
    let p := fmtFrac c
    let b := fmtBias c
    let neg := bit pat (w - 1)
    let mag := pat % 2 ^ (w - 1)
    let ef := mag / 2 ^ p
    let f := mag % 2 ^ p
    if fmtIsStd c && ef == 2 ^ (w - 1 - p) - 1 then
      if f = 0 then .inf neg
      else .nan neg (!bit f (p - 1)) (if c = 0 then f % 2 ^ 22 else (f % 2 ^ 9) * 2 ^ 13)
    else if fmtIsHouse c && neg && mag == 0 then .cnan
    else if ef = 0 then .num neg f (1 - b - p : Int)
    else .num neg (2 ^ p + f) ((ef : Int) - b - p)

/-- Whether a pattern is an F32 or F16 subnormal. -/
def isSubnormal (c pat : Nat) : Bool :=
  fmtIsStd c &&
    (let mag := pat % 2 ^ (fmtWidth c - 1)
     mag != 0 && decide (mag < 2 ^ fmtFrac c))

/-- The value a slot reads: in fast mode under the input rules of R64, in strict mode as encoded; with the flags raised. -/
def readVal (strict : Bool) (c pat : Nat) : Val × Fl :=
  if strict then (decodeVal c pat, 0)
  else if isSubnormal c pat then (.num false 0 0, fFZ)
  else
    let v := decodeVal c pat
    if v.isZero then (.num false 0 0, 0) else (v, 0)

/-- Rounding modes of R80; `sr` carries the random word of R83. -/
inductive Rnd where
  | rne | rz | ru | rd | rna
  | sr (r : Nat)
  deriving DecidableEq, Repr

/-- The rounding mode of every slot but CVT: SR acts as RNE (R81, R99). -/
def rndOf (code : Nat) : Rnd :=
  match code with
  | 1 => .rz | 3 => .ru | 4 => .rd | 5 => .rna | _ => .rne

/-- Rounds m × 2^e to a multiple k × 2^q: the k and whether it differs. `far` keeps very small remainders from being written out. -/
def roundTo (md : Rnd) (neg : Bool) (m : Nat) (e q : Int) : Nat × Bool :=
  if m = 0 then (0, false)
  else if q ≤ e then (m * 2 ^ (e - q).toNat, false)
  else
    let d := (q - e).toNat
    let far := decide (Nat.log2 m + 40 < d)
    let k := if far then 0 else m / 2 ^ d
    let r := if far then 1 else m % 2 ^ d
    let h := if far then 4 else 2 ^ d
    let up := match md with
      | .rne => decide (2 * r > h) || (decide (2 * r = h) && k % 2 == 1)
      | .rz => false
      | .ru => !neg && r != 0
      | .rd => neg && r != 0
      | .rna => decide (2 * r ≥ h)
      | .sr x => decide ((if far then 0 else r * 2 ^ 32 / h) + x ≥ 2 ^ 32)
    (k + b2n up, r != 0)

/-- ⌊log2 (m × 2^e)⌋ for m > 0. -/
def expOf (m : Nat) (e : Int) : Int := (Nat.log2 m : Int) + e

/-- The overflow result of a floating format under a mode: pattern and flags (R84). A house format in strict mode raises OF alone, also in a PAL slot (DESIGN CHOICE, log 120). -/
def overflowPat (strict : Bool) (md : Rnd) (c : Nat) (neg : Bool) : Nat × Fl :=
  if fmtIsHouse c then
    if strict then (fmtNanPat c, fOF) else (withSign c neg (fmtMaxPat c), fSAT)
  else
    let toMax := match md with
      | .rz => true
      | .ru => neg
      | .rd => !neg
      | _ => false
    (withSign c neg (if toMax then fmtMaxPat c else fmtInfPat c), fOF ||| flagIf strict fNX)

/-- A finite nonzero value in a floating format: R78 steps 4 and 5, R84, R64 to R66. -/
def putNum (strict : Bool) (md : Rnd) (c : Nat) (neg : Bool) (m : Nat) (e : Int) : Nat × Fl :=
  let p := fmtFrac c
  let ex := expOf m e
  let qmin : Int := 1 - fmtBias c - p
  if ex > 400 then overflowPat strict md c neg
  else
    -- rounded with an unbounded exponent
    let qu : Int := ex - p
    let ku := (roundTo md neg m e qu).1
    let tiny := decide (expOf ku qu < 1 - fmtBias c)
    if !strict && fmtIsStd c && tiny then (0, fFZ)
    else
      let q := if qu < qmin then qmin else qu
      let (k, inexact) := roundTo md neg m e q
      let pat := if k = 0 then 0 else (q - qmin).toNat * 2 ^ p + k
      if pat > fmtMaxPat c then overflowPat strict md c neg
      else
        let fl := if strict then flagIf inexact fNX ||| flagIf (tiny && inexact) fUF else 0
        if pat = 0 then (if fmtIsStd c && strict then withSign c neg 0 else 0, fl)
        else (withSign c neg pat, fl)

/-- A finite value in an integer format (R84). −128 and −2^31 are in range (R63; log 8). -/
def putInt (strict : Bool) (md : Rnd) (c : Nat) (neg : Bool) (m : Nat) (e : Int) : Nat × Fl :=
  let w := fmtWidth c
  if m ≠ 0 ∧ expOf m e > 64 then (if neg then 2 ^ (w - 1) else fmtMaxPat c, fNV)
  else
    let (k, inexact) := roundTo md neg m e 0
    let lim := if neg then 2 ^ (w - 1) else fmtMaxPat c
    if k > lim then (lim, fNV)
    else (wrapInt w (if neg then -(k : Int) else k), flagIf (strict && inexact) fNX)

/-- The pattern of a NaN in a format, by R67 to R69. -/
def putNan (strict : Bool) (c : Nat) (neg : Bool) (payload : Nat) : Nat :=
  if fmtIsInt c then 0
  else if fmtIsHouse c || !strict then fmtNanPat c
  else if c = 0 then withSign 0 neg (0x7FC00000 + payload % 2 ^ 22)
  else withSign 1 neg (0x7E00 + bits payload 21 13)

/-- Rounds a value once into a format and gives its pattern and the flags (R78 steps 4 and 5; R99). -/
def putVal (strict : Bool) (md : Rnd) (c : Nat) (v : Val) : Nat × Fl :=
  match v with
  | .nan neg sig payload =>
    (putNan strict c neg payload, if strict && !fmtIsInt c then flagIf sig fNV else fNV)
  | .inf neg =>
    if fmtIsInt c then (if neg then 2 ^ (fmtWidth c - 1) else fmtMaxPat c, fNV)
    else if fmtIsHouse c then
      if strict then (fmtNanPat c, fOF) else (withSign c neg (fmtMaxPat c), fSAT)
    else (withSign c neg (fmtInfPat c), 0)
  | .num neg m e =>
    if fmtIsInt c then putInt strict md c neg m e
    else if m = 0 then (if strict && fmtIsStd c then withSign c neg 0 else 0, 0)
    else putNum strict md c neg m e

/-- Exact product of two values; 0 × inf and NaN give NaN. -/
def mulVal (a b : Val) : Val :=
  match a, b with
  | .num na ma ea, .num nb mb eb => .num (xor na nb) (ma * mb) (ea + eb)
  | .inf na, .inf nb => .inf (xor na nb)
  | .inf na, .num nb mb _ => if mb = 0 then .cnan else .inf (xor na nb)
  | .num na ma _, .inf nb => if ma = 0 then .cnan else .inf (xor na nb)
  | .nan n s p, _ => .nan n s p
  | _, .nan n s p => .nan n s p

/-- Exact sum; an exact zero of operands of unlike signs is −0 only where `rd` (IEEE 754-2019); inf − inf is NaN. -/
def addVal (rd : Bool) (a b : Val) : Val :=
  match a, b with
  | .num na ma ea, .num nb mb eb =>
    if ma = 0 then
      if mb = 0 then .num (if na = nb then na else rd) 0 0 else .num nb mb eb
    else if mb = 0 then .num na ma ea
    else
      let e := if ea ≤ eb then ea else eb
      let x : Int := (ma * 2 ^ (ea - e).toNat : Nat)
      let y : Int := (mb * 2 ^ (eb - e).toNat : Nat)
      let s := (if na then -x else x) + (if nb then -y else y)
      if s = 0 then .num rd 0 0 else .num (decide (s < 0)) s.natAbs e
  | .inf na, .inf nb => if na = nb then .inf na else .cnan
  | .inf na, .num _ _ _ => .inf na
  | .num _ _ _, .inf nb => .inf nb
  | .nan n s p, _ => .nan n s p
  | _, .nan n s p => .nan n s p

/-- Whether finite or infinite `a` is below `b` (exact values, −0 equal to +0). -/
def ltVal (a b : Val) : Bool :=
  match a, b with
  | .inf na, .inf nb => na && !nb
  | .inf na, .num _ _ _ => na
  | .num _ _ _, .inf nb => !nb
  | .num na ma ea, .num nb mb eb =>
    let e := if ea ≤ eb then ea else eb
    let x : Int := (ma * 2 ^ (ea - e).toNat : Nat)
    let y : Int := (mb * 2 ^ (eb - e).toNat : Nat)
    decide ((if na then -x else x) < (if nb then -y else y))
  | _, _ => false

/-- Whether two values that are not NaN are equal (−0 equal to +0). -/
def eqVal (a b : Val) : Bool := !a.isNan && !b.isNan && !ltVal a b && !ltVal b a

/-- An integer that orders values by the total order of R70: NaN greatest, −0 equal to +0. -/
def orderKey (v : Val) : Int :=
  match v with
  | .nan _ _ _ => (2 ^ 400 : Nat)
  | .inf n => if n then -((2 ^ 399 : Nat) : Int) else (2 ^ 399 : Nat)
  | .num n m e => let k : Int := (m * 2 ^ (e + 160).toNat : Nat); if n then -k else k

/-- Integer square root of `n`: tries the bits below `i` of the root, the highest first, on top of `r`. -/
def isqrt (n : Nat) : Nat → Nat → Nat
  | 0, r => r
  | i + 1, r => isqrt n i (if (r + 2 ^ i) * (r + 2 ^ i) ≤ n then r + 2 ^ i else r)

/-- The exact square root of m × 2^e rounded to odd with at least 40 bits (for one later rounding). -/
def sqrtOdd (m : Nat) (e : Int) : Nat × Int :=
  let sh : Nat := 100 + ((e + 100) % 2).toNat
  let m' := m * 2 ^ sh
  let r := isqrt m' (Nat.log2 m' / 2 + 1) 0
  (2 * r + b2n (r * r != m'), (e - sh) / 2 - 1)

/-- The exact quotient of two finite magnitudes rounded to odd with at least 40 bits (for one later rounding). -/
def divOdd (ma : Nat) (ea : Int) (mb : Nat) (eb : Int) : Nat × Int :=
  let n := ma * 2 ^ 80
  (2 * (n / mb) + b2n (n % mb != 0), ea - eb - 81)

/-- The first NaN of a list of operands in operand order, quieted (R68). -/
def firstNan : List Val → Val
  | [] => .cnan
  | .nan n _ p :: _ => .nan n false p
  | _ :: r => firstNan r

/-- Whether some operand is NaN. -/
def anyNan (l : List Val) : Bool := l.any Val.isNan
/-- Whether some operand is a signalling NaN. -/
def anySig (l : List Val) : Bool := l.any Val.isSig

/-- Reads an F32 constant exactly, in both modes (scales, palette constants: R85, R120). -/
def f32Val (pat : Nat) : Val := decodeVal 0 pat

/-- Rounds a value RNE to F32, keeping subnormals (scale factors and AMAX: R86, R90). -/
def toF32 (v : Val) : Nat := (putVal true .rne 0 v).1

/-- Whether an F32 pattern is finite. -/
def f32Finite (pat : Nat) : Bool := bits pat 30 23 != 255

end Sys2Proof.Machine
end

