-- ==== Sys2Proof/Machine/Operands.lean ====
section
/-! DEFINITION. Operand forms: descriptor fields, tensor handles and records, shares, count words, vector-register layout (10_descriptors.md, R19, R60, R143, R159). -/

namespace Sys2Proof.Machine

open Sys2Proof

/-! ### Descriptor fields (R183) -/

/-- Bits `hi` to `lo` of a descriptor. -/
def dBits (d : BitVec 512) (hi lo : Nat) : Nat := bits d.toNat hi lo
/-- TAG. -/
def dTag (d : BitVec 512) : W32 := BitVec.ofNat 32 (dBits d 31 0)
/-- KIND. -/
def dKind (d : BitVec 512) : Nat := dBits d 35 32
/-- NOTIFY. -/
def dNotify (d : BitVec 512) : Bool := bit d.toNat 36
/-- HALT_ON_FAULT. -/
def dHalt (d : BitVec 512) : Bool := bit d.toNat 37
/-- CHAIN. -/
def dChain (d : BitVec 512) : Bool := bit d.toNat 38
/-- MODE bit 0, STRICT. -/
def dStrict (d : BitVec 512) : Bool := bit d.toNat 40
/-- PASSES. -/
def dPasses (d : BitVec 512) : Nat := dBits d 42 41
/-- SCALE mode. -/
def dScale (d : BitVec 512) : Nat := dBits d 44 43
/-- AMAX. -/
def dAmax (d : BitVec 512) : Bool := bit d.toNat 45
/-- PAIRED. -/
def dPaired (d : BitVec 512) : Bool := bit d.toNat 46
/-- BREAK. -/
def dBreak (d : BitVec 512) : Bool := bit d.toNat 47
/-- TABLE_LEN. -/
def dTableLen (d : BitVec 512) : Nat := dBits d 63 48
/-- TABLE_ADDR [47:0]. -/
def dTableAddr (d : BitVec 512) : Nat := dBits d 111 64
/-- Handle word A, B, C or D. -/
def dHandle (d : BitVec 512) (i : Nat) : Nat := dBits d (128 + 32 * i + 31) (128 + 32 * i)
/-- DEP0 to DEP2. -/
def dDep (d : BitVec 512) (k : Nat) : Nat := dBits d (256 + 32 * k + 31) (256 + 32 * k)
/-- ORDERED. -/
def dOrdered (d : BitVec 512) : Bool := bit d.toNat 352
/-- XQ bit of DEPk. -/
def dXq (d : BitVec 512) (k : Nat) : Bool := bit d.toNat (353 + k)
/-- ROUND. -/
def dRound (d : BitVec 512) : Nat := dBits d 362 360
/-- PARAM. -/
def dParam (d : BitVec 512) : Nat := dBits d 447 384
/-- DEADLINE. -/
def dDeadline (d : BitVec 512) : Nat := dBits d 511 448

/-- KIND values of R184. -/
abbrev kOP : Nat := 1
/-- MOVE. -/
abbrev kMOVE : Nat := 2
/-- LOT. -/
abbrev kLOT : Nat := 3
/-- SEQ. -/
abbrev kSEQ : Nat := 4
/-- PALETTE. -/
abbrev kPALETTE : Nat := 5
/-- TABLE. -/
abbrev kTABLE : Nat := 6
/-- FENCE. -/
abbrev kFENCE : Nat := 7
/-- MARK. -/
abbrev kMARK : Nat := 8
/-- RECORD. -/
abbrev kRECORD : Nat := 9
/-- HANDOFF. -/
abbrev kHANDOFF : Nat := 10

/-- The first handle words that a kind uses, by position (usage table of R185). -/
def kindHandles (k : Nat) : List Nat :=
  match k with
  | 1 => [0, 1, 2, 3] | 3 => [0, 1, 2, 3] | 2 => [0, 1] | 5 => [0] | 6 => [0] | 9 => [0] | 10 => [0, 1, 3] | _ => []

/-- Whether a reserved or unused field is nonzero (fault UNUSED: R185, R188, R195 and the PARAM layouts). -/
def dUnused (d : BitVec 512) : Bool :=
  let k := dKind d
  let p := dParam d
  let table := k == kOP || k == kLOT || k == kRECORD
  let runs := k == kOP || k == kLOT
  -- fields common to all kinds
  bit d.toNat 39 || dBits d 127 112 != 0 || dBits d 359 356 != 0 || dBits d 367 363 != 0 || dBits d 383 368 != 0
    || [0, 1, 2].any (fun i => dXq d i && dDep d i == 0)
    || (!table && (dTableAddr d != 0 || dTableLen d != 0))
    || (!runs && (dBits d 46 40 != 0 || dRound d != 0))
    || [0, 1, 2, 3].any (fun i => !(kindHandles k).contains i && dHandle d i != 0)
    || (kindHandles k).any (fun i => bits (dHandle d i) 31 25 != 0)
    || (k == kLOT && dDeadline d != 0)
    || (match k with
        | 2 => bits p 30 21 != 0 || bits p 63 32 != 0 || (!bit p 31 && bits p 20 0 != 0)
        | 4 => bits p 7 4 != 0 || bits p 31 29 != 0
        | 5 => p != 0
        | 6 => bits p 63 1 != 0
        | 7 => bits p 63 1 != 0
        | 9 => p != 0
        | 10 => bits p 15 8 != 0
        | _ => false)

/-- Descriptor fault codes of R206. -/
abbrev cKIND : Nat := 0x01
/-- UNUSED. -/
abbrev cUNUSED : Nat := 0x02
/-- TAG. -/
abbrev cTAG : Nat := 0x03
/-- SELF_DEP. -/
abbrev cSELF_DEP : Nat := 0x04
/-- DEP_TIMEOUT. -/
abbrev cDEP_TIMEOUT : Nat := 0x05
/-- DEP_FAILED. -/
abbrev cDEP_FAILED : Nat := 0x06
/-- STALE. -/
abbrev cSTALE : Nat := 0x07
/-- READONLY. -/
abbrev cREADONLY : Nat := 0x08
/-- RECORD. -/
abbrev cRECORD : Nat := 0x09
/-- DENSE. -/
abbrev cDENSE : Nat := 0x0A
/-- SHARE. -/
abbrev cSHARE : Nat := 0x0B
/-- BOUNDS. -/
abbrev cBOUNDS : Nat := 0x0C
/-- UNWRITTEN. -/
abbrev cUNWRITTEN : Nat := 0x0D
/-- ROUND. -/
abbrev cROUND : Nat := 0x0E
/-- TABLE. -/
abbrev cTABLE : Nat := 0x0F
/-- DECODE. -/
abbrev cDECODE : Nat := 0x10
/-- ACCESS. -/
abbrev cACCESS : Nat := 0x11
/-- WRITE_CLASH. -/
abbrev cWRITE_CLASH : Nat := 0x12
/-- OPERAND. -/
abbrev cOPERAND : Nat := 0x13
/-- ACCUMULATOR. -/
abbrev cACCUMULATOR : Nat := 0x14
/-- SCALE. -/
abbrev cSCALE : Nat := 0x15
/-- SYNC_TIMEOUT. -/
abbrev cSYNC_TIMEOUT : Nat := 0x16
/-- PALETTE. -/
abbrev cPALETTE : Nat := 0x17
/-- BANK. -/
abbrev cBANK : Nat := 0x18
/-- SEQ. -/
abbrev cSEQ : Nat := 0x19
/-- MOVE. -/
abbrev cMOVE : Nat := 0x1A
/-- CHAIN. -/
abbrev cCHAIN : Nat := 0x1B
/-- PARTNER. -/
abbrev cPARTNER : Nat := 0x1C
/-- PAIRED. -/
abbrev cPAIRED : Nat := 0x1D
/-- NO_HANDLE. -/
abbrev cNO_HANDLE : Nat := 0x1E
/-- COUNT. -/
abbrev cCOUNT : Nat := 0x1F

/-- One code where a condition holds. -/
def codeIf (b : Bool) (c : Nat) : List Nat := if b then [c] else []

/-! ### Tensor records (R196 to R198) -/

/-- A tensor record as its 64 bytes give it. -/
structure TRec where
  cls : Nat
  dist : Nat
  fmt : Nat
  rank : Nat
  gen : Nat
  scale : Nat
  base : Nat
  dims : List Nat
  strides : List Nat
  rslot : Nat
  reserved : Bool
  deriving DecidableEq, Repr

/-- Reads a record from the little-endian value of its 64 bytes (R196). -/
def parseRec (v : Nat) : TRec :=
  { cls := bits v 2 0, dist := bits v 4 3, fmt := bits v 11 8, rank := bits v 14 12, gen := bits v 23 16
    scale := bits v 63 32, base := bits v 127 64
    dims := (upTo 5).map fun i => bits v (128 + 32 * i + 31) (128 + 32 * i)
    strides := (upTo 4).map fun i => bits v (288 + 32 * i + 31) (288 + 32 * i)
    rslot := bits v 425 416
    reserved := bits v 7 5 != 0 || bit v 15 || bits v 31 24 != 0 || bits v 431 426 != 0 || bits v 511 432 != 0 }

/-- Product of the first `k` sizes. -/
def dimProd (dims : List Nat) (k : Nat) : Nat := (dims.take k).foldl (· * ·) 1
/-- Packed byte size of `n` elements of width `w` (R197). -/
def packedBytes (w n : Nat) : Nat := (n * w + 7) / 8
/-- Elements of the tensor. -/
def TRec.elems (r : TRec) : Nat := dimProd r.dims r.rank
/-- Packed bytes of the tensor. -/
def TRec.bytes (r : TRec) : Nat := packedBytes (fmtWidth r.fmt) r.elems

/-- Whether BASE and DIST fit the class (R198). -/
def TRec.baseOk (r : TRec) : Bool :=
  match r.cls with
  | 0 => r.base == 0
  | 1 => r.base % 256 == 0
  | 2 => bits r.base 51 16 == 0 && bits r.base 63 56 == 0
  | 3 => bits r.base 63 56 == 0
  | 4 => r.base % 256 == 0 && r.dist == 0
  | _ => false

/-- Validity (R197, R198). -/
def TRec.valid (r : TRec) : Bool :=
  decide (1 ≤ r.rank) && decide (r.rank ≤ 5)
    && (r.dims.take r.rank).all (fun d => d != 0) && (r.dims.drop r.rank).all (fun d => d == 0)
    && (r.strides.drop (r.rank - 1)).all (fun d => d == 0)
    && decide (r.fmt ≤ 7) && decide (r.cls ≤ 4) && decide (r.dist ≤ 1) && !r.reserved && r.baseOk

/-- Density (R197). -/
def TRec.dense (r : TRec) : Bool :=
  (upTo (r.rank - 1)).all fun k => nth r.strides k == packedBytes (fmtWidth r.fmt) (dimProd r.dims (k + 1))

/-- Record `i` of a client, from HBM (R403). -/
def State.trec (s : State) (client i : Nat) : TRec := parseRec (s.hbmVal ((s.client client).areas.recs + 64 * i) 64)

/-- A record as a unit holds it, with the range-slot values sampled (R85, R92, R93). -/
def State.handleOf (s : State) (client i : Nat) (ro : Bool) (r : TRec) : Handle :=
  let sl := (s.client client).rslot r.rslot
  { index := i, gen := r.gen, readonly := ro, cls := r.cls, dist := r.dist, fmt := r.fmt, rank := r.rank
    dims := r.dims, strides := r.strides, base := r.base, rslot := r.rslot
    scale := if sl.bind then sl.scale else BitVec.ofNat 32 r.scale
    bound := sl.bind, margin := sl.margin, amax := sl.amax }

/-- A record in one generation of it: the name of its windows (R199, R208). -/
def recKey (index gen : Nat) : Nat := index + 2 ^ 16 * (gen + 1)
/-- The name of the windows of a handle's record. -/
def Handle.key (h : Handle) : Nat := recKey h.index h.gen

/-- Elements of a handle's tensor. -/
def Handle.elems (h : Handle) : Nat := dimProd h.dims h.rank
/-- Width of a handle's format. -/
def Handle.width (h : Handle) : Nat := fmtWidth h.fmt
/-- Packed bytes of a handle's tensor. -/
def Handle.bytes (h : Handle) : Nat := packedBytes h.width h.elems
/-- B of R200: 256-byte blocks. -/
def Handle.blocks (h : Handle) : Nat := (h.bytes + 255) / 256
/-- Elements of one 256-byte block. -/
def Handle.perBlock (h : Handle) : Nat := 2048 / h.width

/-- A tile's share: first block of the tensor and number of blocks (R143, R200). `k` of `t` working tiles. -/
def Handle.share (h : Handle) (k t : Nat) : Nat × Nat :=
  if h.cls = 4 || h.dist = 1 then (0, h.blocks)
  else (k * h.blocks / t, (k + 1) * h.blocks / t - k * h.blocks / t)

/-- b of R143 for a share. -/
def Handle.first (h : Handle) (k t : Nat) : Nat := (h.share k t).1 * h.perBlock

/-- The working tile, by its index k, whose SPLIT share holds logical element `j`. -/
def Handle.holder (h : Handle) (t j : Nat) : Option Nat :=
  (upTo t).find? fun k =>
    let (f, n) := h.share k t
    decide (f ≤ j / h.perBlock) && decide (j / h.perBlock < f + n)

/-- Windows of 64 KiB that a share needs (R199). -/
def Handle.windows (h : Handle) (k t : Nat) : Nat := ((h.share k t).2 + 255) / 256

/-- Whether a handle's blocks are reached by address: HBM, or REMOTE_HBM. -/
def Handle.isHbm (h : Handle) : Bool := h.cls == 1 || h.cls == 3
/-- Wafer of a remote class (R198). -/
def Handle.wafer (h : Handle) : Nat := bits h.base 55 52
/-- Device address or remote offset of element 0 of an HBM class (R198). -/
def Handle.addr (h : Handle) : Nat := if h.cls = 1 then h.base else bits h.base 51 0
/-- Record index by which a VAT class finds its windows: its own, or BASE [15:0] of REMOTE_VAT (R198). -/
def Handle.vatIndex (h : Handle) : Nat := if h.cls = 2 then bits h.base 15 0 else h.index
/-- Whether the handle is served by vats of this wafer `w`. -/
def Handle.localVat (h : Handle) (w : Nat) : Bool := h.cls == 0 || (h.cls == 2 && h.wafer == w)

/-! ### Count words (R159) -/

/-- A count word: its value, or the fault it raises. `blocks` gives the share's blocks of a present handle. -/
def countWord (w : Nat) (member : Option (Nat × Nat)) (blocks : Nat → Option Nat) : Except Nat Nat :=
  if w / 2 ^ 14 < 2 then .ok (bits w 14 0)
  else if w / 2 ^ 14 = 2 then
    if bits w 13 6 ≠ 0 then .error cCOUNT
    else match blocks (bits w 1 0) with
      | none => .error cNO_HANDLE
      | some b => let d := 2 ^ bits w 5 2; .ok ((b + d - 1) / d)
  else
    match member with
    | none => .error cCOUNT
    | some (m0, m1) => if bits w 13 1 ≠ 0 then .error cCOUNT else .ok (if bit w 0 then m1 else m0)

/-! ### Vector-register layout (R19, R60) -/

/-- Bit position of element `e` at width `w` in a vector register: lane e mod 64 (R19). -/
def elemPos (w e : Nat) : Nat := 32 * (e % 64) + w * (e / 64)

/-- Element `e` at width `w` of a register. -/
def vElem (v : BitVec 2048) (w e : Nat) : Nat := v.toNat / 2 ^ elemPos w e % 2 ^ w

/-- The bits of element `e` at width `w`, all ones. -/
def elemMask (w e : Nat) : Nat := (2 ^ w - 1) * 2 ^ elemPos w e

/-- Places (element, pattern) pairs: the selecting mask and the bits. -/
def placeElems (w : Nat) (l : List (Nat × Nat)) : BitVec 2048 × BitVec 2048 :=
  (BitVec.ofNat 2048 (l.foldl (fun a p => Nat.lor a (elemMask w p.1)) 0),
   BitVec.ofNat 2048 (l.foldl (fun a p => Nat.lor (a &&& Nat.xor (2 ^ 2048 - 1) (elemMask w p.1)) (p.2 % 2 ^ w * 2 ^ elemPos w p.1)) 0))

/-- A register loaded from packed bytes at width `w`; elements beyond the bytes read +0 (R146). -/
def vLoad (w : Nat) (bs : List Byte) : BitVec 2048 :=
  let v := leVal bs
  BitVec.ofNat 2048 ((upTo (bs.length * 8 / w)).foldl (fun a e => a + v / 2 ^ (w * e) % 2 ^ w * 2 ^ elemPos w e) 0)

/-- The first `n` packed bytes of a register at width `w` (R146). -/
def vStore (w n : Nat) (v : BitVec 2048) : List Byte :=
  leBytes ((upTo (n * 8 / w)).foldl (fun a e => a + vElem v w e * 2 ^ (w * e)) 0) n

end Sys2Proof.Machine
end

