-- ==== Sys2Proof/Machine/Transact.lean ====
section
/-! DEFINITION. Tranyx transactions: their bytes, their VC, routing and sending (R419, R432 to R440). -/

namespace Sys2Proof.Machine

open Sys2Proof

/-- TYPE values of R435. -/
abbrev tRD : Nat := 1
/-- WR (R435). -/
abbrev tWR : Nat := 2
/-- WRP (R435). -/
abbrev tWRP : Nat := 3
/-- DESC_FWD (R435). -/
abbrev tDESC : Nat := 4
/-- HANDOFF (R435). -/
abbrev tHANDOFF : Nat := 5
/-- HANDBACK (R435). -/
abbrev tHANDBACK : Nat := 6
/-- LOT_SYNC (R435). -/
abbrev tLOT : Nat := 7
/-- TIME (R435). -/
abbrev tTIME : Nat := 8
/-- NOTICE (R435). -/
abbrev tNOTICE : Nat := 9
/-- ID (R435). -/
abbrev tID : Nat := 10

/-- Virtual channel of a transaction (the transaction types table of R435; LOT_SYNC responses stay on VC 2). -/
def transVc (t : Trans) : Nat :=
  match t.typ with
  | 1 | 2 => if t.resp then 1 else 0
  | 3 | 5 => 0
  | 4 => if t.resp then 1 else 2
  | 6 => 1
  | 7 => 2
  | _ => 3

/-- The bytes of a transaction: header, then data (R435). LEN is the length of the data, but for an RD request, which carries none. -/
def transBytes (t : Trans) : List Byte :=
  leBytes t.typ 1 ++ leBytes t.src 1 ++ leBytes t.dst 1 ++ leBytes (b2n t.resp) 1 ++ leBytes t.tid.toNat 4 ++ leBytes t.addr.toNat 8
    ++ leBytes t.len 4 ++ leBytes t.client 1 ++ leBytes t.status 1 ++ leBytes 0 2 ++ leBytes t.arg.toNat 8 ++ t.data

/-- Reads a transaction from its bytes; none where a reserved field is nonzero, the type is reserved, or the data has the wrong length (R418, R435). -/
def parseTrans (bs : List Byte) : Option Trans :=
  let f := fun o n => leVal ((bs.drop o).take n)
  let t : Trans := { typ := f 0 1, src := f 1 1, dst := f 2 1, resp := bit (f 3 1) 0, tid := BitVec.ofNat 32 (f 4 4), addr := BitVec.ofNat 64 (f 8 8)
                     len := f 16 4, client := f 20 1, status := f 21 1, arg := BitVec.ofNat 64 (f 24 8), data := bs.drop 32 }
  let want := if t.typ = tRD ∧ !t.resp then 0 else t.len
  if decide (1 ≤ t.typ) && decide (t.typ ≤ 10) && decide (f 3 1 < 2) && decide (t.client < 128) && f 22 2 == 0 && t.data.length == want then some t else none

/-- Cuts bytes into pieces of at most 240 (R419), `n` pieces at most. -/
def chunkBytes : Nat → List Byte → List (List Byte)
  | 0, _ => []
  | n + 1, bs => if bs.length ≤ 240 then [bs] else bs.take 240 :: chunkBytes n (bs.drop 240)

/-- The flit payloads of a transaction, with SOT and EOT (R419). -/
def transChunks (t : Trans) : List Chunk :=
  let l := chunkBytes ((transBytes t).length / 240 + 1) (transBytes t)
  l.zipIdx.map fun p => { len := p.1.length, sot := p.2 == 0, eot := p.2 + 1 == l.length, payload := p.1 }

/-- Whether a Tranyx port is up: ACTIVE, or in a recovery, in which flits wait (R415). -/
def State.portUp (s : State) (p : Nat) : Bool := (s.port p).state == .active || (s.port p).keeping

/-- The port by which a transaction for an endpoint leaves: the primary, or the alternate where the primary is down (R440). -/
def State.route (s : State) (dst : Nat) : Option Nat :=
  match s.frm.stack.routes.find? fun r => r.dst == dst with
  | none => none
  | some r =>
    if s.portUp r.primary then some r.primary
    else match r.alternate with
      | some a => if s.portUp a then some a else none
      | none => none

/-- Queues a transaction on a port's VC (R419). -/
def State.sendOn (s : State) (port : Nat) (t : Trans) : State :=
  s.modPort port fun p => { p with vcQ := p.vcQ.set (transVc t) ((p.vcQ.getD (transVc t) []) ++ transChunks t) }

/-- Sends a transaction of commit unit `uid` (0: of none); it waits while it has no route (R440). -/
def State.sendFor (s : State) (uid : Nat) (t : Trans) : State :=
  match s.route t.dst with
  | some p => s.sendOn p t
  | none => s.modStk fun k => { k with unsent := k.unsent ++ [(s.now, uid, t)] }

/-- Sends a transaction that belongs to no commit unit. -/
def State.send (s : State) (t : Trans) : State := s.sendFor 0 { t with src := s.frm.waferId }

/-- Marks the first send of a unit's HANDOFF, from which its timeout runs (R451). -/
def State.handoffLeft (s : State) (uid : Nat) (t : Trans) : State :=
  if t.typ = tHANDOFF then s.modUnit uid fun u => { u with
    handoff := u.handoff.map fun h => if h.firstSend = 0 then { h with firstSend := s.now } else h } else s

/-- Sends what waited for a route and has one now (R440). -/
def State.flushUnsent (s : State) : State :=
  let l := s.stk.unsent
  (s.modStk fun k => { k with unsent := [] }).each l fun s x =>
    match s.route x.2.2.dst with
    | some p => ((s.handoffLeft x.2.1 x.2.2).sendOn p x.2.2).modStk fun k => { k with requests := k.requests.map fun r =>
        if r.1 = x.2.2.tid.toNat ∧ r.2.2.1 = x.2.1 ∧ x.2.1 ≠ 0 then (r.1, r.2.1, r.2.2.1, some p) else r }
    | none => s.modStk fun k => { k with unsent := k.unsent ++ [x] }

/-- Sends a new request for commit unit `uid`, under a fresh TID that is remembered as outstanding (R435); answers the TID. -/
def State.request (s : State) (uid : Nat) (t : Trans) : Nat × State :=
  let tid := s.stk.nextTid
  let s := s.modStk fun k => { k with nextTid := (tid + 1) % 2 ^ 32, requests := k.requests ++ [(tid, t.dst, uid, s.route t.dst)] }
  (tid, s.sendFor uid { t with src := s.frm.waferId, tid := BitVec.ofNat 32 tid })

/-- Whether a response answers an outstanding request. -/
def State.awaited (s : State) (t : Trans) : Option Nat :=
  (s.stk.requests.find? fun r => r.1 == t.tid.toNat && r.2.1 == t.src).map fun r => r.2.2.1

/-- Removes an answered request. -/
def State.answered (s : State) (t : Trans) : State :=
  s.modStk fun k => { k with requests := k.requests.filter fun r => !(r.1 == t.tid.toNat && r.2.1 == t.src) }

/-- A response to a request: same TID, endpoints exchanged (R435). -/
def transReply (t : Trans) (status : Nat) (data : List Byte) : Trans :=
  { typ := t.typ, src := t.dst, dst := t.src, resp := true, tid := t.tid, addr := 0, len := data.length, client := t.client
    status := status, arg := t.arg, data := data }

/-- Global address fields (R433): wafer, space, offset. -/
def gaWafer (a : W64) : Nat := bits a.toNat 55 52
/-- SPACE (R433). -/
def gaSpace (a : W64) : Nat := bits a.toNat 57 56
/-- OFFSET (R433). -/
def gaOffset (a : W64) : Nat := bits a.toNat 51 0
/-- A global address from its fields (R433). -/
def gaOf (wafer space off : Nat) : W64 := BitVec.ofNat 64 (off % 2 ^ 52 + wafer % 16 * 2 ^ 52 + space % 4 * 2 ^ 56)

/-- A LOT_SYNC transaction of a unit (R436). -/
def lotSync (sub : Nat) (client dst : Nat) (data : List Byte) : Trans :=
  { typ := tLOT, dst := dst, arg := BitVec.ofNat 64 sub, len := data.length, client := client, data := data }

end Sys2Proof.Machine
end

