-- ==== Sys2Proof/Machine/Ending.lean ====
section
/-! DEFINITION. Windows, Lot Table transitions, outcomes, and how commit units and LOT descriptors end (R24, R42 to R50, R217 to R222, R230 to R234, R247, R275, R288). -/

namespace Sys2Proof.Machine

open Sys2Proof

/-! ### Windows (R23 to R26, R507) -/

/-- Window `w` of a tile. -/
def Tile.win (t : Tile) (w : Nat) : Window := tabGet {} t.windows w
/-- Sets window `w`. -/
def Tile.setWin (t : Tile) (w : Nat) (x : Window) : Tile := { t with windows := tabPut t.windows w x }
/-- Marks window `w` FREE; its contents go (R24). -/
def Tile.freeWin (t : Tile) (w : Nat) : Tile :=
  { t with windows := tabDel t.windows w, vat := memClear t.vat (65536 * w) 65536 }
/-- FREE windows among 0 to 46, ascending. -/
def Tile.freeList (t : Tile) : List Nat := (upTo 47).filter fun w => (t.win w).state == .free
/-- Windows that satisfy `p`, ascending. -/
def Tile.winsWhere (t : Tile) (p : Window → Bool) : List Nat := (t.windows.filter fun x => p x.2).map Prod.fst
/-- Frees every window that satisfies `p`. -/
def Tile.freeWhere (t : Tile) (p : Window → Bool) : Tile := (t.winsWhere p).foldl Tile.freeWin t
/-- Vat watermark (R26). -/
def Tile.watermark (t : Tile) : Nat := greatest 0 ((t.windows.filter fun x => x.2.state != .free).map fun x => x.1 + 1)
/-- The bytes of window `w`, addressed from 0. -/
def Tile.winData (t : Tile) (w : Nat) : Bytes := memSlice t.vat (65536 * w) 65536
/-- Replaces the bytes of window `w`. -/
def Tile.setWinData (t : Tile) (w : Nat) (b : Bytes) : Tile := { t with vat := memPaste t.vat (65536 * w) 65536 b }
/-- Notes that a WET window's unit has written one of its blocks (R53). -/
def Tile.wrote (t : Tile) (w b : Nat) : Tile :=
  let x := t.win w
  if x.blocks.contains b then t else t.setWin w { x with blocks := x.blocks ++ [b] }
/-- Replaces the bytes of a WET window by what its unit writes there (R53). -/
def Tile.wroteAll (t : Tile) (w : Nat) (b : Bytes) : Tile := (t.setWin w { t.win w with blocks := upTo 256 }).setWinData w b
/-- Allocates the lowest FREE window for an owner, WET for a unit, with the given content (R507); unchanged where none is FREE. -/
def Tile.alloc (t : Tile) (o : Owner) (uid : Nat) (content : Bytes) : Tile :=
  match t.freeList with
  | [] => t
  | w :: _ => (t.setWin w { state := .wet, owner := o, unit := uid }).setWinData w content
/-- The window of an owner in a state. -/
def Tile.find (t : Tile) (st : WinState) (o : Owner) : Option Nat := (t.winsWhere fun x => x.state == st && x.owner == o).head?
/-- The WET window of an owner that belongs to a unit. -/
def Tile.findWet (t : Tile) (uid : Nat) (o : Owner) : Option Nat :=
  (t.winsWhere fun x => x.state == .wet && x.owner == o && x.unit == uid).head?

/-- The sequence whose window it is, where it is in a state. -/
def Window.seqIn (x : Window) (st : WinState) : Option (Nat × Nat) :=
  match x.owner with
  | .seq c i _ => if x.state = st then some (c, i) else none
  | _ => none

/-! ### Units -/

/-- Every tile that takes part in a unit. -/
def CUnit.allTiles (u : CUnit) : List Nat := u.tiles ++ u.pairTiles ++ u.thirdTiles
/-- The unit's first descriptor. -/
def CUnit.desc (u : CUnit) : BitVec 512 :=
  match u.stages with
  | st :: _ => st.desc
  | [] => 0
/-- Whether the unit is a LOT member. -/
def CUnit.isMember (u : CUnit) : Bool := u.member.isSome
/-- Lot Table entry of a member. -/
def CUnit.entry (u : CUnit) : Nat := match u.member with | some m => m.entry | none => 0

/-- Whether a unit's own WET window. -/
def Window.wetOf (x : Window) (uid : Nat) : Bool := x.state == .wet && x.unit == uid

/-- Takes a unit off a tile: its WET windows become FREE, its run and its place in the tile's queue go (R48). -/
def Tile.dropUnit (t : Tile) (uid : Nat) : Tile :=
  let t := t.freeWhere fun x => x.wetOf uid
  { t with
    run := match t.run with
      | some r => if r.unit = uid then none else some r
      | none => none
    queue := t.queue.filter (· != uid)
    trapFor := match t.trapFor with
      | some (v, n) => if v = uid then none else some (v, n)
      | none => none }

/-! ### Busy and stall counts (R292 to R294) -/

/-- Length of a cycle in ps at a code, rounded to the nearest (R294). -/
def cyclePs (code : Nat) : Nat := (40000 / (12 + code) + 1) / 2

/-- Counts `n` busy cycles of a tile, `st` of them stalled with a foreign class: 0 none, 1 HBM, 2 Tranyx, 3 fabric (R292, R293); the partition that owns the tile takes them into its window (R294). -/
def State.countBusy (s : State) (a n st cls : Nat) : State :=
  let ps := cyclePs (s.dom (domOfTile a)).code
  let s := s.modTile a fun t => { t with
    busy := t.busy + n, stall := t.stall + st, fstall := if cls = 0 then t.fstall else t.fstall + st }
  match s.partOfTile a with
  | none => s
  | some p => s.modPart p fun x => { x with
      wBusy := x.wBusy + n * ps
      wHbm := if cls = 1 then x.wHbm + st * ps else x.wHbm
      wTx := if cls = 2 then x.wTx + st * ps else x.wTx
      wFab := if cls = 3 then x.wFab + st * ps else x.wFab }

/-- Counts the busy cycles of a run up to cycle `t` that are not counted yet, `st` of them stalled (R292). -/
def State.chargeTo (s : State) (a t st cls : Nat) : State :=
  match (s.tile a).run with
  | none => s
  | some r => (s.modTile a fun x => { x with run := x.run.map fun r => { r with counted := if r.counted < t then t else r.counted } }).countBusy a (t - r.counted) st cls

/-- Foreign class of a remote read (R33, R182, R293): 1 HBM, 2 Tranyx, 3 a tile of another partition or one whose domain is in RETAIN. -/
def State.readClass (s : State) (a : Nat) (src : ReadFrom) : Nat :=
  match src with
  | .hbm _ => 1
  | .wafer _ => 2
  | .tile o _ _ _ => if s.partOfTile o = s.partOfTile a && (s.dom (domOfTile o)).state != .retain then 0 else 3

/-- Tile cycle since which a stall lasts, and its foreign class (R33, R293). -/
def State.stallOf (s : State) (a : Nat) (x : Stall) : Nat × Nat :=
  match x with
  | .remote src _ _ t => (t, s.readClass a src)
  | .syn _ _ t _ => (t, 0)
  | .barrier _ t _ => (t, 0)
  | .chain t => (t, 0)

/-- Cycles of a run that have passed and are not counted yet: busy, stalled, class; none once the tile has signalled ready, while it is stopped, and in a re-trim pause (R292, R293). -/
def State.openCycles (s : State) (a : Nat) : Nat × Nat × Nat :=
  match (s.tile a).run with
  | none => (0, 0, 0)
  | some r =>
    if (r.ready && r.pass != 1) || (r.stopped && !r.stepOne) || tabHas s.flt.retrims (a / 16) then (0, 0, 0)
    else
      let now := s.cycle a
      match r.stall with
      | none => (now - r.counted, 0, 0)
      | some x =>
        let (t, cls) := s.stallOf a x
        (now - r.counted, now - (if t < r.counted then r.counted else t), cls)

/-- Counts the open cycles of a tile's run (R292). -/
def State.settle (s : State) (a : Nat) : State :=
  let (n, st, cls) := s.openCycles a
  if n = 0 then s else s.chargeTo a (s.cycle a) st cls

/-- Counts the open cycles of every run, so that each cycle falls into the window, the frequency and the partition in force when it passed (R294). -/
def State.settleAll (s : State) : State := s.each (s.tiles.map Prod.fst) State.settle

/-- Discards a unit's wet state on a list of tiles, and its messages on the fabric (R48); the busy cycles up to now count (R292). -/
def State.discardOn (s : State) (uid : Nat) (l : List Nat) : State :=
  let s := s.each l fun s a => ((s.when ((s.tile a).run.any fun r => r.unit == uid) fun s => s.settle a)).modTile a fun t => t.dropUnit uid
  { s with fabric := s.fabric.filter fun m => !(m.unit == uid && (l.contains m.dst || l.contains m.src)) }

/-- What a unit gathers before its commit goes (R48). -/
def CUnit.clearPending (u : CUnit) : CUnit :=
  { u with
    flags := 0, eos := false, ranges := [], merged := [], staged := [], halves := [], digest := none, pairDigest := none, image := if u.answers.isSome then u.image else []
    stage := 0, runNs := 0, handoff := none, waitReady := [], waitBarrier := [], waitFlip := if u.home.isSome then u.waitFlip else u.others, waitWr := [], waitMerge := [], waitRd := [], merges := [], down := [] }

/-- Run number of the next START record (R473). -/
def CUnit.runNo (u : CUnit) : Nat := satTo 255 (u.retries + u.kills)

/-- Trace record fields that name a unit (R473). -/
def State.unitTrace (s : State) (u : CUnit) (event : Nat) : TraceRec :=
  { event := event, client := u.client, q := u.q, tag := u.tag.toNat, part := u.part
    seq := if u.isMember then some (s.seqId u.entry) else none }

/-! ### Lot Table transitions (R231 to R233) -/

/-- The exit rule (R232). -/
def Entry.exit (e : Entry) : Entry :=
  if e.kicked then { e with state := .ready, kicked := false }
  else { e with state := if e.win.any (fun w => decide (w < 47)) then .waiting else if e.win.any (· == 0x3F) then .parked else .admitted }

/-- Advancing the deadline past a step placed or skipped under `d`, at an event time (R233). -/
def Entry.advance (e : Entry) (d event : Nat) : Entry :=
  if e.dlSet then { e with dlSet := false }
  else
    let x := d + 1000 * e.period
    { e with deadline := if x ≤ event then event + 1000 * e.period else x }

/-- The entry after it becomes FREE. -/
def Entry.freed : Entry := {}

/-! ### Outcomes (R220 to R222, R288) -/

/-- Counts an outcome event in the accounting counters (R288). -/
def Acct.outcome (a : Acct) (o : Nat) : Acct :=
  match o with
  | 1 => { a with served := a.served + 1 }
  | 2 => { a with late := a.late + 1 }
  | 3 => { a with deferred := a.deferred + 1 }
  | 4 => { a with skipped := a.skipped + 1 }
  | 5 => { a with refused := a.refused + 1 }
  | 8 => { a with failed := a.failed + 1 }
  | _ => a

/-- An outcome event of sequence entry `i` of client `n`: counted, and written where a slot is reserved for it in enabling `ring` (R220, R222, R288). A DEFERRED event also counts for the watermark DEFER. -/
def State.outcome (s : State) (n i ring out detail : Nat) (time : Nat) : State :=
  let s := s.modAcct n fun a => a.outcome out
  let s := s.when (out == 3) fun s => s.modClient n fun c => { c with deferNow := c.deferNow + 1 }
  s.putOut n { seq := s.seqId i, outcome := out, detail := detail, step := (s.entry i).step, time := time, ring := ring }

/-- Writes an outcome entry of a member's commit, whose event was counted at its commit instant (R220, R288). -/
def State.outcomeAt (s : State) (u : CUnit) (m : Member) (out detail : Nat) (fl : BitVec 8) : State :=
  s.putOut u.client { seq := s.seqId m.entry, outcome := out, detail := detail, flags := fl, step := m.stepAfter, time := u.commitT, ring := m.ring }

/-- Writes the MEMBER trace record of a member's outcome (R473). -/
def State.outcomeTrace (s : State) (n q tag i part out : Nat) : State := s.traceMember n q tag (s.seqId i) part out

/-- Ends a member's pair of reserved slots: the RETIRED entry where one follows, else the second slot is released (R221, R222). -/
def State.retiredOrRelease (s : State) (n i ring : Nat) (retire : Bool) (detail time : Nat) : State :=
  if retire then s.outcome n i ring 7 detail time else s.outRelease n ring 1

/-! ### LOT descriptors (R247, R275) -/

/-- The LOT run with an ordinal on a client. -/
def State.lot? (s : State) (n q ord : Nat) : Option LotRun := (s.client n).lots.find? fun l => l.q == q && l.ordinal == ord

/-- Changes a LOT run. -/
def State.modLot (s : State) (n q ord : Nat) (f : LotRun → LotRun) : State :=
  s.modClient n fun c => { c with lots := c.lots.map fun l => if l.q = q ∧ l.ordinal = ord then f l else l }

/-- COUNTS of a LOT record (R217). -/
def lotCounts (l : LotRun) (refused : Nat) : Nat :=
  l.served % 2 ^ 14 + l.late % 2 ^ 14 * 2 ^ 14 + l.deferred % 2 ^ 14 * 2 ^ 28 + l.skipped % 2 ^ 14 * 2 ^ 42 + satTo 255 refused * 2 ^ 56

/-- First descriptor of a LOT run. -/
def LotRun.desc (l : LotRun) : BitVec 512 :=
  match l.stages with
  | st :: _ => st.desc
  | [] => 0

/-- Writes the record of a descriptor that a teardown or a partition reset ends; it waits for those of the queue's units that committed first (R225, R306). -/
def State.putLate (s : State) (n : Nat) (reset : Bool) (r : Rec) : State :=
  if reset && s.units.any (fun v => v.client == n && v.q == r.q && v.phase == .committed && v.home.isNone) then
    s.modQueue n r.q fun x => { x.ended r.ordinal with late := x.late ++ [r] }
  else s.putRec n r

/-- Writes a LOT's completion record (R217, R218, R247). -/
def State.lotRecord (s : State) (n : Nat) (l : LotRun) (status : Nat) : State :=
  let ok := status == 1 || status == 2
  let commit := match l.lastCommit with
    | some t => if ok then t else s.now
    | none => s.now
  let refused := (s.client n).refusals
  let s := s.modClient n fun c => { c with lots := c.lots.filter fun x => !(x.q == l.q && x.ordinal == l.ordinal), refusals := 0 }
  let s := s.modAcct n fun a => { a with lots := a.lots + 1 }
  let s := s.trace1 { event := if ok then 2 else 3, client := n, q := l.q, tag := l.tag.toNat, part := (s.client n).bindPart
                      flags := if ok then l.flags.toNat else 0, detail := if ok then 0 else status }
  s.putLate n (status == 5 || status == 6) {
    q := l.q, ordinal := l.ordinal, tag := l.tag, status := status, flags := l.flags, retries := l.retries, kills := l.kills
    start := l.start, commit := commit, counts := if l.placed = 0 then 0 else lotCounts l refused
    startW := l.placed == 0, commitW := l.lastCommit.isNone || !ok, lot := true, notify := dNotify l.desc, halt := dHalt l.desc }

/-- Whether a unit of a queue that committed before number `no`, and is no member of the LOT with ordinal `ord`, still has its record to come (R47, R219). -/
def State.recordFirst (s : State) (n q no ord : Nat) : Bool :=
  s.units.any fun v => v.client == n && v.q == q && v.phase == .committed && v.home.isNone && v.ordinal != ord && decide (v.commitNo < no)

/-- Writes the record of a LOT whose build has ended and that has no member left, in commit order (R42, R219, R275). -/
def State.lotCheck (s : State) (n q ord : Nat) : State :=
  match s.lot? n q ord with
  | none => s
  | some l =>
    if l.building || !l.members.isEmpty || l.awaitSave || s.recordFirst n q (if l.commitNo = 0 then s.order else l.commitNo) ord then s
    else s.lotRecord n l (if l.failedAny then 2 else 1)

/-! ### Windows of rewritten records (R199, R208) -/

/-- The handle by which a live unit of a client holds a record in a generation (R208). -/
def State.liveHandle (s : State) (client key : Nat) : Option Handle :=
  s.units.findSome? fun u => if u.client = client then u.stages.findSome? fun st => st.handles.findSome? fun o => o.bind fun h => if h.cls = 0 ∧ h.key = key then some h else none else none

/-- Whether a tile's windows of a record in a generation that is no longer the record's are held by no unit (R199, R208). -/
def State.staleRec (s : State) (o : Owner) : Bool :=
  match o with
  | .record n key _ =>
    key != recKey (key % 2 ^ 16) (s.trec n (key % 2 ^ 16)).gen && (s.liveHandle n key).isNone
      && !((s.client n).lots.any fun l => l.stages.any fun st => st.handles.any fun h => h.any fun h => h.cls == 0 && h.key == key)
  | _ => false

/-- Frees the windows of rewritten records that no unit uses any more (R199, R208). -/
def State.freeStale (s : State) : State :=
  let gone := (s.tiles.flatMap fun x => x.2.windows.filterMap fun w => if w.2.state == .dry && s.staleRec w.2.owner then some (x.1, w.1) else none)
  s.each gone fun s x => s.modTile x.1 fun t => t.freeWin x.2

/-! ### Unit ends -/

/-- Takes a member out of its LOT run, adding its counts (R217, R275). -/
def State.lotDrop (s : State) (u : CUnit) (f : LotRun → LotRun) : State :=
  s.modLot u.client u.q u.ordinal fun l => f { l with
    members := l.members.filter (· != u.id), retries := l.retries + u.retries, kills := l.kills + u.kills }

/-- A member ends without commit with a status (R231): FAILED, then RETIRED where RETIRE_PEND is set; under TEARDOWN the entry is left to R250. -/
def State.memberFail (s : State) (u : CUnit) (m : Member) (status code : Nat) : State :=
  let detail := if status = 3 then 0x80 + code else status
  let e := s.entry m.entry
  let retire := e.retirePend && status != 5
  let s := s.setEntry m.entry (if status = 5 then e
    else
      let e := { e.advance m.deadline s.now with deferCount := 0 }
      if retire then { e with state := .retiring } else e.exit)
  let s := s.outcome u.client m.entry m.ring 8 detail s.now
  let s := s.outcomeTrace u.client u.q u.tag.toNat m.entry u.part 8
  let s := s.retiredOrRelease u.client m.entry m.ring retire 0 s.now
  let s := s.lotDrop u fun l => { l with failedAny := true }
  s.lotCheck u.client u.q u.ordinal

/-- The record of a unit that is not a member (R217 to R219); COMMIT of one that ends without commit is the time of the write. -/
def State.unitRecord (s : State) (u : CUnit) (status code : Nat) : State :=
  s.putLate u.client (status == 5 || status == 6) {
    q := u.q, ordinal := u.ordinal, tag := u.tag, status := status, code := code, flags := u.flags
    retries := u.retries, kills := u.kills, start := u.start, commit := u.commitT, commitW := u.phase != .committed, notify := dNotify u.desc, halt := dHalt u.desc }

/-- Entry number by which a wafer keeps a sequence of another wafer whose member is forwarded to it: above every number of its own Lot Table (R437; log 48). -/
def farEntry (seq : Nat) : Nat := 2 ^ 21 + seq % 2 ^ 21

/-- Sequence ID of a member (R227); that of a forwarded member came with it (R437). -/
def State.seqOf (s : State) (u : CUnit) : Nat := if u.home.isSome then u.entry % 2 ^ 21 else s.seqId u.entry

/-- SEQ_ID and MEMBER words of a unit in LOT_SYNC data (R436, R437). -/
def State.unitSeq (s : State) (u : CUnit) : Nat := if u.isMember then s.seqOf u + 2 ^ 31 else 0

/-- LOT_SYNC COMMIT data of a unit: 1 COMMIT, 0 KILL (R436). -/
def State.commitData (s : State) (u : CUnit) (go : Bool) : List Byte :=
  leBytes u.tag.toNat 4 ++ leBytes (b2n go) 1 ++ leBytes 0 3 ++ leBytes (s.unitSeq u) 4 ++ leBytes 0 4

/-- Tells contributing wafers that a unit commits or is killed (R436, R448). -/
def State.tell (s : State) (u : CUnit) (go : Bool) (l : List Nat) : State :=
  s.each l fun s w => (s.request u.id (lotSync 9 u.client w (s.commitData u go))).2

/-- Tells every contributing wafer that a unit commits or is killed (R436, R448). -/
def State.tellOthers (s : State) (u : CUnit) (go : Bool) : State := s.tell u go u.others

/-- Forgets the outstanding requests of a unit: answers to a killed or ended unit are discarded (R271, R452). -/
def State.dropRequests (s : State) (uid : Nat) : State :=
  s.modStk fun k => { k with requests := k.requests.filter fun r => r.2.2.1 != uid, unsent := k.unsent.filter fun x => x.2.1 != uid }

/-- Whether reads of a partition's windows are held: a unit has committed there, and a wafer has not acknowledged its flip (R448). -/
def State.flipWaits (s : State) (p : Nat) : Bool := s.units.any fun u => u.part == p && u.phase == .committed && !u.waitFlip.isEmpty

/-- Answers the sender of forwarded work or of a HANDOFF with FAILED (R437, R451). -/
def State.failReply (s : State) (u : CUnit) : State :=
  let s := match u.home with
    | some (w, tid) => s.send { typ := tDESC, dst := w, resp := true, tid := BitVec.ofNat 32 tid, client := u.client, status := 5 }
    | none => s
  match u.answers with
  | some (e, tid) => s.send { typ := tHANDBACK, dst := e, tid := BitVec.ofNat 32 tid, client := u.client, status := 5 }
  | none => s

/-- Ends a unit without commit (R48, R49, R218): its wet state is discarded and its record or outcome is written. -/
def State.endUnit (s : State) (u : CUnit) (status code : Nat) : State :=
  let s := (((s.discardOn u.id u.allTiles).dropUnit u.id).dropRequests u.id).freeStale
  let s := (s.trace1 { s.unitTrace u 3 with detail := status, value := code }).tellOthers u false
  let s := s.failReply u
  if u.home.isSome then s
  else match u.member with
    | some m => s.memberFail u m status code
    | none => s.unitRecord { u with phase := .failed } status code

/-- Ends a unit with a descriptor fault (R206, R49). -/
def State.faultUnit (s : State) (uid code : Nat) : State :=
  match s.unit? uid with
  | none => s
  | some u => if u.phase == .committed then s else s.endUnit u 3 code

/-- Kills counted in PRT_KILLS by cause (R49): 1 upset, 2 pre-emption, 3 retirement, 4 paired side; 0, a port reset, is counted nowhere (R371). -/
def Part.kill (p : Part) (cause : Nat) : Part :=
  match cause with
  | 1 => { p with kUpset := satTo 0xFFFF (p.kUpset + 1) }
  | 2 => { p with kPreempt := satTo 0xFFFF (p.kPreempt + 1) }
  | 3 => { p with kRetire := satTo 0xFFFF (p.kRetire + 1) }
  | 4 => { p with kPair := satTo 0xFFFF (p.kPair + 1) }
  | _ => p

/-- Kills a unit that will rerun from its start: its wet state goes, it waits for UNIT_RERUN_START (R48 to R50). -/
def State.killUnit (s : State) (uid cause : Nat) : State :=
  match s.unit? uid with
  | none => s
  | some u =>
    if u.phase == .committed || u.phase == .killed || u.phase == .placed then s
    else
      let s := ((s.discardOn uid u.allTiles).dropRequests uid).tellOthers u false
      let s := s.modUnit uid fun u => { u.clearPending with
        phase := .killed, thirdTiles := [], preempted := cause == 2, stopFull := none
        retries := if cause = 2 then u.retries else u.retries + 1
        kills := if cause = 2 then u.kills + 1 else u.kills
        afterRebuild := u.afterRebuild || cause == 3 }
      let s := s.modPart u.part fun p => p.kill cause
      s.trace1 { s.unitTrace u 4 with detail := if cause = 0 then 1 else cause }

/-- Ends an accepted descriptor that has not started, with a status (R203, R205, R218, R224, R225). A LOT's record counts the refusals of ADMITs (R217). -/
def State.endWaiting (s : State) (n q : Nat) (d : ADesc) (status code : Nat) : State :=
  let lot := dKind d.desc == kLOT
  let refused := satTo 255 (s.client n).refusals * 2 ^ 56
  let s := s.when lot fun s => (s.modClient n fun c => { c with refusals := 0 }).modAcct n fun a => { a with lots := a.lots + 1 }
  let s := s.trace1 { event := 3, client := n, q := q, tag := (dTag d.desc).toNat, part := (s.client n).bindPart, detail := status, value := code }
  s.putLate n (status == 5 || status == 6) {
    q := q, ordinal := d.ordinal, tag := dTag d.desc, status := status, code := code, retries := d.retries, kills := d.kills
    startW := true, commitW := true, lot := lot, counts := if lot then refused else 0, notify := dNotify d.desc, halt := dHalt d.desc }

/-- Units of a client homed on this wafer that have started and not ended. -/
def State.ownUnits (s : State) (n : Nat) : List CUnit := s.units.filter fun u => u.client == n && u.home.isNone

/-- Units of a client that have started and not ended. -/
def State.unitsOf (s : State) (n : Nat) : List CUnit := s.units.filter fun u => u.client == n

end Sys2Proof.Machine
end

