-- ==== Sys2Proof/Machine/LongWord.lean ====
section
/-! DEFINITION. Long words: layout, table walk and the checks made when a word is decoded (08_long_words.md). -/

namespace Sys2Proof.Machine

open Sys2Proof

/-- A long word: REP, the slot words that MASK selects, and its bytes (R136). -/
structure LongWord where
  rep : Nat
  ld : Option Nat
  ari : Option Nat
  pal : Option Nat
  red : Option Nat
  cvt : Option Nat
  skn : Option Nat
  st : Option Nat
  syn : Option Nat
  size : Nat
  deriving DecidableEq, Repr

/-- Slot words present below bit `n` of MASK. -/
def maskBelow (mask n : Nat) : Nat := ((upTo n).filter fun i => bit mask i).length

/-- Slot word `n` of a long word at byte `a` of a bank, where MASK selects it (R136). -/
def lwSlot (bank : Bytes) (a mask n : Nat) : Option Nat :=
  if bit mask n then some (memVal bank (a + 2 + 4 * maskBelow mask n) 4) else none

/-- The long word at byte `a` of a table bank (R136). -/
def longWord (bank : Bytes) (a : Nat) : LongWord :=
  let mask := memVal bank a 1
  { rep := memVal bank (a + 1) 1
    ld := lwSlot bank a mask 0, ari := lwSlot bank a mask 1, pal := lwSlot bank a mask 2, red := lwSlot bank a mask 3
    cvt := lwSlot bank a mask 4, skn := lwSlot bank a mask 5, st := lwSlot bank a mask 6, syn := lwSlot bank a mask 7
    size := 2 + 4 * maskBelow mask 8 }

/-- Byte offset of the long word `n` words after the one at `a`. -/
def lwSkip (bank : Bytes) (a : Nat) : Nat → Nat
  | 0 => a
  | n + 1 => lwSkip bank (a + 2 + 4 * maskBelow (memVal bank a 1) 8) n

/-- Whether TABLE_ADDR and TABLE_LEN name a table of the bank (R135); false is fault TABLE. -/
def tableOk (bank : Bytes) (addr len : Nat) : Bool :=
  decide (addr < 2 ^ 14) && addr % 2 == 0 && decide (1 ≤ len) && decide (len ≤ 8192) && decide (lwSkip bank addr len ≤ 16384)

/-- The slot words of slot `f` in the `n` long words from `a` on. -/
def tableSlots (bank : Bytes) (f : LongWord → Option Nat) (a : Nat) : Nat → List Nat
  | 0 => []
  | n + 1 =>
    let l := longWord bank a
    let r := tableSlots bank f (a + l.size) n
    match f l with
    | some w => w :: r
    | none => r

/-! ### Slot fields -/

/-- Two's-complement reading of STRIDE (R145). -/
def ldStride (w : Nat) : Int := sint 9 (bits w 31 23)
/-- HND of LD and ST. -/
def ldHnd (w : Nat) : Nat := bits w 6 5
/-- OP of SYN. -/
def synOp (w : Nat) : Nat := bits w 3 0
/-- HND of RED. -/
def redHnd (w : Nat) : Nat := bits w 14 13

/-! ### Checks at decode (R139, R144) -/

/-- Checks of LD and ST slots; an LD must leave PM 0 (R139, R144, R145). -/
def ldStDecode (has : Nat → Bool) (isLd : Bool) (w : Nat) : List Nat :=
  codeIf ((isLd && bits w 14 12 != 0) || (!bit w 11 && (bits w 10 9 != 0 || bits w 31 23 != 0))) cDECODE
    ++ codeIf (!has (ldHnd w)) cNO_HANDLE

/-- Checks of an ARI slot (R147 to R149). -/
def ariDecode (w : Nat) : List Nat :=
  let op := bits w 4 0
  codeIf (decide (op > 0x11)
    || (op == 8 && (bits w 9 8 != 0 || bits w 25 23 != 0 || bits w 31 29 == 7))
    || ((op == 6 || op == 7 || op == 11) && bits w 19 15 != 0)
    || (op != 8 && op != 9 && bits w 31 29 != 0)) cDECODE

/-- Checks of a PAL slot (R150). -/
def palDecode (w : Nat) : List Nat := codeIf (bits w 31 25 != 0) cDECODE

/-- Checks of a RED slot (R151, R144). -/
def redDecode (has : Nat → Bool) (w : Nat) : List Nat :=
  codeIf (decide (bits w 2 0 > 5) || (bits w 2 0 != 1 && bits w 12 8 != 0) || bit w 18) cDECODE
    ++ codeIf (!has (redHnd w)) cNO_HANDLE

/-- Checks of a CVT slot (R153, R144). -/
def cvtDecode (has : Nat → Bool) (w : Nat) : List Nat :=
  codeIf (bits w 31 26 != 0 || (!bit w 22 && bits w 21 20 != 0)) cDECODE
    ++ codeIf (!has (bits w 17 16) || !has (bits w 19 18) || (bit w 22 && !has (bits w 21 20))) cNO_HANDLE

/-- Checks of an SKN slot (R154). -/
def sknDecode (w : Nat) : List Nat :=
  let op := bits w 2 0
  codeIf (decide (op > 5) || (op != 4 && op != 5 && bits w 17 13 != 0) || decide (bits w 21 18 > 8) || bits w 31 25 != 0) cDECODE

/-- Whether a LOOP of counter `c` and length `body` at position `k` of a table of `len` words breaks R162. -/
def loopBad (loops : List Loop) (len k c body : Nat) : Bool :=
  decide (k + body ≥ len) || loops.any fun l => l.counter == c || decide (k + body > l.endPos)

/-- Checks of a SYN slot (R139, R155, R162). -/
def synDecode (loops : List Loop) (len k rep : Nat) (w : Nat) : List Nat :=
  match synOp w with
  | 0 => codeIf (bits w 18 6 == 0 || bits w 31 19 != 0 || rep != 0 || loopBad loops len k (bits w 5 4) (bits w 18 6)) cDECODE
  | 1 | 2 | 3 => codeIf (!bit w 27 && (bits w 26 25 != 0 || bits w 31 28 != 0)) cDECODE
  | 4 => codeIf (bits w 31 12 != 0 || rep != 0) cDECODE
  | 5 => codeIf (bits w 31 7 != 0 || rep != 0) cDECODE
  | _ => [cDECODE]

/-- Codes of an absent slot: none. -/
def onSlot (o : Option Nat) (f : Nat → List Nat) : List Nat :=
  match o with
  | some w => f w
  | none => []

/-- Codes found when a long word is decoded (R139). `has` tells which of the handles A to D are present. -/
def LongWord.decodeCodes (has : Nat → Bool) (loops : List Loop) (len k : Nat) (l : LongWord) : List Nat :=
  onSlot l.ld (ldStDecode has true) ++ onSlot l.ari ariDecode ++ onSlot l.pal palDecode ++ onSlot l.red (redDecode has)
    ++ onSlot l.cvt (cvtDecode has) ++ onSlot l.skn sknDecode ++ onSlot l.st (ldStDecode has false)
    ++ onSlot l.syn (synDecode loops len k l.rep)

end Sys2Proof.Machine
end

