-- ==== Sys2Proof/Machine/Arith.lean ====
section
/-! DEFINITION. What the ARI slot computes on one element, in fast and strict mode (06_arithmetic_and_reduction.md, R97 to R105). -/

namespace Sys2Proof.Machine

open Sys2Proof

/-- The F32 pieces of R105: high piece and low piece of a significand. -/
def pieces (c m : Nat) : Nat × Nat := if c = 0 then (m / 2 ^ 12 * 2 ^ 12, m % 2 ^ 12) else (m, 0)

/-- The precision passes that apply to a product: PASSES 0 is 2, and a product without an F32 operand is exact (R104). -/
def passesOf (strict : Bool) (passes fa fb : Nat) : Nat :=
  if strict || (fa != 0 && fb != 0) then 3 else if passes = 0 then 2 else passes

/-- The product of two values at P passes (R105). -/
def mulPass (p fa fb : Nat) (a b : Val) : Val :=
  match a, b with
  | .num na ma ea, .num nb mb eb =>
    let (ha, la) := pieces fa ma
    let (hb, lb) := pieces fb mb
    let m := if p = 1 then ha * hb else if p = 2 then ma * mb - la * lb else ma * mb
    .num (xor na nb) m (ea + eb)
  | _, _ => mulVal a b

/-- Ends a floating operation: NaN operands and invalid operations by R67, R68, R74; else one rounding (R99). -/
def finish (strict : Bool) (md : Rnd) (c : Nat) (ops : List Val) (invalid : Bool) (exact : Val) (fl : Fl) : Nat × Fl :=
  if anyNan ops then
    ((putVal strict md c (firstNan ops)).1, fl ||| flagIf (!strict || anySig ops || invalid) fNV)
  else if exact.isNan then ((putVal strict md c .cnan).1, fl ||| fNV)
  else
    let (r, f) := putVal strict md c exact
    (r, fl ||| f)

/-- Whether a product is 0 × inf. -/
def invalidProduct (a b : Val) : Bool := (a.isZero && b.isInf) || (a.isInf && b.isZero)

/-- The lesser of two values; −0 is below +0 (R72, R73). -/
def minVal (a b : Val) : Val := if ltVal a b || (eqVal a b && a.sign) then a else b

/-- The greater of two values; +0 is above −0 (R72, R73). -/
def maxVal (a b : Val) : Val := if ltVal b a || (eqVal a b && !a.sign) then a else b

/-- Quotient, with the flag DZ of R100. -/
def divVal (a b : Val) : Val × Fl :=
  match a, b with
  | .num na ma ea, .num nb mb eb =>
    let n := xor na nb
    if mb = 0 then (if ma = 0 then (.cnan, 0) else (.inf n, fDZ))
    else if ma = 0 then (.num n 0 0, 0)
    else
      let (q, e) := divOdd ma ea mb eb
      (.num n q e, 0)
  | .inf na, .num nb _ _ => (.inf (xor na nb), 0)
  | .num na _ _, .inf nb => (.num (xor na nb) 0 0, 0)
  | _, _ => (.cnan, 0)

/-- Square root (R100). -/
def sqrtVal (a : Val) : Val :=
  match a with
  | .num n m e =>
    if m = 0 then .num n 0 0
    else if n then .cnan
    else
      let (r, e') := sqrtOdd m e
      .num false r e'
  | .inf n => if n then .cnan else .inf false
  | v => v

/-- One floating ARI element, ADD to SQRT but CMP and SEL: opcode, result format, operand formats and patterns (R100). -/
def ariFloat (strict : Bool) (passes : Nat) (md : Rnd) (op c fa fb fc a b x : Nat) : Nat × Fl :=
  let (va, la) := readVal strict fa a
  let (vb, lb) := readVal strict fb b
  let rd := strict && md == .rd
  let p := passesOf strict passes fa fb
  match op with
  | 0 => finish strict md c [va, vb] false (addVal rd va vb) (la ||| lb)
  | 1 => finish strict md c [va, vb] false (addVal rd va vb.neg) (la ||| lb)
  | 2 => finish strict md c [va, vb] false (mulPass p fa fb va vb) (la ||| lb)
  | 3 =>
    let (vc, lc) := readVal strict fc x
    finish strict md c [va, vb, vc] (invalidProduct va vb) (addVal rd (mulPass p fa fb va vb) vc) (la ||| lb ||| lc)
  | 4 => finish strict md c [va, vb] false (minVal va vb) (la ||| lb)
  | 5 => finish strict md c [va, vb] false (maxVal va vb) (la ||| lb)
  | 6 =>
    if strict then
      if c = fa then (if fmtIsHouse c && va.isNan then (a, 0) else (a % 2 ^ (fmtWidth c - 1), 0))
      else if va.isNan then (putNan true c false (match va with | .nan _ _ q => q | _ => 0), 0)
      else putVal true md c va.abs
    else finish false md c [va] false va.abs la
  | 7 =>
    if strict then
      if c = fa then
        if fmtIsHouse c && (va.isNan || va.isZero) then (a, 0)
        else (a % 2 ^ (fmtWidth c - 1) + b2n (!bit a (fmtWidth c - 1)) * 2 ^ (fmtWidth c - 1), 0)
      else if va.isNan then (putNan true c (!va.sign && fmtIsStd fa) (match va with | .nan _ _ q => q | _ => 0), 0)
      else putVal true md c (if fmtIsHouse fa && va.isZero then va else va.neg)
    else finish false md c [va] false va.neg la
  | 10 =>
    let (q, dz) := divVal va vb
    finish strict md c [va, vb] false q (la ||| lb ||| flagIf (!va.isNan && !vb.isNan) dz)
  | 11 => finish strict md c [va] false (sqrtVal va) la
  | _ => (0, 0)

/-- One integer ARI element (R103): operands are read as signed values, the result wraps to the result format. SHR fills with zeros at the wider of the operand's and the result's width, to which the operand is sign-extended; ABS and NEG of I8 −128 into I32 give +128, since −128 is not the most negative value there (DESIGN CHOICE, log 109). -/
def ariInt (op c fa fb a b : Nat) : Nat :=
  let w := fmtWidth c
  let x := sint (fmtWidth fa) a
  let y := sint (fmtWidth fb) b
  let n := wrapInt w y % w
  match op with
  | 0 => wrapInt w (x + y)
  | 1 => wrapInt w (x - y)
  | 2 => wrapInt w (x * y)
  | 4 => wrapInt w (if x ≤ y then x else y)
  | 5 => wrapInt w (if x ≤ y then y else x)
  | 6 => wrapInt w (if x < 0 then -x else x)
  | 7 => wrapInt w (-x)
  | 12 => Nat.land (wrapInt w x) (wrapInt w y)
  | 13 => Nat.lor (wrapInt w x) (wrapInt w y)
  | 14 => Nat.xor (wrapInt w x) (wrapInt w y)
  | 15 => wrapInt w (x * (2 ^ n : Nat))
  | 16 => wrapInt w (wrapInt (max w (fmtWidth fa)) x / 2 ^ n : Nat)
  | 17 => wrapInt w (x / (2 ^ n : Nat))
  | _ => 0

/-- One CMP bit (R101, R103, R149). -/
def ariCmp (strict : Bool) (pred fa fb a b : Nat) : Bool × Fl :=
  if fmtIsInt fa then
    let x := sint (fmtWidth fa) a
    let y := sint (fmtWidth fb) b
    (match pred with
      | 0 => decide (x = y) | 1 => decide (x ≠ y) | 2 => decide (x < y)
      | 3 => decide (x ≤ y) | 4 => decide (y < x) | 5 => decide (y ≤ x) | _ => false, 0)
  else
    let (va, la) := readVal strict fa a
    let (vb, lb) := readVal strict fb b
    let nan := va.isNan || vb.isNan
    let quietPred := pred == 0 || pred == 1 || pred == 6
    let nv := nan && (!strict || !quietPred || va.isSig || vb.isSig)
    (if nan then pred == 1 || pred == 6
     else match pred with
      | 0 => eqVal va vb | 1 => !eqVal va vb | 2 => ltVal va vb
      | 3 => !ltVal vb va | 4 => ltVal vb va | 5 => !ltVal va vb | _ => false,
     la ||| lb ||| flagIf nv fNV)

/-- A pattern passed on without arithmetic: in fast mode as R64 and R67 leave it, in strict mode and for integers unchanged (SEL: R100; R71). -/
def passOn (strict : Bool) (c pat : Nat) : Nat × Fl :=
  if strict || fmtIsInt c then (pat, 0)
  else
    let (v, f) := readVal false c pat
    match v with
    | .nan _ _ _ => (fmtNanPat c, f)
    | .inf n => (withSign c n (fmtInfPat c), f)
    | .num _ m _ => if m = 0 then (0, f) else (pat, f)

/-- One SEL element (R100): `sel` takes A. -/
def ariSel (strict : Bool) (c a b : Nat) (sel : Bool) : Nat × Fl :=
  let (r, f) := passOn strict c (if sel then a else b)
  let nan := !fmtIsInt c && ((decodeVal c a).isNan || (decodeVal c b).isNan)
  (r, f ||| flagIf (!strict && nan) fNV)

/-- Whether ARI opcode `op` may take these formats in this mode (R98, R100, R148); false is fault OPERAND. -/
def ariFormatsOk (strict : Bool) (op c fa fb fc : Nat) : Bool :=
  let unary := op == 6 || op == 7 || op == 11
  let ints := fmtIsInt fa
  let same := (unary || fmtIsInt fb == ints) && (op == 8 || fmtIsInt c == ints) && (op != 3 || fmtIsInt fc == ints)
  same &&
    (match op with
     | 3 => !ints
     | 9 => fa == fb && fa == c
     | 10 => !ints && strict
     | 11 => !ints && strict
     | _ => if op ≥ 12 then ints else true)

end Sys2Proof.Machine
end

