-- ==== Sys2Proof/Machine/PaletteFn.lean ====
section
/-! DEFINITION. Palette entries: layout, image check and evaluation (07_palettes.md). -/

namespace Sys2Proof.Machine

open Sys2Proof

/-- A directory entry (R120). -/
structure PalEntry where
  poolOff : Nat
  kind : Nat
  tailLo : Nat
  tailHi : Nat
  seg : Nat
  degree : Nat
  valid : Bool
  c1 : Nat
  c2 : Nat
  lo : Nat
  hi : Nat
  zero : Nat
  neg : Bool
  cr : Bool
  /-- The reserved fields, concatenated. -/
  reserved : Nat
  deriving DecidableEq, Repr

/-- Entry `n` of a bank (R119, R120). -/
def palEntry (bank : Bytes) (n : Nat) : PalEntry :=
  let a := 32 * n
  let h := memVal bank a 2
  let k := memVal bank (a + 2) 1
  let s := memVal bank (a + 3) 1
  let z := memVal bank (a + 22) 1
  { poolOff := bits h 10 0, kind := bits k 3 0, tailLo := bits k 5 4, tailHi := bits k 7 6
    seg := bits s 3 0, degree := bits s 6 4, valid := bit s 7
    c1 := memVal bank (a + 4) 4, c2 := memVal bank (a + 8) 4
    lo := memVal bank (a + 12) 4, hi := memVal bank (a + 16) 4
    zero := bits z 1 0, neg := bit z 2, cr := bit z 3
    reserved := bits h 15 11 + bits z 7 4 + memVal bank (a + 23) 1 }

/-- Pool word `w` of a bank (R119). -/
def palPool (bank : Bytes) (w : Nat) : Nat := memVal bank (2048 + 4 * w) 4

/-- Either zero pattern (R122). -/
def f32IsZero (p : Nat) : Bool := p % 2 ^ 31 == 0

/-- Whether a VALID entry keeps every rule of R129. -/
def palEntryOk (e : PalEntry) : Bool :=
  let noTails := e.tailLo == 0 && e.tailHi == 0
  let kindOk := match e.kind with
    | 0 => f32IsZero e.c2 && e.zero == 0
    | 1 => f32IsZero e.c2 && f32IsZero e.lo && e.zero == 0
    | 2 => f32IsZero e.c2 && e.zero == 0
    | 3 => f32IsZero e.c1 && f32IsZero e.lo && f32IsZero e.hi && noTails && e.zero != 0
    | 4 => f32IsZero e.c1 && f32IsZero e.c2 && f32IsZero e.lo && f32IsZero e.hi && noTails && e.zero != 0
    | 5 => f32IsZero e.c1 && f32IsZero e.lo && f32IsZero e.hi && noTails && e.zero != 0
        && (e.c2 == 0x3F800000 || e.c2 == 0xBF800000)
    | _ => false
  kindOk && decide (e.degree ≤ 5) && decide (e.seg ≤ 8)
    && decide (e.poolOff + 2 ^ e.seg * (e.degree + 1) ≤ 1536)
    && f32Finite e.c1 && f32Finite e.c2 && f32Finite e.lo && f32Finite e.hi
    && (!(e.kind == 0 || e.kind == 2) || ltVal (f32Val e.lo) (f32Val e.hi))
    && e.reserved == 0

/-- Whether a bank image may become eligible (R129). -/
def palImageOk (bank : Bytes) : Bool :=
  (upTo 64).all fun n => let e := palEntry bank n; !e.valid || palEntryOk e

/-- Rounds RNE to 32 significant bits with an unbounded exponent (R121, R122). -/
def round32 (v : Val) : Val :=
  match v with
  | .num n m e =>
    if m = 0 then .num n 0 0
    else
      let q := expOf m e - 31
      .num n (roundTo .rne n m e q).1 q
  | v => v

/-- s × 2^24 + t of R121 step 3, for an exact u. -/
def palIndex (n : Nat) (u : Val) : Nat :=
  match u with
  | .num neg m e =>
    if neg && m != 0 then 0
    else
      let k : Int := e + n + 24
      let x := if 0 ≤ k then (if m ≠ 0 ∧ k > 200 then 2 ^ (n + 24) else m * 2 ^ k.toNat) else m / 2 ^ (-k).toNat
      if x ≥ 2 ^ (n + 24) then 2 ^ (n + 24) - 1 else x
  | _ => 0

/-- Horner steps of R121 step 4 over the coefficients from c_(D−1) down to c_0. A pool word that is a NaN or an infinity, which R129 does not reject, passes through the steps as IEEE arithmetic has it: a NaN keeps its sign and payload, and 0 × ∞ or ∞ − ∞ gives the default NaN (DESIGN CHOICE, log 119). -/
def horner (t : Val) : Val → List Val → Val
  | h, [] => h
  | h, c :: r => horner t (round32 (addVal false c (mulVal t h))) r

/-- h of R121 for an exact u. -/
def palPoly (bank : Bytes) (en : PalEntry) (u : Val) : Val :=
  let x := palIndex en.seg u
  let s := x / 2 ^ 24
  let t : Val := .num false (x % 2 ^ 24) (-24)
  let coef := fun j => f32Val (palPool bank (en.poolOff + s * (en.degree + 1) + j))
  horner t (coef en.degree) ((upTo en.degree).reverse.map coef)

/-- Multiplies a value by 2^k exactly. -/
def scale2 (v : Val) (k : Int) : Val :=
  match v with
  | .num n m e => .num n m (e + k)
  | v => v

/-- ⌊v⌋ of a finite value. -/
def floorVal (v : Val) : Int :=
  match v with
  | .num n m e =>
    if 0 ≤ e then (let k : Int := (m * 2 ^ e.toNat : Nat); if n then -k else k)
    else
      let d := 2 ^ (-e).toNat
      if n then -(((m + d - 1) / d : Nat) : Int) else ((m / d : Nat) : Int)
  | _ => 0

/-- The value of an integer. -/
def intVal (i : Int) : Val := .num (decide (i < 0)) i.natAbs 0

/-- Result of a tail code; `odd` negates for a negative ODD input (R124). A strict input −0 counts as negative here, by its sign bit (DESIGN CHOICE, log 113). -/
def palTail (strict : Bool) (code : Nat) (odd : Bool) (x : Val) : Val :=
  let n := odd && x.sign
  match code with
  | 0 => .num (n && strict) 0 0
  | 1 => .num n 1 0
  | 2 => x
  | _ => .inf n

/-- Whether the kind uses tails (R122). -/
def palTails (kind : Nat) : Bool := kind ≤ 2

/-- z of R121 steps 1 to 4 with the flags of R124; `none` for a NaN input. -/
def palZ (strict : Bool) (bank : Bytes) (en : PalEntry) (fout : Nat) (x : Val) : Val × Fl :=
  if x.isZero && !palTails en.kind then
    match en.zero with
    | 1 => (.num (strict && fmtIsStd fout && x.sign) 0 0, 0)
    | 2 => (.inf (en.kind == 4 && strict && x.sign), fDZ)
    | _ => (.inf true, fDZ)
  else if !x.isZero && x.sign && en.neg then (.cnan, fNV)
  else if x.isInf then
    match en.kind with
    | 0 => (palTail strict (if x.sign then en.tailLo else en.tailHi) false x, 0)
    | 1 => (palTail strict en.tailHi true x, 0)
    | 2 => (palTail strict (if x.sign then en.tailLo else en.tailHi) false x, 0)
    | 3 => (.inf false, 0)
    | 4 => (.num (x.sign && strict) 0 0, 0)
    | _ => (if en.c2 = 0x3F800000 then .inf false else .num false 0 0, 0)
  else
    let lo := f32Val en.lo
    let hi := f32Val en.hi
    match en.kind with
    | 0 =>
      if ltVal x lo then (palTail strict en.tailLo false x, 0)
      else if !ltVal x hi then (palTail strict en.tailHi false x, 0)
      else (palPoly bank en (mulVal (addVal false x lo.neg) (f32Val en.c1)), 0)
    | 1 =>
      if !ltVal x.abs hi then (palTail strict en.tailHi true x, 0)
      else
        let h := palPoly bank en (mulVal x.abs (f32Val en.c1))
        (if x.sign then h.neg else h, 0)
    | 2 =>
      if ltVal x lo then (palTail strict en.tailLo false x, 0)
      else if !ltVal x hi then (palTail strict en.tailHi false x, 0)
      else
        let v := mulVal x (f32Val en.c1)
        let k := floorVal v
        (scale2 (palPoly bank en (addVal false v (intVal (-k)))) k, 0)
    | _ =>
      match x with
      | .num n m e =>
        let k := expOf m e
        -- m − 1 of x = ±m × 2^k with m in [1, 2)
        let frac : Val := .num false (m - 2 ^ Nat.log2 m) (-(Nat.log2 m : Int))
        match en.kind with
        | 3 =>
          (round32 (mulVal (round32 (addVal false (intVal k) (palPoly bank en frac))) (f32Val en.c2)), 0)
        | 4 =>
          let h := scale2 (palPoly bank en frac) (-k)
          (if n then h.neg else h, 0)
        | _ =>
          let j := k % 2
          let u := addVal false (scale2 frac (-1)) (.num false j.toNat (-1))
          let half := k / 2
          (scale2 (palPoly bank en u) (if en.c2 = 0x3F800000 then half else -half), 0)
      | v => (v, 0)

/-- One PAL element (R121 to R125): pattern and flags. -/
def palElem (strict : Bool) (md : Rnd) (bank : Bytes) (en : PalEntry) (fin fout pat : Nat) : Nat × Fl :=
  let (x, f0) := readVal strict fin pat
  if x.isNan then let (r, f) := putVal strict md fout x; (r, f0 ||| f)
  else
    let (z, f1) := palZ strict bank en fout x
    let (r, f) := putVal strict md fout z
    -- R125: NV only from NaN inputs and the NEG rule
    (r, f0 ||| f1 ||| (f &&& ~~~fNV))

end Sys2Proof.Machine
end

