-- ==== Sys2Proof/Machine/Convert.lean ====
section
/-! DEFINITION. Conversion, scale factors, stochastic rounding words and range-slot contributions (05_conversion_and_scales.md). -/

namespace Sys2Proof.Machine

open Sys2Proof

/-- The mixing function of R83, modulo 2^64. -/
def mix64 (z : Nat) : Nat :=
  let z := Nat.xor z (z / 2 ^ 30)
  let z := z * 0xBF58476D1CE4E5B9 % 2 ^ 64
  let z := Nat.xor z (z / 2 ^ 27)
  let z := z * 0x94D049BB133111EB % 2 ^ 64
  Nat.xor z (z / 2 ^ 31)

/-- The random word of R83 for an element: TAG, record index, sequence ID, step count, logical index. -/
def srWord (tag rec seq step e : Nat) : Nat :=
  let a := (tag + 2 ^ 32 * rec) % 2 ^ 64
  let b := (seq + 2 ^ 21 * step) % 2 ^ 64
  let h := mix64 (Nat.xor a (mix64 (Nat.xor b (mix64 ((e + 0x9E3779B97F4A7C15) % 2 ^ 64)))))
  bits h 63 32

/-- Exponent n of the quantising factor q = 2^n of R89 for an amax pattern, destination format and MARGIN. -/
def qExp (amax c margin : Nat) : Int :=
  match f32Val amax, decodeVal c (fmtMaxPat c) with
  | .num _ ma ea, .num _ mf ef =>
    if ma = 0 then 0
    else
      let k0 := expOf mf ef - expOf ma ea
      let fits := !(ltVal (.num false mf ef) (.num false ma (ea + k0)))
      let n := (if fits then k0 else k0 - 1) - margin
      if n < -126 then -126 else if n > 126 then 126 else n
  | _, _ => 0

/-- F32 pattern of 2^n, −126 ≤ n ≤ 127. -/
def pow2F32 (n : Int) : Nat := (n + 127).toNat * 2 ^ 23

/-- A factor rounded RNE to F32 with the checks of R87 and R116: none is fault SCALE. A zero is +0. -/
def factor (v : Val) : Option Nat :=
  match v with
  | .num _ m _ =>
    if m = 0 then some 0
    else
      let p := toF32 v
      if p % 2 ^ 31 = 0 || !f32Finite p then none else some p
  | _ => none

/-- c under FIXED: s_src ÷ s_dst (R86, R87). -/
def factorFixed (src dst : Nat) : Option Nat :=
  match f32Val src, f32Val dst with
  | .num ns ms es, .num nd md ed =>
    if md = 0 then none
    else if ms = 0 then some 0
    else
      let (q, e) := divOdd ms es md ed
      factor (.num (xor ns nd) q e)
  | .num _ _ _, .inf _ => some 0
  | _, _ => none

/-- c under DELAYED and CURRENT: s_src × 2^n (R86, R87). -/
def factorQ (src : Nat) (n : Int) : Option Nat :=
  match f32Val src with
  | .num s m e => factor (.num s m (e + n))
  | _ => none

/-- s_A × s_B (R116). -/
def factorAB (a b : Nat) : Option Nat := factor (mulVal (f32Val a) (f32Val b))

/-- What one converted element gives: pattern, flags, and whether it counts in SAT (R90). -/
structure CvtOut where
  pat : Nat
  flags : Fl
  sat : Bool
  deriving DecidableEq, Repr

/-- Steps 1 and 3 to 5 of R78 on one element of format `fs` into `fd` with factor pattern `c`. -/
def cvtElem (strict : Bool) (md : Rnd) (fs fd pat c : Nat) : CvtOut :=
  let (x, f0) := readVal strict fs pat
  let cv := f32Val c
  let inv := invalidProduct x cv
  let y := if x.isNan then x else if inv then .cnan else mulVal x cv
  let (r, f) := putVal strict md fd y
  { pat := r
    flags := f0 ||| f ||| flagIf inv fNV
    sat := (f &&& (fSAT ||| fOF)) != 0 || (fmtIsInt fd && !y.isNan && (f &&& fNV) != 0) }

/-- |x_in| of R90 as an F32 pattern, saturating; `s` is the source scale under the modes that use one. -/
def xinPat (strict : Bool) (fs pat : Nat) (s : Option Nat) : Nat :=
  let x := (readVal strict fs pat).1
  let xin := match s with
    | none => x
    | some p => mulVal x (f32Val p)
  match xin with
  | .num _ m e => let p := toF32 (.num false m e); if p = 0x7F800000 then 0x7F7FFFFF else p
  | _ => 0

/-- Adds a count to a saturating 32-bit count (R91). -/
def addSat32 (a b : Nat) : Nat := satTo 0xFFFFFFFF (a + b)

/-- Combines two contributions to one slot: maximum for A, sum for the counts (R90). -/
def rangeJoin (a b : RangeC) : RangeC :=
  { slot := a.slot
    amax := if a.amax.toNat ≤ b.amax.toNat then b.amax else a.amax
    nan := addSat32 a.nan b.nan
    inf := addSat32 a.inf b.inf
    sat := addSat32 a.sat b.sat
    pub := match a.pub with | some p => some p | none => b.pub }

/-- Adds a contribution to a list that holds at most one for each slot. -/
def rangeAdd (c : RangeC) : List RangeC → List RangeC
  | [] => [c]
  | a :: r => if a.slot = c.slot then rangeJoin a c :: r else a :: rangeAdd c r

/-- Joins two lists of contributions (R90). -/
def rangesJoin (l : List RangeC) : List RangeC → List RangeC
  | [] => l
  | c :: r => rangesJoin (rangeAdd c l) r

/-- The contribution to a slot, if the list has one. -/
def rangeFind (l : List RangeC) (slot : Nat) : Option RangeC := l.find? fun c => c.slot == slot

/-- Folds a contribution into its range slot at the commit instant (R91). -/
def rslotFold (r : RSlot) (c : RangeC) : RSlot :=
  { r with
    amax := c.amax, nan := BitVec.ofNat 32 c.nan, inf := BitVec.ofNat 32 c.inf, sat := BitVec.ofNat 32 c.sat
    gen := r.gen + 1
    scale := match c.pub with | some p => p | none => r.scale }

/-- Clears a range slot under CLR (R92): MARGIN and BIND of the slot stay. -/
def rslotClear (r : RSlot) : RSlot := { r with amax := 0, nan := 0, inf := 0, sat := 0, scale := 0x3F800000 }

end Sys2Proof.Machine
end

