-- ==== Sys2Proof/Machine/Reduce.lean ====
section
/-! DEFINITION. Reductions: group values, tree nodes and strict chain steps (R106 to R113). -/

namespace Sys2Proof.Machine

open Sys2Proof

/-- RED operations of R151. -/
abbrev redSUM : Nat := 0
/-- DOT (R151). -/
abbrev redDOT : Nat := 1
/-- MAX (R151). -/
abbrev redMAX : Nat := 2
/-- MIN (R151). -/
abbrev redMIN : Nat := 3
/-- ARGMAX (R151). -/
abbrev redARGMAX : Nat := 4
/-- ARGMIN (R151). -/
abbrev redARGMIN : Nat := 5

/-- Whether a stream is one strict-mode chain (R508): SUM, DOT, MAX or MIN of floating operands in strict mode. -/
def redIsChain (strict : Bool) (op fa : Nat) : Bool := strict && !fmtIsInt fa && decide (op ≤ 3)

/-- Format code of a stream's results (R106, R509). -/
def redFmt (op fa : Nat) : Nat :=
  if op ≤ 1 then (if fmtIsInt fa then 7 else 0) else if op ≤ 3 then fa else 7

/-- A value in a tree or chain: result pattern, order key of ARGMAX and ARGMIN, flags. -/
structure RVal where
  bits : Nat
  key : Int := 0
  fl : Fl := 0
  deriving DecidableEq, Repr

/-- The exact term of a fast-mode SUM or DOT (R106, R108 step 1). -/
def fastTerm (passes op : Nat) (t : RedTerm) : Val × Fl :=
  let (a, la) := readVal false t.fa t.a
  let (v, l) := if op = redDOT then
      let (b, lb) := readVal false t.fb t.b
      (mulPass (passesOf false passes t.fa t.fb) t.fa t.fb a b, la ||| lb)
    else (a, la)
  match v with
  | .nan _ _ _ => (v, l ||| fNV)
  | .num n m e => if m ≠ 0 ∧ expOf m e ≥ 128 then (.inf n, l ||| fOF) else (v, l)
  | .inf _ => (v, l)

/-- Truncated, aligned signed term in units of 2^q (R108 step 3). -/
def alignTerm (q : Int) (v : Val) : Int :=
  match v with
  | .num n m e =>
    let k : Nat := if q ≤ e then m * 2 ^ (e - q).toNat else m / 2 ^ (q - e).toNat
    if n then -(k : Int) else k
  | _ => 0

/-- The largest ⌊log2 |p|⌋ over the nonzero finite terms (R108 step 2). -/
def maxExp : List Val → Option Int
  | [] => none
  | .num _ m e :: r =>
    if m = 0 then maxExp r
    else match maxExp r with
      | none => some (expOf m e)
      | some x => some (if expOf m e ≤ x then x else expOf m e)
  | _ :: r => maxExp r

/-- OR of flags. -/
def orFlags (l : List Fl) : Fl := l.foldl (· ||| ·) 0

/-- A fast-mode floating group value of SUM or DOT: F32 pattern and flags (R108, R109). -/
def groupFloat (passes op : Nat) (ts : List RedTerm) : RVal :=
  let vs := ts.map (fastTerm passes op)
  let fl := orFlags (vs.map Prod.snd)
  let xs := vs.map Prod.fst
  if xs.any Val.isNan then { bits := fmtNanPat 0, fl := fl }
  else
    let pos := xs.any fun v => v == .inf false
    let neg := xs.any fun v => v == .inf true
    if pos && neg then { bits := fmtNanPat 0, fl := fl ||| fNV }
    else if pos || neg then { bits := withSign 0 neg (fmtInfPat 0), fl := fl }
    else match maxExp xs with
      | none => { bits := 0, fl := fl }
      | some e =>
        let q := e - 26
        let s := (xs.map (alignTerm q)).foldl (· + ·) 0
        let (p, f) := putVal false .rne 0 (.num (decide (s < 0)) s.natAbs q)
        { bits := p, fl := fl ||| f }

/-- An integer group value of SUM or DOT, modulo 2^32 (R112). -/
def groupInt (op : Nat) (ts : List RedTerm) : RVal :=
  let term := fun t : RedTerm =>
    let a := sint (fmtWidth t.fa) t.a
    if op = redDOT then a * sint (fmtWidth t.fb) t.b else a
  { bits := wrapInt 32 ((ts.map term).foldl (· + ·) 0) }

/-- Combines two values of a tree (R110, R112, R113): the left child is `a`. -/
def redCombine (strict : Bool) (op fmt : Nat) (a b : RVal) : RVal :=
  if op ≤ 1 then
    if fmtIsInt fmt then { bits := (a.bits + b.bits) % 2 ^ 32, fl := a.fl ||| b.fl }
    else
      let (r, f) := ariFloat false 0 .rne 0 0 0 0 0 a.bits b.bits 0
      { bits := r, fl := a.fl ||| b.fl ||| f }
  else if op ≤ 3 then
    let fl := a.fl ||| b.fl
    if fmtIsInt fmt then { bits := ariInt (if op = redMAX then 5 else 4) fmt fmt fmt a.bits b.bits, fl := fl }
    else
      let (r, f) := ariFloat strict 0 .rne (if op = redMAX then 5 else 4) fmt fmt fmt 0 a.bits b.bits 0
      { bits := r, fl := fl ||| f }
  else
    let fl := a.fl ||| b.fl
    let takeB := if op = redARGMAX then decide (a.key < b.key) else decide (b.key < a.key)
    if takeB then { bits := b.bits, key := b.key, fl := fl } else { bits := a.bits, key := a.key, fl := fl }

/-- One term as a one-element group of MAX, MIN, ARGMAX or ARGMIN (R113, R70, R71): its logical position is the ARG index. -/
def redLeaf (strict : Bool) (op : Nat) (t : RedTerm) : RVal :=
  if op ≤ 3 then
    let (p, f) := passOn strict t.fa t.a
    { bits := p, fl := f ||| flagIf (!strict && !fmtIsInt t.fa && (decodeVal t.fa t.a).isNan) fNV }
  else
    let (v, f) := readVal (strict || fmtIsInt t.fa) t.fa t.a
    { bits := t.pos, key := orderKey v, fl := f }

/-- Flags that a RED slot raises as it reads a term: flushed and NaN operands, 0 × inf, a product past the range (R74, R108 step 1, R109). A strict chain raises its flags as its steps run. -/
def redReadFl (strict : Bool) (passes op : Nat) (t : RedTerm) : Fl :=
  if fmtIsInt t.fa || redIsChain strict op t.fa then 0 else if op ≤ 1 then (fastTerm passes op t).2 else (redLeaf strict op t).fl

/-- Combines a nonempty list from left to right. -/
def redFoldl (strict : Bool) (op fmt : Nat) : RVal → List RVal → RVal
  | a, [] => a
  | a, b :: r => redFoldl strict op fmt (redCombine strict op fmt a b) r

/-- The value of a complete group, terms in index order (R107 to R109, R112, R113). -/
def groupVal (strict : Bool) (passes op fmt : Nat) (ts : List RedTerm) : RVal :=
  if op ≤ 1 then (if fmtIsInt fmt then groupInt op ts else groupFloat passes op ts)
  else match ts.map (redLeaf strict op) with
    | [] => { bits := 0 }
    | a :: r => redFoldl strict op fmt a r

/-- First value of a strict-mode chain (R111, R113). -/
def chainFirst (md : Rnd) (op fmt : Nat) (t : RedTerm) : RVal :=
  if op = redSUM then let (r, f) := putVal true md 0 (decodeVal t.fa t.a); { bits := r, fl := f }
  else if op = redDOT then let (r, f) := ariFloat true 0 md 2 0 t.fa t.fb 0 t.a t.b 0; { bits := r, fl := f }
  else { bits := t.a % 2 ^ fmtWidth fmt }

/-- Next value of a strict-mode chain (R111, R113); NaN operands in index order (R68). -/
def chainNext (md : Rnd) (op fmt : Nat) (r : Nat) (t : RedTerm) : RVal :=
  if op = redSUM then let (x, f) := ariFloat true 0 md 0 0 0 t.fa 0 r t.a 0; { bits := x, fl := f }
  else if op = redDOT then
    let rv := decodeVal 0 r
    let a := decodeVal t.fa t.a
    let b := decodeVal t.fb t.b
    let (x, f) := finish true md 0 [rv, a, b] (invalidProduct a b) (addVal (md == .rd) (mulVal a b) rv) 0
    { bits := x, fl := f }
  else
    let (x, f) := ariFloat true 0 md (if op = redMAX then 5 else 4) fmt fmt t.fa 0 r t.a 0
    { bits := x, fl := f }

/-- G of R152: 64 when every operand is 8-bit or 4-bit, else 16. -/
def groupSize (op fa fb : Nat) : Nat :=
  if fmtWidth fa ≤ 8 && (op != redDOT || fmtWidth fb ≤ 8) then 64 else 16

end Sys2Proof.Machine
end

