-- ==== Sys2Proof/Machine/Slots.lean ====
section
/-! DEFINITION. What the ARI, PAL, CVT, SKN and ST slots of a long word do at issue: checks, results in flight, flags and range contributions (02, 05, 06, 07, 08, 09). -/

namespace Sys2Proof.Machine

open Sys2Proof

/-- What a tile's run takes from its commit unit and stage. -/
structure Ctx where
  client : Nat
  unit : Nat
  tile : Nat
  /-- Index of the tile among the `total` working tiles (R200). -/
  k : Nat
  total : Nat
  strict : Bool
  passes : Nat
  scale : Nat
  amax : Bool
  round : Nat
  tag : Nat
  /-- Sequence ID, step count and whether the unit is a LOT member. -/
  seq : Nat
  step : Nat
  member : Bool
  stage : Nat
  pass : Nat
  handles : List (Option Handle)
  addr : Nat
  len : Nat
  merged : List (Nat × W32)
  deriving DecidableEq, Repr

/-- Handle A to D of a stage. -/
def Ctx.handle (c : Ctx) (i : Nat) : Option Handle := c.handles.getD i none
/-- First block of the tile's share of a handle. -/
def Ctx.firstBlock (c : Ctx) (h : Handle) : Nat := (h.share c.k c.total).1
/-- Blocks of the tile's share of a handle. -/
def Ctx.blocks (c : Ctx) (h : Handle) : Nat := (h.share c.k c.total).2
/-- Rounding mode of every slot but CVT (R81). -/
def Ctx.md (c : Ctx) : Rnd := rndOf c.round

/-- A vector register (R22). -/
def TileRun.v (r : TileRun) (i : Nat) : BitVec 2048 := tabGet 0 r.vreg i
/-- Format tag of a vector register (R140). -/
def TileRun.tag (r : TileRun) (i : Nat) : Nat := tabGet 0 r.vtag i
/-- A mask register; M0 reads as all ones (R21). -/
def TileRun.m (r : TileRun) (i : Nat) : W64 := if i = 0 then BitVec.allOnes 64 else tabGet 0 r.mask i
/-- Running index X_c (R161). -/
def TileRun.x (r : TileRun) (c : Nat) : Nat :=
  match c with
  | 0 => r.x0 | 1 => r.x1 | 2 => r.x2 | _ => r.x3

/-- What one slot gives at issue: codes found at decode and while running, results in flight, flags, contributions. -/
structure SlotOut where
  decode : List Nat := []
  codes : List Nat := []
  flights : List Flight := []
  fl : Fl := 0
  ranges : List RangeC := []
  deriving DecidableEq, Repr

/-- Whether SL is allowed for operands and result of widths `vs` where the widest is `w` (R141). -/
def sliceOk (w sl : Nat) (vs : List Nat) : Bool :=
  let narrow := vs.filter fun v => decide (v < w)
  if narrow.isEmpty then sl == 0 else narrow.all fun v => decide (sl < w / v)

/-- Element of a register of width `v` that stands for element `e` of a slice at width `w` (R141). -/
def sliceElem (w v sl e : Nat) : Nat := if v < w then sl * (2048 / w) + e else e

/-- Greatest of a list of widths. -/
def widest (l : List Nat) : Nat := greatest 4 l

/-- Whether element `e` is not gated off by a mask (R20, R142). -/
def gateOn (m : W64) (e : Nat) : Bool := m.getLsbD (e % 64)

/-- A vector result in flight: the elements not gated off, with their patterns, at width `w`. -/
def vFlight (due : Nat) (slot : Slot) (vd w tag : Nat) (l : List (Nat × Nat)) : Flight :=
  let (sel, b) := placeElems w l
  { due := due, slot := slot, w := .vreg vd sel b tag }

/-! ### ARI (R100 to R103, R147 to R149) -/

/-- Operand formats of an ARI slot: A, then B and C where the operation has them. -/
def ariOperands (op fa fb fc : Nat) : List Nat :=
  if op = 6 ∨ op = 7 ∨ op = 11 then [fa] else if op = 3 then [fa, fb, fc] else [fa, fb]

/-- Latency and occupancy of an ARI slot (R29, R32): strict mode, P passes, operation, operand formats. -/
def ariTime (strict : Bool) (passes op fa fb : Nat) : Nat × Nat :=
  if fmtIsInt fa then (4, 1)
  else if strict then (if op = 10 ∨ op = 11 then (24, 24) else (4, 16))
  else if (op = 2 ∨ op = 3) ∧ (fa = 0 ∨ fb = 0) then let p := passesOf false passes fa fb; (3 + p, p)
  else (4, 1)

/-- One element of an ARI slot that writes a vector register. -/
def ariElem (c : Ctx) (op fd fa fb fc a b x : Nat) (sel : Bool) : Nat × Fl :=
  if op = 9 then ariSel c.strict fd a b sel
  else if fmtIsInt fa then (ariInt op fd fa fb a b, 0)
  else ariFloat c.strict c.passes c.md op fd fa fb fc a b x

/-- A CMP slot (R101). -/
def ariCmpOut (c : Ctx) (r : TileRun) (t w : Nat) : SlotOut :=
  let va := bits w 14 10
  let vb := bits w 19 15
  let sl := bits w 28 26
  let fa := r.tag va
  let fb := r.tag vb
  let wa := fmtWidth fa
  let wb := fmtWidth fb
  if !decide (sl < 32 / widest [wa, wb]) then { decode := [cDECODE] }
  else if !ariFormatsOk c.strict 8 0 fa fb 0 then { codes := [cOPERAND] }
  else
    let m := r.m (bits w 22 20)
    let on := (upTo 64).filter (gateOn m)
    let res := on.map fun i =>
      (i, ariCmp c.strict (bits w 31 29) fa fb (vElem (r.v va) wa (64 * sl + i)) (vElem (r.v vb) wb (64 * sl + i)))
    let b := res.foldl (fun n p => if p.2.1 then n + 2 ^ p.1 else n) 0
    { flights := [{ due := t + 4, slot := .ari, w := .mreg (bits w 7 5) m (BitVec.ofNat 64 b) }]
      fl := orFlags (res.map fun p => p.2.2) }

/-- An ARI slot issued in cycle `t` (R147). -/
def ariOut (c : Ctx) (r : TileRun) (t w : Nat) : SlotOut :=
  let op := bits w 4 0
  if op = 8 then ariCmpOut c r t w
  else
    let vd := bits w 9 5
    let va := bits w 14 10
    let vb := bits w 19 15
    let fd := bits w 25 23
    let sl := bits w 28 26
    let fa := r.tag va
    let fb := r.tag vb
    let fc := r.tag vd
    let ws := (fd :: ariOperands op fa fb fc).map fmtWidth
    let wd := widest ws
    if !sliceOk wd sl ws then { decode := [cDECODE] }
    else if !ariFormatsOk c.strict op fd fa fb fc then { codes := [cOPERAND] }
    else
      let m := r.m (bits w 22 20)
      let sm := r.m (bits w 31 29)
      let at_ := fun (v f e : Nat) => vElem (r.v v) (fmtWidth f) (sliceElem wd (fmtWidth f) sl e)
      let res := ((upTo (2048 / wd)).filter (gateOn m)).map fun e =>
        (sliceElem wd (fmtWidth fd) sl e, ariElem c op fd fa fb fc (at_ va fa e) (at_ vb fb e) (at_ vd fc e) (gateOn sm e))
      { flights := [vFlight (t + (ariTime c.strict c.passes op fa fb).1) .ari vd (fmtWidth fd) fd (res.map fun p => (p.1, p.2.1))]
        fl := orFlags (res.map fun p => p.2.2) }

/-- Cycles for which an ARI slot is occupied (R32). -/
def ariBusy (c : Ctx) (r : TileRun) (w : Nat) : Nat :=
  (ariTime c.strict c.passes (bits w 4 0) (r.tag (bits w 14 10)) (r.tag (bits w 19 15))).2

/-! ### PAL (R121 to R127, R133, R150) -/

/-- A PAL slot issued in cycle `t`, on the active palette bank. -/
def palOut (c : Ctx) (r : TileRun) (bank : Bytes) (t w : Nat) : SlotOut :=
  let vd := bits w 10 6
  let va := bits w 15 11
  let fd := bits w 21 19
  let sl := bits w 24 22
  let fa := r.tag va
  let wd := widest [fmtWidth fa, fmtWidth fd]
  let en := palEntry bank (bits w 5 0)
  if !sliceOk wd sl [fmtWidth fa, fmtWidth fd] then { decode := [cDECODE] }
  else
    let codes := codeIf (fmtIsInt fa || fmtIsInt fd || (c.strict && en.valid && en.cr)) cOPERAND ++ codeIf (!en.valid) cPALETTE
    if codes ≠ [] then { codes := codes }
    else
      let m := r.m (bits w 18 16)
      let res := ((upTo (2048 / wd)).filter (gateOn m)).map fun e =>
        (sliceElem wd (fmtWidth fd) sl e, palElem c.strict c.md bank en fa fd (vElem (r.v va) (fmtWidth fa) (sliceElem wd (fmtWidth fa) sl e)))
      { flights := [vFlight (t + 6) .pal vd (fmtWidth fd) fd (res.map fun p => (p.1, p.2.1))]
        fl := orFlags (res.map fun p => p.2.2) }

/-! ### CVT (R78 to R96, R116, R153) -/

/-- n of the quantising factor q = 2^n that a CVT slot uses: from the merged A in pass 2 of CURRENT, else from the committed AMAX (R89, R93, R94). -/
def cvtQ (c : Ctx) (d : Handle) (fd : Nat) : Int :=
  match c.pass, c.merged.find? fun p => p.1 == d.rslot with
  | 2, some p => qExp p.2.toNat fd d.margin
  | 2, none => qExp 0 fd d.margin
  | _, _ => qExp d.amax.toNat fd d.margin

/-- s_src of a CVT slot, none where R116 makes it fault SCALE. -/
def cvtSrc (c : Ctx) (w : Nat) : Option Nat :=
  match c.handle (bits w 17 16), c.handle (bits w 21 20) with
  | some a, some b => if bit w 22 then factorAB a.scale.toNat b.scale.toNat else some a.scale.toNat
  | some a, none => some a.scale.toNat
  | none, _ => none

/-- c of R86 and s_src as AMAX uses it; none is fault SCALE. Under NONE c is 1 and x_in = x. -/
def cvtFactor (c : Ctx) (d : Handle) (fd w : Nat) : Option (Nat × Option Nat) :=
  if c.scale = 0 then some (0x3F800000, none)
  else match cvtSrc c w with
    | none => none
    | some src =>
      let f := if c.scale = 1 then factorFixed src d.scale.toNat else factorQ src (cvtQ c d fd)
      f.map fun x => (x, some src)

/-- Whether DELAYED or CURRENT may convert into a handle (R88). -/
def cvtDestOk (c : Ctx) (d : Handle) : Bool := decide (c.scale < 2) || (d.bound && decide (d.cls ≤ 3))

/-- Rounding of element number `k` of a CVT slot (R80, R83): SR takes the element's random word. -/
def cvtRnd (c : Ctx) (d : Handle) (k : Nat) : Rnd :=
  if c.round = 2 then .sr (srWord c.tag d.index c.seq c.step (d.first c.k c.total + k)) else rndOf c.round

/-- Contribution of one converted element (R90). -/
def cvtRange (c : Ctx) (slot fa pat : Nat) (src : Option Nat) (sat : Bool) : RangeC :=
  let x := (readVal c.strict fa pat).1
  { slot := slot, amax := BitVec.ofNat 32 (if x.isNan || x.isInf then 0 else xinPat c.strict fa pat src)
    nan := b2n x.isNan, inf := b2n x.isInf, sat := b2n sat }

/-- Key of the element count of a destination handle (R83). -/
def cvtKey (c : Ctx) (w : Nat) : Nat := 4 * c.stage + bits w 19 18

/-- Elements that a CVT slot produces in one issue (R79). -/
def cvtElems (r : TileRun) (w : Nat) : Nat := 2048 / widest [fmtWidth (r.tag (bits w 9 5)), fmtWidth (bits w 15 13)]

/-- Whether the handles that a CVT slot names are present (R144). -/
def cvtNamed (c : Ctx) (w : Nat) : Bool :=
  (c.handle (bits w 17 16)).isSome && (c.handle (bits w 19 18)).isSome && (!bit w 22 || (c.handle (bits w 21 20)).isSome)

/-- Whether a CVT slot's scale mode or factor is a fault, judged from what is sampled at start (R87, R88, R206). -/
def cvtBad (c : Ctx) (w : Nat) : Bool :=
  match c.handle (bits w 19 18) with
  | some d => cvtNamed c w && (!cvtDestOk c d || (cvtFactor c d (bits w 15 13) w).isNone)
  | none => false

/-- Range slot and n of q = 2^n of each CVT slot that publishes a SCALE (R96). -/
def cvtPubs (c : Ctx) (ws : List Nat) : List (Nat × Int) :=
  if c.scale < 2 then []
  else (ws.filter (cvtNamed c)).filterMap fun w => (c.handle (bits w 19 18)).map fun d => (d.rslot, cvtQ c d (bits w 15 13))

/-- Whether two CVT slots would publish different scales for one range slot (R96). -/
def pubsDiffer (l : List (Nat × Int)) : Bool := l.any fun x => l.any fun y => x.1 == y.1 && x.2 != y.2

/-- Code SCALE of the CVT slots of a stage's table: a mode or factor that is a fault, or, where `pub`, scales that differ (R87, R88, R96). -/
def scaleCodes (c : Ctx) (ws : List Nat) (pub : Bool) : List Nat := codeIf (ws.any (cvtBad c) || (pub && pubsDiffer (cvtPubs c ws))) cSCALE

/-- A CVT slot issued in cycle `t`. With AMAX it contributes to its slot even where every element is gated off: A is then 0 and GEN rises (DESIGN CHOICE, log 108). -/
def cvtOut (c : Ctx) (r : TileRun) (t w : Nat) : SlotOut :=
  let vd := bits w 4 0
  let va := bits w 9 5
  let fd := bits w 15 13
  let sl := bits w 25 23
  let fa := r.tag va
  let ws := [fmtWidth fa, fmtWidth fd]
  let wd := widest ws
  if !sliceOk wd sl ws then { decode := [cDECODE] }
  else match c.handle (bits w 19 18) with
    | none => {}
    | some d =>
      match cvtDestOk c d, cvtFactor c d fd w with
      | false, _ => { codes := [cSCALE] }
      | _, none => { codes := [cSCALE] }
      | true, some (f, src) =>
        let m := r.m (bits w 12 10)
        let k := tabGet 0 r.cvtCount (cvtKey c w)
        let res := ((upTo (2048 / wd)).filter (gateOn m)).map fun e =>
          let pat := vElem (r.v va) (fmtWidth fa) (sliceElem wd (fmtWidth fa) sl e)
          (sliceElem wd (fmtWidth fd) sl e, pat, cvtElem c.strict (cvtRnd c d (k + e)) fa fd pat f)
        let pub : Option W32 := if c.scale ≥ 2 ∧ c.pass ≠ 1 then some (BitVec.ofNat 32 (pow2F32 (-(cvtQ c d fd)))) else none
        let clash := match pub, rangeFind (rangesJoin r.ranges r.preRanges) d.rslot with
          | some p, some o => o.pub.any fun p' => p' != p
          | _, _ => false
        if clash then { codes := [cSCALE] }
        else
          { flights := [vFlight (t + 3) .cvt vd (fmtWidth fd) fd (res.map fun p => (p.1, p.2.2.pat))]
            fl := orFlags (res.map fun p => p.2.2.flags)
            ranges := if c.amax then [{ slot := d.rslot, pub := pub }] ++ res.map fun p => cvtRange c d.rslot fa p.2.1 src p.2.2.sat else [] }

/-! ### SKN (R154, R167 to R171) -/

/-- Whether CNT is allowed for the operation and width (R167, R168). -/
def sknOk (op w cnt : Nat) : Bool :=
  if op ≤ 2 then decide (2 ^ cnt < 2048 / w) else if op = 3 then cnt == 3 else cnt == 8 && w != 4

/-- Elements that SKN writes, as (destination, pattern) in the order of R169; every position that the operation leaves unfilled is listed with 0 first, but for SCATTER. -/
def sknElems (op w cnt : Nat) (a b : BitVec 2048) : List (Nat × Nat) :=
  let n := 2048 / w
  let d := 2 ^ cnt
  match op with
  | 0 => (upTo n).map fun e => ((e + d) % n, vElem a w e)
  | 1 => (upTo n).map fun e => (e, if e < d then 0 else vElem a w (e - d))
  | 2 => (upTo n).map fun e => (e, if e + d < n then vElem a w (e + d) else 0)
  | 3 => (upTo n).map fun e => let l := e % 64; (e, vElem a w (e - l + (8 * (l % 8) + l / 8)))
  | 4 => (upTo n).map fun e => let i := vElem b w e; (e, if i < n then vElem a w i else 0)
  | _ => ((upTo n).filter fun e => decide (vElem b w e < n)).map fun e => (vElem b w e, vElem a w e)

/-- An SKN slot issued in cycle `t`. -/
def sknOut (r : TileRun) (t w : Nat) : SlotOut :=
  let op := bits w 2 0
  let va := bits w 12 8
  let cnt := bits w 21 18
  let tag := r.tag va
  let wd := fmtWidth tag
  if !sknOk op wd cnt then { decode := [cDECODE] }
  else
    let m := r.m (bits w 24 22)
    let l := (sknElems op wd cnt (r.v va) (r.v (bits w 17 13))).filter fun p => gateOn m p.1
    { flights := [vFlight (t + 4 + cnt) .skn (bits w 7 3) wd tag l] }

/-! ### LD and ST addresses (R146) -/

/-- Block of an LD or ST in repetition `rho`, and whether its bytes lie inside the share; false is fault BOUNDS. -/
def ldStBlock (c : Ctx) (r : TileRun) (w rho : Nat) (h : Handle) : Nat × Bool :=
  let b : Int := (bits w 22 15 : Nat) + (if bit w 11 then ldStride w * r.x (bits w 10 9) else 0) + rho
  (b.toNat, decide (0 ≤ b) && decide (b < c.blocks h))

/-- Bytes that an LD or ST moves (R145). -/
def ldStBytes (w : Nat) : Nat := 64 * (bits w 8 7 + 1)

/-- Mask byte of the bits of byte `i` of a register's bytes, at width `w`, whose elements are not gated off. -/
def gateByte (m : W64) (w i : Nat) : Byte :=
  if w = 4 then (if gateOn m (2 * i) then 0x0F else 0) ||| (if gateOn m (2 * i + 1) then 0xF0 else 0)
  else if gateOn m (8 * i / w) then 0xFF else 0

/-- An ST slot issued in cycle `t`; pass 1 of CURRENT suppresses its effect (R94). -/
def stOut (c : Ctx) (r : TileRun) (t rho w : Nat) : SlotOut :=
  match c.handle (ldHnd w) with
  | none => {}
  | some h =>
    let (b, ok) := ldStBlock c r w rho h
    if !ok then { codes := [cBOUNDS] }
    else if c.pass = 1 then {}
    else
      let n := ldStBytes w
      let bs := vStore h.width n (r.v (bits w 4 0))
      let m := r.m (bits w 14 12)
      let room := h.bytes - 256 * (c.firstBlock h + b)
      let data := (bs.zipIdx.filter fun p => decide (p.2 < room)).map fun p => (256 * b + p.2, gateByte m h.width p.2, p.1)
      { flights := [{ due := t + 2, slot := .st, w := .store (ldHnd w) (data.filter fun p => p.2.1 != 0) }] }

end Sys2Proof.Machine
end

