-- ==== Sys2Proof/Machine/Streams.lean ====
section
/-! DEFINITION. Reduction streams: feeding, group values, tree nodes, strict chains and what travels on the fabric (R106 to R115, R152, R179, R508). -/

namespace Sys2Proof.Machine

open Sys2Proof

/-- G (R152). -/
def Stream.g (s : Stream) : Nat := if s.g64 then 64 else 16
/-- n = ⌈K/G⌉ (R152). -/
def Stream.n (s : Stream) : Nat := (s.k + s.g - 1) / s.g
/-- Rows of which the tile's share holds a term. -/
def Stream.localRows (s : Stream) : Nat :=
  if s.count = 0 ∨ s.rows ≤ s.r0 then 0
  else let last := (s.b + s.count - 1) / s.k; (if last < s.rows then last else s.rows - 1) - s.r0 + 1
/-- One past the last entry that the stream owns (R114, R152). -/
def Stream.stop (s : Stream) : Nat := s.acc + s.localRows * s.n
/-- Entry of a group position of a row (R152). -/
def Stream.entry (s : Stream) (row pos : Nat) : Nat := s.acc + (row - s.r0) * s.n + pos
/-- Index of the working tile whose share holds logical index `j` (R200); `none`: this tile. -/
def Stream.holder (s : Stream) (j : Nat) : Option Nat :=
  match s.split with
  | none => none
  | some (b, per, t, me) =>
    ((upTo t).find? fun k => decide (k * b / t ≤ j / per) && decide (j / per < (k + 1) * b / t)).bind fun k =>
      if k = me then none else some k

/-- What an arrival at a stream gives: the stream, entries written, flags, and what is sent: tile index, row, body. -/
structure Landing where
  stream : Stream
  accs : List (Nat × Nat) := []
  fl : Fl := 0
  sends : List (Nat × Nat × FabricBody) := []
  deriving DecidableEq, Repr

/-- Nodes at a level of a tree over n groups (R110). -/
def nodesAt (n level : Nat) : Nat := (n + 2 ^ level - 1) / 2 ^ level

/-- The node at a level and index of a row that waits on this tile. -/
def Stream.node? (s : Stream) (row level index : Nat) : Option Node :=
  s.nodes.find? fun d => d.row == row && d.level == level && d.index == index

/-- The stream without a waiting node. -/
def Stream.takeNode (s : Stream) (d : Node) : Stream := { s with nodes := s.nodes.filter (· != d) }

/-- Enters a complete node into its tree: combines it with its sibling, passes it on unchanged, sends a right child to the tile of its left sibling, or keeps it (R110, R179). -/
def climb (strict : Bool) : Nat → Node → Landing → Landing
  | 0, _, l => l
  | f + 1, d, l =>
    let s := l.stream
    let l := { l with accs := l.accs ++ [(s.entry d.row (d.index * 2 ^ d.level), d.bits)] }
    let nl := nodesAt s.n d.level
    let join := fun (a b : Node) =>
      let v := redCombine strict s.op s.fmt { bits := a.bits, key := a.key } { bits := b.bits, key := b.key }
      ({ row := d.row, level := d.level + 1, index := d.index / 2, bits := v.bits, key := v.key }, v.fl)
    if nl ≤ 1 then { l with stream := { s with results := insertUp d.row s.results } }
    else if d.index % 2 = 1 then
      match s.holder (d.row * s.k + (d.index - 1) * 2 ^ d.level * s.g) with
      | some k => { l with sends := l.sends ++ [(k, d.row, .node d.level d.index d.bits d.key)] }
      | none =>
        match s.node? d.row d.level (d.index - 1) with
        | some a => let (p, fl) := join a d; climb strict f p { l with stream := s.takeNode a, fl := l.fl ||| fl }
        | none => { l with stream := { s with nodes := s.nodes ++ [d] } }
    else if d.index + 1 ≥ nl then climb strict f { d with level := d.level + 1, index := d.index / 2 } l
    else match s.node? d.row d.level (d.index + 1) with
      | some b => let (p, fl) := join d b; climb strict f p { l with stream := s.takeNode b, fl := l.fl ||| fl }
      | none => { l with stream := { s with nodes := s.nodes ++ [d] } }

/-- Levels that any tree can have (K is a 32-bit size). -/
abbrev treeFuel : Nat := 34

/-- Whether a term belongs to a group. -/
def RedTerm.inGroup (t : RedTerm) (g row grp : Nat) : Bool := t.row == row && t.pos / g == grp

/-- Forms the value of a group once its last term has arrived, terms in index order (R108, R152). -/
def formGroup (c : Ctx) (row grp : Nat) (l : Landing) : Landing :=
  let s := l.stream
  let ts := s.waiting.filter fun t => t.inGroup s.g row grp
  let size := if s.k < (grp + 1) * s.g then s.k - grp * s.g else s.g
  if ts.length < size then l
  else
    let v := groupVal c.strict c.passes s.op s.fmt (sortBy (fun a b => decide (a.pos ≤ b.pos)) ts)
    let s := { s with waiting := s.waiting.filter fun t => !t.inGroup s.g row grp }
    climb c.strict treeFuel { row := row, level := 0, index := grp, bits := v.bits, key := v.key } { l with stream := s, fl := l.fl ||| v.fl }

/-- The groups of a list of terms, each once, in order. -/
def groupsOf (g : Nat) : List RedTerm → List (Nat × Nat)
  | [] => []
  | t :: r => let l := groupsOf g r; if l.contains (t.row, t.pos / g) then l else (t.row, t.pos / g) :: l

/-- Terms of groups that this tile holds, and terms that travel to the tile of their group's first index (log 9). -/
def landTerms (c : Ctx) (ts : List RedTerm) (l : Landing) : Landing :=
  (groupsOf l.stream.g ts).foldl (fun l p =>
    let s := l.stream
    let mine := ts.filter fun t => t.inGroup s.g p.1 p.2
    match s.holder (p.1 * s.k + p.2 * s.g) with
    | some k => { l with sends := l.sends ++ [(k, p.1, .terms mine)] }
    | none => formGroup c p.1 p.2 { l with stream := { s with waiting := s.waiting ++ mine } }) l

/-- First group position that this tile holds for a row (R508). -/
def Stream.firstPos (s : Stream) (row : Nat) : Nat := (s.b - row * s.k) / s.g

/-- Adds one term to a strict chain, and passes the running value on or delivers the result after the tile's last term of the row (R508). -/
def chainTerm (c : Ctx) (l : Landing) (t : RedTerm) : Landing :=
  let s := l.stream
  let v := match s.chains.find? fun x => x.1 == t.row with
    | some (_, r, _) => chainNext c.md s.op s.fmt r t
    | none => chainFirst c.md s.op s.fmt t
  let rest := s.chains.filter fun x => x.1 != t.row
  let l := { l with fl := l.fl ||| v.fl, accs := l.accs ++ [(s.entry t.row (s.firstPos t.row), v.bits)] }
  let j := t.row * s.k + t.pos
  if t.pos + 1 = s.k then
    match s.holder (t.row * s.k) with
    | some k => { l with stream := { s with chains := rest }, sends := l.sends ++ [(k, t.row, .result v.bits)] }
    | none => { l with stream := { s with chains := rest, results := insertUp t.row s.results }, accs := l.accs ++ [(s.entry t.row 0, v.bits)] }
  else if j + 1 = s.b + s.count then
    match s.holder (j + 1) with
    | some k => { l with stream := { s with chains := rest }, sends := l.sends ++ [(k, t.row, .chain (t.pos + 1) v.bits)] }
    | none => { l with stream := { s with chains := (t.row, v.bits, t.pos + 1) :: rest } }
  else { l with stream := { s with chains := (t.row, v.bits, t.pos + 1) :: rest } }

/-- Terms of an issued RED slot reach their accumulators. -/
def landRed (c : Ctx) (s : Stream) (ts : List RedTerm) : Landing :=
  if s.chain then ts.foldl (chainTerm c) { stream := s } else landTerms c ts { stream := s }

/-- A fabric accumulator write reaches a stream (R179, R508; log 9). -/
def landFabric (c : Ctx) (s : Stream) (row : Nat) (b : FabricBody) : Landing :=
  match b with
  | .node level index v key => climb c.strict treeFuel { row := row, level := level, index := index, bits := v, key := key } { stream := s }
  | .chain next v => { stream := { s with chains := (row, v, next) :: s.chains }, accs := [(s.entry row (s.firstPos row), v)] }
  | .result v => { stream := { s with results := insertUp row s.results }, accs := [(s.entry row 0, v)] }
  | .terms ts => landTerms c ts { stream := s }
  | .read => { stream := s }

/-- Rows whose result is to land on this tile: those whose index 0 its share holds (R152, R508). -/
def Stream.ownRows (s : Stream) : List Nat :=
  ((upTo s.localRows).map fun i => s.r0 + i).filter fun r => decide (s.b ≤ r * s.k)

/-- Whether every result of the stream has landed on this tile (R115). -/
def Stream.complete (s : Stream) : Bool := s.ownRows.all fun r => s.results.contains r

/-! ### The RED slot (R151, R152) -/

/-- The stream at base ACC (R152). -/
def TileRun.stream? (r : TileRun) (acc : Nat) : Option Stream := r.streams.find? fun s => s.acc == acc

/-- Whether some unfinished stream other than that at `except` owns an entry of [lo, hi) (R114). -/
def TileRun.owned (r : TileRun) (except : Option Nat) (lo hi : Nat) : Bool :=
  r.streams.any fun s => some s.acc != except && decide (s.acc < hi) && decide (lo < s.stop)

/-- ACC of a RED slot. -/
def redAcc (w : Nat) : Nat := 8 * bits w 31 19

/-- A new stream as a RED slot opens it (R152). Its G and its operand class are those of this first slot (DESIGN CHOICE, log 110). -/
def newStream (c : Ctx) (h : Handle) (op hnd acc fa fb : Nat) : Stream :=
  let (f, n) := h.share c.k c.total
  let k := nth h.dims 0
  let b := f * h.perBlock
  { acc := acc, op := op, hnd := hnd, fmt := fa, chain := redIsChain c.strict op fa
    k := k, rows := h.elems / k, b := b, count := n * h.perBlock, r0 := b / k, g64 := groupSize op fa fb == 64
    split := if h.cls = 4 ∨ h.dist = 1 then none else some (h.blocks, h.perBlock, c.total, c.k) }

/-- The terms that a RED issue feeds; those beyond the rows or the share are discarded (R152). -/
def redTerms (r : TileRun) (s : Stream) (wd sl va vb fa fb : Nat) : List RedTerm :=
  let es := (upTo (2048 / wd)).filter fun e => decide (s.terms + e < s.count) && decide ((s.b + s.terms + e) / s.k < s.rows)
  es.map fun e =>
    let j := s.b + s.terms + e
    { row := j / s.k, pos := j % s.k
      a := vElem (r.v va) (fmtWidth fa) (sliceElem wd (fmtWidth fa) sl e), fa := fa
      b := if s.op = redDOT then vElem (r.v vb) (fmtWidth fb) (sliceElem wd (fmtWidth fb) sl e) else 0, fb := fb }

/-- What a RED slot gives at issue. -/
structure RedOut where
  decode : List Nat := []
  codes : List Nat := []
  /-- The stream after the issue, whether it is new, the result in flight, the cycles for which the slot is occupied. -/
  stream : Option Stream := none
  isNew : Bool := false
  flights : List Flight := []
  fl : Fl := 0
  busy : Nat := 1
  /-- A strict chain needs a value that has not arrived (R508). -/
  wait : Bool := false
  deriving DecidableEq, Repr

/-- Latency and occupancy of a RED slot (R29, R32). -/
def redTime (strict : Bool) (passes op fa fb : Nat) : Nat × Nat :=
  if fmtIsInt fa then (5, 1)
  else if strict then (5, 16)
  else if op = redDOT ∧ (fa = 0 ∨ fb = 0) then let p := passesOf false passes fa fb; (4 + p, p)
  else (5, 1)

/-- Formats of the operands of a RED slot. -/
def redFmts (r : TileRun) (w : Nat) : Nat × Nat :=
  let fa := r.tag (bits w 7 3)
  (fa, if bits w 2 0 = redDOT then r.tag (bits w 12 8) else fa)

/-- A RED slot issued in cycle `t`. -/
def redOut (c : Ctx) (r : TileRun) (t w : Nat) : RedOut :=
  let op := bits w 2 0
  let (fa, fb) := redFmts r w
  let ws := [fmtWidth fa, fmtWidth fb]
  let wd := widest ws
  let sl := bits w 17 15
  if !sliceOk wd sl ws then { decode := [cDECODE] }
  else match c.handle (redHnd w) with
    | none => {}
    | some h =>
      let old := r.stream? (redAcc w)
      let s := match old with
        | some s => s
        | none => newStream c h op (redHnd w) (redAcc w) fa fb
      let codes :=
        codeIf (fmtIsInt fa != fmtIsInt fb || fmtIsInt s.fmt != fmtIsInt fa || ((op == 2 || op == 3) && s.fmt != fa)) cOPERAND
          ++ codeIf (s.op != op || s.hnd != redHnd w || decide (s.stop > 65536)
              || (old.isNone && (decide (r.streamCount ≥ 8) || r.owned none s.acc s.stop))) cACCUMULATOR
      let ts := redTerms r s wd sl (bits w 7 3) (bits w 12 8) fa fb
      let (lat, busy) := redTime c.strict c.passes op fa fb
      { codes := codes, stream := some { s with terms := s.terms + 2048 / wd }, isNew := old.isNone
        flights := [{ due := t + lat, slot := .red, w := .red s.acc ts }], fl := orFlags (ts.map (redReadFl c.strict c.passes op)), busy := busy
        wait := s.chain && (match ts with
          | [] => false
          | x :: _ => x.pos != 0 && s.terms == 0 && !(s.chains.any fun y => y.1 == x.row)) }

/-! ### Landing of results -/

/-- Writes patterns into accumulator entries and sets the format codes of the rows they touch (R509). -/
def TileRun.putAcc (r : TileRun) (fmt : Nat) (l : List (Nat × Nat)) : TileRun :=
  { r with
    acc := l.foldl (fun t p => tabPut t p.1 (BitVec.ofNat 32 p.2)) r.acc
    accFmt := l.foldl (fun t p => tabPut t (p.1 / 64) fmt) r.accFmt }

/-- Takes what an arrival at a stream gives into the tile's run. -/
def TileRun.takeLanding (r : TileRun) (l : Landing) : TileRun :=
  let r := r.putAcc (redFmt l.stream.op l.stream.fmt) l.accs
  { r with flags := r.flags ||| l.fl, streams := r.streams.map fun s => if s.acc = l.stream.acc then l.stream else s }

/-- Range of targets that a result in flight writes: class (0 vector, 1 mask, 2 accumulator), first, last; none for ST and M0 (R31). -/
def Flight.target (r : TileRun) (f : Flight) : Option (Nat × Nat × Nat) :=
  match f.w with
  | .vreg v _ _ _ => some (0, v, v)
  | .mreg m _ _ => if m = 0 then none else some (1, m, m)
  | .acc e vs _ => some (2, e, e + vs.length - 1)
  | .red acc ts =>
    match r.stream? acc, ts.head?, ts.getLast? with
    | some s, some a, some b => some (2, s.entry a.row (a.pos / s.g), s.entry b.row (b.pos / s.g))
    | _, _, _ => none
  | .store _ _ => none

/-- Whether two results reach one register, mask or entry in one cycle (R31). -/
def Flight.clash (r : TileRun) (f g : Flight) : Bool :=
  f.due == g.due &&
    (match f.target r, g.target r with
     | some (a, lo, hi), some (b, lo', hi') => a == b && decide (lo ≤ hi') && decide (lo' ≤ hi)
     | _, _ => false)

/-- Whether a list of new results clashes with results in flight or within itself (R31). -/
def clashes (r : TileRun) (flying : List Flight) : List Flight → Bool
  | [] => false
  | f :: l => flying.any (f.clash r) || clashes r (f :: flying) l

end Sys2Proof.Machine
end

