-- ==== Sys2Proof/Machine/TileRun.lean ====
section
/-! DEFINITION. The run of a commit unit on a tile: where operands lie, landing of results, and the issue of one repetition of a long word (02, 08, 09). -/

namespace Sys2Proof.Machine

open Sys2Proof

/-- Index of `x` in a list. -/
def indexIn (l : List Nat) (x : Nat) : Nat := (l.takeWhile (· != x)).length

/-- A stage of a unit. -/
def CUnit.stageAt (u : CUnit) (i : Nat) : Stage := u.stages.getD i { desc := 0, handles := [] }

/-- Tiles of a side of a unit. -/
def CUnit.sideTiles (u : CUnit) (d : Side) : List Nat :=
  match d with
  | .main => u.tiles
  | .pair => u.pairTiles
  | .third => u.thirdTiles

/-- Index among the working tiles, and their number, of the tile at place `i` of a side (R200, R448): the pair and the third side are whole on this wafer. -/
def CUnit.shareAt (u : CUnit) (d : Side) (i : Nat) : Nat × Nat :=
  if d == .main then (i + u.first, u.total) else (i, (u.sideTiles d).length)

/-- Number of a side. -/
def sideNo (d : Side) : Nat :=
  match d with
  | .main => 0
  | .pair => 1
  | .third => 2

/-- What a tile's run takes from its unit and stage. -/
def State.ctx (s : State) (a : Nat) (r : TileRun) (u : CUnit) : Ctx :=
  let st := u.stageAt r.stage
  let sh := u.shareAt r.side (indexIn (u.sideTiles r.side) a)
  { client := u.client, unit := u.id, tile := a, k := sh.1, total := sh.2
    strict := dStrict st.desc, passes := dPasses st.desc, scale := dScale st.desc, amax := dAmax st.desc, round := dRound st.desc
    tag := u.tag.toNat
    seq := if u.isMember then s.seqOf u else 0
    step := match u.member with | some m => m.step | none => 0
    member := u.isMember, stage := r.stage, pass := r.pass, handles := st.handles
    addr := dTableAddr st.desc, len := dTableLen st.desc, 
    merged := (u.merged.filter fun x => x.1 / 1024 == sideNo r.side).map fun x => (x.1 % 1024, x.2) }

/-- The active bank of a palette or table store. -/
def BankStore.bank (b : BankStore) : Bytes := if b.active = 0 then b.bank0 else b.bank1
/-- The inactive bank. -/
def BankStore.other (b : BankStore) : Bytes := if b.active = 0 then b.bank1 else b.bank0
/-- Writes the inactive bank. -/
def BankStore.setOther (b : BankStore) (x : Bytes) : BankStore := if b.active = 0 then { b with bank1 := x } else { b with bank0 := x }

/-! ### Where a handle's bytes lie -/

/-- Owner of the window that holds byte `o` of a local share of handle `i`, and the offset in that window (R198, R199). -/
def Ctx.slotOf (c : Ctx) (u : CUnit) (h : Handle) (i o : Nat) : Owner × Nat :=
  if h.cls = 4 then (.seq c.client u.entry ((h.base + o) / 65536), (h.base + o) % 65536)
  else if h.cls = 0 then (.record c.client h.key (o / 65536), o % 65536)
  else (.staged c.client (4 * c.stage + i) (o / 65536), o % 65536)

/-- Staging key of byte `b` of a handle's tensor (R433): HBM and REMOTE_HBM by global address; a VAT record of a wafer, in SPACE 3 of the key, by record and byte. -/
def stageKey (wafer : Nat) (h : Handle) (b : Nat) : Nat :=
  if h.isHbm then (gaOf (if h.cls = 1 then wafer else h.wafer) 1 (h.addr + b)).toNat
  else h.vatIndex % 2 ^ 16 * 2 ^ 36 + b % 2 ^ 36 + h.wafer * 2 ^ 52 + 3 * 2 ^ 56

/-! ### Partitions over several wafers (R448) -/

/-- Wafers that hold strips of a partition homed here, ascending, with their working tiles (R448). -/
def State.spread (s : State) (p : Nat) : List (Nat × Nat) :=
  sortBy (fun x y => decide (x.1 ≤ y.1))
    ((s.frm.waferId, (s.tilesOf p).length) :: (s.frm.stack.widened.filter fun w => w.1 == p).map fun w => (w.2.1, w.2.2))

/-- Index, in the order of R448, of the first working tile on a wafer. -/
def spreadFirst (l : List (Nat × Nat)) (w : Nat) : Nat := total ((l.filter fun x => decide (x.1 < w)).map Prod.snd)
/-- T of R200 over all wafers. -/
def spreadTotal (l : List (Nat × Nat)) : Nat := total (l.map Prod.snd)
/-- The wafer that holds working tile `k` in the order of R448. -/
def spreadWafer : List (Nat × Nat) → Nat → Option Nat
  | [], _ => none
  | x :: r, k => if k < x.2 then some x.1 else spreadWafer r (k - x.2)

/-- A VAT record of a client: by its index as it stands now, or by its key as the unit that holds it has it (R208). -/
def State.recHandle (s : State) (client rec : Nat) : Handle :=
  let now := s.handleOf client (rec % 2 ^ 16) true (s.trec client (rec % 2 ^ 16))
  if rec < 2 ^ 16 ∨ now.key = rec then now else (s.liveHandle client rec).getD now

/-- Index of the working tile whose share of a SPLIT or ONE record holds byte `b` (R200, R448). -/
def State.vatHolder (s : State) (client : Nat) (h : Handle) (b : Nat) : Option Nat :=
  h.holder (spreadTotal (s.spread (s.client client).bindPart)) (b / 256 * h.perBlock)

/-- Tile, window and offset that hold byte `b` of a VAT record of a client, in the shares of its partition (R199, R200, R448). -/
def State.locateVat (s : State) (client rec b : Nat) : Option (Nat × Nat × Nat) :=
  let h := s.recHandle client rec
  let p := (s.client client).bindPart
  let tiles := s.tilesOf p
  let l := s.spread p
  let first := spreadFirst l s.frm.waferId
  let find := fun (a o : Nat) => ((s.tile a).find .dry (.record client h.key (o / 65536))).map fun w => (a, w, o % 65536)
  if h.dist = 1 then tiles.findSome? fun a => find a b
  else match s.vatHolder client h b with
    | some k => if first ≤ k then (tiles[k - first]?).bind fun a => find a (b - 256 * (h.share k (spreadTotal l)).1) else none
    | none => none

/-- The other wafer on whose tiles byte `b` of a VAT record of this wafer's client lies (R448). -/
def State.vatFar (s : State) (client rec b : Nat) : Option Nat :=
  let h := s.recHandle client rec
  if h.dist = 1 then none
  else ((s.vatHolder client h b).bind (spreadWafer (s.spread (s.client client).bindPart))).bind fun w => if w = s.frm.waferId then none else some w

/-- The tile to which a read request for a VAT record goes (R178): the one whose vat holds it. -/
def State.vatTile (s : State) (client rec b : Nat) : Option Nat := (s.locateVat client rec b).map Prod.fst

/-- Where an LD gets its data. -/
inductive LdFrom where
  | data (l : List Byte)
  | remote (src : ReadFrom)
  | bad (code : Nat)
  deriving DecidableEq, Repr

/-- Source of the `n` bytes at block `blk` of the share of handle `i` (R25, R53, R143, R178): of a window of this tile, what the unit has written there, else the DRY window as it stands (log 33). -/
def State.ldFrom (s : State) (c : Ctx) (r : TileRun) (u : CUnit) (h : Handle) (i blk n : Nat) : LdFrom :=
  let b := 256 * (c.firstBlock h + blk)
  if h.cls = 1 ∨ (h.cls = 3 ∧ h.wafer = s.frm.waferId) then .remote (.hbm (h.addr + b))
  else if h.cls = 3 ∨ (h.cls = 2 ∧ h.wafer ≠ s.frm.waferId) then .remote (.wafer 0)
  else if h.cls = 2 then (if (s.vatFar c.client h.vatIndex b).isSome then .remote (.wafer 0) else .remote (.tile 0 c.client h.vatIndex b))
  else
    let t := s.tile c.tile
    let (o, off) := c.slotOf u h i (256 * blk)
    let wet := t.findWet u.id o
    let dry := t.find .dry o
    let w := match wet with
      | some w => if (t.win w).blocks.contains (off / 256) || dry.isNone then some w else dry
      | none => dry
    match w with
    | some w => .data (memRead t.vat (65536 * w + off) n)
    | none => if r.side == .third && h.cls == 0 then .remote (.tile 0 c.client h.key b) else .bad cACCESS

/-- Bytes past the end of a handle's tensor read as zero (R200). -/
def clipTail (c : Ctx) (h : Handle) (blk : Nat) (bs : List Byte) : List Byte :=
  let room := h.bytes - 256 * (c.firstBlock h + blk)
  bs.zipIdx.map fun p => if p.2 < room then p.1 else 0

/-! ### Landing (R29, R30) -/

/-- Notes which bits of a staged byte are written: one that is written whole is not listed (R142). -/
def stageBits (staged halves : Tab Byte) (k : Nat) (mask : Byte) : Tab Byte :=
  let m := mask ||| (if tabHas staged k then tabGet 0xFF halves k else 0)
  if m = 0xFF then tabDel halves k else tabPut halves k m

/-- Stores bytes into the WET windows of a destination, and notes what was written (R25, R43, R142). -/
def State.storeWet (s : State) (a : Nat) (c : Ctx) (u : CUnit) (i : Nat) (data : List (Nat × Byte × Byte)) : State :=
  match c.handle i with
  | none => s
  | some h =>
    s.each data fun s d =>
      let t := s.tile a
      let (o, off) := c.slotOf u h i d.1
      match t.findWet u.id o with
      | none => s
      | some w =>
        let p := 65536 * w + off
        let v := (memGet t.vat p &&& ~~~d.2.1) ||| (d.2.2 &&& d.2.1)
        let b := 256 * c.firstBlock h + d.1
        s.modTile a fun t => { t.wrote w (off / 256) with
          vat := memPut t.vat p v
          run := t.run.map fun r => { r with
            written := let x := (4 * c.stage + i, b / 256); if r.written.contains x then r.written else r.written ++ [x]
            staged := if h.cls = 0 ∨ h.cls = 4 then r.staged else tabPut r.staged (stageKey s.frm.waferId h b) v
            halves := if h.cls = 0 ∨ h.cls = 4 then r.halves else stageBits r.staged r.halves (stageKey s.frm.waferId h b) d.2.1 } }

/-- Changes the run of a tile. -/
def State.modRun (s : State) (a : Nat) (f : TileRun → TileRun) : State :=
  s.modTile a fun t => { t with run := t.run.map f }

/-- Vat address, above every window, at which a WRP carries a fabric accumulator write (log 117). -/
def fabricAddr : Nat := 0x300000

/-- Bytes of a fabric accumulator write's body as a WRP carries it (log 117). -/
def fabricBytes (b : FabricBody) : List Byte :=
  match b with
  | .node level index v key => leBytes 0 1 ++ leBytes level 1 ++ leBytes 0 2 ++ leBytes v 4 ++ leBytes index 8 ++ leBytes (wrapInt 64 key) 8
  | .chain next v => leBytes 1 1 ++ leBytes 0 3 ++ leBytes v 4 ++ leBytes next 8
  | .result v => leBytes 2 1 ++ leBytes 0 3 ++ leBytes v 4
  | .terms ts => leBytes 3 1 ++ leBytes 0 3 ++ ts.flatMap fun t => leBytes t.a 4 ++ leBytes t.b 4 ++ leBytes t.fa 1 ++ leBytes t.fb 1 ++ leBytes 0 2 ++ leBytes t.pos 8
  | .read => leBytes 4 1

/-- The body that a WRP's bytes carry. -/
def fabricBody (bs : List Byte) : FabricBody :=
  let f := fun (o n : Nat) => leVal ((bs.drop o).take n)
  match f 0 1 with
  | 0 => .node (f 1 1) (f 8 8) (f 4 4) (BitVec.ofNat 64 (f 16 8)).toInt
  | 1 => .chain (f 8 8) (f 4 4)
  | 2 => .result (f 4 4)
  | 3 => .terms ((upTo ((bs.length - 4) / 20)).map fun i =>
      let g := fun (o n : Nat) => leVal ((bs.drop (4 + 20 * i + o)).take n)
      { row := 0, pos := g 12 8, a := g 0 4, fa := g 8 1, b := g 4 4, fb := g 9 1 })
  | _ => .read

/-- The 32 bytes before the body: TAG, queue, SEQ_ID, index of the receiving tile in the order of R448, stream base, row (log 117). -/
def State.fabricHead (s : State) (u : CUnit) (k acc row : Nat) : List Byte :=
  leBytes u.tag.toNat 4 ++ leBytes u.q 1 ++ leBytes 0 3 ++ leBytes (s.unitSeq u) 4 ++ leBytes k 4 ++ leBytes acc 4 ++ leBytes 0 4 ++ leBytes row 8

/-- The wafer to which a fabric write for working tile `k` of a widened partition goes: the tile's own, and from a contributing wafer the home, which passes it on (R435, R448; log 117). -/
def State.fabricWafer (s : State) (u : CUnit) (k : Nat) : Option Nat :=
  match u.home with
  | some (w, _) => some w
  | none => spreadWafer (s.spread u.part) k

/-- A fabric write to a tile of the main side: onto this wafer's mesh, or by WRP to another wafer (R179, R435, R508). -/
def State.fabricTo (s : State) (a : Option Nat) (u : CUnit) (k acc row : Nat) (body : FabricBody) : State :=
  match if u.first ≤ k then u.tiles[k - u.first]? else none with
  | some d => { s with fabric := s.fabric ++ [{ src := a.getD d, dst := d, unit := u.id, acc := acc, row := row, body := body, sent := s.now }] }
  | none =>
    let data := s.fabricHead u k acc row ++ fabricBytes body
    match s.fabricWafer u k with
    | some w => s.sendFor u.id { typ := tWRP, src := s.frm.waferId, dst := w, addr := gaOf w 0 fabricAddr, len := data.length, client := u.client, data := data }
    | none => s

/-- Puts what a stream sends onto the fabric (R179, R508). -/
def State.fabricSend (s : State) (a : Nat) (c : Ctx) (u : CUnit) (side : Side) (acc : Nat) (l : List (Nat × Nat × FabricBody)) : State :=
  s.each l fun s x =>
    if side == .main then s.fabricTo (some a) u x.1 acc x.2.1 x.2.2
    else match (u.sideTiles side)[x.1]? with
      | some d => { s with fabric := s.fabric ++ [{ src := a, dst := d, unit := c.unit, acc := acc, row := x.2.1, body := x.2.2, sent := s.now }] }
      | none => s

/-- One result in flight lands on a tile. -/
def State.landOne (s : State) (a : Nat) (c : Ctx) (u : CUnit) (side : Side) (f : Flight) : State :=
  match f.w with
  | .vreg v sel b tag => s.modRun a fun r => { r with
      vreg := tabPut r.vreg v ((r.v v &&& ~~~sel) ||| (b &&& sel)), vtag := tabPut r.vtag v tag }
  | .mreg m sel b => if m = 0 then s else s.modRun a fun r => { r with mask := tabPut r.mask m ((r.m m &&& ~~~sel) ||| (b &&& sel)) }
  | .acc e vals fmt => s.modRun a fun r => r.putAcc fmt (vals.zipIdx.map fun p => (e + p.2, p.1.toNat))
  | .red acc ts =>
    match (s.tile a).run.bind fun r => r.stream? acc with
    | none => s
    | some st =>
      let l := landRed c st ts
      (s.modRun a fun r => { r.takeLanding l with lastRed := f.due }).fabricSend a c u side acc l.sends
  | .store i data => s.storeWet a c u i data

/-- Results due by cycle `t` land, in the order of their cycles (R29, R30). -/
def State.landDue (s : State) (a t : Nat) : State :=
  match (s.tile a).run with
  | none => s
  | some r =>
    match s.unit? r.unit with
    | none => s
    | some u =>
      let c := s.ctx a r u
      let due := sortBy (fun (x y : Flight) => decide (x.due ≤ y.due)) (r.inflight.filter fun f => decide (f.due ≤ t))
      let s := s.modRun a fun r => { r with inflight := r.inflight.filter fun f => decide (t < f.due) }
      s.each due fun s f => s.landOne a c u r.side f

/-! ### Position in the table (R137, R138, R160, R161) -/

/-- Counts one more iteration on a counter (R161). -/
def TileRun.bump (r : TileRun) (c : Nat) : TileRun :=
  match c with
  | 0 => { r with x0 := r.x0 + 1 }
  | 1 => { r with x1 := r.x1 + 1 }
  | 2 => { r with x2 := r.x2 + 1 }
  | _ => { r with x3 := r.x3 + 1 }

/-- Moves on after the word at position `p`, whose following word lies at `off`, under the loops that run, innermost first (R160). -/
def TileRun.leave (r : TileRun) (p off : Nat) : List Loop → TileRun
  | [] => { r with pos := p + 1, off := off, loops := [] }
  | l :: ls =>
    if l.endPos = p then
      let r := r.bump l.counter
      if l.remain ≤ 1 then r.leave p off ls
      else { r with pos := l.startPos, off := l.startOff, loops := { l with remain := l.remain - 1 } :: ls }
    else { r with pos := p + 1, off := off, loops := l :: ls }

/-- Moves on after a repetition of the word at the run's position; marks the end of the table (R137, R138, R160). -/
def TileRun.advance (r : TileRun) (bank : Bytes) (len : Nat) (l : LongWord) : TileRun :=
  let r := { r with lastOff := r.off, lastRho := r.rho }
  if r.rho < l.rep then { r with rho := r.rho + 1 }
  else
    let next := r.off + l.size
    let r := match l.syn with
      | some w =>
        if synOp w = 0 then
          let cnt := nth r.counts (bits w 5 4)
          let body := bits w 18 6
          if cnt = 0 then r.leave (r.pos + body) (lwSkip bank next body) r.loops
          else { r with
            pos := r.pos + 1, off := next
            loops := { counter := bits w 5 4, wordOff := r.off, startPos := r.pos + 1, startOff := next, endPos := r.pos + body, remain := cnt } :: r.loops }
        else r.leave r.pos next r.loops
      | none => r.leave r.pos next r.loops
    { r with rho := 0, ended := decide (r.pos ≥ len) }

/-! ### Issue (R29 to R33, R115, R138 to R157) -/

/-- Cycle in which the next repetition may issue at the earliest: after the previous one, and once the ARI and RED slots it needs are free (R30, R32, R165). -/
def TileRun.issueAt (r : TileRun) (l : LongWord) : Nat :=
  let t := r.nextCyc
  let t := if l.ari.isSome && decide (t < r.ariFree) then r.ariFree else t
  if l.red.isSome && decide (t < r.redFree) then r.redFree else t

/-- ACC′ of a SYN A2V, V2A or BCAST in repetition `rho` (R138, R156). -/
def TileRun.synAcc (r : TileRun) (w rho : Nat) : Nat :=
  bits w 24 9 + (if bit w 27 then r.x (bits w 26 25) * 2 ^ bits w 31 28 else 0) + (if synOp w = 3 then rho else 64 * rho)

/-- Entries that a SYN reads or writes from ACC′. -/
def synLen (w : Nat) : Nat := if synOp w = 3 then 1 else 64

/-- Streams whose entries a SYN A2V or BCAST at ACC′ `e` reads. -/
def TileRun.synStreams (r : TileRun) (w e : Nat) : List Stream :=
  r.streams.filter fun st => decide (st.acc < e + synLen w) && decide (e < st.stop)

/-- Whether terms of a stream are still in flight. -/
def TileRun.flying (r : TileRun) (acc : Nat) : Bool :=
  r.inflight.any fun f => match f.w with
    | .red x _ => x == acc
    | _ => false

/-- Whether a stream's part on this tile is done: its own rows have their results, and what this tile holds of an earlier row has been sent on (R115, R179). -/
def TileRun.streamDone (r : TileRun) (st : Stream) : Bool :=
  let part := decide (st.r0 * st.k < st.b) && decide (0 < st.localRows)
  let need := if (st.r0 + 1) * st.k - st.b ≤ st.count then (st.r0 + 1) * st.k - st.b else st.count
  st.complete && !r.flying st.acc
    && (!part || (decide (need ≤ st.terms) && !(st.nodes.any fun d => d.row == st.r0) && !(st.waiting.any fun d => d.row == st.r0)
        && !(st.chains.any fun d => d.1 == st.r0)))

/-- Whether a SYN A2V or BCAST at ACC′ `e` must wait for a stream's result (R115). -/
def TileRun.synWaits (r : TileRun) (w e : Nat) : Bool :=
  (synOp w == 1 || synOp w == 3) && (r.synStreams w e).any fun st => !r.streamDone st

/-- The result in flight of a SYN A2V, V2A or BCAST at ACC′ `e` issued in cycle `t` (R140, R155, R509). -/
def TileRun.synFlight (r : TileRun) (t w e : Nat) : List Flight :=
  let v := bits w 8 4
  let g := fun i => (tabGet 0 r.acc i).toNat
  match synOp w with
  | 1 => [{ due := t + 1, slot := .syn, w := .vreg v (BitVec.allOnes 2048) (BitVec.ofNat 2048 ((upTo 64).foldl (fun n i => n + g (e + i) * 2 ^ (32 * i)) 0)) (tabGet 0 r.accFmt (e / 64)) }]
  | 2 => [{ due := t + 1, slot := .syn, w := .acc e ((upTo 64).map fun i => BitVec.ofNat 32 (vElem (r.v v) 32 i)) (r.tag v) }]
  | 3 => [{ due := t + 1, slot := .syn, w := .vreg v (BitVec.allOnes 2048) (BitVec.ofNat 2048 ((upTo 64).foldl (fun n i => n + g e * 2 ^ (32 * i)) 0)) (tabGet 0 r.accFmt (e / 64)) }]
  | _ => []

/-- The run after a SYN A2V or BCAST has read its entries: the streams it waited for have ended (R114, R152). -/
def TileRun.synEnd (r : TileRun) (w e : Nat) : TileRun :=
  if synOp w = 1 ∨ synOp w = 3 then
    let gone := (r.synStreams w e).map Stream.acc
    { r with streams := r.streams.filter fun st => !gone.contains st.acc }
  else r

/-- Codes of a SYN slot while running: EOS outside a member, an entry range past 65,535, a V2A into entries that a reduction owns (R114, R156, R158). -/
def synCodes (c : Ctx) (r : TileRun) (w e : Nat) : List Nat :=
  match synOp w with
  | 1 | 3 => codeIf (decide (e + synLen w > 65536)) cACCUMULATOR
  | 2 => codeIf (decide (e + 64 > 65536) || r.owned none e (e + 64)) cACCUMULATOR
  | 5 => codeIf (!c.member) cOPERAND
  | _ => []

/-- Whether a SYN slot at ACC′ `e` reads or writes entries of a bank (R27). -/
def synBank (w e bank : Nat) : Bool := synOp w == 1 || synOp w == 2 || (synOp w == 3 && e % 8 == bank)

/-- Whether the local accumulator accesses of a word touch a bank (R27). -/
def bankTouched (r : TileRun) (l : LongWord) (ro : RedOut) (bank : Nat) : Bool :=
  (match l.syn with
   | some w => synBank w (r.synAcc w r.rho) bank
   | none => false)
  || (match ro.stream, ro.flights with
      | some st, f :: _ =>
        (match f.w with
         | .red _ ts => ts.any fun x => st.entry x.row (x.pos / st.g) % 8 == bank
         | _ => false)
      | _, _ => false)

/-- Answers an optional slot. -/
def slotOut (o : Option Nat) (f : Nat → SlotOut) : SlotOut :=
  match o with
  | some w => f w
  | none => {}

/-- The LD slot: codes, where its data comes from, destination, format and width (R145, R146). -/
structure LdOut where
  codes : List Nat := []
  src : Option LdFrom := none
  v : Nat := 0
  fmt : Nat := 0
  hnd : Option Handle := none
  blk : Nat := 0
  bytes : Nat := 0
  deriving DecidableEq, Repr

/-- Judges the LD slot of a word at issue. -/
def State.ldOut (s : State) (c : Ctx) (r : TileRun) (u : CUnit) (w : Nat) : LdOut :=
  match c.handle (ldHnd w) with
  | none => {}
  | some h =>
    let (b, ok) := ldStBlock c r w r.rho h
    if !ok then { codes := [cBOUNDS] }
    else
      let src := s.ldFrom c r u h (ldHnd w) b (ldStBytes w)
      { codes := (match src with | .bad x => [x] | _ => []), src := some src, v := bits w 4 0, fmt := h.fmt, hnd := some h, blk := b, bytes := ldStBytes w }

/-- The LD's result in flight, once its data is there (R146). -/
def ldFlight (c : Ctx) (t : Nat) (o : LdOut) (data : Option (List Byte)) : List Flight :=
  let bs := match o.src, data with
    | some (.data l), _ => some l
    | some (.remote _), some l => some l
    | _, _ => none
  match bs, o.hnd with
  | some l, some h => [{ due := t + 3, slot := .ld, w := .vreg o.v (BitVec.allOnes 2048) (vLoad h.width (clipTail c h o.blk l)) o.fmt }]
  | _, _ => []

/-- Sends the read request of a remote LD and stalls the tile (R33, R178). -/
def State.ldStall (s : State) (a : Nat) (c : Ctx) (u : CUnit) (o : LdOut) (src : ReadFrom) (t : Nat) : State :=
  match src, o.hnd with
  | .wafer _, some h =>
    let b := 256 * (c.firstBlock h + o.blk)
    let w := if h.wafer = s.frm.waferId then (s.vatFar c.client h.vatIndex b).getD 0 else h.wafer
    let ga := if h.cls = 3 then gaOf w 1 (h.addr + b) else gaOf w 0 (Config.remoteVatOffset w h.vatIndex b)
    let (tid, s) := s.request u.id { typ := tRD, dst := w, addr := ga, len := o.bytes, client := c.client }
    s.modRun a fun r => { r with stall := some (.remote (.wafer tid) o.bytes none t) }
  | .tile x cl rec b, _ =>
    let s := s.modRun a fun r => { r with stall := some (.remote (.tile x cl rec b) o.bytes none t) }
    match s.vatTile cl rec b with
    | some d => { s with fabric := s.fabric ++ [{ src := a, dst := d, unit := u.id, acc := 0, row := 0, body := .read, sent := s.now }] }
    | none => s
  | src, _ => s.modRun a fun r => { r with stall := some (.remote src o.bytes none t) }

/-- The cycle from `t` on in which local accesses issue: each cycle in which a fabric write holds a bank that they touch delays them by one, after which that bank is theirs (R27, R41); and the banks granted to them there. -/
def bankWait (hits : List (Nat × Nat)) (touch : Nat → Bool) : Nat → Nat → List Nat → Nat × List Nat
  | 0, t, grant => (t, grant)
  | f + 1, t, grant =>
    let met := ((hits.filter fun x => x.1 == t && touch x.2 && !grant.contains x.2).map Prod.snd)
    if met.isEmpty then (t, grant) else bankWait hits touch f (t + 1) met

/-- The cycle in which the next repetition issues from `t` on, and the banks granted to it (R27, R41). -/
def State.bankTime (s : State) (a t : Nat) : Nat × List Nat :=
  let tile := s.tile a
  match tile.run with
  | some r =>
    match s.unit? r.unit with
    | some u =>
      let l := longWord tile.tbl.bank r.off
      let ro := match l.red with | some w => redOut (s.ctx a r u) r t w | none => {}
      bankWait tile.bankHits (bankTouched r l ro) tile.bankHits.length t []
    | none => (t, [])
  | none => (t, [])

/-- The run with the stream that a waiting RED opens, not fed yet, so that the fabric value it waits for finds it (R152, R508). -/
def TileRun.openStream (r : TileRun) (ro : RedOut) : TileRun :=
  match ro.stream with
  | some st => if ro.isNew then { r with streams := r.streams ++ [{ st with terms := 0 }], streamCount := r.streamCount + 1 } else r
  | none => r

/-- Issues the repetition at a tile's position in cycle `t`, all results due by then landed, with the data of a remote LD where it has arrived; a fault of its checks ends the unit (R138, R139). `hit`: the cycles that the word has stalled for banks, and the banks granted to it. A word whose remote LD stalls is judged by its fields and its LD alone; what depends on format tags is judged when it issues (R178). -/
def State.issueAt (s : State) (a t : Nat) (hit : Nat × List Nat) (data : Option (List Byte)) : State :=
  match (s.tile a).run with
  | none => s
  | some r =>
    match s.unit? r.unit with
    | none => s
    | some u =>
      let tile := s.tile a
      let c := s.ctx a r u
      let bank := tile.tbl.bank
      let l := longWord bank r.off
      let has := fun i => (c.handle i).isSome
      let ro := match l.red with | some w => redOut c r t w | none => {}
      let lo := match l.ld with | some w => s.ldOut c r u w | none => {}
      let oa := slotOut l.ari (ariOut c r t)
      let op := slotOut l.pal (palOut c r tile.pal.bank t)
      let oc := slotOut l.cvt (cvtOut c r t)
      let ok := slotOut l.skn (sknOut r t)
      let os := slotOut l.st (stOut c r t r.rho)
      let ldSrc := match lo.src, data with | some (.remote x), none => some x | _, _ => none
      let dec0 := l.decodeCodes has r.loops c.len r.pos
      let dec := if ldSrc.isSome then dec0 else dec0 ++ oa.decode ++ op.decode ++ ro.decode ++ oc.decode ++ ok.decode
      -- the run as its RED slot leaves its streams
      let r1 := match ro.stream with
        | some st => if ro.isNew then { r with streams := r.streams ++ [st], streamCount := r.streamCount + 1 }
            else { r with streams := r.streams.map fun x => if x.acc = st.acc then st else x }
        | none => r
      let fl0 := oa.flights ++ op.flights ++ ro.flights ++ oc.flights ++ ok.flights ++ os.flights
      let fl := ldFlight c t lo data ++ fl0
      let synW := match l.syn with | some w => w | none => 4
      let synE := r.synAcc synW r.rho
      let waits := l.syn.isSome && { r1 with inflight := r1.inflight ++ fl }.synWaits synW synE
      let synF := if l.syn.isSome && !waits then r.synFlight t synW synE else []
      let run := if ldSrc.isSome then lo.codes else lo.codes ++ oa.codes ++ op.codes ++ ro.codes ++ oc.codes ++ ok.codes ++ os.codes
          ++ (if l.syn.isSome then synCodes c r1 synW synE else [])
      match least dec, least run with
      | some code, _ => s.faultUnit u.id code
      | none, some code => s.faultUnit u.id code
      | none, none =>
        match ldSrc with
        | some src => s.ldStall a c u lo src t
        | none =>
          if ro.wait then s.modRun a fun _ => { r.openStream ro with stall := some (.chain t) }
          else if clashes r1 r1.inflight (fl ++ synF) then s.faultUnit u.id cWRITE_CLASH
          else
            let r2 := { r1 with
              inflight := r1.inflight ++ fl ++ synF
              flags := r1.flags ||| oa.fl ||| op.fl ||| ro.fl ||| oc.fl
              ranges := oc.ranges.foldl (fun l x => rangeAdd x l) r1.ranges
              cvtCount := match l.cvt with
                | some w => tabPut r1.cvtCount (cvtKey c w) (tabGet 0 r1.cvtCount (cvtKey c w) + cvtElems r w)
                | none => r1.cvtCount
              eos := r1.eos || (l.syn.isSome && synOp synW == 5 && (r.m (bits synW 6 4)).getLsbD 0)
              nextCyc := t + 1
              ariFree := match l.ari with | some w => t + ariBusy c r w | none => r1.ariFree
              redFree := if l.red.isSome then t + ro.busy else r1.redFree
              stepOne := false, stall := none }
            let r2 := if l.syn.isSome && !waits then r2.synEnd synW synE else r2
            let r3 := r2.advance bank c.len l
            let r3 := if waits then { r3 with stall := some (.syn (BitVec.ofNat 32 synW) synE t s.now) } else r3
            let r3 := if l.syn.isSome && synOp synW == 4 then { r3 with stall := some (.barrier (bits synW 11 4) t s.now) } else r3
            let s := s.modTile a fun x => { x with run := some r3, bankHits := x.bankHits.filter fun b => decide (t < b.1), bankGrant := if hit.1 = 0 then none else some (t, hit.2), lastPos := r3.lastOff % 2 ^ 14 + r3.lastRho % 256 * 2 ^ 14 }
            s.chargeTo a (t + 1) hit.1 0

/-- Issues the next repetition in cycle `t`, or later where fabric writes hold banks that it needs (R27). -/
def State.issue (s : State) (a t : Nat) (data : Option (List Byte)) : State :=
  let s := s.landDue a t
  let (t', g) := s.bankTime a t
  (s.landDue a t').issueAt a t' (t' - t, g) data

/-- Whether a slot may issue on a tile: its clock runs, its strip is in no re-trim pause (R316), and its run is not stopped, or stopped with one issue allowed (R273, R469). -/
def State.slotMay (s : State) (a : Nat) (r : TileRun) (u : CUnit) : Bool :=
  (s.dom (domOfTile a)).rate s.pwr.pausing != 0 && (s.dom (domOfTile a)).state == .active
    && (!r.stopped || r.stepOne) && !tabHas s.flt.retrims (a / 16) && (u.phase == .running || u.phase == .third)

/-- Whether a tile may issue its next long word: a slot may issue, the run is neither stalled nor ended (R33), and no flip of its partition is outstanding (R448). -/
def State.canIssue (s : State) (a : Nat) (r : TileRun) (u : CUnit) : Bool :=
  s.slotMay a r u && r.stall.isNone && !r.ended && !r.ready && dKind (u.stageAt r.stage).desc != kHANDOFF && !s.flipWaits u.part

end Sys2Proof.Machine
end

