-- ==== Sys2Proof/Machine/Tile.lean ====
section
/-! DEFINITION. Tile commands: issue, deferred SYN, barriers, landing, ready, remote reads and fabric writes (02, 08, 09). -/

namespace Sys2Proof.Machine

open Sys2Proof

/-- Applies `f` to the run of a tile and its unit where both exist. -/
def State.onRun (s : State) (a : Nat) (f : TileRun → CUnit → State) : State :=
  match (s.tile a).run with
  | none => s
  | some r =>
    match s.unit? r.unit with
    | none => s
    | some u => f r u

/-! ### LONG_WORD_ISSUE, SLOT_COMPLETE (R29, R30, R138) -/

/-- Effect of LONG_WORD_ISSUE: the next repetition issues once its cycle has come. -/
def longWordIssue (a : Nat) (s : State) : State :=
  s.onRun a fun r u =>
    let t := r.issueAt (longWord (s.tile a).tbl.bank r.off)
    if s.canIssue a r u && decide (t ≤ s.cycle a) then s.issue a t none else s

/-- LONG_WORD_ISSUE (R138). -/
def execLongWordIssue (tile : Nat) (s : State) : Host.Outcome State Fault Refusal := run (longWordIssue tile) s

/-- SLOT_COMPLETE (R29): every issued slot of the tile whose latency has passed lands. -/
def execSlotComplete (tile : Nat) (s : State) : Host.Outcome State Fault Refusal := run (fun s => s.landDue tile (s.cycle tile)) s

/-! ### SYN_DEFERRED_ISSUE (R30, R115) -/

/-- Effect of SYN_DEFERRED_ISSUE: the waiting A2V or BCAST issues in the first cycle in which its result is complete. -/
def synDeferred (a : Nat) (s : State) : State :=
  let s := s.landDue a (s.cycle a)
  s.onRun a fun r u =>
    match r.stall with
    | some (.syn w e since _) =>
      let w := w.toNat
      let t0 := if r.nextCyc < r.lastRed then r.lastRed else r.nextCyc
      let (t, g) := bankWait (s.tile a).bankHits (synBank w e) (s.tile a).bankHits.length t0 []
      if r.synWaits w e || decide (s.cycle a < t) || !s.slotMay a r u then s
      else
        let f := r.synFlight t w e
        if clashes r r.inflight f then s.faultUnit u.id cWRITE_CLASH
        else
          let from_ := if since + 1 < r.counted then r.counted else since + 1
          let r := { r with inflight := r.inflight ++ f, stall := none, stepOne := false, nextCyc := t + 1 }.synEnd w e
          (s.modTile a fun x => { x with run := some r, bankHits := x.bankHits.filter fun b => decide (t < b.1), bankGrant := if t0 < t then some (t, g) else none }).chargeTo a (t + 1) (t - from_) 0
    | _ => s

/-- SYN_DEFERRED_ISSUE (R115). -/
def execSynDeferredIssue (tile : Nat) (s : State) : Host.Outcome State Fault Refusal := run (synDeferred tile) s

/-! ### BARRIER_RELEASE (R157, R436) -/

/-- The barrier number at which a tile waits. -/
def Tile.barrier? (t : Tile) (uid : Nat) : Option Nat :=
  match t.run with
  | some r => if r.unit = uid then (match r.stall with | some (.barrier n _ _) => some n | _ => none) else none
  | none => none

/-- Resumes the tiles of a side that wait at a barrier. -/
def State.barrierGo (s : State) (l : List Nat) : State :=
  s.each l fun s a =>
    s.onRun a fun r _ =>
      match r.stall with
      | some (.barrier _ _ _) =>
        (s.settle a).modRun a fun r => { r with stall := none, nextCyc := if r.nextCyc < s.cycle a then s.cycle a else r.nextCyc }
      | _ => s

/-- Whether every tile of a side waits at one barrier number. -/
def State.barrierMet (s : State) (uid : Nat) (l : List Nat) : Option Nat :=
  match l with
  | [] => none
  | a :: r =>
    match (s.tile a).barrier? uid with
    | none => none
    | some n => if r.all fun b => (s.tile b).barrier? uid == some n then some n else none

/-- Effect of BARRIER_RELEASE: where every tile of a side, on every wafer, has issued the number, the tiles resume; a contributing wafer reports to its home instead. A member has all its tiles here. -/
def barrierRelease (uid : Nat) (s : State) : State :=
  match s.unit? uid with
  | none => s
  | some u =>
    let s := match s.barrierMet uid u.pairTiles with | some _ => s.barrierGo u.pairTiles | none => s
    let s := match s.barrierMet uid u.thirdTiles with | some _ => s.barrierGo u.thirdTiles | none => s
    match s.barrierMet uid u.tiles with
    | none => s
    | some n =>
      let data := leBytes u.tag.toNat 4 ++ leBytes n 1 ++ leBytes 0 3
      match if u.isMember then none else u.home with
      | some (w, _) =>
        if u.waitBarrier.contains (w, n) then s
        else (s.modUnit uid fun u => { u with waitBarrier := (w, n) :: u.waitBarrier }).sendFor uid { lotSync 5 u.client w data with src := s.frm.waferId }
      | none =>
        let others := u.others
        if others.all fun w => u.waitBarrier.contains (w, n) then
          let s := (s.modUnit uid fun u => { u with waitBarrier := u.waitBarrier.filter fun x => x.2 != n }).barrierGo u.tiles
          s.each others fun s w => s.sendFor uid { lotSync 6 u.client w data with src := s.frm.waferId }
        else s

/-- BARRIER_RELEASE (R157). -/
def execBarrierRelease (unit : Nat) (s : State) : Host.Outcome State Fault Refusal := run (barrierRelease unit) s

/-! ### Runs (R22, R94, R161, R194) -/

/-- COUNT words of a descriptor (R159, R185). -/
def countWords (d : BitVec 512) : List Nat := (upTo 4).map fun i => bits (dParam d) (16 * i + 15) (16 * i)

/-- Counts of a stage on a tile (R159); words that raise a fault were judged at start and read 0 here. -/
def State.countsOf (s : State) (a : Nat) (r : TileRun) (u : CUnit) : List Nat :=
  let c := s.ctx a r u
  (countWords (u.stageAt r.stage).desc).map fun w =>
    match countWord w (u.member.map fun m => (m.m0, m.m1)) (fun i => (c.handle i).map c.blocks) with
    | .ok n => n
    | .error _ => 0

/-- Whether a stage runs twice (R94). -/
def stageCurrent (d : BitVec 512) : Bool := dScale d == 3

/-- A tile's run at the beginning of a stage: the first long word is next; under CURRENT pass 1 begins (R94, R160). -/
def State.stageBegin (s : State) (a : Nat) (r : TileRun) (u : CUnit) : TileRun :=
  let d := (u.stageAt r.stage).desc
  { r with
    pos := 0, off := dTableAddr d, rho := 0, loops := [], ended := false, ready := false
    counts := s.countsOf a r u
    pass := if stageCurrent d then 1 else 0
    preFlags := r.flags, preEos := r.eos, preRanges := r.ranges
    ranges := if stageCurrent d then [] else r.ranges
    nextCyc := if r.nextCyc < s.cycle a then s.cycle a else r.nextCyc }

/-- Starts a unit's run on a tile with everything R22 and R161 zero. At a break the tile stops at once, before its first long word; within STEP_LW it may issue one cycle (R467, R469). -/
def State.runBegin (s : State) (a : Nat) (u : CUnit) (side : Side) : State :=
  let d := (s.client u.client).dbg
  let lw := d.halted && d.stepDesc.isNone
  let r : TileRun := { unit := u.id, side := side, startCyc := s.cycle a, nextCyc := s.cycle a, counted := s.cycle a, stopped := d.breaking || lw, stepOne := lw && d.stepping }
  s.modTile a fun t => { t with run := some (s.stageBegin a r u) }

/-- Pass 2 on a tile: registers, masks, accumulators, counters and streams as R22 and R161 state; what pass 1 raised is gone (R94). -/
def State.passTwo (s : State) (a : Nat) (r : TileRun) (u : CUnit) : TileRun :=
  let d := (u.stageAt r.stage).desc
  { r with
    pass := 2, vreg := [], vtag := [], mask := [], acc := [], accFmt := [], pos := 0, off := dTableAddr d, rho := 0, loops := []
    x0 := 0, x1 := 0, x2 := 0, x3 := 0, inflight := [], streams := [], streamCount := 0, ended := false, ready := false
    flags := r.preFlags, eos := r.preEos, ranges := []
    cvtCount := r.cvtCount.filter fun p => p.1 / 4 != r.stage
    counts := s.countsOf a r u, nextCyc := s.cycle a }

/-! ### TILE_READY (R44 step 1, R137, R194) -/

/-- Range contributions of a run: those of earlier stages and of the present pass (R90, R94). -/
def TileRun.allRanges (r : TileRun) : List RangeC :=
  if r.pass = 0 then r.ranges else if r.pass = 2 then rangesJoin r.preRanges r.ranges else r.preRanges

/-- Whether every tile of a side has signalled ready, in pass 2 where it runs twice. -/
def State.sideReady (s : State) (uid : Nat) (l : List Nat) : Bool :=
  l.all fun a => match (s.tile a).run with
    | some r => r.unit == uid && r.ready && r.pass != 1
    | none => false

/-- Whether every tile of a side has ended pass 1 (R94). -/
def State.sideMerging (s : State) (uid : Nat) (l : List Nat) : Bool :=
  l.all fun a => match (s.tile a).run with
    | some r => r.unit == uid && r.ready && r.pass == 1
    | none => false

/-! ### What a side has gathered -/

/-- The runs of a side. -/
def State.sideRuns (s : State) (u : CUnit) (d : Side) : List (Nat × TileRun) :=
  (u.sideTiles d).filterMap fun a => match (s.tile a).run with
    | some r => if r.unit = u.id then some (a, r) else none
    | none => none

/-- Flags of a side (R75). -/
def State.sideFlags (s : State) (u : CUnit) (d : Side) : BitVec 8 := (s.sideRuns u d).foldl (fun f x => f ||| x.2.flags) u.flags
/-- End-of-sequence flag of a side (R158). -/
def State.sideEos (s : State) (u : CUnit) (d : Side) : Bool := u.eos || (s.sideRuns u d).any fun x => x.2.eos
/-- Range contributions of a side, in ascending slot order (R90, R278). -/
def State.sideRanges (s : State) (u : CUnit) (d : Side) : List RangeC :=
  sortBy (fun x y => decide (x.slot ≤ y.slot)) ((s.sideRuns u d).foldl (fun l x => rangesJoin l x.2.allRanges) u.ranges)

/-- The RANGE layout of a contribution (R278). -/
def rangeBytes (r : RangeC) : List Byte :=
  leBytes (r.slot + 2 ^ 15) 2 ++ leBytes 0 2 ++ leBytes r.amax.toNat 4 ++ leBytes r.nan 4 ++ leBytes r.inf 4 ++ leBytes r.sat 4
    ++ leBytes (match r.pub with | some p => p.toNat | none => 0) 4 ++ leBytes (b2n r.pub.isSome) 1 ++ leBytes 0 7

/-- READY data of a unit forwarded here (R436). -/
def State.readyData (s : State) (u : CUnit) : List Byte :=
  let rs := s.sideRanges u .main
  leBytes u.tag.toNat 4 ++ leBytes u.q 1 ++ leBytes (s.sideFlags u .main).toNat 1 ++ leBytes rs.length 2 ++ leBytes (s.unitSeq u) 4 ++ leBytes 0 4
    ++ rs.flatMap rangeBytes

/-- A contributing wafer tells the home that a forwarded unit is ready (R436). -/
def State.sendReady (s : State) (u : CUnit) : State :=
  match u.home with
  | some (w, _) => s.sendFor u.id { lotSync 4 u.client w (s.readyData u) with src := s.frm.waferId }
  | none => s

/-- The state after a unit's tiles have signalled ready on all its sides: phase READY (R44 step 1), which a contributing wafer reports (R436). -/
def State.readyCheck (s : State) (uid : Nat) : State :=
  match s.unit? uid with
  | none => s
  | some u =>
    if u.phase == .running && s.sideReady uid (u.tiles ++ u.pairTiles) then (s.modUnit uid fun u => { u with phase := .ready }).sendReady u
    else s

/-- Effect of TILE_READY: a tile whose table has ended and whose slots have completed goes on to the next stage of a chain, or signals ready. -/
def tileReady (a : Nat) (s : State) : State :=
  let s := s.landDue a (s.cycle a)
  s.onRun a fun r u =>
    let held := dKind (u.stageAt r.stage).desc == kHANDOFF && !(u.handoff.any fun h => h.answered && h.stage == r.stage)
    if !r.ended || r.ready || r.stall.isSome || !r.inflight.isEmpty || (r.stopped && !r.stepOne) || held then s
    else
      let more := r.pass != 1 && decide (r.stage + 1 < u.stages.length)
      if more then
        let r := { r with ranges := r.allRanges, stage := r.stage + 1, pass := 0 }
        if dKind (u.stageAt r.stage).desc = kHANDOFF then s.modTile a fun t => { t with run := some { r with preRanges := [] } }
        else s.modTile a fun t => { t with run := some (s.stageBegin a r u) }
      else
        ((s.settle a).modRun a fun r => { r with ready := true, stepOne := false }).readyCheck u.id

/-- TILE_READY (R137). -/
def execTileReady (tile : Nat) (s : State) : Host.Outcome State Fault Refusal := run (tileReady tile) s

/-! ### Remote reads (R178, R182) -/

/-- Whether the read request of a tile's stalled LD is the oldest message to its destination, or went to no tile (R175). -/
def State.readFirst (s : State) (a : Nat) : Bool :=
  match s.fabric.find? fun m => m.src == a && m.body == FabricBody.read with
  | none => true
  | some m => match s.fabric.find? fun x => x.src == a && x.dst == m.dst with
    | some x => x.body == FabricBody.read
    | none => true

/-- Effect of REMOTE_READ_REQUEST: the owning tile resolves the window as the request arrives, after what the tile sent there before (R175), and reads it; a read that R25 forbids ends the unit. -/
def remoteReadRequest (a : Nat) (s : State) : State :=
  s.onRun a fun r u =>
    match r.stall with
    | some (.remote (.tile _ cl rec b) n none since) =>
      if !s.readFirst a then s
      else match s.locateVat cl rec b with
      | none => s.faultUnit u.id cACCESS
      | some (o, w, off) =>
        if (s.partOfTile o).any s.flipWaits then s
        else
        let s := { s with fabric := s.fabric.filter fun m => !(m.src == a && m.body == FabricBody.read) }
        let d := memRead (s.tile o).vat (65536 * w + off) n
        s.modRun a fun r => { r with stall := some (.remote (.tile o cl rec b) n (some d) since) }
    | _ => s

/-- REMOTE_READ_REQUEST (R178). -/
def execRemoteReadRequest (tile : Nat) (s : State) : Host.Outcome State Fault Refusal := run (remoteReadRequest tile) s

/-- Effect of REMOTE_READ_DATA: all data of the read has arrived; the stalled long word issues. -/
def remoteReadData (a : Nat) (s : State) : State :=
  s.onRun a fun r u =>
    match r.stall with
    | some (.remote src n data since) =>
      let d := match src with
        | .hbm addr => if s.flt.reissues.any (fun x => decide (addr ≤ x) && decide (x < addr + n)) || s.hbmWaits addr n then none else some (s.hbmRead addr n)
        | _ => data
      match d with
      | none => s
      | some bs =>
        let now := s.cycle a
        let t := if now < since then since else now
        if !s.slotMay a r u then s
        else
          let s := (s.settle a).modRun a fun r => { r with stall := none, nextCyc := if r.nextCyc < t then t else r.nextCyc }
          s.issue a t (some bs)
    | _ => s

/-- REMOTE_READ_DATA (R178). -/
def execRemoteReadData (tile : Nat) (s : State) : Host.Outcome State Fault Refusal := run (remoteReadData tile) s

/-! ### FABRIC_ACC_WRITE (R27, R175, R179, R508) -/

/-- The first message from `src` to `dst` (R175), and the fabric without it. -/
def takeMsg (src dst : Nat) : List FabricMsg → Option (FabricMsg × List FabricMsg)
  | [] => none
  | m :: r =>
    if m.src = src ∧ m.dst = dst then some (m, r)
    else (takeMsg src dst r).map fun p => (p.1, m :: p.2)

/-- Effect of FABRIC_ACC_WRITE: the oldest message between the two tiles, where it is an accumulator write, reaches its stream; it waits while the stream has not been fed on the receiving tile, and in a cycle that grants its bank to a local access (R41). -/
def fabricAccWrite (src dst : Nat) (s : State) : State :=
  match takeMsg src dst s.fabric with
  | none => s
  | some (m, rest) =>
    s.onRun dst fun r u =>
      match if r.unit = m.unit && m.body != FabricBody.read then r.stream? m.acc else none with
      | none => s
      | some st =>
        let c := s.ctx dst r u
        let now := s.cycle dst
        let l := landFabric c st m.row m.body
        let hit := (l.accs.take 1).map fun x => (now, x.1 % 8)
        if (s.tile dst).bankGrant.any fun g => g.1 == now && hit.any fun x => g.2.contains x.2 then s
        else
        let s := { s with fabric := rest }
        let s := s.modTile dst fun t => { t with bankHits := (t.bankHits.filter fun x => decide (r.nextCyc ≤ x.1)) ++ hit }
        let s := s.modRun dst fun r => { r.takeLanding l with lastRed := now }
        let s := s.fabricSend dst c u r.side m.acc l.sends
        match r.stall with
        | some (.chain _) => (s.settle dst).modRun dst fun r => { r with stall := none, nextCyc := if r.nextCyc < now then now else r.nextCyc }
        | _ => s

/-- FABRIC_ACC_WRITE (R179). -/
def execFabricAccWrite (src dst : Nat) (s : State) : Host.Outcome State Fault Refusal := run (fabricAccWrite src dst) s

end Sys2Proof.Machine
end

