-- ==== Sys2Proof/Machine/Member.lean ====
section
/-! DEFINITION. Starting LOT members, their windows, and the overflow trap (R34 to R40, R243 to R245, R249). -/

namespace Sys2Proof.Machine

open Sys2Proof

/-- Whether commit units of a client may start or go on in a partition: it is resident, and no switch, rebuild, BIST-lite or halt stands in the way (R255, R258, R261, R306, R466). At a break, placed members still start (R467); a halted client goes on only within a step (R469). -/
def State.gate (s : State) (p n : Nat) : Bool :=
  let x := s.part p
  let d := (s.client n).dbg
  x.resident == some n && x.switch.isNone && !x.rebuilding && !x.rebuildPend && !x.bist && (!d.halted || d.stepping)

/-- Whether units forwarded here may start or go on in a partition that this wafer lends: their home decides residency, and nothing of the partition's own stands in the way (R437, R448). -/
def State.lentGate (s : State) (p : Nat) : Bool :=
  let x := s.part p
  !x.rebuilding && !x.rebuildPend && !x.bist

/-- `gate` in both partitions of a paired client (R260). -/
def State.gateAll (s : State) (n : Nat) : Bool :=
  let c := s.client n
  s.gate c.bindPart n && (!c.pairEn || s.gate c.pairPart n)

/-- Samples the effective scale and range-slot settings of a handle (R85, R92, R93). -/
def State.resample (s : State) (n : Nat) (h : Handle) : Handle := s.handleOf n h.index h.readonly
    { (s.trec n h.index) with cls := h.cls, dist := h.dist, fmt := h.fmt, rank := h.rank, dims := h.dims, strides := h.strides, base := h.base, rslot := h.rslot }

/-- Stages with their handles sampled anew. -/
def State.resampleStages (s : State) (n : Nat) (l : List Stage) : List Stage :=
  l.map fun st => { st with handles := st.handles.map fun o => o.map (s.resample n) }

/-- Whether a sequence has a WET window on some tile. -/
def State.hasWet (s : State) (v : Nat × Nat) : Bool := s.tiles.any fun x => x.2.windows.any fun w => w.2.seqIn .wet == some v

/-- The eligible victims on a tile: sequences other than `e` that hold DRY windows there and have no WET window (R34). A sequence of another wafer is none, since this wafer holds neither its entry nor its spill area (log 48). -/
def State.victims (s : State) (a client e : Nat) : List (Nat × Nat) :=
  let dry := (s.tile a).windows.filterMap fun x => x.2.seqIn .dry
  (dry.filter fun v => v != (client, e) && decide (v.2 < Config.lotEntries) && !s.hasWet v).foldl (fun l v => if l.contains v then l else l ++ [v]) []

/-- DRY windows on a tile of a sequence, with their list slots, in window-list order. -/
def Tile.seqWins (t : Tile) (c e : Nat) : List (Nat × Nat) :=
  sortBy (fun a b => decide (a.1 ≤ b.1)) (t.windows.filterMap fun x => match x.2.state, x.2.owner with
    | .dry, .seq c' i k => if c' = c ∧ i = e then some (k, x.1) else none
    | _, _ => none)

/-- The victim of the overflow trap: the oldest last commit, ties to the lower sequence ID (R34). -/
def State.victim (s : State) (a client e : Nat) : Option (Nat × Nat) :=
  minBy (fun v => (s.entry v.2).lastCommit * 2 ^ 17 + v.2) (s.victims a client e)

/-- Begins the copy of the victim's first window into window 47 (R34). -/
def State.trapCopy (s : State) (a client e : Nat) : State :=
  match s.victim a client e with
  | none => s
  | some (c, i) =>
    match (s.tile a).seqWins c i with
    | [] => s
    | (k, w) :: _ => s.modTile a fun t => { t with spill := .copying w i k (s.cycle a), spillSrc := w }

/-- Windows that WIN_SEQ slots of a member still lack on a tile: slots without a WET window of the unit. -/
def Tile.lacking (t : Tile) (u : CUnit) (n : Nat) : List Nat :=
  (upTo n).filter fun i => (t.findWet u.id (.seq u.client u.entry i)).isNone

/-- Gives FREE windows to the slots of a member that lack one (R244, R507). -/
def State.giveWindows (s : State) (a : Nat) (u : CUnit) (n : Nat) : State :=
  s.each ((s.tile a).lacking u n) fun s i => s.modTile a fun t => t.alloc (.seq u.client u.entry i) u.id []

/-- The pair tile's or main tile's DRY window of a member's list slot, wherever it lies in a partition. -/
def State.dryOn (s : State) (tiles : List Nat) (o : Owner) : Option (Nat × Nat) :=
  tiles.findSome? fun a => ((s.tile a).find .dry o).map fun w => (a, w)

/-- What a member's WET window of list slot `i` holds at its start: a copy of its DRY window, of its spilled window, or zeros (R243, R244; log 10), and where it came from. -/
def State.winSource (s : State) (a : Nat) (u : CUnit) (side : Side) (i : Nat) : Bytes × Option (Option Nat × Nat) :=
  let e := s.entry u.entry
  let o : Owner := .seq u.client u.entry i
  match (s.tile a).find .dry o with
  | some w => ((s.tile a).winData w, none)
  | none =>
    let w := nth e.win i
    let other := match side with
      | .pair => s.dryOn (s.tilesOf (s.client u.client).pairPart) o
      | _ => if w < 47 && e.resValid then some (e.res, w) else none
    match other with
    | some (b, w) => ((s.tile b).winData w, some (some b, w))
    | none => if w = 0x3F then (memSlice s.hbm (e.spillAddr + 65536 * i) 65536, some (none, 0x3F)) else ([], none)

/-- Fills the windows of a member that has them all, and starts its run on the tile (R22, R243, R244). -/
def State.memberGo (s : State) (a : Nat) (u : CUnit) (side : Side) : State :=
  let n := (s.client u.client).winSeq
  let src := (upTo n).map fun i => (i, s.winSource a u side i)
  let s := s.each src fun s x => s.modTile a fun t =>
    match t.findWet u.id (.seq u.client u.entry x.1) with
    | some w => t.setWinData w x.2.1
    | none => t
  let moves := src.filterMap fun x => x.2.2.map fun m =>
    (x.1, m.1, m.2, ((s.tile a).findWet u.id (.seq u.client u.entry x.1)).getD 0)
  let e := s.entry u.entry
  let first := u.phase == .placed
  let again := u.phase == .killed
  let own := first && u.home.isNone
  let s := s.modUnit u.id fun u => { u with
    phase := if side == .third then .third else .running
    stages := if first || again then s.resampleStages u.client u.stages else u.stages
    start := if u.start = 0 then s.now else u.start
    runStart := if first || again then s.now else u.runStart
    runNs := if first || again then 0 else u.runNs
    member := u.member.map fun m => { m with
      step := if own then e.step.toNat else m.step, m0 := if own then e.m0 else m.m0, m1 := if own then e.m1 else m.m1
      moves := if side == .main then moves else m.moves } }
  match s.unit? u.id with
  | none => s
  | some u =>
    let s := (s.modTile a fun t => { t with trapFor := none, queue := t.queue.filter (· != u.id) }).runBegin a u side
    s.when (first || again) fun s => s.trace1 { s.unitTrace u 1 with detail := u.runNo }

/-- Returns a placed member to READY without running it (R37, R249): DEFERRED with TIME t_b, KICKED 0 as on every entry into READY by R232. A member of another wafer is answered to its home (R437). -/
def State.memberReturn (s : State) (u : CUnit) : State :=
  if u.home.isSome then ((s.discardOn u.id u.allTiles).dropUnit u.id).failReply u
  else
  let tb := match s.lot? u.client u.q u.ordinal with | some l => l.start | none => s.now
  let s := s.modEntry u.entry fun e => { e with state := .ready, kicked := false, deferCount := satTo 255 (e.deferCount + 1), deferTotal := satTo 0xFFFFFFFF (e.deferTotal + 1) }
  let ring := match u.member with | some m => m.ring | none => 0
  let s := s.outcome u.client u.entry ring 3 (s.entry u.entry).deferCount tb
  let s := s.outcomeTrace u.client u.q u.tag.toNat u.entry u.part 3
  let s := s.outRelease u.client ring 1
  let s := (s.discardOn u.id u.allTiles).dropUnit u.id
  (s.lotDrop u fun l => { l with deferred := l.deferred + 1 }).lotCheck u.client u.q u.ordinal

/-- The side that a unit's run on a tile belongs to. -/
def CUnit.sideOf (u : CUnit) (a : Nat) : Side :=
  if u.tiles.contains a then .main else if u.pairTiles.contains a then .pair else .third

/-- Starts a member on a tile: gives it windows, lets the overflow trap run for those that are missing, or returns it (R34 to R37, R244). A start that finds window 47 busy waits and is no second trap (R35). -/
def State.memberBegin (s : State) (a : Nat) (u : CUnit) : State :=
  let n := (s.client u.client).winSeq
  let t := s.tile a
  let need := (t.lacking u n).length
  let free := t.freeList.length
  let vict := total ((s.victims a u.client u.entry).map fun v => (t.seqWins v.1 v.2).length)
  if free + vict < need then s.memberReturn u
  else
    let s := s.giveWindows a u n
    if need ≤ free then s.memberGo a u (u.sideOf a)
    else
      let s := s.modTile a fun t => { t with trapFor := some (u.id, need - free), trapSince := s.cycle a }
      if (s.tile a).spill == .idle then (s.modTile a fun t => { t with traps := satTo 0xFFFF (t.traps + 1) }).trapCopy a u.client u.entry else s

/-- Whether a sequence's window is in the spill path of some tile. -/
def State.inSpill (s : State) (e : Nat) : Bool :=
  s.tiles.any fun x => match x.2.spill with
    | .copying _ i _ _ => i == e
    | .draining i _ _ => i == e
    | .idle => false

/-- Whether a killed unit of a resident context waits to rerun on a tile (R49). -/
def State.awaited? (s : State) (a : Nat) : Bool :=
  s.units.any fun u => (u.phase == .killed && u.allTiles.contains a || (u.down.any fun d => (u.sideTiles d).contains a)) && s.gateAll u.client

/-- Whether a unit whose descriptor's start has number `n` may use the banks of a tile: a bank that became eligible later is not for it, one that became eligible before must have been swapped in (R130). -/
def Tile.bankOk (t : Tile) (n : Nat) : Bool :=
  (!t.pal.pending || decide (n < t.pal.since)) && (!t.tbl.pending || decide (n < t.tbl.since))

/-- Number of the start of the descriptor that a unit belongs to (R130): that of its LOT, or its own. -/
def State.descOrder (s : State) (u : CUnit) : Nat :=
  match s.lot? u.client u.q u.ordinal with
  | some l => l.startNo
  | none => u.startNo

/-- Whether a unit may start on tiles by the state of their banks: the banks that are its own are active, and a PALETTE or TABLE finds no earlier image that waits for its swap (R130, R131, R134). -/
def State.banksReady (s : State) (u : CUnit) (l : List Nat) : Bool :=
  l.all fun a =>
    let t := s.tile a
    if u.kind = 5 then !t.pal.pending else if u.kind = 6 then !t.tbl.pending else t.bankOk (s.descOrder u)

/-- Whether the domains of tiles are all ACTIVE: a start waits for that (R342, R343). -/
def State.awake (s : State) (l : List Nat) : Bool := l.all fun a => (s.dom (domOfTile a)).state == .active

/-- Whether a placed member, or a member's other side, may start on a tile now (R245, R255, R258, R261). -/
def State.memberMay (s : State) (a : Nat) (u : CUnit) : Bool :=
  (s.dom (domOfTile a)).state == .active && s.frm.state == .ready && !s.inSpill u.entry
    && (if u.home.isSome then u.phase == .placed && s.lentGate u.part
        else (u.phase == .placed || u.phase == .killed || u.down.contains (u.sideOf a) || (u.phase == .running && u.pairTiles.contains a)) && s.gateAll u.client)

/-- Effect of MEMBER_START: the first placed member of an idle tile starts (R245); a start for which the trap has gained the last window goes on. -/
def memberStart (a : Nat) (s : State) : State :=
  let t := s.tile a
  match t.run, t.trapFor with
  | none, some (uid, 0) =>
    match s.unit? uid with
    | none => s.modTile a fun t => { t with trapFor := none }
    | some u => if s.memberMay a u then s.memberGo a u (u.sideOf a) else s
  | none, none =>
    match t.queue with
    | [] => s
    | uid :: _ =>
      match s.unit? uid with
      | none => s
      | some u => if !t.bankOk (s.descOrder u) || s.awaited? a || !s.memberMay a u then s else s.memberBegin a u
  | _, _ => s

/-- MEMBER_START (R244). -/
def execMemberStart (tile : Nat) (s : State) : Host.Outcome State Fault Refusal := run (memberStart tile) s

/-- Marks list slot `k` of a sequence SPILLED, and parks a WAITING sequence that has lost its last vat window (R34, R231). -/
def Entry.spill (e : Entry) (k : Nat) : Entry :=
  let e := { e with win := e.win.set k 0x3F, spilled := true }
  if e.win.any (fun w => decide (w < 47)) then e
  else { e with resValid := false, state := if e.state == .waiting then .parked else e.state }

/-- Effect of SPILL_COPY_DONE: 256 cycles after it began, the copy is complete; the source is FREE and goes to the requester, and the drain begins. -/
def spillCopyDone (a : Nat) (s : State) : State :=
  let t := s.tile a
  match t.spill with
  | .copying w e k since =>
    if s.cycle a < since + 256 then s
    else
      let s := s.modTile a fun t => ((t.setWinData 47 (t.winData w)).freeWin w)
      let s := s.modTile a fun t => { t with spill := .draining e k (s.cycle a) }
      let s := s.modEntry e fun x => x.spill k
      let s := s.countBusy a 256 0 0
      match t.trapFor with
      | none => s
      | some (uid, n) =>
        match s.unit? uid with
        | none => s.modTile a fun t => { t with trapFor := none }
        | some u =>
          let size := (s.client u.client).winSeq
          let s := match (s.tile a).lacking u size with
            | i :: _ => s.modTile a fun t => (t.setWin w { state := .wet, owner := .seq u.client u.entry i, unit := uid })
            | [] => s
          if n ≤ 1 && s.memberMay a u then s.memberGo a u (u.sideOf a)
          else s.modTile a fun t => { t with trapFor := some (uid, n - 1), trapSince := s.cycle a }
  | _ => s

/-- SPILL_COPY_DONE (R34). -/
def execSpillCopyDone (tile : Nat) (s : State) : Host.Outcome State Fault Refusal := run (spillCopyDone tile) s

/-- A start that waited for window 47 goes on (R35): it takes windows that have become FREE meanwhile, then the next copy begins; where neither is left the member returns as R37 says. -/
def State.trapNext (s : State) (a : Nat) (u : CUnit) : State :=
  let n := (s.client u.client).winSeq
  let s := s.giveWindows a u n
  let need := ((s.tile a).lacking u n).length
  let s := s.modTile a fun t => { t with trapFor := some (u.id, need) }
  if need = 0 then (if s.memberMay a u then s.memberGo a u (u.sideOf a) else s)
  else if (s.victim a u.client u.entry).isSome then s.trapCopy a u.client u.entry
  else s.memberReturn u

/-- Effect of SPILL_DRAIN_DONE: window 47 is in the victim's spill area; a start that waited goes on with the next copy (R35). -/
def spillDrainDone (a : Nat) (s : State) : State :=
  let t := s.tile a
  match t.spill with
  | .draining e k _ =>
    let s := { s with hbm := memPaste s.hbm ((s.entry e).spillAddr + 65536 * k) 65536 (t.winData 47) }
    let s := s.modTile a fun t => { t with spill := .idle, vat := memClear t.vat (65536 * 47) 65536 }
    match t.trapFor with
    | some (uid, _) =>
      match s.unit? uid with
      | some u =>
        let n := s.cycle a - t.trapSince
        if t.trapFor.any fun x => x.2 == 0 then s else (s.countBusy a n n 0).trapNext a u
      | none => s.modTile a fun t => { t with trapFor := none }
    | none => s
  | _ => s

/-- SPILL_DRAIN_DONE (R35). -/
def execSpillDrainDone (tile : Nat) (s : State) : Host.Outcome State Fault Refusal := run (spillDrainDone tile) s

end Sys2Proof.Machine
end

