-- ==== Sys2Proof/Machine/Admit.lean ====
section
/-! DEFINITION. How descriptors of the rims commit, and admission: its conditions, its commit, and ADMITs that wait for the lead or for a build (R235 to R237, R405, R445). -/

namespace Sys2Proof.Machine

open Sys2Proof

/-- A descriptor of the rims commits: COMMIT trace, the partition's commit count, and its record (R44, R217). -/
def State.rimDone (s : State) (n q : Nat) (d : ADesc) : State :=
  let s := s.trace1 { event := 2, client := n, q := q, tag := (dTag d.desc).toNat, part := (s.client n).bindPart }
  let s := s.modPart (s.client n).bindPart fun p => { p with commits := p.commits + 1 }
  s.putRec n { q := q, ordinal := d.ordinal, tag := dTag d.desc, status := 1, start := d.firstStart.getD s.now, commit := s.now
               notify := dNotify d.desc, halt := dHalt d.desc }

/-- Whether every unit of a queue that has committed has its record, so that the next commit's record comes after them (R47, R219). -/
def State.recordsDone (s : State) (n q : Nat) : Bool :=
  !(s.units.any fun v => v.client == n && v.q == q && v.phase == .committed && v.home.isNone)

/-! ### Admission (R235 to R237, R405, R445) -/

/-- SUBCMD (R189). -/
def seqSub (d : BitVec 512) : Nat := bits (dParam d) 3 0
/-- SEQ_ID of a SEQ descriptor (R189). -/
def seqIdOf (d : BitVec 512) : Nat := bits (dParam d) 28 8
/-- ARG (R189). -/
def seqArg (d : BitVec 512) : Nat := bits (dParam d) 63 32

/-- The lowest free spill area of a client (R405). -/
def State.spillArea (s : State) (n : Nat) : Option Nat :=
  let c := s.client n
  let size := 65536 * c.winSeq
  let used := (s.entriesOf n).map fun i => (s.entry i).spillAddr
  if size = 0 then none
  else ((upTo (c.areas.spillSize / size)).map fun k => c.areas.spill + size * k).find? fun a => !used.contains a

/-- First deadline of an ADMIT (R189). -/
def firstDeadline (d : ADesc) : Nat := if dDeadline d.desc = 0 then d.accepted + 1000 * seqArg d.desc else dDeadline d.desc

/-- The reason that refuses an ADMIT under conditions 0x01 to 0x06, 0 for none (R236). -/
def State.refusal (s : State) (n : Nat) (d : ADesc) : Nat :=
  let c := s.client n
  let i := seqIdOf d.desc % 2 ^ 17
  if (s.entry i).state ≠ .free then 1
  else if c.winSeq = 0 then 2
  else if s.ltLimit ≤ s.ltOcc then 3
  else if c.quota ≤ (s.entriesOf n).length then 4
  else if (s.spillArea n).isNone then 5
  else if firstDeadline d < s.now + 20000 + c.stepEst then 6
  else 0

/-- Non-FREE entries of a client over the stack, as the lead knows them (R445, R447). -/
def State.stackCount (s : State) (n : Nat) : Nat :=
  (s.entriesOf n).length + total ((s.stk.counts.filter fun x => x.1 % 128 == n && x.1 / 128 != s.frm.waferId).map Prod.snd)

/-- An ADMIT commits: the entry is set, or it is refused with a reason; either way DONE (R236, R237, R288). -/
def State.admitEnd (s : State) (n q : Nat) (d : ADesc) (ring reason : Nat) : State :=
  let i := seqIdOf d.desc % 2 ^ 17
  let s := if reason = 0 then
      (s.setEntry i { client := n, state := .admitted, period := seqArg d.desc, deadline := firstDeadline d, spillAddr := (s.spillArea n).getD 0 }).outcome n i ring 6 0 s.now
    else
      let s := s.modClient n fun c => { c with refuse := reason + 256 * i, refusals := c.refusals + 1 }
      s.outcome n i ring 5 reason s.now
  (s.modClient n fun x => { x with admits := x.admits.filter fun a => !(a.q == q && a.tag == dTag d.desc) }).rimDone n q d

/-- Data of ADMIT_REQ and RELEASE (R436). -/
def admitData (seq client : Nat) : List Byte := leBytes seq 4 ++ leBytes client 1 ++ leBytes 0 3

/-- The waiting ADMIT descriptor of a queue with a tag. -/
def State.admitDesc (s : State) (n q : Nat) (tag : W32) : Option ADesc :=
  (s.queue n q).accepted.find? fun d => dTag d.desc == tag && dKind d.desc == kSEQ

/-- The ADMITs of a client that have their answer reach their commit instant, unless a build of the context is in progress or an earlier commit's record is to come; one that was granted is checked there once more, and released where it is refused (R219, R235, R236, R445). -/
def State.admitGo (s : State) (n : Nat) : State :=
  s.each (s.client n).admits fun s a =>
    match a.answer, s.admitDesc n a.q a.tag with
    | some r, some d =>
      if (s.client n).build.isSome || !s.recordsDone n a.q then s
      else if r ≠ 0 then s.admitEnd n a.q d a.ring r
      else
        let why := s.refusal n d
        let s := s.admitEnd n a.q d a.ring why
        s.when (why != 0 && s.frm.role == 2) fun s => s.send (lotSync 2 n s.frm.leadId (admitData (seqIdOf d.desc) n))
    | _, _ => s

/-- Notes the answer to an ADMIT that waits; it commits as soon as it may (R235, R445). -/
def State.admitAnswered (s : State) (n : Nat) (a : AdmitWait) (r : Nat) : State :=
  (s.modClient n fun c => { c with admits := c.admits.map fun b => if b.q = a.q ∧ b.tag = a.tag then { b with answer := some r } else b }).admitGo n

end Sys2Proof.Machine
end

