-- ==== Sys2Proof/Machine/Stop.lean ====
section
/-! DEFINITION. Stopping the resident context for a switch: what each unit's stop is, and when the tiles stop (R268 to R275). -/

namespace Sys2Proof.Machine

open Sys2Proof

/-- Partitions a client's context occupies (R254). -/
def State.seats (s : State) (n : Nat) : List Nat :=
  let c := s.client n
  if c.pairEn then [c.bindPart, c.pairPart] else [c.bindPart]

/-- A unit's running time: how long its current run has been started and resident (R270). -/
def State.runTime (s : State) (u : CUnit) : Nat := u.runNs + (if u.phase == .running || u.phase == .ready then s.now - u.runStart else 0)

/-- Whether a stop stops a unit: it runs, or other wafers have still to signal ready for it (R273 step 2, R448). -/
def CUnit.stoppable (u : CUnit) : Bool := u.phase == .running || (u.phase == .ready && !u.waitReady.isEmpty)

/-- Whether a unit is a LOT member that runs on another wafer. -/
def CUnit.isFar (u : CUnit) : Bool := u.isMember && u.home.isNone && u.tiles.isEmpty

/-- Whether the mode of a unit's client stops it under FULL: taken at the instant the switch is decided (R269, R270). -/
def State.fullAt (s : State) (u : CUnit) : Bool :=
  let c := s.client u.client
  c.preemptMode == 0 || (c.preemptMode != 1 && decide (1000 * c.killLimit ≤ s.runTime u))

/-- Whether a unit stops under FULL: neither a unit that writes banks nor one that waits for a HANDBACK does (R271), nor a member on another wafer, whose run no message saves (R436; log 48). -/
def State.stopsFull (s : State) (u : CUnit) : Bool :=
  let waits := match u.handoff with | some h => h.firstSend != 0 && !h.answered | none => false
  u.kind != kPALETTE && u.kind != kTABLE && !waits && !u.isFar && u.stopFull.getD (s.fullAt u)

/-- A member stopped as under KILL returns to READY with no outcome entry; its reserved slots are released and its LOT counts the kill (R275). `kills`: 1, or 0 for a member that had not started (R268). -/
def State.memberKill (s : State) (u : CUnit) (kills : Nat) : State :=
  let s := (((s.discardOn u.id u.allTiles).dropUnit u.id).dropRequests u.id).tellOthers u false
  let s := s.modEntry u.entry fun e => { e with state := .ready, kicked := false }
  let s := match u.member with | some m => s.outRelease u.client m.ring 2 | none => s
  let s := s.when (kills != 0) fun s =>
    (s.modPart u.part fun p => p.kill 2).trace1 { s.unitTrace u 4 with detail := 2 }
  (s.lotDrop u fun l => { l with kills := l.kills + kills, awaitSave := true }).freeStale

/-- A unit is stopped as under KILL (R269, R275). -/
def State.killStop (s : State) (u : CUnit) : State := if u.isMember && u.home.isNone then s.memberKill u 1 else s.killUnit u.id 2

/-- Stops one unit of the outgoing context (R273 step 3). -/
def State.stopUnit (s : State) (u : CUnit) : State :=
  if s.stopsFull u then
    let s := s.modAcct u.client fun a => { a with stopFull := a.stopFull + 1 }
    s.each u.allTiles fun s a => s.modTile a fun t => { t with run := t.run.map fun r => if r.unit = u.id then { r with stopped := true } else r }
  else (s.modAcct u.client fun a => { a with stopKill := a.stopKill + 1 }).killStop u

/-- Whether steps 1 and 2 of a stop are done: no build is in progress, no unit that has signalled ready or waits for a third run remains, and no tile is paused for re-trim (R273, R310, R316). -/
def State.stopMay (s : State) (n : Nat) : Bool :=
  (s.client n).build.isNone
    && ((s.ownUnits n).all fun u => u.stoppable || (match u.phase with | .ready | .third | .committed => false | _ => true))
    && ((s.seats n).flatMap s.tilesOf).all fun a => !tabHas s.flt.retrims (a / 16)

/-- Step 3 of a stop, once steps 1 and 2 are done: the tiles of a context that is being switched out stop (R273). -/
def State.stopGo (s : State) (n : Nat) : State :=
  match (s.part (s.client n).bindPart).switch with
  | none => s
  | some w =>
    if w.out != some n || w.phase != .stopping || w.stopAt.isSome || !s.stopMay n then s
    else
      let s := s.each ((s.ownUnits n).filter CUnit.stoppable) State.stopUnit
      s.each (s.seats n) fun s r => s.modPart r fun x => { x with switch := x.switch.map fun w => { w with stopAt := some s.now } }

/-- A switch that parks a context has been decided: each of its units takes its stop (R270), and the tiles stop as soon as they may. -/
def State.decideStop (s : State) (n : Nat) : State :=
  (s.each ((s.ownUnits n).filter CUnit.stoppable) fun s u => let full := s.fullAt u; s.modUnit u.id fun u => { u with stopFull := some full }).stopGo n

end Sys2Proof.Machine
end

