-- ==== Sys2Proof/Machine/Drain.lean ====
section
/-! DEFINITION. The post-commit drain and the record or outcome that follows it (R44 steps 4 and 5, R46, R221). -/

namespace Sys2Proof.Machine

open Sys2Proof

/-- SPACE of a staging key (see `stageKey`). -/
def keySpace (k : Nat) : Nat := bits k 57 56
/-- Wafer of a staging key. -/
def keyWafer (k : Nat) : Nat := bits k 55 52

/-- A staged byte: key, value, the bits of it that are written (R43, R142). -/
abbrev StagedByte := Nat × Byte × Byte

/-- The staged bytes of a unit with the bits written. -/
def CUnit.stagedBytes (u : CUnit) : List StagedByte := u.staged.map fun x => (x.1, x.2, tabGet 0xFF u.halves x.1)

/-- A byte after a write of some of its bits. -/
def mergeByte (old v mask : Byte) : Byte := (old &&& ~~~mask) ||| (v &&& mask)

/-- Writes one staged byte to its place on this wafer: HBM, or the DRY window of a VAT record; a gated-off element keeps its value (R46, R142). -/
def State.drainByte (s : State) (client : Nat) (x : StagedByte) : State :=
  if keySpace x.1 = 1 then s.hbmWrite (bits x.1 51 0) [mergeByte (memGet s.hbm (bits x.1 51 0)) x.2.1 x.2.2]
  else match s.locateVat client (bits x.1 51 36) (bits x.1 35 0) with
    | some (a, w, off) => s.modTile a fun t => { t with vat := memPut t.vat (65536 * w + off) (mergeByte (memGet t.vat (65536 * w + off)) x.2.1 x.2.2) }
    | none => s

/-- Global address of a staging key on another wafer (R433). -/
def keyAddr (k : Nat) : W64 :=
  if keySpace k = 1 then BitVec.ofNat 64 k else gaOf (keyWafer k) 0 (Config.remoteVatOffset (keyWafer k) (bits k 51 36) (bits k 35 0))

/-- Cuts staged bytes into the aligned 64-byte blocks that they lie in, each of which lands as a whole (R46). -/
def drainBlocks : List StagedByte → List (List StagedByte)
  | [] => []
  | x :: r =>
    match drainBlocks r with
    | (y :: b) :: bs => if x.1 / 64 = y.1 / 64 then (x :: y :: b) :: bs else [x] :: (y :: b) :: bs
    | bs => [x] :: bs

/-- Whether a block's staged bytes follow one another and are written whole. -/
def drainWhole (b : List StagedByte) : Bool :=
  b.all (fun x => x.2.2 == 0xFF) && (match b.head?, b.getLast? with | some x, some y => y.1 + 1 == x.1 + b.length | _, _ => false)

/-- Joins blocks that follow one another into writes of at most 4,096 bytes of HBM, or of one block of a vat (R435). -/
def drainJoin : List (List StagedByte) → List (List StagedByte)
  | [] => []
  | b :: r =>
    match drainJoin r with
    | c :: cs =>
      let page := fun (k : Nat) => k / (if keySpace k = 1 then 4096 else 256)
      (match b.getLast?, c.head? with
       | some x, some y => if drainWhole b && drainWhole c && x.1 + 1 == y.1 && page x.1 == page y.1 then (b ++ c) :: cs else b :: c :: cs
       | _, _ => b :: c :: cs)
    | [] => [b]

/-- The WR request that carries staged bytes that follow one another to another wafer (R435). -/
def drainWr (client : Nat) (b : List StagedByte) : Trans :=
  let k := match b with | x :: _ => x.1 | [] => 0
  { typ := tWR, dst := keyWafer k, addr := keyAddr k, len := b.length, client := client, data := b.map fun x => x.2.1 }

/-- The RD request that reads the bytes between the first and the last staged byte of a block that is written in part. -/
def drainRd (client : Nat) (b : List StagedByte) : Trans :=
  match b.head?, b.getLast? with
  | some x, some y => { typ := tRD, dst := keyWafer x.1, addr := keyAddr x.1, len := y.1 + 1 - x.1, client := client }
  | _, _ => {}

/-- The whole bytes of a block from those that stood there and the staged ones (R46, R142). -/
def drainMerge (old : List Byte) (b : List StagedByte) : List StagedByte :=
  let k := match b with | x :: _ => x.1 | [] => 0
  old.zipIdx.map fun p => match b.find? fun x => x.1 == k + p.2 with
    | some x => (k + p.2, mergeByte p.1 x.2.1 x.2.2, 0xFF)
    | none => (k + p.2, p.1, 0xFF)

/-- Sends one WR of a unit's drain (R46). -/
def State.drainOne (s : State) (u : CUnit) (b : List StagedByte) : State :=
  let (tid, s) := s.request u.id (drainWr u.client b)
  s.modUnit u.id fun u => { u with waitWr := u.waitWr ++ [tid] }

/-- Sends the drain of a committed unit to other wafers: whole blocks at once, others once what stands there has been read (R46, R142; log 111). -/
def State.drainSend (s : State) (u : CUnit) : State :=
  let other := u.stagedBytes.filter fun x => keyWafer x.1 != s.frm.waferId
  s.each (drainJoin (drainBlocks other)) fun s b =>
    if drainWhole b then s.drainOne u b
    else
      let (tid, s) := s.request u.id (drainRd u.client b)
      s.modUnit u.id fun u => { u with waitMerge := u.waitMerge ++ [(tid, b)] }

/-- Writes a committed unit's staged bytes of this wafer and frees its staging windows (R46). -/
def State.drainLocal (s : State) (u : CUnit) : State :=
  let s := s.each (u.stagedBytes.filter fun x => keyWafer x.1 == s.frm.waferId) fun s x => s.drainByte u.client x
  s.each u.allTiles fun s a => s.modTile a fun t => t.freeWhere fun x => x.wetOf u.id

/-- The RETIRED entry that follows a committed member's own, or the release of its slot (R221, R222). -/
def State.memberRetired (s : State) (u : CUnit) (m : Member) : State :=
  match m.retire with
  | some d => s.outcomeAt u m 7 d 0
  | none => s.outRelease u.client m.ring 1

/-- Step 5 of the commit: the outcome entries of a member, or the completion record (R44, R221); for a unit forwarded here, the answer to its home (R437). Where another wafer has refused a write of the drain, the unit ends with ACCESS (R202, R434). -/
def State.commitRecord (s : State) (u : CUnit) : State :=
  match u.home, u.member with
  | some (w, tid), _ => (s.dropUnit u.id).send { typ := tDESC, dst := w, resp := true, tid := BitVec.ofNat 32 tid, client := u.client }
  | none, some m =>
    if u.status ≠ 0 then
      let s := (s.modAcct u.client fun a => a.outcome 8).outcomeAt u m 8 (0x80 + u.code) 0
      let s := (s.outcomeTrace u.client u.q u.tag.toNat m.entry u.part 8).memberRetired u m
      (s.lotDrop u fun l => { l with failedAny := true, commitNo := u.commitNo }).dropUnit u.id
    else
      let s := s.outcomeAt u m m.outcome m.defers u.flags
      let s := (s.outcomeTrace u.client u.q u.tag.toNat m.entry u.part m.outcome).memberRetired u m
      let late := m.outcome == 2
      (s.lotDrop u fun l => { l with
        served := if late then l.served else l.served + 1, late := if late then l.late + 1 else l.late
        flags := l.flags ||| u.flags, lastCommit := some u.commitT, commitNo := u.commitNo }).dropUnit u.id
  | none, none => if u.status = 0 then (s.dropUnit u.id).unitRecord u 1 0 else (s.dropUnit u.id).unitRecord u u.status u.code

/-- What the end of a unit that had committed lets go on: the records of LOTs and of a teardown that follow it in its queue, ADMITs, and a stop that waits for it (R219, R225, R235, R273). -/
def State.recordsNext (s : State) (n q : Nat) : State :=
  let lots := sortBy (fun (a b : LotRun) => decide (a.commitNo ≤ b.commitNo)) ((s.client n).lots.filter fun l => l.q == q)
  let s := s.each lots fun s l => s.lotCheck n q l.ordinal
  let s := s.when (s.recordsDone n q) fun s =>
    let l := (s.queue n q).late
    (s.modQueue n q fun x => { x with late := [] }).each l fun s r => s.putRec n r
  (s.admitGo n).stopGo n

/-- Whether a unit of the same queue that committed earlier still has its record to come (R47, R219). -/
def State.earlierCommit (s : State) (u : CUnit) : Bool :=
  s.units.any fun v => v.client == u.client && v.q == u.q && v.phase == .committed && v.home.isNone && decide (v.commitNo < u.commitNo)

/-- Whether a committed unit's record may be written: every other wafer has acknowledged its part and reported the end of forwarded work, and earlier commits of the queue have their records (R44, R46, R47). -/
def State.drained (s : State) (u : CUnit) : Bool :=
  u.waitWr.isEmpty && u.waitMerge.isEmpty && u.waitFlip.isEmpty && !s.earlierCommit u
    && !s.stk.requests.any fun r => r.2.2.1 == u.id && u.others.contains r.2.1

/-- Ends a unit that is past its commit instant: the drain completes and its record is written (R46). -/
def State.finishUnit (s : State) (u : CUnit) : State := (((s.drainLocal u).commitRecord u).recordsNext u.client u.q).freeStale

end Sys2Proof.Machine
end

