-- ==== Sys2Proof/Machine/Loss.lean ====
section
/-! DEFINITION. Context teardown, partition reset and losses (R225, R250, R301, R305, R306, R310). -/

namespace Sys2Proof.Machine

open Sys2Proof

/-- Ends a running LOT: every member that has neither ended nor committed gets FAILED, then the record is written (R225). -/
def State.lotEnd (s : State) (n : Nat) (l : LotRun) (status : Nat) : State :=
  let s := s.modLot n l.q l.ordinal fun l => { l with building := true }
  let s := s.each l.members fun s id =>
    match s.unit? id with
    | some u => if u.phase == .committed then s else s.endUnit u status 0
    | none => s
  match s.lot? n l.q l.ordinal with
  | some l => s.lotRecord n l status
  | none => s

/-- Members and slots of a build in progress are released: their sequences are READY (R222). -/
def State.dropBuild (s : State) (n : Nat) : State :=
  match (s.client n).build with
  | none => s
  | some b => (s.outRelease n b.ring (2 * b.placed.length)).modClient n fun c => { c with build := none }

/-- The units of a client that are past their commit instant, in commit order. -/
def State.committedOf (s : State) (n : Nat) : List CUnit :=
  sortBy (fun (a b : CUnit) => decide (a.commitNo ≤ b.commitNo)) ((s.unitsOf n).filter fun u => u.phase == .committed)

/-- Finishes the units of a client that are past their commit instant and whose drain other wafers have acknowledged; the others end as their answers come (R44, R46, R55, R225). -/
def State.finishAll (s : State) (n : Nat) : State :=
  s.each (s.committedOf n) fun s u => if s.drained u then s.finishUnit u else s

/-- Units of a client that have started and neither ended nor committed. -/
def State.openUnits (s : State) (n : Nat) : List CUnit := (s.unitsOf n).filter fun u => u.phase != .committed

/-- Ends one accepted descriptor of a client without a record (R225). -/
def State.endAccepted (s : State) (n q : Nat) (d : ADesc) (status : Nat) : State :=
  match d.state with
  | .waiting => s.endWaiting n q d status 0
  | .started id =>
    match s.unit? id, s.lot? n q d.ordinal with
    | some u, _ => if u.phase == .committed then s else s.endUnit u status 0
    | none, some l => s.lotEnd n l status
    | none, none => s.endWaiting n q d status 0
  | _ => s

/-- Frees every window that belongs to a client, on every tile, with its contents (R305). -/
def Window.ofClient (x : Window) (n : Nat) : Bool :=
  match x.owner with
  | .seq c _ _ => c == n
  | .record c _ _ => c == n
  | .staged c _ _ => c == n
  | .nobody => false

/-- Frees every window of a client on the wafer (R305). -/
def State.freeClient (s : State) (n : Nat) : State :=
  { s with tiles := s.tiles.map fun p => (p.1, p.2.freeWhere fun x => x.ofClient n) }

/-- Takes a client out of the partitions it is resident in or is being switched into or out of (R259, R305). -/
def State.unseat (s : State) (n : Nat) : State :=
  s.each (upTo Config.partitions) fun s p =>
    let x := s.part p
    let s := if x.resident = some n then s.modPart p fun x => { x with resident := none } else s
    match x.switch with
    | none => s
    | some w =>
      if w.incoming = some n then s.modPart p fun x => { x with switch := if w.phase == .restoring then none else some { w with incoming := none } }
      else if w.out = some n then s.modPart p fun x => { x with switch := match w.incoming with
          | some _ => some { w with out := none, phase := .restoring, since := s.now }
          | none => none }
      else s

/-- Counts the time a parked context of a client has been parked (R286, R289). -/
def State.countParked (s : State) (n : Nat) : State :=
  let c := s.client n
  if c.en && !c.resident then
    (s.modAcct n fun a => { a with parkedNs := a.parkedNs + BitVec.ofNat 64 (s.now - c.parkedSince) }).modClient n fun c => { c with parkedSince := s.now }
  else s

/-- Every entry of a client enters RETIRING, with no RETIRED entry (R250). -/
def State.retireAll (s : State) (n : Nat) : State :=
  s.each (s.entriesOf n) fun s i => s.modEntry i fun e => { e with state := .retiring }

/-- What a teardown leaves of a client's device-side state (R225, R250). -/
def Client.torn (c : Client) : Client :=
  { c with
    resident := false, parked := {}, build := none, lots := [], admits := [], lostSeqs := [], refusals := 0, erd := none
    en := false }

/-- Tears down a client's context (R225, R250, R253); `flr`: under a VF FLR no record, entry or message is written, the drains of units past their commit instant still reach their place (R46), and the queue registers return to their reset values. -/
def State.teardown (s : State) (n : Nat) (flr : Bool) : State :=
  let s := s.countParked n
  if flr then
    let s := s.each (s.committedOf n) State.drainLocal
    let s := s.each (s.unitsOf n) fun s u => ((s.discardOn u.id u.allTiles).dropUnit u.id).dropRequests u.id
    let s := ((s.freeClient n).unseat n).retireAll n
    s.modClient n fun c => { c.torn with q0 := {}, q1 := {}, out := { epoch := c.out.epoch }, func := { c.func with held := [] } }
  else
    let s := (s.finishAll n).dropBuild n
    let s := s.each [0, 1] fun s q =>
      let s := s.modQueue n q fun x => { x with state := .tornDown, closing := false, fetched := [], reading := none }
      s.each (s.queue n q).accepted fun s d => s.endAccepted n q d 5
    let s := s.each (s.openUnits n) fun s u => s.endUnit u 5 0
    let s := ((s.freeClient n).unseat n).retireAll n
    s.modClient n Client.torn

/-- List slots of the sequences of a client whose windows lie on a list of tiles. -/
def State.seqsOn (s : State) (n : Nat) (tiles : List Nat) : List Nat :=
  sortUp (tiles.flatMap fun a => (s.tile a).windows.filterMap fun x => match x.2.owner, x.2.state with
    | .seq c e _, .dry => if c = n then some e else none
    | _, _ => none)

/-- The record of a client whose DRY window it is, with its generation (see `recKey`). -/
def Window.recIn (x : Window) (n : Nat) : Option Nat :=
  match x.owner, x.state with
  | .record c k _, .dry => if c = n then some k else none
  | _, _ => none

/-- Records of a client with windows on a list of tiles, with their generations. -/
def State.recsOn (s : State) (n : Nat) (tiles : List Nat) : List Nat :=
  sortUp (tiles.flatMap fun a => (s.tile a).windows.filterMap fun x => x.2.recIn n)

/-- Windows of a client's saved context, on both its sides (R277). -/
def Parked.windows (k : Parked) : List Window := (k.tiles ++ k.pairTiles).flatMap fun t => t.windows.map Prod.snd

/-- Advances the generation of a record (R192, R306). -/
def State.recGen (s : State) (n i : Nat) : State :=
  let a := (s.client n).areas.recs + 64 * i + 2
  s.hbmWrite a (leBytes ((s.hbmVal a 1 + 1) % 256) 1)

/-- Writes the FAILED entries of sequences that a partition reset took, as outcome slots become free (R306). -/
def State.lostGo (s : State) (n : Nat) : State :=
  s.each (s.client n).lostSeqs fun s x =>
    let c := s.client n
    if c.out.enable && c.out.free == 0 then s
    else ((s.modClient n fun c => { c with lostSeqs := c.lostSeqs.filter (· != x) }).outReserve n 1).putOut n
      { seq := s.seqId x.1, outcome := 8, detail := 6, flags := 0, step := x.2.1, time := x.2.2, ring := c.out.token }

/-- A context affected by a partition reset: its started descriptors end with PART_RESET, its vat state, on the tiles or in the image being restored, is gone, its queues stay RUNNING (R306). -/
def State.resetContext (s : State) (n : Nat) (tiles : List Nat) : State :=
  let image := (s.client n).parked.windows
  let s := s.countParked n
  let lost := sortUp (s.seqsOn n tiles ++ image.filterMap fun w => (w.seqIn .dry).bind fun v => if v.1 = n then some v.2 else none)
  let running := (s.unitsOf n).filterMap fun u => u.member.map fun m => m.entry
  let recs := (sortUp ((s.recsOn n tiles ++ image.filterMap fun w => w.recIn n).map (· % 2 ^ 16))).filter fun i => let r := s.trec n i; r.valid && r.cls == 0
  let s := (s.finishAll n).dropBuild n
  let s := s.each lost fun s i => s.modEntry i fun e => { e with win := e.win.map fun _ => 0x3E, resValid := false, spilled := false }
  let s := s.each [0, 1] fun s q =>
    s.each ((s.queue n q).accepted.filter fun d => match d.state with | .started _ => true | _ => false) fun s d => s.endAccepted n q d 6
  let s := s.each (s.openUnits n) fun s u => s.endUnit u 6 0
  let others := lost.filter fun i => !running.contains i
  let s := s.each others fun s i => s.modEntry i fun e => if e.state == .running || e.state == .retiring then e else e.exit
  let s := s.each recs fun s i => s.recGen n i
  let s := s.each others fun s _ => s.modAcct n fun a => a.outcome 8
  let entries := others.map fun i => (i, (s.entry i).step, s.now)
  ((s.modClient n fun c => { c with
    resident := false, parked := {}, parkedSince := s.now, lostSeqs := c.lostSeqs ++ entries, lots := [], build := none }).lostGo n).admitGo n

/-- A tile after a partition reset: vat, accumulator file, registers and banks are clear; its counters stay (R306). -/
def Tile.cleared (t : Tile) : Tile :=
  { t with
    windows := [], vat := [], spill := .idle, trapFor := none, run := none, queue := []
    pal := { swaps := t.pal.swaps }, tbl := { swaps := t.tbl.swaps } }

/-- Contexts affected by the reset of a partition (R306). -/
def State.affected (s : State) (p : Nat) : List Nat :=
  let x := s.part p
  let l := (match x.resident with | some n => [n] | none => [])
    ++ (match x.switch with
        | some w => (match w.out with | some n => if w.phase == .restoring then [] else [n] | none => [])
            ++ (match w.incoming with | some n => if w.phase == .restoring then [n] else [] | none => [])
        | none => [])
  sortUp l

/-- Resets a partition in PARTITION fault mode; its BIST-lite begins (R306, R310). -/
def State.partitionReset (s : State) (p : Nat) : State :=
  let who := s.affected p
  let parts := sortUp (p :: who.flatMap s.seats)
  let tiles := parts.flatMap s.tilesOf
  let s := s.each who fun s n => s.resetContext n tiles
  let s := s.each (s.units.filter fun u => u.home.isSome && parts.contains u.part && u.phase != .committed) fun s u => s.endUnit u 6 0
  let s := s.each tiles fun s a => s.modTile a Tile.cleared
  let s := { s with fabric := s.fabric.filter fun m => !tiles.contains m.dst }
  s.each parts fun s p => s.modPart p fun x => { x with resident := none, switch := none, bist := true }

/-- The response to a loss whose owner is a client (R301, R305, R306). -/
def State.lossOf (s : State) (n : Nat) : State :=
  let c := s.client n
  if !c.en then s
  else if (s.part c.bindPart).faultMode = 0 then s.teardown n false
  else s.partitionReset c.bindPart

end Sys2Proof.Machine
end

