-- ==== Sys2Proof/Machine/Spares.lean ====
section
/-! DEFINITION. Upsets, permanence, retirement, losses and the column maps (R301 to R304, R309, R317 to R322, R398, R400, R427). -/

namespace Sys2Proof.Machine

open Sys2Proof

/-! ### Kills by side (R49, R317, R318) -/

/-- Partition in which a side of a unit runs. -/
def State.sidePart (s : State) (u : CUnit) (d : Side) : Nat :=
  match d with
  | .main => u.part
  | .pair => (s.client u.client).pairPart
  | .third => s.flt.arbPart

/-- Kills one side of a unit, which will rerun; an unpaired unit is killed as a whole (R49, R317). A side killed while a third run waits or runs ends that third run, whose digest it would decide; a unit that is being saved is stopped as under KILL (R285). -/
def State.killSide (s : State) (uid : Nat) (d : Side) (cause : Nat) : State :=
  match s.unit? uid with
  | none => s
  | some u =>
    if u.phase == .saved then s.killStop u
    else if u.pairTiles.isEmpty || (u.kind != 1 && u.kind != 3) then s.killUnit uid cause
    else if u.phase == .committed || u.phase == .killed || u.phase == .placed || u.down.contains d then s
    else
      let third := u.phase == .third && d != .third
      let s := s.discardOn uid (u.sideTiles d ++ (if third then u.thirdTiles else []))
      let s := s.modFlt fun f => if third then { f with thirds := f.thirds.filter (· != uid) } else f
      let s := s.modUnit uid fun u => { u with
        down := u.down ++ [d], retries := u.retries + 1
        phase := if d == .third then u.phase else .running
        thirdTiles := if third then [] else u.thirdTiles
        digest := if d == .third then u.digest else none, pairDigest := if d == .third then u.pairDigest else none
        afterRebuild := u.afterRebuild || cause == 3 }
      let s := s.modPart (s.sidePart u d) fun p => p.kill cause
      s.trace1 { s.unitTrace u 4 with detail := cause, part := s.sidePart u d }

/-- Kills what runs on tile `a`; in a context under a break halt the kill is held until the release (R318). -/
def State.killOn (s : State) (a cause : Nat) : State :=
  match (s.tile a).run with
  | none => s
  | some r =>
    match s.unit? r.unit with
    | none => s
    | some u =>
      if (s.client u.client).dbg.halted then s.modTile a fun t => { t with heldUpset := true }
      else s.killSide r.unit r.side cause

/-- Client whose unit runs on a tile. -/
def State.clientOn (s : State) (a : Nat) : Option Nat :=
  ((s.tile a).run.bind fun r => s.unit? r.unit).map CUnit.client

/-! ### Rows (R321, R322, R333) -/

/-- Working tiles of a row. -/
def ColMap.working (m : ColMap) : Nat := (m.cols.filter (· != 0x1F)).length
/-- The row with its strip's service judged: retired below 12 working tiles (R322). -/
def ColMap.judge (m : ColMap) : ColMap := { m with retired := decide (m.working < 12) }
/-- The row after physical column `p` is retired: the unused tile takes its place, or the column is ABSENT (R321). -/
def ColMap.shift (m : ColMap) (p : Nat) : ColMap :=
  if m.unused = p then { m with unused := 0x1F }
  else if m.cols.contains p then { m with cols := m.cols.map (fun x => if x = p then m.unused else x), unused := 0x1F }
  else m
/-- The row after physical column `p` returns: it fills the lowest ABSENT column, or is the unused tile (R333). -/
def ColMap.fill (m : ColMap) (p : Nat) : ColMap :=
  if m.cols.contains 0x1F then { m with cols := m.cols.set (indexIn m.cols 0x1F) p }
  else { m with unused := p }

/-- Applies a row change to the column map of its strip (R321, R333). -/
def State.rowApply (s : State) (x : Bool × Nat) : State :=
  let strip := x.2 / 17
  s.modFrm fun f => { f with colmaps := tabMod {} f.colmaps strip fun m => (if x.1 then m.fill (x.2 % 17) else m.shift (x.2 % 17)).judge }

/-- A rebuild of partition `p` is pending (R261). -/
def State.wantRebuild (s : State) (p : Nat) : State := s.modPart p fun x => { x with rebuildPend := true }

/-! ### Retirement (R304, R319) -/

/-- Whether a unit is retired in the volatile map (R319), or is a rim store bank no longer used. -/
def State.isRetired (s : State) (cls n : Nat) : Bool :=
  match cls with
  | 0 => s.frm.rTiles.getLsbD n
  | 1 => s.frm.rLanes.getLsbD n
  | 2 => s.frm.rPch.getLsbD n
  | _ => s.flt.rimBad.contains n

/-- Sets the map bit of a unit. -/
def Frm.setRetired (f : Frm) (cls n : Nat) (on : Bool) : Frm :=
  match cls with
  | 0 => { f with rTiles := if on then f.rTiles ||| BitVec.twoPow 8704 n else f.rTiles &&& ~~~ BitVec.twoPow 8704 n }
  | 1 => { f with rLanes := if on then f.rLanes ||| BitVec.twoPow 544 n else f.rLanes &&& ~~~ BitVec.twoPow 544 n }
  | 2 => { f with rPch := if on then f.rPch ||| BitVec.twoPow 768 n else f.rPch &&& ~~~ BitVec.twoPow 768 n }
  | _ => f

/-- Key of a unit in the upset history. -/
def histKey (cls n : Nat) : Nat := 65536 * cls + n

/-- A tile leaves service: units on it are killed, and its row changes at the partition's rebuild, or at once where its strip is in no partition or it serves no column (R49, R304, R321). -/
def State.tileOut (s : State) (pt : Nat) : State :=
  match s.activeOf pt, s.partOfStrip (pt / 17) with
  | some a, some p => ((s.killOn a 3).modFrm fun f => { f with rowChanges := f.rowChanges ++ [(false, pt)] }).wantRebuild p
  | _, _ => s.rowApply (false, pt)

/-- Lanes of a port that are working spares, ascending. -/
def Port.spares (p : Port) : List Nat := (upTo 68).filter fun l =>
  let x : Lane := tabGet {} p.lanes l
  x.state == .spare && x.logical.isNone

/-- A lane is retired in its port: it stops carrying traffic; an end that judges it sends LANE_RETIRE (R427). -/
def State.laneOut (s : State) (n : Nat) (tell : Bool) : State :=
  s.modPort (n / 68) fun p => { p with
    lanes := tabMod {} p.lanes (n % 68) fun l => { l with state := .retired }
    ctrlQ := if tell && (p.state == .active || p.state == .recovery) then p.ctrlQ ++ [[0x10, BitVec.ofNat 8 (n % 68)]] else p.ctrlQ }

/-- Clients with EN = 1 that own data at or above an address and below another (R400, R403). -/
def State.ownersIn (s : State) (lo hi : Nat) : List Nat :=
  (upTo Config.clients).filter fun n =>
    let c := s.client n
    let a := c.areas
    let hit := fun b e : Nat => decide (b < hi) && decide (lo < e)
    c.en && (hit a.lo a.hi || hit a.recs (a.recs + 0x400000) || hit a.park (a.park + a.parkSize) || hit a.spill (a.spill + a.spillSize))

/-- The owner of an HBM location (R301). -/
def State.ownerAt (s : State) (a : Nat) : Option Nat := (s.ownersIn a (a + 1)).head?

/-- A loss (R301): logged, and handled in the owner's fault mode; data no one owns is never a loss (R402). -/
def State.loss (s : State) (source cls n : Nat) (owner : Option Nat) : State :=
  match owner with
  | none => s
  | some c => (s.fltLog source 3 cls n (some c)).lossOf c

/-- A pseudo-channel is withdrawn: TOP falls by 768 MiB and its granules are redirected, or beyond 64 nothing is redirected (R398, R400). `live`: at run time its contents are copied. -/
def State.pcOut (s : State) (n : Nat) (live : Bool) : State :=
  if s.frm.withdrawn < 64 then
    let s := s.modFrm fun f => { f with withdrawn := f.withdrawn + 1, copying := if live then f.copying ++ [n] else f.copying }
    let top := s.hbmTop
    let s := s.hbmClear top Config.pcBytes
    if live && decide (top < s.frm.hbmLimit) then
      s.each (s.ownersIn top (top + Config.pcBytes)) fun s c => s.loss 0x0B 2 n (some c)
    else s
  else (s.modFrm fun f => { f with unmapped := f.unmapped ++ [n] }).notice 0x13 n 0 none

/-- Retires a unit (R304): its map bit is set, its history cleared, its RETIRE trace written, and it leaves service; a stack with no pseudo-channel left is down (R325). `router`: a tile whose router failed (R173). -/
def State.retireUnit (s : State) (cls n : Nat) (router : Bool) : State :=
  if s.isRetired cls n then s
  else
    let s := s.modFrm fun f => f.setRetired cls n true
    let s := s.modFlt fun f => { f with history := tabDel f.history (histKey cls n) }
    let s := s.trace1 { event := 7, detail := cls, unit := n, part := if cls = 0 then (s.partOfStrip (n / 17)).getD 0 else 0 }
    match cls with
    | 0 => (s.modFrm fun f => { f with badRouters := if router then insertUp n f.badRouters else f.badRouters }).tileOut n
    | 1 => s.laneOut n true
    | 2 =>
      let s := s.pcOut n true
      s.when ((upTo 32).all fun i => s.isRetired 2 (32 * (n / 32) + i)) fun s => s.modCtl (n / 32) fun c => { c with up := false }
    | _ => s.modFlt fun f => { f with rimBad := insertUp n f.rimBad }

/-! ### Probation records (R331 to R336) -/

/-- The probation record in which a unit runs. -/
def State.probeOf (s : State) (cls n : Nat) : Option Nat :=
  (s.frm.probes.find? fun x => x.2.state == 1 && x.2.cls == cls && x.2.unit == n).map Prod.fst

/-- Ends a probation as FAILED: logged as PERMANENT with the detecting source (R334, R335). -/
def State.probeFail (s : State) (k source : Nat) : State :=
  let p : Probe := tabGet {} s.frm.probes k
  let s := s.modFrm fun f => { f with probes := tabPut f.probes k { p with state := 3 } }
  let s := if p.cls = 1 then s.modPort (p.unit / 68) fun x => { x with lanes := tabMod {} x.lanes (p.unit % 68) fun l => { l with state := .retired } } else s
  s.fltLog source 2 p.cls p.unit none

/-! ### Upsets (R303) -/

/-- UPSET_LIMIT of a class. -/
def Flt.limit (f : Flt) (cls : Nat) : Nat := tabGet 3 f.limits cls
/-- UPSET_WINDOW of a class in ns. -/
def Flt.window (f : Flt) (cls : Nat) : Nat := 1000000 * tabGet 1000 f.windows cls

/-- Charges an upset to a unit; answers whether the unit is now permanently faulty (R303). A unit in probation ends its probation; a retired unit takes none. -/
def State.charge (s : State) (source cls n : Nat) (client : Option Nat) : State × Bool :=
  match s.probeOf cls n with
  | some k => (s.probeFail k source, false)
  | none =>
    if s.isRetired cls n then (s, false)
    else
      let h := (s.now :: tabGet [] s.flt.history (histKey cls n)).take 15
      let perm := decide (s.flt.limit cls ≤ (h.filter fun t => decide (s.now - t ≤ s.flt.window cls)).length)
      let s := s.modFlt fun f => { f with history := tabPut f.history (histKey cls n) h }
      (s.fltLog source (if perm then 2 else 1) cls n client, perm)

/-- An upset of a unit that kills nothing by itself: a lane, a pseudo-channel, a store bank, or a stuck bit of a tile (R299, R300, R304). -/
def State.upset (s : State) (source cls n : Nat) (client : Option Nat) : State :=
  let r := s.charge source cls n client
  if r.2 then r.1.retireUnit cls n false else r.1

/-- An upset of a physical tile that kills what runs on the listed active tiles (R300, R304): the kill comes first, and a unit killed by the upset that retires its tile reruns after the rebuild. -/
def State.upsetTile (s : State) (source pt : Nat) (kills : List Nat) (router : Bool) (client : Option Nat) : State :=
  let r := s.charge source 0 pt client
  let s := r.1
  let ids := kills.filterMap fun a => (s.tile a).run.map TileRun.unit
  let s := s.each kills fun s a => s.killOn a 1
  if r.2 then
    let s := s.each ids fun s id => s.modUnit id fun u => { u with afterRebuild := true }
    s.retireUnit 0 pt router
  else s

end Sys2Proof.Machine
end

