-- ==== Sys2Proof/Machine/Begin.lean ====
section
/-! DEFINITION. What starting a commit unit does on its tiles: windows, whole-tensor operands, bank images, runs (R43, R128, R163, R188, R193, R199, R200, R507). -/

namespace Sys2Proof.Machine

open Sys2Proof

/-! ### Whole tensors as packed streams (R60, R197) -/

/-- Half byte `a` of a byte store. -/
def nibGet (m : Bytes) (a : Nat) : Nat := (memGet m (a / 2)).toNat / 16 ^ (a % 2) % 16
/-- The store with half byte `a` replaced. -/
def nibPut (m : Bytes) (a v : Nat) : Bytes :=
  let b := (memGet m (a / 2)).toNat
  memPut m (a / 2) (BitVec.ofNat 8 (if a % 2 = 0 then b / 16 * 16 + v % 16 else b % 16 + 16 * (v % 16)))

/-- Half-byte offset of logical element `n` in a record's strided layout (R197). -/
def stridedNib (h : Handle) (n : Nat) : Nat :=
  let row := nth h.dims 0
  2 * total ((upTo 4).map fun k => nth h.strides k * (n / dimProd h.dims (k + 1) % (if k + 1 < h.rank then nth h.dims (k + 1) else 1)))
    + h.width / 4 * (n % row)

/-- Whether a handle's record is dense (R197). -/
def Handle.dense (h : Handle) : Bool := (upTo (h.rank - 1)).all fun k => nth h.strides k == packedBytes h.width (dimProd h.dims (k + 1))

/-- Bytes from the first to the last of a strided record. -/
def Handle.extent (h : Handle) : Nat :=
  if h.dense then h.bytes
  else total ((upTo (h.rank - 1)).map fun k => nth h.strides k * (nth h.dims (k + 1) - 1)) + packedBytes h.width (nth h.dims 0)

/-- Copies every element of a tensor from one layout of half bytes to another. -/
def relayout (h : Handle) (src dst : Nat → Nat) (m base : Bytes) : Bytes :=
  (upTo h.elems).foldl (fun b n => (upTo (h.width / 4)).foldl (fun b i => nibPut b (dst n + i) (nibGet m (src n + i))) b) base

/-- The packed stream of a record from its bytes in HBM. -/
def packFrom (h : Handle) (m : Bytes) : Bytes :=
  if h.dense then memSlice m 0 h.bytes else relayout h (stridedNib h) (fun n => h.width / 4 * n) m []

/-- The bytes in HBM of a record from its packed stream, over what lay there. -/
def unpackTo (h : Handle) (m old : Bytes) : Bytes :=
  if h.dense then memPaste old 0 h.bytes m else relayout h (fun n => h.width / 4 * n) (stridedNib h) m old

/-- A sequence's windows as one stream, in window-list order: vat, spill area, or zeros (R198, R228). -/
def State.seqSpace (s : State) (n e : Nat) : Bytes :=
  let x := s.entry e
  (upTo (s.client n).winSeq).foldl (fun m i =>
    let w := nth x.win i
    let b := if w = 0x3F then memSlice s.hbm (x.spillAddr + 65536 * i) 65536
      else if w < 47 && x.resValid then (s.tile x.res).winData w else []
    memPaste m (65536 * i) 65536 b) []

/-- The packed stream of a VAT record from the DRY windows of tiles, the first of which is working tile `first` of `t` (R199, R200, R448). -/
def State.vatStream (s : State) (n : Nat) (h : Handle) (tiles : List Nat) (first t : Nat) : Bytes :=
  let part := fun (a first blocks : Nat) => (upTo ((blocks + 255) / 256)).foldl (fun m j =>
    match (s.tile a).find .dry (.record n h.key j) with
    | some w => memPaste m (256 * first + 65536 * j) (if 65536 * (j + 1) ≤ 256 * blocks then 65536 else 256 * blocks - 65536 * j) ((s.tile a).winData w)
    | none => m)
  if h.dist = 1 then
    match tiles.find? fun a => ((s.tile a).find .dry (.record n h.key 0)).isSome with
    | some a => part a 0 h.blocks []
    | none => []
  else tiles.zipIdx.foldl (fun m p => let sh := h.share (p.2 + first) t; part p.1 sh.1 sh.2 m) []

/-- The packed stream of a tensor that this wafer serves, as it stands now (R53). -/
def State.tensorOf (s : State) (n : Nat) (h : Handle) (seq : Nat) : Bytes :=
  if h.isHbm then packFrom h (memSlice s.hbm h.addr h.extent)
  else if h.cls = 4 then memSlice (s.seqSpace n seq) h.base h.bytes
  else
    let p := (s.client n).bindPart
    let l := s.spread p
    let h := if h.cls = 2 then s.recHandle n h.vatIndex else h
    memSlice (s.vatStream n h (s.tilesOf p) (spreadFirst l s.frm.waferId) (spreadTotal l)) 0 h.bytes

/-! ### Windows of a unit (R43, R199, R507) -/

/-- Handles whose tensors a stage stores to: HND of its ST slots, B of a MOVE, D of a HANDOFF. -/
def stageDests (bank : Bytes) (d : BitVec 512) : List Nat :=
  match dKind d with
  | 1 | 3 => sortUp ((tableSlots bank LongWord.st (dTableAddr d) (dTableLen d)).map ldHnd)
  | 2 => [1]
  | 10 => [3]
  | _ => []

/-- Handles that a stage reads whole when it starts: A of a MOVE, PALETTE or TABLE, A and B of a HANDOFF. -/
def stageSources (d : BitVec 512) : List Nat :=
  match dKind d with
  | 2 | 5 | 6 => [0]
  | 10 => if dHandle d 1 = 0 then [0] else [0, 1]
  | _ => []

/-- Owners of the windows that destination `i` of stage `j` needs on working tile `k` of `t`. -/
def CUnit.destOwners (u : CUnit) (j i : Nat) (h : Handle) (k t : Nat) : List Owner :=
  if h.cls = 4 then []
  else (upTo (h.windows k t)).map fun n => if h.cls = 0 then .record u.client h.key n else .staged u.client (4 * j + i) n

/-- What a new WET window of a record or a staged destination holds at first: the bytes that it may replace (log 10). -/
def State.winBefore (s : State) (a : Nat) (u : CUnit) (side : Side) (h : Handle) (k t n : Nat) (o : Owner) : Bytes :=
  let first := (h.share k t).1
  if h.cls = 1 ∨ (h.cls = 3 ∧ h.wafer = s.frm.waferId) then memSlice s.hbm (h.addr + 256 * first + 65536 * n) 65536
  else match (s.tile a).find .dry o with
    | some w => (s.tile a).winData w
    | none =>
      if side == .third && h.cls == 0 then
        memSlice (s.vatStream u.client h u.tiles u.first u.total) (256 * first + 65536 * n) 65536
      else []

/-- Destination handles of a unit by stage; a unit that answers a HANDOFF also writes its A and B (R449). -/
def CUnit.dests (u : CUnit) (bank : Bytes) : List (Nat × Nat × Handle) :=
  u.stages.zipIdx.flatMap fun p => (if u.answers.isSome then sortUp ([0, 1] ++ stageDests bank p.1.desc) else stageDests bank p.1.desc).filterMap fun i => (p.1.handles.getD i none).map fun h => (p.2, i, h)

/-- Gives one tile of a side the WET windows of a unit's destinations; none where too few are FREE. -/
def State.allocTile (s : State) (a : Nat) (u : CUnit) (side : Side) (k t : Nat) : Option State :=
  let own := (u.dests (s.tile a).tbl.bank).flatMap fun x => ((u.destOwners x.1 x.2.1 x.2.2 k t).zipIdx.map fun o => (o.1, x.2.2, o.2))
  own.foldl (fun (m : Option State) x => m.bind fun s =>
    if ((s.tile a).findWet u.id x.1).isSome then some s
    else if (s.tile a).freeList.isEmpty then none
    else some (s.modTile a fun tile => tile.alloc x.1 u.id (s.winBefore a u side x.2.1 k t x.2.2 x.1))) (some s)

/-- Gives every tile of a side its windows; none where a tile has too few FREE (log 12). -/
def State.allocSide (s : State) (u : CUnit) (side : Side) : Option State :=
  (u.sideTiles side).zipIdx.foldl (fun (m : Option State) p => m.bind fun s =>
    s.allocTile p.1 u side (u.shareAt side p.2).1 (u.shareAt side p.2).2) (some s)

/-! ### Whole operands of MOVE, PALETTE, TABLE, HANDOFF -/

/-- Sequence of a MOVE with SEQV = 1, as an entry number (R188). -/
def moveSeq (d : BitVec 512) : Nat := bits (dParam d) 16 0

/-- Pieces of at most `step` bytes: offset and length. -/
def readPieces (len step : Nat) : List (Nat × Nat) :=
  (upTo ((len + step - 1) / step)).map fun i => (step * i, if step * (i + 1) ≤ len then step else len - step * i)

/-- Reads the shares of a SPLIT VAT operand that lie on the other wafers of a widened partition (R178, R448). -/
def State.readFar (s : State) (uid client i : Nat) (h : Handle) : State :=
  let l := s.spread (s.client client).bindPart
  let t := spreadTotal l
  if h.dist = 1 then s
  else s.each (l.filter fun x => x.1 != s.frm.waferId) fun s x =>
    s.each (upTo x.2) fun s j =>
      let sh := h.share (spreadFirst l x.1 + j) t
      s.each (upTo sh.2) fun s b =>
        let o := 256 * (sh.1 + b)
        let n := if o + 256 ≤ h.bytes then 256 else h.bytes - o
        let r := s.request uid { typ := tRD, dst := x.1, addr := gaOf x.1 0 (Config.remoteVatOffset x.1 h.index o), len := n, client := client }
        r.2.modUnit uid fun u => { u with waitRd := u.waitRd ++ [(r.1, 2 ^ 48 * i + o, n)] }

/-- Reads one whole operand of a unit: at once where this wafer serves it, else by RD requests (R178, R435). -/
def State.readSource (s : State) (uid client i : Nat) (h : Handle) (seq : Nat) : State :=
  if h.cls = 3 && h.wafer != s.frm.waferId then
    s.each (readPieces h.extent 4096) fun s p =>
      let r := s.request uid { typ := tRD, dst := h.wafer, addr := gaOf h.wafer 1 (h.addr + p.1), len := p.2, client := client }
      r.2.modUnit uid fun u => { u with waitRd := u.waitRd ++ [(r.1, 2 ^ 48 * i + p.1, p.2)] }
  else if h.cls = 2 && h.wafer != s.frm.waferId then
    s.each (readPieces h.bytes 256) fun s p =>
      let r := s.request uid { typ := tRD, dst := h.wafer, addr := gaOf h.wafer 0 (Config.remoteVatOffset h.wafer h.vatIndex p.1), len := p.2, client := client }
      r.2.modUnit uid fun u => { u with waitRd := u.waitRd ++ [(r.1, 2 ^ 48 * i + p.1, p.2)] }
  else
    let s := s.modUnit uid fun u => { u with image := memPutAll u.image ((s.tensorOf client h seq).map fun x => (2 ^ 48 * i + x.1, x.2)) }
    s.when (h.cls == 0 && (s.unit? uid).any fun u => u.home.isNone && !u.others.isEmpty) fun s => s.readFar uid client i h

/-- The packed stream of operand `i` once it has been read; a strided one of another wafer is packed here. -/
def State.operand (s : State) (u : CUnit) (i : Nat) (h : Handle) : Bytes :=
  let m := memSlice u.image (2 ^ 48 * i) (2 ^ 48)
  if h.cls = 3 && h.wafer != s.frm.waferId then packFrom h m else m

/-- Writes a packed stream wet into a VAT record on every tile of a side. -/
def State.putVat (s : State) (u : CUnit) (side : Side) (h : Handle) (m : Bytes) : State :=
  s.each (u.sideTiles side).zipIdx fun s p =>
    let (k, t) := u.shareAt side p.2
    let sh := h.share k t
    s.each (upTo (h.windows k t)) fun s n =>
      match (s.tile p.1).findWet u.id (.record u.client h.key n) with
      | some w => s.modTile p.1 fun t => t.wroteAll w (memSlice m (256 * sh.1 + 65536 * n) (if 65536 * (n + 1) ≤ 256 * sh.2 then 65536 else 256 * sh.2 - 65536 * n))
      | none => s

/-- Writes a packed stream into a sequence's windows on its home tile, or, where those cannot be had, into its spill area (R188; log 13). -/
def State.putSeq (s : State) (u : CUnit) (e : Nat) (h : Handle) (m : Bytes) : State :=
  let n := (s.client u.client).winSeq
  let x := s.entry e
  let space := memPaste (s.seqSpace u.client e) h.base h.bytes m
  let home := x.resValid && (x.win.take n).all (fun w => decide (w < 47)) && decide (n ≤ (s.tile x.res).freeList.length)
  if home then s.each (upTo n) fun s i => s.modTile x.res fun t => t.alloc (.seq u.client e i) u.id (memSlice space (65536 * i) 65536)
  else s.modUnit u.id fun u => { u with
    staged := (memSlice space 0 (65536 * n)).foldl (fun t b => tabPut t (gaOf s.frm.waferId 1 (x.spillAddr + b.1)).toNat b.2)
      ((upTo (65536 * n)).foldl (fun t b => tabPut t (gaOf s.frm.waferId 1 (x.spillAddr + b)).toNat 0) u.staged) }

/-- Stages a packed stream for an HBM or remote destination (R43). -/
def State.stageAll (s : State) (u : CUnit) (h : Handle) (m : Bytes) : State :=
  let put := fun (t : Tab Byte) (b : Nat) (v : Byte) => tabPut t (stageKey s.frm.waferId h b) v
  let own := h.cls = 1 ∨ (h.cls = 3 ∧ h.wafer = s.frm.waferId)
  let full := if h.isHbm then unpackTo h m (if own then memSlice s.hbm h.addr h.extent else []) else m
  let touched := if h.isHbm && !h.dense
    then sortUp ((upTo h.elems).flatMap fun n => (upTo (h.width / 4)).map fun i => (stridedNib h n + i) / 2)
    else upTo h.bytes
  s.modUnit u.id fun u => { u with staged := touched.foldl (fun t b => put t b (memGet full b)) u.staged }

/-- Writes the destination of a MOVE or the answer of a HANDOFF outside a chain wet, on both sides of a pair (R188, R193). A contributing wafer writes its tiles' shares alone (R448). -/
def State.putDest (s : State) (u : CUnit) (i : Nat) (seq : Nat) (m : Bytes) : State :=
  match (u.stageAt 0).handles.getD i none with
  | none => s
  | some h =>
    if h.cls = 4 then s.putSeq u seq h m
    else if h.localVat s.frm.waferId && h.cls == 0 then (s.putVat u .main h m).putVat u .pair h m
    else if u.home.isSome then s
    else s.stageAll u h m

/-- Writes a bank image into the inactive bank of every tile of a unit, which is then not eligible (R57, R128, R163). -/
def State.putBank (s : State) (u : CUnit) (pal : Bool) (m : Bytes) : State :=
  s.each (u.tiles ++ u.pairTiles) fun s a => s.modTile a fun t =>
    if pal then { t with pal := { t.pal.setOther m with pending := false } } else { t with tbl := { t.tbl.setOther m with pending := false } }

/-- A unit that does not run on tiles is ready, which a contributing wafer reports (R44, R436). -/
def State.unitReady (s : State) (uid : Nat) : State :=
  match s.unit? uid with
  | none => s
  | some u => (s.modUnit uid fun u => { u with phase := .ready }).sendReady u

/-- What a MOVE, PALETTE, TABLE or HANDOFF does once its operands are read: it writes wet and is ready, or is ready to send (R188, R128, R129, R163, R193). -/
def State.dataGo (s : State) (uid : Nat) : State :=
  match s.unit? uid with
  | none => s
  | some u =>
    if !u.waitRd.isEmpty then s
    else
      let op := match (u.stageAt 0).handles.getD 0 none with | some h => s.operand u 0 h | none => []
      match u.kind with
      | 2 => (s.putDest u 1 (moveSeq u.desc) op).unitReady uid
      | 5 => if palImageOk op then (s.putBank u true op).unitReady uid else s.faultUnit uid cPALETTE
      | 6 => (s.putBank u false op).unitReady uid
      | _ => s

/-- HANDOFF fields (R193). -/
def handoffPartner (d : BitVec 512) : Nat := bits (dParam d) 7 0
/-- POP (R193). -/
def handoffPop (d : BitVec 512) : Nat := bits (dParam d) 31 16
/-- PARG (R193). -/
def handoffParg (d : BitVec 512) : Nat := bits (dParam d) 63 32

/-! ### Partitions over several wafers (R437, R448) -/

/-- The 32-byte share context of DESC_FWD for a wafer (R437). -/
def State.shareContext (s : State) (u : CUnit) (w : Nat) : List Byte :=
  let l := s.spread u.part
  let here := match l.find? fun x => x.1 == w with | some x => x.2 | none => 0
  leBytes (spreadFirst l w) 4 ++ leBytes here 2 ++ leBytes (spreadTotal l) 2 ++ leBytes (u.part + 64 * u.q) 1 ++ leBytes 0 3
    ++ leBytes (s.unitSeq u) 4 ++ leBytes u.start 8 ++ leBytes 0 8

/-- Sends a unit's descriptor to every wafer that contributes to it, and waits for their ready signals (R437, R448). -/
def State.forwardUnit (s : State) (u : CUnit) : State :=
  let s := s.modUnit u.id fun u => { u with waitReady := u.others }
  s.each u.others fun s w =>
    (s.request u.id { typ := tDESC, dst := w, client := u.client, len := 96, data := leBytes u.desc.toNat 64 ++ s.shareContext u w }).2

/-- Writes the operands of a HANDOFF that a unit answers wet into its A and B (R449). -/
def State.putReceived (s : State) (uid : Nat) : State :=
  match s.unit? uid with
  | none => s
  | some u =>
    if u.answers.isNone then s
    else s.each [0, 1] fun s i => match (u.stageAt 0).handles.getD i none with
      | some h => (s.putVat u .main h (memSlice u.image (2 ^ 48 * i) (2 ^ 48))).putVat u .pair h (memSlice u.image (2 ^ 48 * i) (2 ^ 48))
      | none => s

/-- Starts a run of a unit that is not a LOT member on its tiles; it waits as READY, runs, or ends with BOUNDS where a tile has too few FREE windows (log 12). -/
def State.beginUnit (s : State) (uid : Nat) : State :=
  match s.unit? uid with
  | none => s
  | some u =>
    let s := s.modUnit uid fun u => { u with phase := .running, start := if u.start = 0 then s.now else u.start, runStart := s.now, afterRebuild := false, preempted := false, down := [] }
    let s := (s.trace1 { s.unitTrace u 1 with detail := u.runNo }).forwardUnit u
    match (s.allocSide u .main).bind fun s => s.allocSide u .pair with
    | none => s.faultUnit uid cBOUNDS
    | some s =>
      match u.kind with
      | 1 =>
        let s := s.putReceived uid
        let s := s.each u.tiles fun s a => s.runBegin a u .main
        s.each u.pairTiles fun s a => s.runBegin a u .pair
      | 10 =>
        let s := s.each (stageSources u.desc) fun s i => match (u.stageAt 0).handles.getD i none with
          | some h => s.readSource uid u.client i h 0
          | none => s
        s.modUnit uid fun u => { u with handoff := some { partner := handoffPartner u.desc, tid := 0, firstSend := 0, outstanding := false } }
      | _ =>
        let s := s.each (stageSources u.desc) fun s i => match (u.stageAt 0).handles.getD i none with
          | some h => s.readSource uid u.client i h (moveSeq u.desc)
          | none => s
        s.dataGo uid

/-- Starts the run of one killed side of a paired unit that is not a member. -/
def State.beginSide (s : State) (uid : Nat) (side : Side) : State :=
  match s.unit? uid with
  | none => s
  | some u =>
    match s.allocSide u side with
    | none => s.faultUnit uid cBOUNDS
    | some s =>
      let s := s.modUnit uid fun u => { u with down := u.down.filter (· != side) }
      s.each (u.sideTiles side) fun s a => s.runBegin a u side

end Sys2Proof.Machine
end

