-- ==== Sys2Proof/Machine/Commit.lean ====
section
/-! DEFINITION. Commit commands: the commit instant, paired decisions and third runs, the drain's end, reruns, the CURRENT merge, bank swaps and ring timers (R42 to R50, R94, R130, R223, R307 to R311). -/

namespace Sys2Proof.Machine

open Sys2Proof

/-! ### Digests (R307) -/

/-- blockdig of R307 over the 32 words of a block. -/
def blockDig (j : Nat) (q : List Nat) : Nat :=
  q.foldl (fun h w => mix64 (Nat.xor h w)) (mix64 ((j + 0x9E3779B97F4A7C15) % 2 ^ 64))

/-- 64-bit words of bytes. -/
def words64 (bs : List Byte) : List Nat := (upTo (bs.length / 8)).map fun i => leVal ((bs.drop (8 * i)).take 8)

/-- Digests of the blocks that a tile's run wrote wet: handle, block, digest (R307). -/
def State.blockDigs (s : State) (u : CUnit) (x : Nat × TileRun) : List (Nat × Nat × Nat) :=
  x.2.written.filterMap fun kb =>
    let c := s.ctx x.1 { x.2 with stage := kb.1 / 4 } u
    match c.handle (kb.1 % 4) with
    | none => none
    | some h =>
      let o := c.slotOf u h (kb.1 % 4) (256 * (kb.2 - c.firstBlock h))
      match (s.tile x.1).findWet u.id o.1 with
      | none => none
      | some w => some (kb.1, kb.2, blockDig (2 ^ 40 * (kb.1 % 4) + kb.2) (words64 (memRead (s.tile x.1).vat (65536 * w + o.2) 256)))

/-- The LTUPD layout of a pending Lot Table update (R278). -/
def State.ltupd (s : State) (u : CUnit) (eos : Bool) : List Byte :=
  if u.isMember then leBytes (1 + 2 * b2n eos) 4 ++ leBytes (s.seqOf u) 4 ++ leBytes 0 8 else leBytes 0 16

/-- The digests of the five summary blocks of a side (R307). -/
def State.summaryDigs (s : State) (u : CUnit) (d : Side) : List Nat :=
  let rs := (s.sideRanges u d).flatMap rangeBytes
  let block := fun k => (rs.drop (256 * (k - 1))).take 256 ++ List.replicate (256 - ((rs.drop (256 * (k - 1))).take 256).length) 0
  let b0 := leBytes (s.sideFlags u d).toNat 16 ++ s.ltupd u (s.sideEos u d) ++ List.replicate 224 0
  (upTo 5).map fun k => blockDig (2 ^ 64 - 1 - k) (words64 (if k = 0 then b0 else block k))

/-- Digests of the blocks that a MOVE or a HANDOFF answer has written wet into a side's windows, without a table run (R307). -/
def State.wetDigs (s : State) (u : CUnit) (d : Side) : List Nat :=
  (u.sideTiles d).zipIdx.flatMap fun p =>
    let (k, t) := u.shareAt d p.2
    (u.dests (s.tile p.1).tbl.bank).flatMap fun x =>
      (u.destOwners x.1 x.2.1 x.2.2 k t).zipIdx.flatMap fun o =>
        match (s.tile p.1).findWet u.id o.1 with
        | none => []
        | some w => (((s.tile p.1).win w).blocks.filter fun b => decide (256 * o.2 + b < (x.2.2.share k t).2)).map fun b =>
            blockDig (2 ^ 40 * x.2.1 + (x.2.2.share k t).1 + 256 * o.2 + b) (words64 (memRead (s.tile p.1).vat (65536 * w + 256 * b) 256))

/-- The digest of a side: the XOR of every block digest and the five summary digests (R307). -/
def State.digestOf (s : State) (u : CUnit) (d : Side) : W64 :=
  let rs := s.sideRuns u d
  let bs := if rs.isEmpty then s.wetDigs u d else rs.flatMap fun x => (s.blockDigs u x).map fun b => b.2.2
  BitVec.ofNat 64 ((bs ++ s.summaryDigs u d).foldl Nat.xor 0)

/-! ### The commit instant (R44 step 3) -/

/-- Owners of a unit's WET windows on a list of tiles that commit into vats. -/
def State.wetOwners (s : State) (uid : Nat) (l : List Nat) : List Owner :=
  l.flatMap fun a => (s.tile a).windows.filterMap fun x => match x.2.owner with
    | .staged _ _ _ => none
    | o => if x.2.wetOf uid then some o else none

/-- A tile at a commit instant: DRY windows of the owners that are replaced go, the unit's WET windows become DRY. -/
def Tile.flip (t : Tile) (uid : Nat) (gone : List Owner) : Tile :=
  let t := t.freeWhere fun x => x.state == .dry && gone.contains x.owner
  { t with windows := t.windows.map fun x => (x.1, match x.2.owner with
    | .staged _ _ _ => x.2
    | _ => if x.2.wetOf uid then { x.2 with state := .dry, unit := 0 } else x.2) }

/-- Makes a unit's WET windows DRY and frees what they replace: a sequence's windows on any tile, a record's on the tiles of the unit (R24, R44, R199, R243). -/
def State.flipAll (s : State) (u : CUnit) (l : List Nat) : State :=
  let gone := s.wetOwners u.id l
  let seqs := gone.filter fun o => match o with | .seq _ _ _ => true | _ => false
  { s with tiles := s.tiles.map fun x => (x.1, if l.contains x.1 then x.2.flip u.id gone else if seqs.isEmpty then x.2 else x.2.flip 0 seqs) }

/-- The entry of a sequence after its windows have become DRY on tile `a` (R243, R244). -/
def Entry.place (e : Entry) (a : Nat) (wins : List (Nat × Nat)) : Entry :=
  let win := (upTo 8).map fun i => match wins.find? (fun (x : Nat × Nat) => x.1 == i) with | some x => x.2 | none => 0x3E
  { e with res := a, resValid := !wins.isEmpty, win := win, spilled := false }

/-- WET windows of a unit on a tile for a sequence: list slot, window. -/
def Tile.wetSeq (t : Tile) (uid client e : Nat) : List (Nat × Nat) :=
  t.windows.filterMap fun x => match x.2.owner with
    | .seq c i k => if x.2.wetOf uid && c == client && i == e then some (k, x.1) else none
    | _ => none

/-- The pending Lot Table update of a member (R231, R233, R246), the count of its outcome (R288), and what its outcome entries will say. -/
def State.memberCommit (s : State) (u : CUnit) (m : Member) (eos : Bool) : State :=
  let e := s.entry m.entry
  let late := decide (m.deadline < s.now)
  let retire := if eos then some 1 else if e.retirePend then some 0 else none
  let a := u.tiles.headD 0
  let wins := (s.tile a).wetSeq u.id u.client m.entry
  let far := { e with res := u.first, resValid := true, spilled := false, win := (upTo 8).map fun i => if i < (s.client u.client).winSeq then 0 else 0x3E }
  let e' := { (if u.tiles.isEmpty then far else e.place a wins).advance m.deadline s.now with
    step := e.step + 1, lastCommit := s.now, deferCount := 0
    lateCount := if late then satTo 0xFFFF (e.lateCount + 1) else e.lateCount
    eos := e.eos || eos }
  let e' := if retire.isSome then { e' with state := .retiring } else e'.exit
  let s := s.modAcct u.client fun a => a.outcome (if late then 2 else 1)
  let s := s.modUnit u.id fun u => { u with member := some { m with
    outcome := if late then 2 else 1, defers := e.deferCount, stepAfter := e.step + 1, retire := retire } }
  s.setEntry m.entry e'

/-- Whether a MOVE's destination is a sequence: what it staged for the spill area is written at its commit instant, with the windows (R45; log 13). -/
def CUnit.movesSeq (u : CUnit) : Bool := u.kind == 2 && ((u.stageAt 0).handles.getD 1 none).any fun h => h.cls == 4

/-- A sequence whose windows a MOVE has replaced, or written to its spill area (R188; log 13). Its state stays, since R231 names no MOVE. -/
def State.moveCommit (s : State) (u : CUnit) : State :=
  match (u.stageAt 0).handles.getD 1 none with
  | none => s
  | some h =>
    if h.cls ≠ 4 then s
    else
      let i := moveSeq u.desc
      let e := s.entry i
      match s.tiles.find? fun x => !(x.2.wetSeq u.id u.client i).isEmpty with
      | some x => s.setEntry i (e.place x.1 (x.2.wetSeq u.id u.client i))
      | none =>
        let n := (s.client u.client).winSeq
        let s := { s with tiles := s.tiles.map fun (x : Nat × Tile) => (x.1, x.2.freeWhere fun (w : Window) => w.state == WinState.dry && (match w.owner with | .seq c j _ => c == u.client && j == i | _ => false)) }
        let s := s.each u.stagedBytes fun s x => s.drainByte u.client x
        s.setEntry i { e with win := (upTo 8).map fun k => if k < n then 0x3F else 0x3E, resValid := false, spilled := true }

/-- Folds contributions into a client's range slots (R91). -/
def State.foldRanges (s : State) (n : Nat) (l : List RangeC) : State :=
  s.modClient n fun c => { c with rslots := l.foldl (fun t r => tabMod {} t r.slot fun x => rslotFold x r) c.rslots }

/-- A RECORD's images at its commit: each record takes its image, its generation rises, and its windows become FREE, on tiles and in a saved context; those that a unit started before still uses become FREE when it ends (R192, R199, R208; log 112). -/
def State.recordCommit (s : State) (n first : Nat) (images : List (List Byte)) : State :=
  let base := (s.client n).areas.recs
  let idx := images.zipIdx.map fun p => first + p.2
  let s := s.each images.zipIdx fun s (p : List Byte × Nat) =>
    let a := base + 64 * (first + p.2)
    let gen := (s.hbmVal (a + 2) 1 + 1) % 256
    s.hbmWrite a (p.1.take 2 ++ leBytes gen 1 ++ p.1.drop 3)
  let gone := fun (w : Window) => w.state == WinState.dry && (match w.owner with | .record c k _ => c == n && idx.contains (k % 2 ^ 16) && s.staleRec w.owner | _ => false)
  let save := fun (t : SavedTile) => { t with windows := t.windows.filter fun w => !gone w.2 }
  let s := s.modClient n fun c => { c with parked := { c.parked with tiles := c.parked.tiles.map save, pairTiles := c.parked.pairTiles.map save } }
  { s with tiles := s.tiles.map fun (x : Nat × Tile) => (x.1, x.2.freeWhere gone) }

/-- Answers a HANDOFF with D's bytes at the commit instant of the unit that ran for it (R449). -/
def State.handAnswer (s : State) (u : CUnit) : State :=
  match u.answers with
  | none => s
  | some (e, tid) =>
    let bs := match (u.stageAt 0).handles.getD 3 none with
      | none => []
      | some h =>
        let old := memRead (s.tensorOf u.client h 0) 0 h.bytes
        old.zipIdx.map fun b => tabGet b.1 u.staged (stageKey s.frm.waferId h b.2)
    s.send { typ := tHANDBACK, dst := e, tid := BitVec.ofNat 32 tid, client := u.client, len := bs.length, data := bs }

/-- Commits a unit, taking flags and contributions from a side: the atomic step 3 of R44, its COMMIT trace, and the start of its drain. -/
def State.commitNow (s : State) (u : CUnit) (d : Side) : State :=
  let flags := s.sideFlags u d
  let eos := s.sideEos u d
  let ranges := s.sideRanges u d
  let staged := (s.sideRuns u d).foldl (fun t x => x.2.staged.foldl (fun t b => tabPut t b.1 b.2) t) u.staged
  let staged := if u.movesSeq then [] else staged
  let halves := (s.sideRuns u d).foldl (fun t x => x.2.halves.foldl (fun t b => tabPut t b.1 b.2) t) u.halves
  let tiles := u.tiles ++ u.pairTiles
  let no := s.order
  let s := { s with order := no + 1 }
  let s := s.discardOn u.id u.thirdTiles
  let s := if u.home.isSome then s else match u.member with
    | some m => s.memberCommit u m eos
    | none => s.when (u.kind == 2) fun s => s.moveCommit u
  let s := s.flipAll u (if u.kind = 2 then sortUp (tiles ++ s.tiles.map Prod.fst) else tiles)
  let s := s.each tiles fun s a => s.modTile a fun t => { t with
    run := match t.run with
      | some r => if r.unit = u.id then none else some r
      | none => none
    pal := if u.kind = 5 then { t.pal with pending := true, since := no } else t.pal
    tbl := if u.kind = 6 then { t.tbl with pending := true, since := no } else t.tbl }
  let s := if u.home.isSome then s else s.foldRanges u.client ranges
  let s := s.modPart u.part fun p => { p with commits := p.commits + 1 }
  let s := s.modUnit u.id fun u => { u with
    phase := .committed, commitT := s.now, commitNo := no, flags := flags, eos := eos, ranges := [], staged := staged, halves := halves, thirdTiles := [], waitFlip := u.others, image := [] }
  let s := s.when (!u.isMember) fun s => s.trace1 { s.unitTrace u 2 with flags := flags.toNat }
  let s := s.tellOthers u true
  match s.unit? u.id with
  | some u => (s.handAnswer u).drainSend u
  | none => s

/-- Ends a paired unit that no run decides with PAIR_FAIL (R309). -/
def State.pairFail (s : State) (u : CUnit) : State :=
  let s := s.modFlt fun f => { f with pairFail := f.pairFail + 1, thirds := f.thirds.filter (· != u.id) }
  s.endUnit u 8 0

/-- A unit forwarded here commits on its home's decision, and the home is told that its windows have flipped (R436, R448). -/
def State.commitHere (s : State) (u : CUnit) : State :=
  match u.home with
  | some (w, _) =>
    (s.commitNow u .main).send { lotSync 9 u.client w [] with resp := true, tid := BitVec.ofNat 32 (u.waitFlip.headD 0) }
  | none => s

/-- Effect of COMMIT_INSTANT: a unit whose tiles have all signalled ready commits, unless the digests of a paired unit differ (R44, R308, R309); a unit forwarded here commits once its home has decided so (R436). -/
def commitInstant (uid : Nat) (s : State) : State :=
  match s.unit? uid with
  | none => s
  | some u =>
    if u.phase != .ready || !u.waitReady.isEmpty || (u.home.isSome && u.waitFlip.isEmpty) then s
    else if u.home.isSome then s.commitHere u
    else if u.pairTiles.isEmpty then s.commitNow u .main
    else
      let a := s.digestOf u .main
      let b := s.digestOf u .pair
      if a = b then s.commitNow u .main
      else
        let s := s.modFlt fun f => { f with mismatch := f.mismatch + 1 }
        if s.flt.arbEn then
          (s.modFlt fun f => { f with thirds := f.thirds ++ [uid] }).modUnit uid fun u => { u with phase := .third, digest := some a, pairDigest := some b }
        else s.pairFail u

/-- COMMIT_INSTANT (R44). -/
def execCommitInstant (unit : Nat) (s : State) : Host.Outcome State Fault Refusal := run (commitInstant unit) s

/-! ### Third runs (R308 to R311) -/

/-- Copies PART's active banks to a tile of the arbiter partition (R308). -/
def Tile.takeBanks (t src : Tile) : Tile := { t with pal := { bank0 := src.pal.bank, swaps := t.pal.swaps }, tbl := { bank0 := src.tbl.bank, swaps := t.tbl.swaps } }

/-- Effect of THIRD_RUN_START: the oldest mismatch runs a third time on the arbiter's tiles. -/
def thirdRunStart (uid : Nat) (s : State) : State :=
  match s.unit? uid with
  | none => s
  | some u =>
    let tiles := (s.tilesOf s.flt.arbPart).filter fun a => (s.tile a).run.isNone
    if u.phase != .third || s.flt.thirds.head? != some uid || !u.thirdTiles.isEmpty || !s.flt.arbEn || tiles.isEmpty || !s.awake (s.tilesOf s.flt.arbPart)
        || s.flt.thirds.any (fun i => (s.unit? i).any fun v => !v.thirdTiles.isEmpty) then s
    else
      let use := if u.isMember then tiles.take 1 else tiles
      let src := s.tile (u.tiles.headD 0)
      let s := s.each use fun s a => s.modTile a fun t => t.takeBanks src
      let s := s.modUnit uid fun u => { u with thirdTiles := use, down := u.down.filter (· != .third) }
      let u := { u with thirdTiles := use }
      if u.isMember then
        s.each use fun s a => (s.giveWindows a u (s.client u.client).winSeq).memberGo a u .third
      else (s.beginSide uid .third).trace1 { s.unitTrace u 1 with detail := u.runNo + 1, part := s.flt.arbPart }

/-- THIRD_RUN_START (R308). -/
def execThirdRunStart (unit : Nat) (s : State) : Host.Outcome State Fault Refusal := run (thirdRunStart unit) s

/-- The wet bytes of a destination of a side as one stream (R200, R309). -/
def State.wetStream (s : State) (u : CUnit) (d : Side) (h : Handle) (own : Nat → Owner) : Bytes :=
  (u.sideTiles d).zipIdx.foldl (fun m p =>
    let (k, t) := u.shareAt d p.2
    let sh := h.share k t
    (upTo (h.windows k t)).foldl (fun m n => match (s.tile p.1).findWet u.id (own n) with
      | some w => memPaste m (256 * sh.1 + 65536 * n) (if 65536 * (n + 1) ≤ 256 * sh.2 then 65536 else 256 * sh.2 - 65536 * n) ((s.tile p.1).winData w)
      | none => m) m) []

/-- Copies the wet outputs of one side over those of the other (R309). -/
def State.copySide (s : State) (u : CUnit) (src dst : Side) : State :=
  if u.isMember then
    s.each (upTo (s.client u.client).winSeq) fun s i =>
      let o : Owner := .seq u.client u.entry i
      let a := (u.sideTiles src).headD 0
      let b := (u.sideTiles dst).headD 0
      match (s.tile a).findWet u.id o, (s.tile b).findWet u.id o with
      | some w, some x => s.modTile b fun t => t.setWinData x ((s.tile a).winData w)
      | _, _ => s
  else
    s.each (u.dests (s.tile (u.tiles.headD 0)).tbl.bank) fun s x =>
      if x.2.2.cls = 0 then s.putVat u dst x.2.2 (s.wetStream u src x.2.2 fun n => .record u.client x.2.2.key n) else s

/-- Physical tiles of a side that wrote a block whose digest differs from the third run's, or, where only the summary differs, all that ran the unit (R311). -/
def State.guilty (s : State) (u : CUnit) (d : Side) : List Nat :=
  let third := (s.sideRuns u .third).flatMap fun x => s.blockDigs u x
  let bad := (s.sideRuns u d).filter fun x => (s.blockDigs u x).any fun b => !third.contains b
  (if bad.isEmpty then s.sideRuns u d else bad).map fun x => s.physTile x.1

/-- Commits a paired unit with the side that the third run confirms; the other side is discarded and its tiles are charged (R309, R311, R49). -/
def State.decide3 (s : State) (u : CUnit) (good bad : Side) : State :=
  let guilty := s.guilty u bad
  let part := s.sidePart u bad
  let s := s.copySide u good bad
  let s := s.modUnit u.id fun u => { u with retries := u.retries + 1 }
  let s := s.modPart part fun p => p.kill 4
  let s := s.trace1 { s.unitTrace u 4 with detail := 4, part := part }
  let s := s.commitNow { u with retries := u.retries + 1 } good
  s.each guilty fun s pt => s.upset 0x0E 0 pt (some u.client)

/-- Effect of THIRD_RUN_DONE: the third run's digest decides. -/
def thirdRunDone (uid : Nat) (s : State) : State :=
  match s.unit? uid with
  | none => s
  | some u =>
    if u.phase != .third || u.thirdTiles.isEmpty || !s.sideReady uid u.thirdTiles then s
    else
      let c := some (s.digestOf u .third)
      if c = u.digest then (s.modFlt fun f => { f with thirds := f.thirds.filter (· != uid) }).decide3 u .main .pair
      else if c = u.pairDigest then (s.modFlt fun f => { f with thirds := f.thirds.filter (· != uid) }).decide3 u .pair .main
      else s.pairFail { u with retries := u.retries + 1 }

/-- THIRD_RUN_DONE (R309, R311). -/
def execThirdRunDone (unit : Nat) (s : State) : Host.Outcome State Fault Refusal := run (thirdRunDone unit) s

/-! ### After the commit instant (R44 steps 4 and 5, R46) -/

/-- Effect of POST_COMMIT_DRAIN_DONE: once every other wafer has acknowledged and reported the end of forwarded work, the drain completes and the record or outcome is written, in commit order. -/
def postCommitDrainDone (uid : Nat) (s : State) : State :=
  match s.unit? uid with
  | none => s
  | some u =>
    let waits := u.staged.any fun x => keySpace x.1 == 1 && keyWafer x.1 == s.frm.waferId && s.hbmWaits (bits x.1 51 0) 1
    if u.phase != .committed || !s.drained u || waits then s else s.finishUnit u

/-- POST_COMMIT_DRAIN_DONE (R46). -/
def execPostCommitDrainDone (unit : Nat) (s : State) : Host.Outcome State Fault Refusal := run (postCommitDrainDone unit) s

/-- Effect of COALESCE_TIMER for completion ring 0 or 1, or 2, the outcome ring: TIME µs have passed since the oldest pending entry. -/
def coalesceTimer (n ring : Nat) (s : State) : State :=
  let c := s.client n
  if ring = 2 then
    if c.out.pend ≠ 0 ∧ c.out.coalTime ≠ 0 ∧ c.out.oldest + 1000 * c.out.coalTime ≤ s.now then s.outSignal n else s
  else
    let x := c.queue ring
    if x.pend ≠ 0 ∧ x.coalTime ≠ 0 ∧ x.oldest + 1000 * x.coalTime ≤ s.now then s.ringSignal n ring else s

/-- COALESCE_TIMER (R223). -/
def execCoalesceTimer (client ring : Nat) (s : State) : Host.Outcome State Fault Refusal := run (coalesceTimer client ring) s

/-! ### Reruns (R49, R274, R317) -/

/-- The tile on which a killed member reruns: its own, or, where that has left service, the working tile of the partition with the fewest placed members (log 14). -/
def State.rerunTile (s : State) (p a : Nat) : Option Nat :=
  let l := s.tilesOf p
  if l.contains a then some a else minBy (fun b => (s.tile b).queue.length) l

/-- Whether tiles are free to run a unit. -/
def State.allIdle (s : State) (l : List Nat) : Bool := l.all fun a => (s.tile a).run.isNone && (s.tile a).trapFor.isNone

/-- Whether a unit may start again: `gateAll`, or, for one forwarded here, whose residency its home decides, that nothing of its partition's own stands in the way (R437). -/
def State.unitGate (s : State) (u : CUnit) : Bool :=
  if u.home.isSome then s.lentGate u.part else s.gateAll u.client

/-- Whether a unit that a pre-emption killed waits for an earlier accepted one of its queue to start again (R274). -/
def State.rerunLater (s : State) (u : CUnit) : Bool :=
  !u.isMember && u.home.isNone && u.preempted
    && s.units.any fun v => v.client == u.client && v.q == u.q && v.phase == .killed && v.preempted && !v.isMember && v.home.isNone && decide (v.ordinal < u.ordinal)

/-- Effect of UNIT_RERUN_START: a killed unit, once the wafers that contribute to it have acknowledged its kill, or a killed side of a paired one, starts again from its beginning, those that a pre-emption killed in acceptance order (R274). Scales, MARGIN, BIND and the committed AMAX are sampled anew; counts and the step count of a member stay those of its first run (DESIGN CHOICE, log 107). -/
def unitRerunStart (uid : Nat) (s : State) : State :=
  match s.unit? uid with
  | none => s
  | some u =>
    if u.phase == .killed then
      if !s.unitGate u || s.frm.state != .ready || (u.home.isNone && !u.waitFlip.isEmpty) || s.rerunLater u then s
      else if u.isMember && u.tiles.isEmpty then (s.modUnit uid fun u => { u with phase := .ready }).forwardUnit u
      else if u.isMember then
        match s.rerunTile u.part (u.tiles.headD 0) with
        | none => s
        | some a =>
          let pair := (u.pairTiles.head?).bind fun b => s.rerunTile (s.client u.client).pairPart b
          let l := a :: pair.toList
          if !s.allIdle l || !s.awake l || s.inSpill u.entry || !s.banksReady u l then s
          else
            let s := s.modUnit uid fun u => { u with tiles := [a], pairTiles := pair.toList, afterRebuild := false }
            let s := s.memberBegin a { u with tiles := [a], pairTiles := pair.toList }
            match pair, s.unit? uid with
            | some b, some v => s.memberBegin b v
            | _, _ => s
      else
        let tiles := s.tilesOf u.part
        let pair := if u.pairTiles.isEmpty then [] else s.tilesOf (s.client u.client).pairPart
        if (u.kind = 1 && !s.allIdle (tiles ++ pair)) || !s.awake (tiles ++ pair) || !s.banksReady u (tiles ++ pair) then s
        else
          let l := s.spread u.part
          let s := s.modUnit uid fun u => { u with
            tiles := tiles, pairTiles := pair, first := if u.home.isSome then u.first else spreadFirst l s.frm.waferId
            total := if u.home.isSome then u.total else spreadTotal l, stages := s.resampleStages u.client u.stages }
          s.beginUnit uid
    else
      match u.down with
      | [] => s
      | d :: _ =>
        if !s.gateAll u.client || !s.allIdle (u.sideTiles d) || !s.awake (u.sideTiles d) then s
        else if u.isMember then
          (u.sideTiles d).foldl (fun s a => (s.modUnit uid fun u => { u with down := u.down.filter (· != d) }).memberBegin a u) s
        else s.beginSide uid d

/-- UNIT_RERUN_START (R49, R274). -/
def execUnitRerunStart (unit : Nat) (s : State) : Host.Outcome State Fault Refusal := run (unitRerunStart unit) s

/-! ### CURRENT (R94, R436) -/

/-- A of each slot gathered in pass 1 over a side, in ascending slot order. -/
def State.passOne (s : State) (u : CUnit) (d : Side) : List (Nat × W32) :=
  (sortBy (fun x y => decide (x.slot ≤ y.slot)) ((s.sideRuns u d).foldl (fun l x => rangesJoin l x.2.ranges) [])).map fun r => (r.slot, r.amax)

/-- The greater A of each slot of two lists. -/
def mergeMax (l : List (Nat × W32)) : List (Nat × W32) → List (Nat × W32)
  | [] => l
  | x :: r =>
    let l' := if l.any fun y => y.1 == x.1 then l.map fun y => if y.1 = x.1 ∧ y.2.toNat < x.2.toNat then x else y else l ++ [x]
    mergeMax l' r

/-- MERGE data (R436). -/
def mergeData (tag : W32) (l : List (Nat × W32)) : List Byte :=
  leBytes tag.toNat 4 ++ leBytes l.length 2 ++ leBytes 0 2 ++ l.flatMap fun x => leBytes x.1 4 ++ leBytes x.2.toNat 4

/-- Codes of pass 2 of a run, with the q of the merged maxima (R87, R94, R96). -/
def State.twoCodes (s : State) (x : Nat × TileRun) (u : CUnit) : List Nat :=
  let st := u.stageAt x.2.stage
  scaleCodes { s.ctx x.1 x.2 u with pass := 2 } (tableSlots (s.tile x.1).tbl.bank LongWord.cvt (dTableAddr st.desc) (dTableLen st.desc)) true

/-- Starts pass 2 on the tiles of a side with merged maxima (R94); factors or scales that are a fault end the unit. -/
def State.startTwo (s : State) (uid : Nat) (d : Side) (l : List (Nat × W32)) : State :=
  let s := s.modUnit uid fun u => { u with
    merges := [], merged := (u.merged.filter fun x => x.1 / 1024 != sideNo d) ++ l.map fun x => (1024 * sideNo d + x.1, x.2) }
  match s.unit? uid with
  | none => s
  | some u =>
    if (s.sideRuns u d).any fun x => !(s.twoCodes x u).isEmpty then s.faultUnit uid cSCALE
    else s.each (s.sideRuns u d) fun s x => s.modTile x.1 fun t => { t with run := some (s.passTwo x.1 x.2 u) }

/-- Effect of CURRENT_MERGE_DONE: the maxima of pass 1 are merged over a side, on every wafer, and pass 2 begins; a member's side is one tile, wherever it runs. -/
def currentMergeDone (uid : Nat) (s : State) : State :=
  match s.unit? uid with
  | none => s
  | some u =>
    let s := s.each [Side.pair, Side.third] fun s d =>
      if !(u.sideTiles d).isEmpty && s.sideMerging uid (u.sideTiles d) then s.startTwo uid d (s.passOne u d) else s
    if u.tiles.isEmpty || !s.sideMerging uid u.tiles then s
    else
      let own := s.passOne u .main
      match if u.isMember then none else u.home with
      | some (w, _) =>
        if u.merges.any fun x => x.1 == s.frm.waferId then s
        else
          let data := mergeData u.tag own
          (s.modUnit uid fun u => { u with merges := (s.frm.waferId, own) :: u.merges }).sendFor uid { lotSync 7 u.client w data with src := s.frm.waferId }
      | none =>
        if u.others.all fun w => u.merges.any fun x => x.1 == w then
          let l := u.merges.foldl (fun l x => mergeMax l x.2) own
          let s := s.startTwo uid .main l
          s.each u.others fun s w => s.sendFor uid { lotSync 8 u.client w (mergeData u.tag l) with src := s.frm.waferId }
        else s

/-- CURRENT_MERGE_DONE (R94). -/
def execCurrentMergeDone (unit : Nat) (s : State) : Host.Outcome State Fault Refusal := run (currentMergeDone unit) s

/-! ### Bank swaps (R130, R131, R134) -/

/-- Whether some descriptor whose start has a number below `t` has not ended on the partition of a tile: a commit unit of it, or a LOT that still builds or has members (R130, R181). -/
def State.bankInUse (s : State) (a t : Nat) : Bool :=
  (s.tile a).run.isSome
    || (match s.partOfTile a with
        | some p =>
          s.units.any (fun u => (u.part == p || u.allTiles.contains a) && u.phase != .committed && u.phase != .failed && decide (s.descOrder u < t))
            || (match (s.part p).resident with | some n => (s.client n).lots.any fun l => (l.building || !l.members.isEmpty) && decide (l.startNo < t) | none => false)
        | none => false)

/-- The other bank becomes active. -/
def BankStore.swap (b : BankStore) : BankStore := { b with active := 1 - b.active, pending := false, swaps := satTo 0xFFFF (b.swaps + 1) }

/-- Effect of PALETTE_BANK_SWAP. -/
def paletteBankSwap (a : Nat) (s : State) : State :=
  let b := (s.tile a).pal
  if b.pending && !s.bankInUse a b.since then s.modTile a fun t => { t with pal := t.pal.swap } else s

/-- PALETTE_BANK_SWAP (R130). -/
def execPaletteBankSwap (tile : Nat) (s : State) : Host.Outcome State Fault Refusal := run (paletteBankSwap tile) s

/-- Effect of TABLE_BANK_SWAP. -/
def tableBankSwap (a : Nat) (s : State) : State :=
  let b := (s.tile a).tbl
  if b.pending && !s.bankInUse a b.since then s.modTile a fun t => { t with tbl := t.tbl.swap } else s

/-- TABLE_BANK_SWAP (R130, R163). -/
def execTableBankSwap (tile : Nat) (s : State) : Host.Outcome State Fault Refusal := run (tableBankSwap tile) s

end Sys2Proof.Machine
end

