-- ==== Sys2Proof/Machine/Queue.lean ====
section
/-! DEFINITION. Command queues: doorbells, fetch, acceptance, dependency timeouts, enabling, stopping and flushing (R187, R194, R203 to R216, R222 to R224, R393). -/

namespace Sys2Proof.Machine

open Sys2Proof

/-! ### Doorbells (R212, R213) -/

/-- Effect of CLI_DB_Q: a new producer count is taken, or ignored with DB_ERR (R213); ignored in TORN_DOWN and DISABLED, which has no ring (R225). -/
def cliDbQ (n q : Nat) (pc : W32) (s : State) : State :=
  let x := s.queue n q
  if s.frm.state != .ready || x.state == .disabled || x.state == .tornDown then s
  else if (pc - x.cc).toNat ≤ 2 ^ x.log2 ∧ (pc - x.pc).toNat ≤ 2 ^ x.log2 then
    (s.modQueue n q fun x => { x with pc := pc, doorbells := if pc = x.pc then x.doorbells else x.doorbells ++ [(pc, s.now)] }).wmQueue n q
  else s.modQueue n q fun x => { x with dbErr := true }

/-- CLI_DB_Q (R213). -/
def execCliDbQ (client q : Nat) (pc : W32) (s : State) : Host.Outcome State Fault Refusal := run (cliDbQ client q pc) s

/-- Effect of CLI_DB_C: consumed completion slots are released, or the write is ignored with DB_ERR (R213). -/
def cliDbC (n q : Nat) (c : W32) (s : State) : State :=
  let x := s.queue n q
  if s.frm.state != .ready || x.state == .disabled || x.state == .tornDown then s
  else if (c - x.consumed).toNat ≤ (x.ccount - x.consumed).toNat then s.modQueue n q fun x => { x with consumed := c }
  else s.modQueue n q fun x => { x with dbErr := true }

/-- CLI_DB_C (R213). -/
def execCliDbC (client q : Nat) (consumed : W32) (s : State) : Host.Outcome State Fault Refusal := run (cliDbC client q consumed) s

/-- Effect of CLI_DB_OUT: consumed outcome slots are released; a write that is ignored sets no DB_ERR, since no register of the outcome ring has the bit (R213; DESIGN CHOICE, log 115). -/
def cliDbOut (n : Nat) (c : W32) (s : State) : State :=
  let o := (s.client n).out
  if s.frm.state != .ready || !o.enable then s
  else if (c - o.consumed).toNat ≤ (o.count - o.consumed).toNat then
    (s.modClient n fun x => { x with out := { x.out with consumed := c } }).lostGo n
  else s

/-- CLI_DB_OUT (R213). -/
def execCliDbOut (client : Nat) (consumed : W32) (s : State) : Host.Outcome State Fault Refusal := run (cliDbOut client consumed) s

/-! ### Fetch (R215, R393) -/

/-- Descriptors that the next fetch read takes: up to 32 ahead of acceptance, covered by a doorbell, within the ring and 2,048 aligned bytes (R214, R215, R393). -/
def Queue.fetchCount (x : Queue) : Nat :=
  let ahead := 32 - x.fetched.length
  let have_ := (x.pc - x.cc).toNat - x.fetched.length
  let slot := (x.cc.toNat + x.fetched.length) % 2 ^ x.log2
  let room := 32 - slot % 32
  let room := if 2 ^ x.log2 - slot < room then 2 ^ x.log2 - slot else room
  let m := if ahead < have_ then ahead else have_
  if room < m then room else m

/-- Address of the next fetch read. -/
def Queue.fetchAddr (x : Queue) : Nat := x.base + 64 * ((x.cc.toNat + x.fetched.length) % 2 ^ x.log2)

/-- Whether a queue may fetch (R211, R224, R372, R390). -/
def State.canFetch (s : State) (n q : Nat) : Bool :=
  let x := s.queue n q
  s.frm.state == .ready && x.state == .running && !x.closing && x.fetchCount != 0 && (if x.baseLoc = 1 then !s.hbmWaits x.fetchAddr (64 * x.fetchCount) else s.canDma n)

/-- What a fetch read answers: the descriptors, or the cause of its failure. A ring in HBM is read here; where no HBM lies behind it the read fails as an Unsupported Request. -/
def State.fetchRead (s : State) (n q : Nat) (res : FetchResult) : Except Nat (List (BitVec 512)) :=
  let x := s.queue n q
  let k := x.fetchCount
  if x.baseLoc = 1 then
    if s.hbmTop < x.fetchAddr + 64 * k then .error 1
    else .ok ((upTo k).map fun i => BitVec.ofNat 512 (s.hbmVal (x.fetchAddr + 64 * i) 64))
  else match res with
    | .data l => .ok (l.take k)
    | .unsupportedRequest => .error 1
    | .completerAbort => .error 2
    | .poisoned => .error 3

/-- Notes the read request of a fetch from host memory (R393). -/
def State.fetchAsk (s : State) (n q : Nat) : State :=
  let x := s.queue n q
  if x.baseLoc = 0 then s.emit (.hostRead n x.fetchAddr (64 * x.fetchCount)) else s

/-- A fetch read fails for the second time: the queue stops (R393). -/
def State.fetchStop (s : State) (n q cause : Nat) : State :=
  (s.modQueue n q fun x => { x with state := .stopped, fetchFail := none }).modClient n fun c => { c with
    pcieErr0 := c.pcieErr0 || q == 0, pcieErr1 := c.pcieErr1 || q == 1, pcieCause := cause }

/-- Effect of DESCRIPTOR_FETCH: the next fetch read completes. -/
def descriptorFetch (n q : Nat) (res : FetchResult) (s : State) : State :=
  if !s.canFetch n q || (s.queue n q).fetchFail.isSome then s
  else match s.fetchRead n q res with
    | .ok l => (s.fetchAsk n q).modQueue n q fun x => { x with fetched := x.fetched ++ l }
    | .error c => (s.fetchAsk n q).modQueue n q fun x => { x with fetchFail := some { cause := c, at_ := s.now } }

/-- DESCRIPTOR_FETCH (R215). -/
def execDescriptorFetch (client q : Nat) (res : FetchResult) (s : State) : Host.Outcome State Fault Refusal := run (descriptorFetch client q res) s

/-- Effect of FETCH_RETRY: 1 ms after it failed, the read is made once more. -/
def fetchRetry (n q : Nat) (res : FetchResult) (s : State) : State :=
  match (s.queue n q).fetchFail with
  | none => s
  | some f =>
    if !s.canFetch n q || decide (s.now < f.at_ + 1000000) then s
    else match s.fetchRead n q res with
      | .ok l => (s.fetchAsk n q).modQueue n q fun x => { x with fetched := x.fetched ++ l, fetchFail := none }
      | .error c => (s.fetchAsk n q).fetchStop n q c

/-- FETCH_RETRY (R393). -/
def execFetchRetry (client q : Nat) (res : FetchResult) (s : State) : Host.Outcome State Fault Refusal := run (fetchRetry client q res) s

/-- Effect of FETCH_COMPLETION_TIMEOUT: the outstanding read, or its retry, counts as failed with cause 4. -/
def fetchCompletionTimeout (n q : Nat) (s : State) : State :=
  if !s.canFetch n q || (s.queue n q).baseLoc == 1 then s
  else match (s.queue n q).fetchFail with
    | none => (s.fetchAsk n q).modQueue n q fun x => { x with fetchFail := some { cause := 4, at_ := s.now } }
    | some f => if s.now < f.at_ + 1000000 then s else (s.fetchAsk n q).fetchStop n q 4

/-- FETCH_COMPLETION_TIMEOUT (R393). -/
def execFetchCompletionTimeout (client q : Nat) (s : State) : Host.Outcome State Fault Refusal := run (fetchCompletionTimeout client q) s

/-! ### Acceptance (R194, R206, R215, R216) -/

/-- The head of the chain that the next accepted descriptor continues (R194). -/
def Queue.openChain (x : Queue) : Option ADesc := x.accepted.find? fun d => d.chainOpen

/-- Stages accepted so far of a chain. -/
def Queue.chainLen (x : Queue) (head : ADesc) : Nat := (x.accepted.filter fun d => d.ofHead head.ordinal).length

/-- Codes of the checks at acceptance (R185, R187, R194, R203); `stage`: how many stages of an open chain precede it, 0 for none. -/
def acceptCodes (x : Queue) (d : BitVec 512) (stage : Nat) : List Nat :=
  let k := dKind d
  codeIf (k == 0 || decide (10 < k)) cKIND
    ++ codeIf (dUnused d) cUNUSED
    ++ codeIf (dTag d == 0 || x.accepted.any fun a => dTag a.desc == dTag d) cTAG
    ++ codeIf ([0, 1, 2].any fun i => dDep d i != 0 && dDep d i == (dTag d).toNat && !dXq d i) cSELF_DEP
    ++ codeIf (if stage = 0 then dChain d && k != kLOT
        else (k != kLOT && k != kHANDOFF) || dBits d 351 256 != 0 || dBits d 359 352 != 0 || dDeadline d != 0 || dBreak d
          || (stage == 7 && dChain d)) cCHAIN

/-- The lower of two fault codes, 0 for none. -/
def lowerCode (a b : Nat) : Nat := if a = 0 then b else if b = 0 then a else if a ≤ b then a else b

/-- Time of the first doorbell that covers ring count `idx` (R287). -/
def Queue.doorbellAt (x : Queue) (idx : Nat) (dflt : Nat) : Nat :=
  match x.doorbells.find? fun d => decide ((d.1 - BitVec.ofNat 32 (idx + 1)).toNat < 2 ^ 31) with
  | some d => d.2
  | none => dflt

/-- The queue after it accepts a descriptor (R215). -/
def Queue.take (x : Queue) (d : BitVec 512) (now : Nat) : Queue :=
  let idx := x.cc.toNat
  let ord := x.acceptedCount + 1
  let head := x.openChain
  let stage := match head with | some h => x.chainLen h | none => 0
  let code := (least (acceptCodes x d stage)).getD 0
  let more := dChain d && decide (stage < 7)
  let a : ADesc := { idx := idx, ordinal := ord, desc := d, accepted := now, timer := now, doorbell := x.doorbellAt idx now
                     fault := code, chainOpen := head.isNone && more && dKind d == kLOT
                     state := match head with | some h => .chained h.ordinal | none => .waiting }
  let acc := match head with
    | some h => x.accepted.map fun y => if y.ordinal = h.ordinal then { y with fault := lowerCode y.fault code, chainOpen := more } else y
    | none => x.accepted
  { x with
    cc := x.cc + 1, acceptedCount := ord % 2 ^ 64, fetched := x.fetched.drop 1, accepted := acc ++ [a]
    doorbells := x.doorbells.filter fun e => decide ((e.1 - BitVec.ofNat 32 (idx + 2)).toNat < 2 ^ 31)
    tags := (x.tags ++ [({ tag := dTag d, ordinal := ord, accepted := now } : TagRec)]).drop (x.tags.length + 1 - 65536) }

/-- Whether a queue may accept its next descriptor (R216, R224). -/
def State.canAccept (s : State) (n q : Nat) : Bool :=
  let x := s.queue n q
  s.frm.state == .ready && x.state == .running && !x.closing && !x.fetched.isEmpty && decide (x.accepted.length < 4096)
    && decide ((x.ccount - x.consumed).toNat + x.accepted.length < 2 ^ x.clog2)

/-- Ends with FAULT every complete descriptor of a queue on which an acceptance check found a fault (R206). -/
def State.acceptFaults (s : State) (n q : Nat) : State :=
  s.each (s.queue n q).accepted fun s d =>
    if d.state == .waiting && d.fault != 0 && !d.chainOpen then s.endWaiting n q d 3 d.fault else s

/-- Effect of DESCRIPTOR_ACCEPT. -/
def descriptorAccept (n q : Nat) (s : State) : State :=
  if !s.canAccept n q then s
  else match (s.queue n q).fetched with
    | [] => s
    | d :: _ => (s.modQueue n q fun x => x.take d s.now).acceptFaults n q

/-- DESCRIPTOR_ACCEPT (R215). -/
def execDescriptorAccept (client q : Nat) (s : State) : Host.Outcome State Fault Refusal := run (descriptorAccept client q) s

/-! ### Dependencies (R203 to R205) -/

/-- Where a dependency stands. -/
inductive DepState where
  | unseen
  | waiting (accepted : Nat)
  | met
  | failed
  deriving DecidableEq, Repr

/-- The most recently accepted carrier of a tag among those a queue remembers (R187, R205). -/
def Queue.carrier (x : Queue) (tag : Nat) : Option TagRec := x.tags.reverse.find? fun t => t.tag.toNat == tag

/-- State of dependency `k` of a descriptor. -/
def State.depState (s : State) (n q : Nat) (d : BitVec 512) (k : Nat) : DepState :=
  if dDep d k = 0 then .met
  else match (s.queue n (if dXq d k then 1 - q else q)).carrier (dDep d k) with
    | none => .unseen
    | some t => match t.status with
      | none => .waiting t.accepted
      | some c => if c = 1 ∨ c = 2 then .met else .failed

/-- The waiting descriptor of a queue with a tag. -/
def State.waiting? (s : State) (n q : Nat) (tag : W32) : Option ADesc :=
  (s.queue n q).accepted.find? fun d => d.state == .waiting && dTag d.desc == tag

/-- Effect of DEP_TIMEOUT: a descriptor, or a chain that is complete (R194), whose dependency has not been seen, or waits on one accepted no earlier than itself, ends once DEP_TIMEOUT has passed since its acceptance (R205); the timer pauses while the client is halted (R468). -/
def depTimeout (n q : Nat) (tag : W32) (s : State) : State :=
  match s.waiting? n q tag with
  | none => s
  | some d =>
    let late := decide (d.timer + 1000 * (s.client n).depTimeout ≤ s.now)
    let stuck := [0, 1, 2].any fun k => match s.depState n q d.desc k with
      | .unseen => true
      | .waiting t => decide (d.accepted ≤ t)
      | _ => false
    if late && stuck && !d.chainOpen && !(s.client n).dbg.halted then s.endWaiting n q d 3 cDEP_TIMEOUT else s

/-- DEP_TIMEOUT (R205). -/
def execDepTimeout (client q : Nat) (tag : W32) (s : State) : Host.Outcome State Fault Refusal := run (depTimeout client q tag) s

/-! ### Enabling and disabling (R209 to R211, R222) -/

/-- Whether a ring base fits its location: in HBM it lies within the client's bounds (R209). -/
def State.ringOk (s : State) (n loc base : Nat) : Bool :=
  let a := (s.client n).areas
  loc == 0 || (decide (a.lo ≤ base) && decide (base < a.hi))

/-- LOG2SIZE and CLOG2SIZE of a CLI_Q_CFG write, taken where in range (R6, R209). -/
def Queue.setSizes (x : Queue) (cfg : Nat) : Queue :=
  let a := bits cfg 4 0
  let b := bits cfg 12 8
  { x with log2 := if 6 ≤ a ∧ a ≤ 16 then a else x.log2, clog2 := if 6 ≤ b ∧ b ≤ 16 then b else x.clog2 }

/-- Drops held items that a ring enabled anew has no slot for (R390; DESIGN CHOICE, log 116). -/
def State.dropHeld (s : State) (n : Nat) (p : Dma → Bool) : State :=
  s.modClient n fun c => { c with func := { c.func with held := c.func.held.filter fun d => !p d } }

/-- Effect of QUEUE_ENABLE: a write of CLI_Q_CFG with ENABLE = 1. A queue whose sizes have never been set stays DISABLED: it would have no ring (R209). The pending count becomes 0 (DESIGN CHOICE, log 116). -/
def queueEnable (n q : Nat) (cfg : W32) (s : State) : State :=
  let x := s.queue n q
  if s.frm.state != .ready || x.state != .disabled then s
  else
    let x := x.setSizes cfg.toNat
    if x.log2 = 0 ∨ x.clog2 = 0 then s.modQueue n q fun _ => x
    else (s.modQueue n q fun _ => { x with
      state := .running, closing := false, cc := 0, pc := 0, ccount := 0, skipped := 0, consumed := 0
      doorbells := [], fetched := [], fetchFail := none, pend := 0 }).wmQueue n q |>.dropHeld n fun d => match d with | .record r => r.q == q | _ => false

/-- QUEUE_ENABLE (R210). -/
def execQueueEnable (client q : Nat) (cfg : W32) (s : State) : Host.Outcome State Fault Refusal := run (queueEnable client q cfg) s

/-- Ends every accepted descriptor of a queue that has not started with FLUSHED (R211, R224). -/
def State.flushWaiting (s : State) (n q : Nat) : State :=
  s.each (s.queue n q).accepted fun s d => if d.state == .waiting then s.endWaiting n q d 4 0 else s

/-- Effect of QUEUE_DISABLE: a write of CLI_Q_CFG with ENABLE = 0. -/
def queueDisable (n q : Nat) (cfg : W32) (s : State) : State :=
  let x := s.queue n q
  if s.frm.state != .ready then s
  else match x.state with
    | .disabled => s.modQueue n q fun x => x.setSizes cfg.toNat
    | .tornDown => (s.each ((s.committedOf n).filter fun u => u.q == q) fun s u => s.finishUnit u).modQueue n q fun x => { x with state := .disabled }
    | _ =>
      let s := s.modQueue n q fun x => { x with closing := true, fetched := [], fetchFail := none }
      let s := s.flushWaiting n q
      s.modQueue n q fun x => if x.accepted.isEmpty then { x with state := .disabled, closing := false } else x

/-- QUEUE_DISABLE (R211). -/
def execQueueDisable (client q : Nat) (cfg : W32) (s : State) : Host.Outcome State Fault Refusal := run (queueDisable client q cfg) s

/-- LOG2SIZE of the outcome ring, taken where in range (R209). -/
def OutRing.setSize (o : OutRing) (cfg : Nat) : OutRing :=
  let a := bits cfg 4 0
  { o with log2 := if 10 ≤ a ∧ a ≤ 20 then a else o.log2 }

/-- Effect of OUTCOME_RING_ENABLE: a write of CLI_OUT_CFG with ENABLE = 1. The pending count becomes 0 (DESIGN CHOICE, log 116). -/
def outcomeRingEnable (n : Nat) (cfg : W32) (s : State) : State :=
  let o := (s.client n).out
  if s.frm.state != .ready || o.enable then s
  else
    let o := o.setSize cfg.toNat
    if o.log2 = 0 then s.modClient n fun c => { c with out := o }
    else s.modClient n fun c => { c with out := { o with enable := true, count := 0, consumed := 0, pend := 0, reserved := 0, epoch := o.epoch + 1 } }

/-- OUTCOME_RING_ENABLE (R210). -/
def execOutcomeRingEnable (client : Nat) (cfg : W32) (s : State) : Host.Outcome State Fault Refusal := run (outcomeRingEnable client cfg) s

/-- Effect of OUTCOME_RING_DISABLE: a write of CLI_OUT_CFG with ENABLE = 0. No slot stays reserved, and the pending count becomes 0 (DESIGN CHOICE, log 116). -/
def outcomeRingDisable (n : Nat) (s : State) : State :=
  if s.frm.state != .ready then s
  else s.modClient n fun c => { c with out := { c.out with enable := false, reserved := 0, pend := 0 }, lostSeqs := [] }

/-- OUTCOME_RING_DISABLE (R222). -/
def execOutcomeRingDisable (client : Nat) (s : State) : Host.Outcome State Fault Refusal := run (outcomeRingDisable client) s

/-! ### Stopped queues (R224, R393) -/

/-- Effect of RESUME: a STOPPED queue is RUNNING and fetches again from CC. -/
def resume (n q : Nat) (s : State) : State :=
  if (s.queue n q).state == .stopped then s.modQueue n q fun x => { x with state := .running, fetched := [] } else s

/-- RESUME (R224). -/
def execResume (client q : Nat) (s : State) : Host.Outcome State Fault Refusal := run (resume client q) s

/-- Effect of FLUSH: held descriptors end with FLUSHED, CC takes the last PC, the queue is RUNNING. -/
def flush (n q : Nat) (s : State) : State :=
  if (s.queue n q).state == .stopped then
    let s := s.flushWaiting n q
    (s.modQueue n q fun x => { x with
      skipped := x.skipped + (x.pc - x.cc), cc := x.pc, fetched := [], doorbells := [], state := .running }).wmQueue n q
  else s

/-- FLUSH (R224). -/
def execFlush (client q : Nat) (s : State) : Host.Outcome State Fault Refusal := run (flush client q) s

/-! ### Vector masks (R223, R386) -/

/-- Sends the messages of unmasked vectors whose pending bit is set. -/
def State.msixGo (s : State) (n : Nat) : State :=
  let f := (s.client n).func
  let go := if f.funcMask then [] else f.pendingBits.filter fun v => !f.masked.contains v
  let s := s.modClient n fun c => { c with func := { c.func with pendingBits := c.func.pendingBits.filter fun v => !go.contains v } }
  s.each go fun s v => s.msix n v

/-- Effect of MSIX_VECTOR_UNMASK: a vector's mask, or the function mask, is cleared. -/
def msixVectorUnmask (n : Nat) (v : Option Nat) (s : State) : State :=
  (s.modClient n fun c => { c with func := match v with
    | some k => { c.func with masked := c.func.masked.filter (· != k) }
    | none => { c.func with funcMask := false } }).msixGo n

/-- MSIX_VECTOR_UNMASK (R223). -/
def execMsixVectorUnmask (client : Nat) (vector : Option Nat) (s : State) : Host.Outcome State Fault Refusal := run (msixVectorUnmask client vector) s

end Sys2Proof.Machine
end

