-- ==== Sys2Proof/Machine/Kinds.lean ====
section
/-! DEFINITION. Starting descriptors: gates, breaks, the checks at start, and the kinds OP, MOVE, PALETTE, TABLE, SEQ, FENCE, MARK, RECORD (R184 to R208, R234 to R237, R255, R287, R466). -/

namespace Sys2Proof.Machine

open Sys2Proof

/-! ### Checks at start: handles (R195 to R202) -/

/-- Whether an endpoint is a wafer of the stack. -/
def State.isWafer (s : State) (w : Nat) : Bool := w == s.frm.waferId || s.frm.stack.members.contains w

/-- Bytes from the first to the last of a record, whatever its layout. -/
def TRec.extent (r : TRec) : Nat :=
  if r.dense then r.bytes
  else total ((upTo (r.rank - 1)).map fun k => nth r.strides k * (nth r.dims (k + 1) - 1)) + packedBytes (fmtWidth r.fmt) (nth r.dims 0)

/-- Whether a range of this wafer's HBM lies within a client's bounds (R202). -/
def State.inBounds (s : State) (n a len : Nat) : Bool :=
  let x := (s.client n).areas
  decide (x.lo ≤ a) && decide (a + len ≤ x.hi)

/-- Whether a tile of a client's partitions holds DRY windows of a record in its present generation (R199). -/
def State.hasWindows (s : State) (n i : Nat) : Bool :=
  let key := recKey i (s.trec n i).gen
  (s.seats n).any fun p => (s.tilesOf p).any fun a =>
    !((s.tile a).winsWhere fun w => w.state == .dry && (match w.owner with | .record c j _ => c == n && j == key | _ => false)).isEmpty

/-- Whether tiles of this wafer have a share of a record: of a partition that spans wafers, another may hold it all (R200, R448). -/
def State.hasShare (s : State) (n : Nat) (h : Handle) : Bool :=
  let p := (s.client n).bindPart
  let l := s.spread p
  (upTo (s.tilesOf p).length).any fun k => decide (0 < h.windows (k + spreadFirst l s.frm.waferId) (spreadTotal l))

/-- BOUNDS of a valid record (R199, R202). `t`: working tiles of the partition. -/
def State.boundsBad (s : State) (n : Nat) (r : TRec) (t : Nat) : Bool :=
  let h := s.handleOf n 0 false r
  match r.cls with
  | 0 => (upTo t).any fun k => decide (47 < h.windows k t)
  | 1 => !s.inBounds n r.base r.extent
  | 2 => !s.isWafer (bits r.base 55 52)
  | 3 => !s.isWafer (bits r.base 55 52) || (bits r.base 55 52 == s.frm.waferId && !s.inBounds n (bits r.base 51 0) r.extent)
  | _ => decide (65536 * (s.client n).winSeq < r.base + r.bytes)

/-- What a stage does with one of its handles: reads it, writes it. -/
structure Use where
  reads : Bool
  writes : Bool
  deriving DecidableEq, Repr

/-- The use that a stage makes of handle `i`: LD and ST slots of its table, or the copy of its kind. -/
def stageUse (bank : Bytes) (d : BitVec 512) (i : Nat) : Use :=
  match dKind d with
  | 1 | 3 =>
    { reads := (tableSlots bank LongWord.ld (dTableAddr d) (dTableLen d)).any fun w => ldHnd w == i
      writes := (stageDests bank d).contains i }
  | _ => { reads := (stageSources d).contains i, writes := (stageDests bank d).contains i }

/-- Codes of handle `i` of a stage. `kind` is the descriptor's: LOT for every stage of a chain. -/
def State.handleCodes (s : State) (n kind t : Nat) (bank : Bytes) (d : BitVec 512) (i : Nat) : List Nat :=
  let w := dHandle d i
  if w = 0 then []
  else
    let idx := bits w 15 0
    let ro := bit w 24
    let r := s.trec n idx
    let use := stageUse bank d i
    codeIf (r.gen != bits w 23 16) cSTALE ++ codeIf (use.writes && ro) cREADONLY ++
    (if idx = 0 ∨ !r.valid then [cRECORD]
     else
      codeIf (kind != kMOVE && !r.dense) cDENSE
        ++ codeIf (if kind = kLOT then r.cls != 4 && !(r.dist == 1 && ro)
            else (r.cls == 4 && (kind == kOP || kind == kPALETTE || kind == kTABLE)) || (use.writes && r.dist == 1 && kind != kMOVE)) cSHARE
        ++ codeIf (s.boundsBad n r t) cBOUNDS
        ++ codeIf (use.reads && r.cls == 0 && s.hasShare n (s.handleOf n idx ro r) && !s.hasWindows n idx) cUNWRITTEN
        ++ codeIf (kind == kHANDOFF && r.cls == 4) cCHAIN)

/-! ### Checks at start: stages -/

/-- Whether ROUND is allowed in the stage's mode (R80). -/
def roundOk (d : BitVec 512) : Bool := if dStrict d then [0, 1, 3, 4, 5].contains (dRound d) else decide (dRound d ≤ 2)

/-- Codes of the count words of a stage (R144, R159): a SHARE word that names an absent handle is NO_HANDLE, whatever else it breaks. -/
def countCodes (kind : Nat) (d : BitVec 512) : List Nat :=
  (countWords d).flatMap fun w =>
    codeIf (w / 2 ^ 14 == 2 && dHandle d (bits w 1 0) == 0) cNO_HANDLE ++
    match countWord w (if kind = kLOT then some (0, 0) else none) (fun i => if dHandle d i = 0 then none else some 1) with
    | .ok _ => []
    | .error c => [c]

/-- Handle `i` of a descriptor as it resolves at start (R195). -/
def State.resolveHandle (s : State) (n : Nat) (d : BitVec 512) (i : Nat) : Option Handle :=
  let w := dHandle d i
  if w = 0 ∨ dKind d = kRECORD then none else some (s.handleOf n (bits w 15 0) (bit w 24) (s.trec n (bits w 15 0)))

/-- What the CVT slots of a stage take from it at start (R85, R92, R93). -/
def State.startCtx (s : State) (n : Nat) (d : BitVec 512) : Ctx :=
  { client := n, unit := 0, tile := 0, k := 0, total := 1, strict := dStrict d, passes := dPasses d, scale := dScale d, amax := dAmax d, round := dRound d
    tag := (dTag d).toNat, seq := 0, step := 0, member := false, stage := 0, pass := 0, handles := [0, 1, 2, 3].map (s.resolveHandle n d)
    addr := dTableAddr d, len := dTableLen d, merged := [] }

/-- Codes of a table-running stage: mode, rounding, table bounds, scales, counts (R80, R87, R88, R96, R135, R159, R206). -/
def State.tableCodes (s : State) (n kind : Nat) (bank : Bytes) (d : BitVec 512) : List Nat :=
  codeIf (!roundOk d) cROUND
    ++ codeIf (!tableOk bank (dTableAddr d) (dTableLen d)) cTABLE
    ++ codeIf (decide (2 ≤ dScale d) && !dAmax d) cSCALE
    ++ (if tableOk bank (dTableAddr d) (dTableLen d) then scaleCodes (s.startCtx n d) (tableSlots bank LongWord.cvt (dTableAddr d) (dTableLen d)) (dScale d == 2) else [])
    ++ codeIf (dPaired d && !(s.client n).pairEn) cPAIRED
    ++ countCodes kind d

/-- Whether PARTNER names an endpoint of the stack (R193, R432). -/
def State.partnerOk (s : State) (p : Nat) : Bool :=
  if p < 16 then s.frm.stack.members.contains p else s.frm.stack.partners.any fun x => x.1 == p

/-- A sequence that belongs to a client. -/
def State.ownsSeq (s : State) (n seq : Nat) : Bool :=
  let e := s.entry (seq % 2 ^ 17)
  seq / 2 ^ 17 == s.frm.waferId && e.state != .free && e.client == n

/-- Place of a record of a MOVE: a space, and the byte where it begins in it. -/
def State.place (s : State) (d : BitVec 512) (idx : Nat) (r : TRec) : Nat × Nat :=
  match r.cls with
  | 0 => (2 ^ 60 + s.frm.waferId * 2 ^ 20 + idx, 0)
  | 1 => (s.frm.waferId, r.base)
  | 2 => (2 ^ 60 + bits r.base 55 52 * 2 ^ 20 + bits r.base 15 0, 0)
  | 3 => (bits r.base 55 52, bits r.base 51 0)
  | _ => (2 ^ 61 + bits (dParam d) 20 0, r.base)

/-- Breaches of R188. Records that interleave by strides overlap where their first-to-last byte extents cross (DESIGN CHOICE, log 114). -/
def State.moveBad (s : State) (n : Nat) (d : BitVec 512) : Bool :=
  let ia := bits (dHandle d 0) 15 0
  let ib := bits (dHandle d 1) 15 0
  let a := s.trec n ia
  let b := s.trec n ib
  let pa := s.place d ia a
  let pb := s.place d ib b
  let seqv := bit (dParam d) 31
  a.fmt != b.fmt || a.rank != b.rank || a.dims != b.dims
    || ((a.cls == 4 || b.cls == 4) && !seqv)
    || (seqv && !s.ownsSeq n (bits (dParam d) 20 0))
    || (pa.1 == pb.1 && decide (pa.2 < pb.2 + b.extent) && decide (pb.2 < pa.2 + a.extent))

/-- Whether handle A names a dense I8 record of rank 1 and `k` elements (R128, R163). -/
def State.imageShape (s : State) (n : Nat) (d : BitVec 512) (k : Nat) : Bool :=
  let r := s.trec n (bits (dHandle d 0) 15 0)
  r.fmt == 6 && r.rank == 1 && nth r.dims 0 == k

/-- The record images of a RECORD descriptor (R192). -/
def State.recordImages (s : State) (d : BitVec 512) : List (List Byte) :=
  (upTo (dTableLen d)).map fun i => s.hbmRead (dTableAddr d + 64 * i) 64

/-- Breaches of R192. -/
def State.recordBad (s : State) (n : Nat) (d : BitVec 512) : Bool :=
  let k := dTableLen d
  let a := dHandle d 0
  dTableAddr d % 64 != 0 || k == 0 || decide (256 < k) || !s.inBounds n (dTableAddr d) (64 * k)
    || bits a 15 0 == 0 || bits a 31 16 != 0 || decide (65535 < bits a 15 0 + k - 1)
    || (s.recordImages d).any fun b => !(parseRec (leVal b)).valid

/-- Breaches of R189; a subcommand other than ADMIT on an entry that the client does not own is one (R234). -/
def State.seqBad (s : State) (n : Nat) (d : BitVec 512) : Bool :=
  let seq := seqIdOf d
  let arg := seqArg d
  let dl := dDeadline d
  let e := s.entry (seq % 2 ^ 17)
  seq / 2 ^ 17 != s.frm.waferId
    || (match seqSub d with
        | 1 => arg == 0 || (e.state != .free && e.client != n)
        | 2 => arg != 0 || dl != 0
        | 3 => arg != 0
        | 4 => arg != 0 || dl == 0
        | 5 => arg == 0 || dl != 0
        | 6 => dl != 0
        | _ => true)
    || (seqSub d != 1 && !s.ownsSeq n seq)

/-- Handles that a kind must have: a copy needs both ends, a bank its image, a HANDOFF something to send and a place for the answer. -/
def kindNeeds (k : Nat) : List Nat :=
  match k with
  | 2 => [0, 1] | 5 => [0] | 6 => [0] | 10 => [0, 3] | _ => []

/-- The bank that a descriptor starting now uses (R130). -/
def BankStore.coming (b : BankStore) : Bytes := if b.pending then b.other else b.bank

/-- Every code that the checks at start find on the stages of a descriptor (R206). -/
def State.startCodes (s : State) (n : Nat) (stages : List (BitVec 512)) : List Nat :=
  let tiles := s.tilesOf (s.client n).bindPart
  let t := spreadTotal (s.spread (s.client n).bindPart)
  let bank := (s.tile (tiles.headD 0)).tbl.coming
  let kind := match stages with | d :: _ => dKind d | [] => 0
  stages.flatMap fun d =>
    let k := dKind d
    (if k = kRECORD then [] else [0, 1, 2, 3].flatMap fun i => s.handleCodes n kind t bank d i)
      ++ codeIf ((kindNeeds k).any fun i => dHandle d i == 0) cRECORD
      ++ (match k with
          | 1 | 3 => s.tableCodes n kind bank d
          | 2 => codeIf (s.moveBad n d) cMOVE
          | 4 => codeIf (s.seqBad n d) cSEQ
          | 5 => codeIf (!s.imageShape n d 8192) cPALETTE
          | 6 => codeIf (!s.imageShape n d 16384 || bits (dParam d) 0 0 == (s.tile (tiles.headD 0)).tbl.active) cBANK
          | 9 => codeIf (s.recordBad n d) cRECORD
          | 10 => codeIf (!s.partnerOk (handoffPartner d)) cPARTNER
          | _ => [])

/-! ### Breaks (R466, R467) -/

/-- Cause of a break before an accepted descriptor, 0 for none (R466). -/
def State.breakCause (s : State) (n q : Nat) (d : ADesc) : Nat :=
  let x := (s.client n).dbg
  let count := (if q = 0 then x.count0 else x.count1).toNat
  let tag := (if q = 0 then x.tag0 else x.tag1).toNat
  let en := if q = 0 then x.tagEn0 else x.tagEn1
  if x.pass = some (q, d.ordinal) then 0
  else if count ≠ 0 ∧ count = d.ordinal then 1
  else if en && (Nat.xor (dTag d.desc).toNat (tag % 2 ^ 32) &&& (tag / 2 ^ 32)) == 0 then 2
  else if dBreak d.desc then 3
  else if x.hostReq then 4
  else 0

/-- A break takes effect before a descriptor: nothing else starts, and tiles stop at their next long-word boundary (R467). -/
def State.breakAt (s : State) (n q : Nat) (d : ADesc) (cause : Nat) : State :=
  (s.modClient n fun c => { c with dbg := { c.dbg with
    breaking := true, hostReq := false, cause := cause, q := q, tag := dTag d.desc, held := some (q, d.ordinal) } }).stopRuns n

/-- Whether the debug state lets a descriptor start (R467, R469). -/
def Dbg.mayStart (x : Dbg) (q ordinal : Nat) : Bool :=
  !x.breaking && (!x.halted || (x.stepping && x.pass == some (q, ordinal)))

/-! ### Start (R203, R204, R255, R274) -/

/-- Whether a unit of a queue that a pre-emption killed waits to rerun, its context resident again (R274). -/
def State.killedFirst (s : State) (n q : Nat) : Bool :=
  (s.part (s.client n).bindPart).resident == some n && s.units.any fun u => u.client == n && u.q == q && u.phase == .killed && u.preempted && !u.isMember && u.home.isNone

/-- Whether every earlier accepted descriptor has its record, where ORDERED or OTHERQ asks for it (R190, R204). -/
def State.orderMet (s : State) (n q : Nat) (d : ADesc) : Bool :=
  (!dOrdered d.desc || (s.queue n q).accepted.all fun a => decide (d.ordinal ≤ a.ordinal))
    && (!(dKind d.desc == kFENCE && bit (dParam d.desc) 0) || (s.queue n (1 - q)).accepted.all fun a => decide (d.accepted ≤ a.accepted))

/-- Kinds that start only while their context is resident (R255). -/
def needsResident (k : Nat) : Bool := [1, 2, 3, 5, 6, 10].contains k

/-- Stages of an accepted descriptor: itself, or the descriptors of the chain it heads (R194). -/
def State.stagesOf (s : State) (n q : Nat) (d : ADesc) : List (BitVec 512) :=
  ((s.queue n q).accepted.filter fun a => a.ofHead d.ordinal).map ADesc.desc

/-- A started descriptor's stages with their handles resolved (R195). -/
def State.resolve (s : State) (n : Nat) (stages : List (BitVec 512)) : List Stage :=
  stages.map fun d => { desc := d, handles := [0, 1, 2, 3].map (s.resolveHandle n d) }

/-- Counts a descriptor's queue waiting time at its start (R287). -/
def State.countWait (s : State) (n q : Nat) (d : ADesc) : State :=
  let w := BitVec.ofNat 64 (s.now - d.doorbell)
  s.modAcct n fun a =>
    if q = 0 then { a with qsum0 := a.qsum0 + w, qmax0 := if a.qmax0.toNat < w.toNat then w else a.qmax0 }
    else { a with qsum1 := a.qsum1 + w, qmax1 := if a.qmax1.toNat < w.toNat then w else a.qmax1 }

/-- Changes the accepted descriptor with an ordinal. -/
def State.modADesc (s : State) (n q ord : Nat) (f : ADesc → ADesc) : State :=
  s.modQueue n q fun x => { x with accepted := x.accepted.map fun d => if d.ordinal = ord then f d else d }

/-- A descriptor starts: its waiting time is counted, a break that it was let past is used up, and unit `id` stands for it. -/
def State.markStarted (s : State) (n q : Nat) (d : ADesc) (id : Nat) : State :=
  let s := s.countWait n q d
  let s := s.modADesc n q d.ordinal fun d => { d with state := .started id, firstStart := some s.now, counted := true }
  s.modClient n fun c => { c with dbg := { c.dbg with pass := if c.dbg.pass = some (q, d.ordinal) then none else c.dbg.pass } }

/-- Begins an attempt to start the waiting descriptor with a tag: `ready` says what its kind waits for, `go` is its effect once the checks pass. Failed dependencies and checks end it; a break holds it. -/
def State.startWith (s : State) (n q : Nat) (tag : W32) (kind : Nat) (ready : ADesc → Bool) (go : State → ADesc → List Stage → State) : State :=
  match s.waiting? n q tag with
  | none => s
  | some d =>
    if s.frm.state != .ready || (s.queue n q).state != .running || dKind d.desc != kind || d.chainOpen || d.fault != 0 || s.killedFirst n q then s
    else
      let deps := [0, 1, 2].map fun k => s.depState n q d.desc k
      if deps.contains .failed then s.endWaiting n q d 3 cDEP_FAILED
      else if !(deps.all fun x => x == .met) || !s.orderMet n q d then s
      else if !(s.client n).dbg.mayStart q d.ordinal then s
      else if needsResident kind && !s.gateAll n then s
      else if !ready d then s
      else
        let cause := s.breakCause n q d
        if cause ≠ 0 then s.breakAt n q d cause
        else
          let stages := s.stagesOf n q d
          match least (s.startCodes n stages) with
          | some code => s.endWaiting n q d 3 code
          | none => go s d (s.resolve n stages)

/-! ### Units that run on tiles (R42, R135, R188, R128, R163, R272) -/

/-- Tiles that a client's units run on. -/
def State.seatTiles (s : State) (n : Nat) : List Nat := (s.seats n).flatMap s.tilesOf

/-- Started commit units on a partition that are no LOT members, those of a client whose other seat it is among them (R272). -/
def State.unitsOn (s : State) (p : Nat) : Nat :=
  (s.units.filter fun u => !u.isMember && (u.part == p || (!u.pairTiles.isEmpty && (s.client u.client).pairPart == p))).length

/-- Whether a client's partitions may take one more started unit (R272), and their tiles are clocked. -/
def State.roomForUnit (s : State) (n : Nat) : Bool :=
  (s.seats n).all (fun p => decide (s.unitsOn p < 64))
    && !s.flipWaits (s.client n).bindPart && s.awake (s.seatTiles n)

/-- A new commit unit of a descriptor on its client's tiles. -/
def State.newUnit (s : State) (n q : Nat) (d : ADesc) (stages : List Stage) : CUnit :=
  let c := s.client n
  let l := s.spread c.bindPart
  { id := s.nextUnit, client := n, q := q, tag := dTag d.desc, ordinal := d.ordinal, part := c.bindPart, kind := dKind d.desc, stages := stages
    tiles := s.tilesOf c.bindPart, pairTiles := if c.pairEn then s.tilesOf c.pairPart else []
    first := spreadFirst l s.frm.waferId, total := spreadTotal l, start := s.now, startNo := s.order, runStart := s.now
    others := (l.map Prod.fst).filter (· != s.frm.waferId) }

/-- Starts a descriptor as a commit unit on its tiles. -/
def State.unitGo (s : State) (n q : Nat) (d : ADesc) (stages : List Stage) : State :=
  let u := s.newUnit n q d stages
  let s := s.markStarted n q d u.id
  { s with units := s.units ++ [u], nextUnit := s.nextUnit + 1, order := s.order + 1 }.beginUnit u.id

/-- Whether a store of a client's tiles waits for a swap, or is being written by a unit that has not committed (R130, R131). -/
def State.storeBusy (s : State) (n : Nat) (pal : Bool) : Bool :=
  ((s.seatTiles n).any fun a => if pal then (s.tile a).pal.pending else (s.tile a).tbl.pending)
    || s.units.any fun u => u.client == n && u.kind == (if pal then kPALETTE else kTABLE) && u.phase != .committed

/-- Effect of OP: it starts once its tiles are idle and use the banks it is to use. -/
def op (n q : Nat) (tag : W32) (s : State) : State :=
  s.startWith n q tag kOP (fun _ => s.roomForUnit n && s.allIdle (s.seatTiles n)
      && (s.seatTiles n).all fun a => !(s.tile a).pal.pending && !(s.tile a).tbl.pending && (s.tile a).queue.isEmpty)
    fun s d st => s.unitGo n q d st

/-- OP (R135). -/
def execOp (client q : Nat) (tag : W32) (s : State) : Host.Outcome State Fault Refusal := run (op client q tag) s

/-- Effect of MOVE. -/
def move (n q : Nat) (tag : W32) (s : State) : State :=
  s.startWith n q tag kMOVE (fun _ => s.roomForUnit n) fun s d st => s.unitGo n q d st

/-- MOVE (R188). -/
def execMove (client q : Nat) (tag : W32) (s : State) : Host.Outcome State Fault Refusal := run (move client q tag) s

/-- Effect of PALETTE. -/
def palette (n q : Nat) (tag : W32) (s : State) : State :=
  s.startWith n q tag kPALETTE (fun _ => s.roomForUnit n && !s.storeBusy n true) fun s d st => s.unitGo n q d st

/-- PALETTE (R128). -/
def execPalette (client q : Nat) (tag : W32) (s : State) : Host.Outcome State Fault Refusal := run (palette client q tag) s

/-- Effect of TABLE. -/
def table (n q : Nat) (tag : W32) (s : State) : State :=
  s.startWith n q tag kTABLE (fun _ => s.roomForUnit n && !s.storeBusy n false) fun s d st => s.unitGo n q d st

/-- TABLE (R163). -/
def execTable (client q : Nat) (tag : W32) (s : State) : Host.Outcome State Fault Refusal := run (table client q tag) s

/-! ### Descriptors of the rims (R189 to R192, R234 to R237) -/

/-- A descriptor of the rims starts: START trace and the queue wait. -/
def State.rimStart (s : State) (n q : Nat) (d : ADesc) : State :=
  (s.markStarted n q d 0).trace1 { event := 1, client := n, q := q, tag := (dTag d.desc).toNat, part := (s.client n).bindPart }

/-- Effect of FENCE. -/
def fence (n q : Nat) (tag : W32) (s : State) : State :=
  s.startWith n q tag kFENCE (fun _ => s.recordsDone n q) fun s d _ => (s.rimStart n q d).rimDone n q d

/-- FENCE (R190). -/
def execFence (client q : Nat) (tag : W32) (s : State) : Host.Outcome State Fault Refusal := run (fence client q tag) s

/-- Effect of MARK: VALUE into CLI_LAST_MARK and a MARK trace record. -/
def mark (n q : Nat) (tag : W32) (s : State) : State :=
  s.startWith n q tag kMARK (fun _ => s.recordsDone n q) fun s d _ =>
    let s := s.rimStart n q d
    let s := s.modClient n fun c => { c with lastMark := BitVec.ofNat 64 (dParam d.desc) }
    let s := s.trace1 { event := 8, client := n, q := q, tag := (dTag d.desc).toNat, part := (s.client n).bindPart, value := dParam d.desc }
    s.rimDone n q d

/-- MARK (R191). -/
def execMark (client q : Nat) (tag : W32) (s : State) : Host.Outcome State Fault Refusal := run (mark client q tag) s

/-- Effect of RECORD: the records take their images and their generations advance. -/
def record (n q : Nat) (tag : W32) (s : State) : State :=
  s.startWith n q tag kRECORD (fun _ => s.recordsDone n q) fun s d _ =>
    let images := s.recordImages d.desc
    ((s.rimStart n q d).recordCommit n (bits (dHandle d.desc 0) 15 0) images).rimDone n q d

/-- RECORD (R192). -/
def execRecord (client q : Nat) (tag : W32) (s : State) : Host.Outcome State Fault Refusal := run (record client q tag) s

/-- A SEQ subcommand on an entry, by its state (R234); RETIRE of an entry that is not RUNNING also writes RETIRED. -/
def seqApply (sub arg dl : Nat) (e : Entry) : Entry :=
  let running := e.state == .running
  match sub, e.state with
  | _, .retiring => e
  | 2, .running => { e with retirePend := true }
  | 2, _ => { e with state := .retiring }
  | 3, .running => { e with kicked := true, deadline := if dl = 0 then e.deadline else dl, dlSet := e.dlSet || dl != 0 }
  | 3, _ => { e with state := .ready, kicked := false, deadline := if dl = 0 then e.deadline else dl }
  | 4, _ => { e with deadline := dl, dlSet := e.dlSet || running }
  | 5, _ => { e with period := arg }
  | 6, _ => { e with m0 := bits arg 15 0, m1 := bits arg 31 16 }
  | _, _ => e

/-- Whether SUBCMD is reserved: such a descriptor ends with fault SEQ, whichever SEQ command names its tag (R189). -/
def seqReserved (d : BitVec 512) : Bool := seqSub d == 0 || decide (6 < seqSub d)

/-- Effect of a SEQ subcommand other than ADMIT; it waits while a build of its context is in progress (R235), and RETIRE until it can reserve an outcome slot (R222). -/
def seqCmd (sub n q : Nat) (tag : W32) (s : State) : State :=
  let c := s.client n
  s.startWith n q tag kSEQ
    (fun d => seqReserved d.desc || (seqSub d.desc == sub && s.recordsDone n q && c.build.isNone && (sub != 2 || !c.out.enable || c.out.free != 0)))
    fun s d _ =>
      let i := seqIdOf d.desc % 2 ^ 17
      let e := s.entry i
      let s := s.rimStart n q d
      let s := s.setEntry i (seqApply sub (seqArg d.desc) (dDeadline d.desc) e)
      let s := if sub = 2 ∧ e.state ≠ .running ∧ e.state ≠ .retiring
        then ((s.outReserve n 1).outcome n i (s.client n).out.token 7 0 s.now) else s
      s.rimDone n q d

/-- SEQ_RETIRE (R234). -/
def execSeqRetire (client q : Nat) (tag : W32) (s : State) : Host.Outcome State Fault Refusal := run (seqCmd 2 client q tag) s
/-- SEQ_KICK (R234). -/
def execSeqKick (client q : Nat) (tag : W32) (s : State) : Host.Outcome State Fault Refusal := run (seqCmd 3 client q tag) s
/-- SEQ_SET_DEADLINE (R234). -/
def execSeqSetDeadline (client q : Nat) (tag : W32) (s : State) : Host.Outcome State Fault Refusal := run (seqCmd 4 client q tag) s
/-- SEQ_SET_PERIOD (R234). -/
def execSeqSetPeriod (client q : Nat) (tag : W32) (s : State) : Host.Outcome State Fault Refusal := run (seqCmd 5 client q tag) s
/-- SEQ_SET_COUNTS (R234). -/
def execSeqSetCounts (client q : Nat) (tag : W32) (s : State) : Host.Outcome State Fault Refusal := run (seqCmd 6 client q tag) s

/-! ### Admission (R235 to R237, R445) -/

/-- Effect of SEQ_ADMIT: it commits, is refused, or on a follower asks the lead and waits. The lead's own waits out a rebuild of its counts (R447). -/
def seqAdmit (n q : Nat) (tag : W32) (s : State) : State :=
  let c := s.client n
  s.startWith n q tag kSEQ
    (fun d => seqReserved d.desc || (seqSub d.desc == 1 && s.recordsDone n q && c.admits.isEmpty && c.build.isNone && (!c.out.enable || c.out.free != 0) && s.stk.rebuilding.isNone))
    fun s d _ =>
      let s := (s.rimStart n q d).outReserve n 1
      let ring := (s.client n).out.token
      let why := s.refusal n d
      if why ≠ 0 then s.admitEnd n q d ring why
      else if s.frm.role = 2 then
        let r := s.request 0 (lotSync 1 n s.frm.leadId (admitData (seqIdOf d.desc) n))
        r.2.modClient n fun c => { c with admits := c.admits ++ [{ q := q, tag := tag, since := s.now, tid := r.1, ring := ring }] }
      else if (s.client n).stackQuota ≤ s.stackCount n then s.admitEnd n q d ring 7
      else s.admitEnd n q d ring 0

/-- SEQ_ADMIT (R236). -/
def execSeqAdmit (client q : Nat) (tag : W32) (s : State) : Host.Outcome State Fault Refusal := run (seqAdmit client q tag) s

end Sys2Proof.Machine
end

