-- ==== Sys2Proof/Machine/Lot.lean ====
section
/-! DEFINITION. LOT descriptors and builds, the end of retirement, the Lot Table scrub and snapshots (R228, R229, R231, R238 to R250, R312, R313). -/

namespace Sys2Proof.Machine

open Sys2Proof

/-! ### The build (R238 to R242) -/

/-- READY entries of a client in order of (deadline, sequence ID) (R239). -/
def State.candidates (s : State) (n : Nat) : List (Nat × Entry) :=
  sortBy (fun (a b : Nat × Entry) => decide (a.2.deadline < b.2.deadline) || (a.2.deadline == b.2.deadline && decide (a.1 ≤ b.1)))
    (((s.entriesOf n).map fun i => (i, s.entry i)).filter fun x => x.2.state == .ready)

/-- Whether a member is new: it holds no window anywhere (R238). -/
def Entry.isNew (e : Entry) : Bool := !e.resValid && !e.win.any (· == 0x3F)

/-- Windows of a member that are not on tile `t`; all WIN_SEQ of a new member (R241). -/
def Entry.windowsOff (e : Entry) (t winSeq : Nat) : Nat :=
  if e.isNew then winSeq
  else ((e.win.take winSeq).filter fun w => w == 0x3F || (decide (w < 47) && !(e.resValid && e.res == t))).length

/-- Tile number of place `j` on another wafer in a build: beyond every active tile ID of this wafer (log 27). -/
def farTile (wafer j : Nat) : Nat := Config.activeTiles * (wafer + 1) + j
/-- The wafer of such a number. -/
def farWafer (t : Nat) : Nat := t / Config.activeTiles - 1

/-- Members queued or running on a tile, those that a kill has taken off it and that rerun there among them (R238, R245). -/
def State.load (s : State) (t : Nat) : Nat :=
  if t < Config.activeTiles then
    (s.units.filter fun u => u.isMember && u.phase != .committed && (if (s.tile t).queue.contains u.id then true else u.phase != .placed && u.allTiles.contains t)).length
  else (s.units.filter fun u => u.isMember && u.home.isNone && u.tiles.isEmpty && u.first == t && u.phase != .committed).length

/-- What a build keeps while it goes through its candidates: load and reserved windows of each tile, members placed. -/
structure Plan where
  load : Tab Nat := []
  resv : Tab Nat := []
  placed : List (Nat × Nat × Nat) := []
  deriving DecidableEq, Repr

/-- What a build decides for a candidate. -/
inductive Decision where
  | place (tile off : Nat)
  | defer
  | skip
  deriving DecidableEq, Repr

/-- Difference of two numbers. -/
def gap (a b : Nat) : Nat := if a ≤ b then b - a else a - b

/-- The affinity list of a member (R240); a tile of another wafer lies beyond every MIG_RANGE (R448). -/
def affinityList (here far : List Nat) (mig : Nat) (load : Tab Nat) (e : Entry) : List Nat :=
  let byKey := fun (key : Nat → Nat) (l : List Nat) => sortBy (fun a b => decide (key a ≤ key b)) l
  if e.resValid then
    let home := e.res
    if Config.activeTiles ≤ home then far.filter (· == home)
    else
      let strip := home / 16
      let near := byKey (fun t => gap (t % 16) (home % 16) * 16 + t % 16) (here.filter fun t => t / 16 == strip && t != home)
      let others := byKey (fun t => ((swatchDist (t / 16) strip * 8 + gap (t / 16 % 8) (strip % 8)) * 512 + t / 16) * 16 + t % 16)
        (here.filter fun t => t / 16 != strip && decide (swatchDist (t / 16) strip ≤ mig))
      here.filter (· == home) ++ near ++ others
  else byKey (fun t => tabGet 0 load t * 2 ^ 20 + t) (if e.isNew then here ++ far else here)

/-- Whether tile `t` has room for a member (R241); a tile of another wafer is taken to have it (log 27). -/
def State.hasRoom (s : State) (p : Plan) (e : Entry) (winSeq t : Nat) : Bool :=
  let w := e.windowsOff t winSeq
  w == 0 || decide (Config.activeTiles ≤ t) || decide (w + winSeq ≤ (s.tile t).freeList.length - tabGet 0 p.resv t)

/-- The decision for one candidate (R239). -/
def State.decide1 (s : State) (n : Nat) (here far : List Nat) (tb : Nat) (p : Plan) (e : Entry) : Decision :=
  let c := s.client n
  let tiles := (affinityList here far c.migRange p.load e).filter (s.hasRoom p e c.winSeq)
  let predict := fun (t : Nat) =>
    tb + 20000 + (tabGet 0 p.load t + 1) * c.stepEst + (if !e.isNew && decide (0 < e.windowsOff t c.winSeq) then c.moveEst else 0)
  if p.placed.length = 8192 then .defer
  else match tiles with
    | [] => .defer
    | t0 :: _ =>
      match tiles.find? fun t => decide (predict t ≤ e.deadline) with
      | some t => .place t (e.windowsOff t c.winSeq)
      | none =>
        if c.latePolicy = 0 then .place t0 (e.windowsOff t0 c.winSeq)
        else if c.latePolicy = 2 ∧ e.deferCount < c.deferLimit then .defer
        else .skip

/-- A READY member deferred by a build (R231, R242). -/
def State.deferMember (s : State) (n q : Nat) (tag : W32) (tb i : Nat) : State :=
  let s := s.modEntry i fun e => { e with deferCount := satTo 255 (e.deferCount + 1), deferTotal := satTo 0xFFFFFFFF (e.deferTotal + 1) }
  let ring := (s.client n).out.token
  let s := s.outcome n i ring 3 (s.entry i).deferCount tb
  (s.outcomeTrace n q tag.toNat i (s.client n).bindPart 3).outRelease n ring 1

/-- A READY member skipped by a build (R231, R233). -/
def State.skipMember (s : State) (n q : Nat) (tag : W32) (tb i : Nat) : State :=
  let e := s.entry i
  let s := s.setEntry i { (e.advance e.deadline tb) with skipCount := satTo 0xFFFF (e.skipCount + 1), deferCount := 0 }.exit
  let ring := (s.client n).out.token
  let s := s.outcome n i ring 4 e.deferCount tb
  (s.outcomeTrace n q tag.toNat i (s.client n).bindPart 4).outRelease n ring 1

/-- Goes through the candidates of a build in order. -/
def State.buildAll (s : State) (n q : Nat) (tag : W32) (ord : Nat) (here far : List Nat) (tb : Nat) (l : List (Nat × Entry)) : Plan × State :=
  let p0 : Plan := { load := (here ++ far).map fun t => (t, s.load t) }
  l.foldl (fun (m : Plan × State) x =>
    match m.2.decide1 n here far tb m.1 x.2 with
    | .place t w => ({ load := tabPut m.1.load t (tabGet 0 m.1.load t + 1), resv := tabPut m.1.resv t (tabGet 0 m.1.resv t + w)
                       placed := m.1.placed ++ [(x.1, t, x.2.deadline)] }, m.2)
    | .defer => (m.1, (m.2.deferMember n q tag tb x.1).modLot n q ord fun l => { l with deferred := l.deferred + 1 })
    | .skip => (m.1, (m.2.skipMember n q tag tb x.1).modLot n q ord fun l => { l with skipped := l.skipped + 1 })) (p0, s)

/-- Tiles of another wafer that a partition holds, as a build numbers them (R448; log 27). -/
def State.farTiles (s : State) (p : Nat) : List Nat :=
  (s.spread p).flatMap fun x => if x.1 = s.frm.waferId then [] else (upTo x.2).map fun j => farTile x.1 j

/-- Effect of LOT: it starts, and its build begins and decides at t_b; the placed members wait for the build's end. -/
def lot (n q : Nat) (tag : W32) (s : State) : State :=
  let c := s.client n
  let due := match c.lastBuild with | some t => decide (t + 1000 * c.lotInterval ≤ s.now) | none => true
  s.startWith n q tag kLOT (fun _ => c.build.isNone && due) fun s d st =>
    let tb := s.now
    let s := s.markStarted n q d 0
    let run : LotRun := { q := q, tag := tag, ordinal := d.ordinal, start := tb, startNo := s.order, stages := st }
    let s := { s with order := s.order + 1 }.modClient n fun c => { c with lots := c.lots ++ [run], lastBuild := some tb }
    let cand := s.candidates n
    let cand := if (s.client n).out.enable then cand.take ((s.client n).out.free / 2) else cand
    let s := s.outReserve n (2 * cand.length)
    let r := s.buildAll n q tag d.ordinal (s.tilesOf c.bindPart) (s.farTiles c.bindPart) tb cand
    let s := r.2.modClient n fun c => { c with build := some { tb := tb, q := q, tag := tag, ordinal := d.ordinal, placed := r.1.placed, ring := c.out.token } }
    s.modLot n q d.ordinal fun l => { l with placed := r.1.placed.length }

/-- LOT (R238). -/
def execLot (client q : Nat) (tag : W32) (s : State) : Host.Outcome State Fault Refusal := run (lot client q tag) s

/-! ### The build's end (R242, R245) -/

/-- The tile of PAIR_PART on which the other side of a paired member runs: where its windows lie, else the tile in the same place of the order (log 26). -/
def State.pairTile (s : State) (n i a : Nat) : List Nat :=
  let c := s.client n
  let l := s.tilesOf c.pairPart
  if !c.pairEn then []
  else match s.dryOn l (.seq n i 0) with
    | some x => [x.1]
    | none => match l with
      | [] => []
      | t :: _ => [l.getD (indexIn (s.tilesOf c.bindPart) a % l.length) t]

/-- A placed member becomes RUNNING and is dispatched to its tile, or forwarded to its wafer (R242, R437). -/
def State.dispatch (s : State) (n : Nat) (l : LotRun) (ring : Nat) (x : Nat × Nat × Nat) : State :=
  let c := s.client n
  let far := decide (Config.activeTiles ≤ x.2.1)
  let e := s.entry x.1
  let s := s.setEntry x.1 { e with state := .running }
  let w := if far then [farWafer x.2.1] else []
  let u : CUnit := {
    id := s.nextUnit, client := n, q := l.q, tag := l.tag, ordinal := l.ordinal, part := c.bindPart, kind := kLOT, stages := l.stages
    member := some { entry := x.1, deadline := x.2.2, step := e.step.toNat, m0 := e.m0, m1 := e.m1, ring := ring }
    tiles := if far then [] else [x.2.1], first := if far then x.2.1 else 0
    pairTiles := if far then [] else s.pairTile n x.1 x.2.1
    phase := if far then .ready else .placed, start := if far then s.now else 0, others := w }
  let s := { s with units := s.units ++ [u], nextUnit := s.nextUnit + 1 }
  let s := s.modLot n l.q l.ordinal fun l => { l with members := l.members ++ [u.id] }
  if far then (s.trace1 { s.unitTrace u 1 with detail := 0 }).forwardUnit u
  else s.each u.allTiles fun s a => s.modTile a fun t => { t with queue := t.queue ++ [u.id] }

/-- Effect of BUILD_END. -/
def buildEnd (n : Nat) (s : State) : State :=
  match (s.client n).build with
  | none => s
  | some b =>
    match s.lot? n b.q b.ordinal with
    | none => s.modClient n fun c => { c with build := none }
    | some l =>
      let s := s.modClient n fun c => { c with build := none }
      let s := s.each b.placed fun s x => s.dispatch n l b.ring x
      (((s.modLot n b.q b.ordinal fun l => { l with building := false }).lotCheck n b.q b.ordinal).admitGo n).stopGo n

/-- BUILD_END (R242). -/
def execBuildEnd (client : Nat) (s : State) : Host.Outcome State Fault Refusal := run (buildEnd client) s

/-! ### RETIRING_FREED (R231, R445) -/

/-- Whether a window belongs to a sequence. -/
def Window.ofSeq (w : Window) (n i : Nat) : Bool :=
  match w.owner with
  | .seq c j _ => c == n && j == i
  | _ => false

/-- Effect of RETIRING_FREED: the sequence's windows and its spill area are free and the entry is FREE; a follower tells the lead. It waits while a window of the sequence is in the spill path (R40). -/
def retiringFreed (i : Nat) (s : State) : State :=
  let e := s.entry i
  if e.state != .retiring || s.inSpill i then s
  else
    let n := e.client
    let s := { s with tiles := s.tiles.map fun (x : Nat × Tile) => (x.1, x.2.freeWhere fun w => w.ofSeq n i) }
    let s := s.modClient n fun c => { c with parked := { c.parked with
      tiles := c.parked.tiles.map fun t => { t with windows := t.windows.filter fun w => !w.2.ofSeq n i }
      pairTiles := c.parked.pairTiles.map fun t => { t with windows := t.windows.filter fun w => !w.2.ofSeq n i } } }
    let s := s.setEntry i Entry.freed
    if s.frm.role = 2 then s.send { lotSync 2 n s.frm.leadId (admitData (s.seqId i) n) with src := s.frm.waferId } else s

/-- RETIRING_FREED (R231). -/
def execRetiringFreed (entry : Nat) (s : State) : Host.Outcome State Fault Refusal := run (retiringFreed entry) s

/-! ### The two copies (R312, R313) -/

/-- The entry with its unused fields at 0, or at what no window reads as (R312). -/
def Entry.used (e : Entry) (winSeq : Nat) : Entry :=
  if e.state = .free then {}
  else { e with win := e.win.zipIdx.map (fun p => if p.2 < winSeq then p.1 else 0x3E), res := if e.resValid then e.res else 0 }

/-- Logs a LATENT finding of a rim store bank (R313). -/
def State.latent (s : State) (bank : Nat) : State := s.fltLog 0x0D 4 3 bank none

/-- Effect of LT_SCRUB_COMPARE: one entry is compared across the copies and repaired. Banks that are no longer used are not scrubbed (R304). -/
def ltScrub (i : Nat) (north south : Ecc) (s : State) : State :=
  let b := ltBank i
  if s.flt.rimBad.contains b || s.flt.rimBad.contains (16 + b) then s
  else
    let x : Entry := tabGet {} s.north i
    let y : Entry := tabGet {} s.south i
    let put := fun (s : State) (e : Entry) => { s with north := tabPut s.north i e, south := tabPut s.south i e }
    let w := fun (e : Entry) => e.used (s.client e.client).winSeq
    match north, south with
    | .clean, .clean =>
      if x = y then s
      else if w x = w y then (put s x).latent b
      else (put s x).upset 0x0D 3 (16 + b) none
    | .failUsed, .failUsed =>
      let s := (s.upset 0x0D 3 b none).upset 0x0D 3 (16 + b) none
      s.loss 0x0D 3 b (if x.state = .free then none else some x.client)
    | .failUsed, _ => (put s (if south = .clean then y else w y)).upset 0x0D 3 b none
    | _, .failUsed => (put s (if north = .clean then x else w x)).upset 0x0D 3 (16 + b) none
    | .failUnused, .failUnused => (put s (w y)).latent b
    | .failUnused, .clean => if w x = w y then (put s y).latent b else (put s y).upset 0x0D 3 b none
    | .clean, .failUnused => if w x = w y then (put s x).latent b else (put s x).upset 0x0D 3 (16 + b) none

/-- LT_SCRUB_COMPARE (R313). -/
def execLtScrubCompare (entry : Nat) (north south : Ecc) (s : State) : Host.Outcome State Fault Refusal := run (ltScrub entry north south) s

/-! ### Snapshots (R228, R229) -/

/-- STATE encoding (R230). -/
def LState.code : LState → Nat
  | .free => 0 | .admitted => 1 | .ready => 2 | .running => 3 | .waiting => 4 | .parked => 5 | .retiring => 6

/-- The 64 bytes of an entry (R228). -/
def entryBytes (e : Entry) : List Byte :=
  leBytes e.client 1
    ++ leBytes (e.state.code + 8 * b2n e.kicked + 16 * b2n e.dlSet + 32 * b2n e.retirePend + 64 * b2n e.eos + 128 * b2n e.spilled) 1
    ++ leBytes e.deferCount 1 ++ leBytes 0 1 ++ leBytes e.period 4 ++ leBytes e.deadline 8 ++ leBytes e.step.toNat 4
    ++ leBytes (e.res % 8192 + 32768 * b2n e.resValid) 2 ++ leBytes 0 2
    ++ leBytes (total (e.win.zipIdx.map fun p => p.1 % 64 * 2 ^ (6 * p.2))) 6 ++ leBytes 0 2
    ++ leBytes e.m0 2 ++ leBytes e.m1 2 ++ leBytes e.lateCount 2 ++ leBytes e.skipCount 2 ++ leBytes e.deferTotal 4
    ++ leBytes e.lastCommit 8 ++ leBytes e.spillAddr 6 ++ leBytes 0 6

/-- Reads an entry from its 64 bytes. -/
def parseEntry (bs : List Byte) : Entry :=
  let f := fun o n => leVal ((bs.drop o).take n)
  let fl := f 1 1
  { client := f 0 1 % 128
    state := match fl % 8 with | 1 => .admitted | 2 => .ready | 3 => .running | 4 => .waiting | 5 => .parked | 6 => .retiring | _ => .free
    kicked := bit fl 3, dlSet := bit fl 4, retirePend := bit fl 5, eos := bit fl 6, spilled := bit fl 7
    deferCount := f 2 1, period := f 4 4, deadline := f 8 8, step := BitVec.ofNat 32 (f 16 4)
    res := f 20 2 % 8192, resValid := bit (f 20 2) 15
    win := (upTo 8).map fun i => bits (f 24 6) (6 * i + 5) (6 * i)
    m0 := f 32 2, m1 := f 34 2, lateCount := f 36 2, skipCount := f 38 2, deferTotal := f 40 4, lastCommit := f 44 8, spillAddr := f 52 6 }

/-- Effect of CLI_LT_SEL: a snapshot of an entry, 0 where it is FREE or another client's. -/
def cliLtSel (n : Nat) (v : W32) (s : State) : State :=
  if s.frm.state != .ready then s
  else
    let i := bits v.toNat 16 0
    let e := s.entry i
    s.modClient n fun c => { c with
      ltSel := i, ltData := if e.state == .free || e.client != n then 0 else BitVec.ofNat 512 (leVal (entryBytes e)) }

/-- CLI_LT_SEL (R229). -/
def execCliLtSel (client : Nat) (value : W32) (s : State) : Host.Outcome State Fault Refusal := run (cliLtSel client value) s

end Sys2Proof.Machine
end

