-- ==== Sys2Proof/Machine/Park.lean ====
section
/-! DEFINITION. Stopping, saving and restoring a context, and the park area (R258, R268 to R285). -/

namespace Sys2Proof.Machine

open Sys2Proof

/-! ### Switches -/

/-- Partitions of a switch: the seats of both contexts (R260). -/
def State.switchSeats (s : State) (w : Switch) (p : Nat) : List Nat :=
  sortUp (p :: (match w.out with | some n => s.seats n | none => []) ++ (match w.incoming with | some n => s.seats n | none => []))

/-- Whether every unit of the outgoing context has stopped or ended, on all its seats (R273). -/
def State.stopped (s : State) (n : Nat) : Bool :=
  let tiles := s.seatTiles n
  (s.ownUnits n).all (fun u => match u.phase with
      | .running | .ready => u.allTiles.all fun a => match (s.tile a).run with
          | some r => r.unit != u.id || (r.stopped && !r.stepOne && (r.inflight.isEmpty || (r.inflight.all fun f => decide (f.due ≤ s.cycle a))))
          | none => true
      | .placed | .killed | .saved | .failed => true
      | _ => false)
    && tiles.all (fun a => (s.tile a).spill == .idle && !tabHas s.flt.retrims (a / 16))
    && s.fabric.all (fun m => m.body == FabricBody.read || !(tiles.contains m.dst && (match (s.tile m.dst).run with | some r => r.unit == m.unit && (r.stream? m.acc).isSome | none => false)))

/-! ### Bytes of the park area (R277 to R279) -/

/-- LOOP entry `i` of a tile header (R277). -/
def loopBytes (r : TileRun) (i : Nat) : List Byte :=
  let x := nth [r.x0, r.x1, r.x2, r.x3] i
  match r.loops.find? fun l => l.counter == i with
  | some l => leBytes (l.remain % 2 ^ 16 + x % 2 ^ 32 * 2 ^ 16 + l.wordOff % 2 ^ 14 * 2 ^ 48) 8
  | none => leBytes (x % 2 ^ 32 * 2 ^ 16) 8

/-- STREAMS entry (R278). -/
def streamBytes (st : Stream) : List Byte :=
  leBytes (st.op + st.hnd * 8 + 128) 1 ++ leBytes (b2n st.g64) 1 ++ leBytes (st.acc / 8) 2 ++ leBytes st.terms 4 ++ leBytes st.k 4 ++ leBytes st.r0 4

/-- Bytes padded with zeros to a length. -/
def padTo (n : Nat) (bs : List Byte) : List Byte := bs ++ List.replicate (n - bs.length) 0

/-- TIL_SEQ_POS of a run: bank offset and repetition of the long word last issued. -/
def TileRun.seqPos (r : TileRun) : Nat := r.lastOff % 2 ^ 14 + r.lastRho % 256 * 2 ^ 14

/-- WSTATE of a tile (R277). -/
def Tile.wstate (t : Tile) : Nat :=
  total ((t.windows.filter fun x => decide (x.1 < 47)).map fun x => (match x.2.state with | .free => 0 | .dry => 1 | .wet => 2) * 4 ^ x.1)

/-- Sum of 2^k over keys present in a table. -/
def keyBits {α : Type} (t : Tab α) (n : Nat) : Nat := total ((t.filter fun x => decide (x.1 < n)).map fun x => 2 ^ x.1)

/-- The tile header of R277 as a FULL save writes it; bytes 16 to 2,079 are 0 where no run is saved (R279). -/
def State.tileHeader (s : State) (a slot : Nat) (u : Option CUnit) : List Byte :=
  let t := s.tile a
  match t.run, u with
  | some r, some u =>
    let pend := match r.stall with | some (.remote _ _ _ _) => true | _ => false
    let fl := 1 + 2 * b2n (r.pass == 2) + 4 * b2n u.isMember + 8 * b2n pend
    let masks := (upTo 7).flatMap fun i => leBytes (tabGet 0 r.mask (i + 1)).toNat 8
    let vtag := total (r.vtag.map fun x => x.2 % 8 * 8 ^ x.1)
    let arows := sortUp (r.acc.map fun x => x.1 / 64)
    padTo 4096 (leBytes a 2 ++ leBytes t.watermark 1 ++ leBytes fl 1 ++ leBytes t.wstate 12
      ++ leBytes r.seqPos 4 ++ (upTo 4).flatMap (loopBytes r) ++ leBytes (if u.isMember then 0xFFFF else slot) 2 ++ leBytes r.flags.toNat 1 ++ leBytes 0 1
      ++ leBytes (if u.isMember then s.seqOf u else 0) 4 ++ leBytes 0 4 ++ masks ++ leBytes vtag 12 ++ leBytes (keyBits r.vreg 32) 4
      ++ leBytes (total (arows.map fun x => 2 ^ x)) 128 ++ padTo 128 (r.streams.flatMap streamBytes) ++ leBytes 0 120
      ++ padTo 1024 ((sortBy (fun (x y : RangeC) => decide (x.slot ≤ y.slot)) r.allRanges).flatMap rangeBytes) ++ s.ltupd u r.eos ++ leBytes (if u.isMember then s.runTime u else 0) 8 ++ leBytes 0 8
      ++ leBytes (total (r.accFmt.map fun x => x.2 % 16 * 16 ^ x.1)) 512)
  | _, _ => padTo 4096 (leBytes a 2 ++ leBytes t.watermark 1 ++ leBytes 0 1 ++ leBytes t.wstate 12)

/-- The 256 bytes of a vector register in R19 order. -/
def vregBytes (v : BitVec 2048) : List Byte := leBytes v.toNat 256

/-- Entries of the unit table: started units of the client that are not members (R277). -/
def State.unitTable (s : State) (n : Nat) : List CUnit :=
  ((s.ownUnits n).filter fun u => !u.isMember && (u.phase == .running || u.phase == .killed || u.phase == .saved)).take 64

/-- Writes tile frame `k` of a context (R277, R279). -/
def State.putFrame (s : State) (n base k a : Nat) : State :=
  let t := s.tile a
  let u := t.run.bind fun r => s.unit? r.unit
  let at_ := base + Config.framesAt + Config.frameBytes * k
  let slot := match u with | some u => indexIn ((s.unitTable n).map CUnit.id) u.id | none => 0
  let s := s.hbmWrite at_ (s.tileHeader a slot u)
  let s := match t.run with
    | none => s
    | some r =>
      let s := s.each (upTo 32) fun s i => s.hbmWrite (at_ + 0x1000 + 256 * i) (vregBytes (tabGet 0 r.vreg i))
      let s := s.hbmClear (at_ + 0x3000) 0x40000
      s.each r.acc fun s x => s.hbmWrite (at_ + 0x3000 + 4 * x.1) (leBytes x.2.toNat 4)
  s.each (t.windows.filter fun x => x.2.state != .free && decide (x.1 < 47)) fun s x =>
    { s with hbm := memPaste s.hbm (at_ + 0x43000 + 0x10000 * x.1) 65536 (t.winData x.1) }

/-- Bytes of a tile's frame that a save moves (R284). -/
def Tile.frameSize (t : Tile) : Nat :=
  (if t.run.isSome then 4096 + 8192 + 262144 else 4096) + 65536 * ((t.windows.filter fun x => x.2.state != .free && decide (x.1 < 47)).length)

/-- Bytes that the save of a context moves (R284). -/
def State.saveSize (s : State) (n : Nat) : Nat :=
  53248 + total ((s.tilesOf (s.client n).bindPart).map fun a => (s.tile a).frameSize)

/-- Writes the context header (R277). -/
def State.putHeader (s : State) (n base : Nat) (tiles : List Nat) (complete : Bool) (start fin bytes : Nat) : State :=
  let p := (s.client n).bindPart
  let t0 := s.tile (tiles.headD 0)
  let units := s.unitTable n
  let cf := b2n complete + 2 * t0.pal.active + 4 * b2n t0.pal.pending + 8 * t0.tbl.active + 16 * b2n t0.tbl.pending
  let absent := (upTo Config.strips).flatMap fun i => leBytes (total ((upTo 16).map fun c => b2n (s.physCol i c == 0x1F) * 2 ^ c)) 2
  let table := units.flatMap fun u =>
    let full := u.phase == .saved || u.phase == .running
    let two := u.tiles.any fun a => match (s.tile a).run with | some r => r.unit == u.id && r.pass == 2 | none => false
    leBytes u.tag.toNat 4 ++ leBytes (u.q + 2 * b2n full + 4 * b2n two + 8 * b2n (u.kind == kLOT)) 1 ++ leBytes 0 3 ++ leBytes (s.runTime u) 8
  s.hbmWrite base (padTo 4096 (leBytes 1 1 ++ leBytes n 1 ++ leBytes cf 1 ++ leBytes 0 1 ++ leBytes tiles.length 2 ++ leBytes units.length 2
    ++ leBytes start 8 ++ leBytes fin 8 ++ leBytes bytes 8 ++ leBytes (s.part p).strips.toNat 64 ++ absent ++ table))

/-- Writes the four banks from tile `a`, the lowest working tile (R277). -/
def State.putBanks (s : State) (base a : Nat) : State :=
  let t := s.tile a
  let put := fun (s : State) (o k : Nat) (b : Bytes) => { s with hbm := memPaste s.hbm (base + o) k b }
  put (put (put (put s 0x1000 8192 t.pal.bank0) 0x3000 8192 t.pal.bank1) 0x5000 16384 t.tbl.bank0) 0x9000 16384 t.tbl.bank1

/-! ### Switch time (R284) -/

/-- The context that a switch saves or restores now, where its transfer has begun: a pair's restore begins on both its seats at once (R260, R284). -/
def State.moving (s : State) (w : Switch) : Option Nat :=
  match w.phase with
  | .stopping => none
  | .saving => w.out
  | .restoring => w.incoming.filter fun n => (s.seats n).all fun r => match (s.part r).switch with | some x => x.incoming == some n && x.phase == .restoring | none => false

/-- Saves and restores in progress on the wafer. -/
def State.transfers (s : State) : Nat := (sortUp ((upTo Config.partitions).filterMap fun p => (s.part p).switch.bind s.moving)).length

/-- Whether a transfer of `v` bytes of partition `p` that began at `since` is done (R284): V/B + 5 µs, with B in bytes per 800 ns. -/
def State.transferDone (s : State) (p v since : Nat) : Bool :=
  let strips := s.stripsOf p
  let code := (least (strips.map fun i => (s.dom (domOfStrip i)).code)).getD 0
  let fabric := strips.length * 256 * (12 + code) * 40
  let n := if s.transfers = 0 then 1 else s.transfers
  let t := s.now - since - 5000
  decide (since + 5000 ≤ s.now) && (strips.isEmpty || decide (v * 800 ≤ t * fabric)) && decide (v * 800 * n ≤ t * (s.swShare * 983040))

/-! ### STOP_COMPLETE, SAVE_COMPLETE (R258, R273, R280) -/

/-- A unit of the context that is being parked: its outstanding remote reads are abandoned, and its running time stands (R270, R273 step 6). -/
def State.parkUnit (s : State) (u : CUnit) : State :=
  (s.dropRequests u.id).modUnit u.id fun x => { x with phase := .saved, runNs := s.runTime u, waitRd := [] }

/-- Effect of STOP_COMPLETE: members that have not started return to READY, and the save begins: the outgoing context is parked from now on. -/
def stopComplete (p : Nat) (s : State) : State :=
  match (s.part p).switch with
  | none => s
  | some w =>
    if w.phase != .stopping then s
    else match w.out with
      | none => s
      | some n =>
        let s := s.stopGo n
        match (s.part p).switch.bind Switch.stopAt with
        | none => s
        | some t =>
          if !s.stopped n then s
          else
            let s := s.each (s.seatTiles n) fun s a => s.landDue a (s.cycle a)
            let s := s.each ((s.ownUnits n).filter fun u => u.phase == .placed) fun s u => s.memberKill u 0
            let s := s.each ((s.ownUnits n).filter CUnit.stoppable) State.parkUnit
            let seat := s.seatTiles n
            let s := { s with fabric := s.fabric.filter fun m => !(m.body == FabricBody.read && seat.contains m.src) }
            let s := s.when (!w.idle) fun s => s.trace1 { event := 5, client := n, part := p, value := w.incoming.getD 0 }
            let s := s.putHeader n (s.client n).areas.park (s.tilesOf (s.client n).bindPart) false t 0 0
            let s := s.modClient n fun c => { c with resident := false, parkedSince := s.now, parked := {} }
            s.each (s.seats n) fun s r => s.modPart r fun x => { x with
              resident := none, switch := x.switch.map fun w => { w with phase := .saving, since := s.now } }

/-- STOP_COMPLETE (R273). -/
def execStopComplete (part : Nat) (s : State) : Host.Outcome State Fault Refusal := run (stopComplete part) s

/-- A tile of a context that is saved: its windows' states, and its run with what is in flight landed and what is abandoned cleared (R273, R276). -/
def State.savedTile (s : State) (a : Nat) (keep : Bool) : SavedTile :=
  let t := s.tile a
  let run := t.run.map fun r => { r with inflight := [], nextCyc := 0, ariFree := 0, redFree := 0, stall := match r.stall with
    | some (.remote _ _ _ _) => none
    | some (.chain _) => none
    | x => x }
  { tile := a, windows := t.windows, run := run, queue := (t.trapFor.map Prod.fst).toList ++ t.queue, vat := if keep then t.vat else [] }

/-- A tile after its frame has been saved: windows FREE, registers gone (R280). -/
def Tile.afterSave (t : Tile) : Tile :=
  { t with windows := [], vat := [], run := none, queue := [], trapFor := none, spill := .idle, pal := { swaps := t.pal.swaps }, tbl := { swaps := t.tbl.swaps } }

/-- Saves the context of client `n` from the tiles of its seats into its park area (R277 to R280). -/
def State.parkOn (s : State) (n : Nat) (tiles pair : List Nat) (first total start bytes : Nat) : State :=
  let base := (s.client n).areas.park
  let t0 := s.tile (tiles.headD 0)
  let s := s.putBanks base (tiles.headD 0)
  let s := s.each tiles.zipIdx fun s x => s.putFrame n base x.2 x.1
  let s := s.putHeader n base tiles true start s.now bytes
  let saved : Parked := { complete := true, layout := tiles, first := first, total := total, pal := t0.pal, tbl := t0.tbl, tiles := tiles.map fun a => s.savedTile a false
                          pairTiles := pair.map fun a => s.savedTile a true }
  let s := s.each (tiles ++ pair) fun s a => s.modTile a Tile.afterSave
  s.modClient n fun c => { c with parked := saved }

/-- The context of client `n` is in its park area. -/
def State.park (s : State) (n start bytes : Nat) : State :=
  let c := s.client n
  let l := s.spread c.bindPart
  s.parkOn n (s.tilesOf c.bindPart) (if c.pairEn then s.tilesOf c.pairPart else []) (spreadFirst l s.frm.waferId) (spreadTotal l) start bytes

/-- Ends a switch on a partition, and lets a pending change ask for its rebuild (R261). -/
def Part.switchEnd (x : Part) : Part := { x with switch := none, rebuildPend := x.rebuildPend || x.changePend }

/-- Effect of SAVE_COMPLETE: the frames, banks and header are in the park area, LOT records that waited for the save are written, and the restore of the incoming context begins. -/
def saveComplete (p : Nat) (s : State) : State :=
  match (s.part p).switch with
  | none => s
  | some w =>
    if w.phase != .saving then s
    else match w.out with
      | none => s
      | some n =>
        let v := s.saveSize n
        if !s.transferDone (s.client n).bindPart v w.since then s
        else
          let ns := s.now - w.since
          let s := s.park n (w.stopAt.getD w.since) v
          let s := s.modAcct n fun a => { a with saveNs := a.saveNs + BitVec.ofNat 64 ns }
          let s := s.each (s.client n).lots fun s l =>
            if l.awaitSave then (s.modLot n l.q l.ordinal fun l => { l with awaitSave := false }).lotCheck n l.q l.ordinal else s
          s.each (s.seats n) fun s r =>
            s.modPart r fun x =>
              let x := { x with saveNs := ns % 2 ^ 32, saveBytes := v }
              match x.switch with
              | none => x
              | some w => match w.incoming with
                | some _ => { x with switch := some { w with out := none, phase := .restoring, since := s.now } }
                | none => x.switchEnd

/-- SAVE_COMPLETE (R280). -/
def execSaveComplete (part : Nat) (s : State) : Host.Outcome State Fault Refusal := run (saveComplete part) s

/-! ### Windows of positions that have gone (R262, R264) -/

/-- Writes DRY sequence windows of a leaving position to their spill areas (R262 step 2, R231). -/
def State.spillSeqs (s : State) (n : Nat) (l : List (Nat × Nat × Bytes)) : State :=
  s.each l fun s x =>
    let e := s.entry x.1
    let s := { s with hbm := memPaste s.hbm (e.spillAddr + 65536 * x.2.1) 65536 x.2.2 }
    if e.client = n then s.modEntry x.1 fun e => e.spill x.2.1 else s

/-- A working position of a layout: its windows and its vat. -/
abbrev VatImage := Tab Window × Bytes

/-- The image of a tile. -/
def Tile.image (t : Tile) : VatImage := (t.windows, t.vat)

/-- The DRY window of an owner in an image. -/
def imageFind (m : VatImage) (o : Owner) : Option Nat := (m.1.find? fun x => x.2.state == .dry && x.2.owner == o).map Prod.fst

/-- The tensor whose windows have a key: as the record stands, or, of an earlier generation, as a live unit holds it; none: no one reads it any more (R208). -/
def State.keyHandle (s : State) (n key : Nat) : Option Handle :=
  let r := s.trec n (key % 2 ^ 16)
  if key = recKey (key % 2 ^ 16) r.gen then (if r.valid && r.cls == 0 then some (s.handleOf n (key % 2 ^ 16) true r) else none) else s.liveHandle n key

/-- The packed stream of a VAT tensor as the images of the positions `first` onward of `t` hold it, and the blocks of it that they hold: first and end (R200). -/
def imageStream (n key : Nat) (h : Handle) (old : List VatImage) (first t : Nat) : Bytes × Nat × Nat :=
  let part := fun (v : VatImage) (b blocks : Nat) (m : Bytes) => (upTo ((blocks + 255) / 256)).foldl (fun m j =>
    match imageFind v (.record n key j) with
    | some w => memPaste m (256 * b + 65536 * j) (if 65536 * (j + 1) ≤ 256 * blocks then 65536 else 256 * blocks - 65536 * j) (memSlice v.2 (65536 * w) 65536)
    | none => m) m
  if h.dist = 1 then
    match old.find? fun v => (imageFind v (.record n key 0)).isSome with
    | some v => (part v 0 h.blocks [], 0, h.blocks)
    | none => ([], 0, 0)
  else
    (old.zipIdx.foldl (fun m p => let sh := h.share (p.2 + first) t; part p.1 sh.1 sh.2 m) [],
      (h.share first t).1, match old.length with | 0 => (h.share first t).1 | k + 1 => let sh := h.share (first + k) t; sh.1 + sh.2)

/-- Re-lays the records that lie on the positions `old` (the first of them `of` of `ot`) over the tiles `new` (`nf` of `nt`): R262 step 3, R264. A record whose shares find too few FREE windows, or whose blocks lie on another wafer, loses its windows, and its generation advances (log 28). -/
def State.relay (s : State) (n : Nat) (old : List VatImage) (of ot : Nat) (new : List Nat) (nf nt : Nat) : State :=
  s.each (sortUp (old.flatMap fun v => v.1.filterMap fun x => x.2.recIn n)) fun s key =>
    let mine := fun (w : Window) => (w.recIn n) == some key
    let s := s.each new fun s a => s.modTile a fun t => t.freeWhere mine
    match s.keyHandle n key with
    | none => s
    | some h =>
      let m := imageStream n key h old of ot
      let fits := new.zipIdx.all fun p =>
        let sh := h.share (p.2 + nf) nt
        decide (h.windows (p.2 + nf) nt ≤ (s.tile p.1).freeList.length) && (sh.2 == 0 || (decide (m.2.1 ≤ sh.1) && decide (sh.1 + sh.2 ≤ m.2.2)))
      if !fits || new.isEmpty then s.when (key == recKey (key % 2 ^ 16) (s.trec n (key % 2 ^ 16)).gen) fun s => s.recGen n (key % 2 ^ 16)
      else s.each new.zipIdx fun s p =>
        let sh := h.share (p.2 + nf) nt
        s.each (upTo (h.windows (p.2 + nf) nt)) fun s j => s.modTile p.1 fun t =>
          let t := t.alloc (.record n key j) 0 (memSlice m.1 (256 * sh.1 + 65536 * j) (if 65536 * (j + 1) ≤ 256 * sh.2 then 65536 else 256 * sh.2 - 65536 * j))
          { t with windows := t.windows.map fun x => (x.1, if x.2.owner == .record n key j then { x.2 with state := .dry } else x.2) }

/-- Notes the layout over which the resident context's records lie. -/
def State.laid (s : State) (p : Nat) : State :=
  let l := s.spread p
  let tiles := s.tilesOf p
  s.modPart p fun x => { x with laidOut := tiles, laidFirst := spreadFirst l s.frm.waferId, laidTotal := spreadTotal l }

/-! ### RESTORE_COMPLETE (R281, R282) -/

/-- The vat that frame `k` of a park area, or, for the other side of a pair, the saved context itself, gives the windows of a saved tile (R277; log 29). -/
def State.savedVat (s : State) (base k : Nat) (sv : SavedTile) (keep : Bool) (wins : Tab Window) : Bytes :=
  let at_ := base + Config.framesAt + Config.frameBytes * k
  wins.foldl (fun m x => memPaste m (65536 * x.1) 65536 (if keep then memSlice sv.vat (65536 * x.1) 65536 else memSlice s.hbm (at_ + 0x43000 + 0x10000 * x.1) 65536)) []

/-- The DRY windows of a saved tile with their bytes. -/
def State.savedImage (s : State) (base k : Nat) (sv : SavedTile) (keep : Bool) : VatImage :=
  let wins := sv.windows.filter fun x => x.2.state == .dry
  (wins, s.savedVat base k sv keep wins)

/-- Loads one saved tile: its windows from the frame, its registers, and a resumed run (R276, R281). -/
def State.loadTile (s : State) (base k : Nat) (sv : SavedTile) (keep : Bool) : State :=
  let at_ := base + Config.framesAt + Config.frameBytes * k
  let now := s.cycle sv.tile
  let frame := s.hbm
  let fix := fun (r : TileRun) =>
    let r := { r with stopped := false, stepOne := false, nextCyc := now, startCyc := now, counted := now, stall := match r.stall with
      | some (.syn w acc _ _) => some (.syn w acc now s.now)
      | some (.barrier n _ _) => some (.barrier n now s.now)
      | x => x }
    if keep then r
    else { r with
      vreg := r.vreg.map fun x => (x.1, BitVec.ofNat 2048 (memVal frame (at_ + 0x1000 + 256 * x.1) 256))
      acc := r.acc.map fun x => (x.1, BitVec.ofNat 32 (memVal frame (at_ + 0x3000 + 4 * x.1) 4)) }
  let vat := s.savedVat base k sv keep sv.windows
  s.modTile sv.tile fun t => { t with windows := sv.windows, vat := vat, run := sv.run.map fix, queue := sv.queue }

/-- Loads the DRY windows of sequences of a saved tile that is still a position (R264). -/
def State.loadSeqs (s : State) (base k : Nat) (sv : SavedTile) (keep : Bool) : State :=
  let wins := sv.windows.filter fun x => (x.2.seqIn .dry).isSome
  let vat := s.savedVat base k sv keep wins
  s.modTile sv.tile fun t => { t with windows := wins, vat := vat }

/-- Sets the banks of a tile from the saved ones, read back from the park area (R281 step 2). -/
def State.loadBanks (s : State) (base : Nat) (pk : Parked) (a : Nat) : State :=
  let pal0 := memSlice s.hbm (base + 0x1000) 8192
  let pal1 := memSlice s.hbm (base + 0x3000) 8192
  let tbl0 := memSlice s.hbm (base + 0x5000) 16384
  let tbl1 := memSlice s.hbm (base + 0x9000) 16384
  s.modTile a fun t => { t with
    pal := if pk.complete then { pk.pal with bank0 := pal0, bank1 := pal1, swaps := t.pal.swaps } else { swaps := t.pal.swaps }
    tbl := if pk.complete then { pk.tbl with bank0 := tbl0, bank1 := tbl1, swaps := t.tbl.swaps } else { swaps := t.tbl.swaps } }

/-- DRY sequence windows of saved tiles that are no longer positions, with their bytes. -/
def State.goneSeqs (s : State) (base n : Nat) (pk : Parked) (tiles : List Nat) : List (Nat × Nat × Bytes) :=
  pk.tiles.zipIdx.flatMap fun x =>
    if tiles.contains x.1.tile then []
    else x.1.windows.filterMap fun w => match w.2.state, w.2.owner with
      | .dry, .seq c e k => if c = n then some (e, k, memSlice s.hbm (base + Config.framesAt + Config.frameBytes * x.2 + 0x43000 + 0x10000 * w.1) 65536) else none
      | _, _ => none

/-- Loads the tiles of a side as they were saved, or, after a changed layout, the DRY windows of sequences on positions that remain, and the records, re-laid (R264, R281, R282). -/
def State.loadSide (s : State) (n base : Nat) (pk : Parked) (tiles : List Nat) (keep same : Bool) : State :=
  let saved := if keep then pk.pairTiles else pk.tiles
  if same then s.each saved.zipIdx fun s x => s.loadTile base x.2 x.1 keep
  else
    let old := saved.zipIdx.map fun x => s.savedImage base x.2 x.1 keep
    let s := s.each (saved.zipIdx.filter fun x => tiles.contains x.1.tile) fun s x => s.loadSeqs base x.2 x.1 keep
    if keep then s.relay n old 0 old.length tiles 0 tiles.length
    else
      let l := s.spread (s.client n).bindPart
      s.relay n old pk.first pk.total tiles (spreadFirst l s.frm.waferId) (spreadTotal l)

/-- A FULL-saved unit resumes: one that reads operands whole reads them again (R273 step 6, R276). -/
def State.resumeUnit (s : State) (u : CUnit) : State :=
  if u.kind = kMOVE then (((s.discardOn u.id u.allTiles).modUnit u.id fun u => { u with image := [] }).beginUnit u.id).modUnit u.id fun x => { x with runNs := u.runNs }
  else s.modUnit u.id fun u => { u with
    phase := if !u.tiles.isEmpty && u.handoff.isNone && s.sideReady u.id u.tiles && (u.pairTiles.isEmpty || s.sideReady u.id u.pairTiles) then .ready else .running
    runStart := s.now, stopFull := none }

/-- The context of client `n` is loaded and resident; after a changed layout its FULL-saved units are killed as by a retirement (R281, R282). -/
def State.unpark (s : State) (n : Nat) : State :=
  let c := s.client n
  let pk := c.parked
  let base := c.areas.park
  let tiles := s.tilesOf c.bindPart
  let pair := if c.pairEn then s.tilesOf c.pairPart else []
  let l := s.spread c.bindPart
  let same := !pk.complete || (pk.layout == tiles && pk.pairTiles.map SavedTile.tile == pair && pk.first == spreadFirst l s.frm.waferId && pk.total == spreadTotal l)
  let s := s.each (tiles ++ pair) fun s a => (s.modTile a Tile.afterSave).loadBanks base pk a
  let gone := s.goneSeqs base n pk tiles
  let s := s.when pk.complete fun s => (s.loadSide n base pk tiles false same).loadSide n base pk pair true same
  let s := s.spillSeqs n gone
  let s := s.each ((s.ownUnits n).filter fun u => u.phase == .saved) fun s u => if same then s.resumeUnit u else s.killUnit u.id 3
  s.modClient n fun c => { c with resident := true, parked := {} }

/-- Effect of RESTORE_COMPLETE. -/
def restoreComplete (p : Nat) (s : State) : State :=
  match (s.part p).switch with
  | none => s
  | some w =>
    if w.phase != .restoring then s
    else match w.incoming with
      | none => s
      | some n =>
        let pk := (s.client n).parked
        let v := if pk.complete then s.hbmVal ((s.client n).areas.park + 24) 8 else 53248
        let since := greatest 0 ((s.seats n).map fun r => match (s.part r).switch with | some x => x.since | none => 0)
        if s.moving w != some n || !s.transferDone (s.client n).bindPart v since then s
        else
          let ns := s.now - since
          let s := (s.countParked n).unpark n
          let s := s.modAcct n fun a => { a with restoreNs := a.restoreNs + BitVec.ofNat 64 ns }
          let s := s.each (s.seats n) fun s r =>
            (s.modPart r fun x => { x.switchEnd with resident := some n, since := s.now, restoreNs := ns % 2 ^ 32 }).laid r
          s.trace1 { event := 6, client := n, part := p }

/-- RESTORE_COMPLETE (R281). -/
def execRestoreComplete (part : Nat) (s : State) : Host.Outcome State Fault Refusal := run (restoreComplete part) s

end Sys2Proof.Machine
end

