-- ==== Sys2Proof/Machine/Sched.lean ====
section
/-! DEFINITION. The scheduler, rebuilds, strips of partitions, and contexts (R225, R252 to R268, R403, R404). -/

namespace Sys2Proof.Machine

open Sys2Proof

/-! ### The demand deadline (R256) -/

/-- Deadline of an accepted descriptor (R186). -/
def Queue.deadlineOf (x : Queue) (d : ADesc) : Nat := if dDeadline d.desc = 0 then d.accepted + x.qdeadline else dDeadline d.desc

/-- Deadlines of a queue's descriptors that could start were their context resident; one killed by a pre-emption that waits to rerun counts as unstarted (R256, R274). -/
def State.demand (s : State) (n q : Nat) : List Nat :=
  let x := s.queue n q
  (x.accepted.filter fun d => needsResident (dKind d.desc) && dKind d.desc != kLOT && !d.chainOpen && d.fault == 0 && (match d.state with
    | .waiting => s.orderMet n q d && [0, 1, 2].all fun k => s.depState n q d.desc k == .met
    | .started id => (s.unit? id).any fun u => u.phase == .killed && u.preempted
    | _ => false)).map x.deadlineOf

/-- ERD of a context; none: infinite (R256). -/
def State.erdOf (s : State) (n : Nat) : Option Nat :=
  least ((s.candidates n).map (fun x => x.2.deadline) ++ s.demand n 0 ++ s.demand n 1)

/-- Whether a resident context is idle (R256). -/
def State.isIdle (s : State) (n : Nat) : Bool :=
  (s.erdOf n).isNone && (s.unitsOf n).all fun u => u.phase == .placed || u.home.isSome

/-! ### The decision rule (R257 to R260) -/

/-- Whether a client is bound to a partition (R253, R260). -/
def State.boundTo (s : State) (n p : Nat) : Bool :=
  let c := s.client n
  c.en && (c.bindPart == p || (c.pairEn && c.pairPart == p))

/-- Clients with a context bound to a partition, rising. -/
def State.bound (s : State) (p : Nat) : List Nat := (upTo Config.clients).filter fun n => s.boundTo n p

/-- W_p: for a partition to which a paired context is bound, the larger of its two (R260). -/
def State.switchEstOf (s : State) (p : Nat) : Nat :=
  greatest 0 (((s.bound p).flatMap fun n => (s.seats n).map fun r => (s.part r).switchEst) ++ [(s.part p).switchEst])

/-- D of a context. -/
def State.dOf (s : State) (n : Nat) : Nat := 20000 + (s.client n).stepEst

/-- Parked contexts of a partition with finite ERD, in order of (ERD, client number); a halted one is not switched in (R257, R468). -/
def State.contenders (s : State) (p : Nat) : List (Nat × Nat) :=
  sortBy (fun (a b : Nat × Nat) => decide (a.1 < b.1) || (a.1 == b.1 && decide (a.2 ≤ b.2)))
    ((s.bound p).filterMap fun n =>
      if (s.client n).resident || (s.client n).dbg.halted || (s.seats n).any (fun r => match (s.part r).switch with | some w => w.incoming == some n || w.out == some n | none => false)
      then none else (s.erdOf n).map fun d => (d, n))

/-- What an evaluation answers. -/
inductive Verdict where
  | nothing
  | deny
  | choose (out : Option Nat) (incoming : Nat) (idle : Bool)
  deriving DecidableEq, Repr

/-- The evaluation of a partition (R257). A partition whose resident context is halted counts as switching (R468), none takes a context before its BIST-lite has ended (R306), and strips lent to another wafer take none of their own (R448). -/
def State.evaluate (s : State) (p : Nat) : Verdict :=
  let x := s.part p
  let halted := match x.resident with | some n => (s.client n).dbg.halted | none => false
  if x.homeEn || x.switch.isSome || x.rebuilding || x.bist || halted || (s.tilesOf p).isEmpty then .nothing
  else match s.contenders p with
    | [] => .nothing
    | (e, c) :: _ =>
      match x.resident with
      | none => .choose none c true
      | some r =>
        if s.isIdle r then .choose (some r) c true
        else
          let w := s.switchEstOf p
          if w + s.dOf c + x.horizon + s.now < e then .nothing
          else
            let er := s.erdOf r
            let before := match er with | some d => decide (e < d) | none => true
            let slack := match er with | some d => decide (s.now + 2 * w + s.dOf c + s.dOf r ≤ d) | none => true
            if decide (x.since + 1000 * x.minQuantum ≤ s.now) && before && slack then .choose (some r) c false
            else .deny

/-- Begins the switch that brings context `c` in on the partitions that chose it, each with whether it counts as idle: every context resident there is stopped and parked from all its seats; a partition without one restores at once (R258, R260). -/
def State.beginSwitch (s : State) (c : Nat) (l : List (Nat × Bool)) : State :=
  let outs := sortUp (l.filterMap fun x => (s.part x.1).resident)
  let idle := fun n => l.all fun x => (s.part x.1).resident != some n || x.2
  let s := s.each l fun s x => s.modPart x.1 fun p => {
    (if x.2 then { p with idleSwitches := satTo 0xFFFF (p.idleSwitches + 1) } else { p with preempts := satTo 0xFFFF (p.preempts + 1) }) with
    pairChoice := none
    switch := some { out := p.resident, incoming := some c, phase := if p.resident.isNone then .restoring else .stopping, since := s.now, idle := x.2 } }
  s.each outs fun s n =>
    let s := s.when (!idle n) fun s => s.modAcct n fun a => { a with preempts := a.preempts + 1 }
    let s := s.each ((s.seats n).filter fun r => (s.part r).switch.isNone) fun s r =>
      s.modPart r fun x => { x with switch := some { out := some n, incoming := none, phase := .stopping, since := s.now, idle := idle n } }
    s.decideStop n

/-- Carries out an evaluation's verdict: a switch that brings a pair in waits until both its partitions have chosen it at the same instant (R260). -/
def State.carryOut (s : State) (p : Nat) (v : Verdict) : State :=
  match v with
  | .nothing => s
  | .deny => s.modPart p fun x => { x with denied := satTo 0xFFFF (x.denied + 1) }
  | .choose _ c idle =>
    if !(s.client c).pairEn then s.beginSwitch c [(p, idle)]
    else
      let s := s.modPart p fun x => { x with pairChoice := some (s.now, c, idle) }
      let l := (s.seats c).filterMap fun r => match (s.part r).pairChoice with
        | some (t, d, i) => if t = s.now ∧ d = c ∧ (s.part r).switch.isNone then some (r, i) else none
        | none => none
      if l.length = (s.seats c).length then s.beginSwitch c l else s

/-- Effect of SCHED_EVALUATE: at a multiple of 10,000 ns, once for each partition. CLI_ERD takes the ERD of every context bound to it. -/
def schedEvaluate (p : Nat) (s : State) : State :=
  if s.frm.state != .ready || s.now % 10000 != 0 || (s.part p).lastEval == some s.now || decide (Config.partitions ≤ p) then s
  else
    let s := s.modPart p fun x => { x with lastEval := some s.now }
    let s := s.each (s.bound p) fun s n => let d := s.erdOf n; s.modClient n fun c => { c with erd := d }
    s.carryOut p (s.evaluate p)

/-- SCHED_EVALUATE (R257). -/
def execSchedEvaluate (part : Nat) (s : State) : Host.Outcome State Fault Refusal := run (schedEvaluate part) s

/-! ### Lost windows (R263, R301) -/

/-- Finds, for a paired context, the DRY window of the same owner on the other side (R301). -/
def State.otherCopy (s : State) (n a : Nat) (o : Owner) : Option (Nat × Nat) :=
  let c := s.client n
  if !c.pairEn then none
  else s.dryOn ((s.tilesOf c.bindPart ++ s.tilesOf c.pairPart).filter fun b => s.partOfTile b != s.partOfTile a) o

/-- A DRY window cannot be read: the other side's copy takes its place, or it is a loss (R301). `bad`: windows that cannot be read now. -/
def State.dryLost (s : State) (a w : Nat) (bad : List (Nat × Nat)) : State :=
  let x := (s.tile a).win w
  if x.state != .dry then s
  else
    let go := fun (n : Nat) =>
      match (s.otherCopy n a x.owner).filter fun y => !bad.contains y with
      | some (b, v) => s.modTile a fun t => t.setWinData w ((s.tile b).winData v)
      | none => s.loss 0x02 0 (s.physTile a) (some n)
    match x.owner with
    | .seq n _ _ => go n
    | .record n _ _ => go n
    | _ => s

/-! ### Rebuilding (R261 to R264, R267) -/

/-- REBUILD (R261): a write of PRT_CTRL REBUILD. -/
def execRebuild (part : Nat) (s : State) : Host.Outcome State Fault Refusal := run (fun s => if s.frm.state == .ready && decide (part < Config.partitions) then s.wantRebuild part else s) s

/-- Whether a started unit of a partition remains (R261). -/
def State.unitsIn (s : State) (p : Nat) : Bool :=
  s.units.any fun u => (u.part == p || (u.home.isNone && (s.client u.client).pairEn && (s.client u.client).pairPart == p))
    && (match u.phase with | .running | .ready | .third | .committed => true | _ => false)

/-- DRY sequence windows of a client on a tile, with their bytes. -/
def State.drySeqs (s : State) (n a : Nat) : List (Nat × Nat × Bytes) :=
  (s.tile a).windows.filterMap fun w => match w.2.state, w.2.owner with
    | .dry, .seq c e k => if c = n then some (e, k, (s.tile a).winData w.1) else none
    | _, _ => none

/-- Effect of REBUILD_BEGIN: rows change, so that spares take their place with their active tile IDs' windows, and sequence windows of positions that leave service go to their spill areas (R262 steps 1 and 2). `lost`: DRY windows that cannot be read (R263). -/
def rebuildBegin (p : Nat) (lost : List (Nat × Nat)) (s : State) : State :=
  let x := s.part p
  if !x.rebuildPend || x.rebuilding || x.switch.isSome || s.unitsIn p then s
  else
    let old := s.tilesOf p
    let s := s.modPart p fun x => { x with rebuilding := true, rebuildPend := false, changePend := false, rebuildSince := s.now, laidOut := if x.resident.isSome then x.laidOut else old }
    let mine := fun (y : Bool × Nat) => x.strips.getLsbD (y.2 / 17)
    let rows := s.frm.rowChanges.filter mine
    let s := s.modFrm fun f => { f with rowChanges := f.rowChanges.filter fun y => !mine y }
    let s := s.each (lost.filter fun y => old.contains y.1) fun s y => s.dryLost y.1 y.2 lost
    let s := s.each rows State.rowApply
    match (s.part p).resident with
    | none => s
    | some n =>
      let gone := old.filter fun a => !s.working a
      let l := if p = (s.client n).bindPart then gone.flatMap (s.drySeqs n) else []
      let s := s.spillSeqs n l
      s.each gone fun s a => s.modTile a fun t => t.freeWhere fun w => match w.owner with | .seq _ _ _ => true | _ => false

/-- REBUILD_BEGIN (R262). -/
def execRebuildBegin (part : Nat) (lost : List (Nat × Nat)) (s : State) : Host.Outcome State Fault Refusal := run (rebuildBegin part lost) s

/-- Moves placed members off tiles that have left service (log 14); units are numbered in the order of their placement, which a tile's queue keeps (R245). -/
def State.replace (s : State) (n p : Nat) : State :=
  s.each ((s.unitsOf n).filter fun u => u.phase == .placed && u.home.isNone) fun s u =>
    s.each u.allTiles fun s a =>
      if s.partOfTile a != some p || s.working a then s
      else match minBy (fun b => (s.tile b).queue.length) (s.tilesOf p) with
        | none => s
        | some b =>
          let s := s.modTile a fun t => { t with queue := t.queue.filter (· != u.id), trapFor := none }
          let swap := fun (l : List Nat) => l.map fun c => if c = a then b else c
          let s := s.modUnit u.id fun u => { u with tiles := swap u.tiles, pairTiles := swap u.pairTiles }
          s.modTile b fun t => { t with queue := sortUp (t.queue ++ [u.id]) }

/-- Parks the resident context of a partition that a rebuild has left with no working tile: what its records hold on the positions that have gone is saved, to be laid out at its next restore (R264). -/
def State.parkEmpty (s : State) (n p : Nat) (old : List Nat) : State :=
  let c := s.client n
  let x := s.part c.bindPart
  let s := s.each ((s.ownUnits n).filter fun u => u.phase == .placed) fun s u => s.memberKill u 0
  let tiles := if p = c.bindPart then old else s.tilesOf c.bindPart
  let pair := if !c.pairEn then [] else if p = c.pairPart then old else s.tilesOf c.pairPart
  let s := s.parkOn n tiles pair x.laidFirst x.laidTotal s.now 53248
  let s := s.modClient n fun c => { c with resident := false, parkedSince := s.now, lots := c.lots.map fun l => { l with awaitSave := false } }
  let s := s.each (s.client n).lots fun s l => s.lotCheck n l.q l.ordinal
  s.each (s.seats n) fun s r => s.modPart r fun x => { x with resident := none }

/-- Effect of REBUILD_END: strips, shares and banks take their new layout (R262 steps 3 and 4); a partition left with no working tile parks its resident context (R264). -/
def rebuildEnd (p : Nat) (s : State) : State :=
  let x := s.part p
  if !x.rebuilding then s
  else
    let dead := (upTo Config.strips).foldl (fun (m : BitVec 512) i => if (s.colmap i).retired then m ||| BitVec.twoPow 512 i else m) 0
    let held := s.tilesOf p
    let s := s.modPart p fun x => { x with
      strips := (x.strips ||| x.adding) &&& ~~~dead, adding := 0, rebuilding := false
      rebuilds := satTo 0xFFFF (x.rebuilds + 1), rebuildNs := (s.now - x.rebuildSince) % 2 ^ 32 }
    let new := s.tilesOf p
    match x.resident with
    | none => s.laid p
    | some n =>
      let old := x.laidOut
      let src := s.tile ((held ++ old).headD 0)
      if new.isEmpty then s.parkEmpty n p old
      else
        let s := s.each (new.filter fun a => !held.contains a) fun s a => s.modTile a fun t => { t with
          pal := { src.pal with swaps := t.pal.swaps }, tbl := { src.tbl with swaps := t.tbl.swaps } }
        let l := s.spread p
        let first := spreadFirst l s.frm.waferId
        let same := old == new && x.laidFirst == first && x.laidTotal == spreadTotal l
        let s := if same then s else s.relay n (old.map fun a => (s.tile a).image) x.laidFirst x.laidTotal new first (spreadTotal l)
        let s := s.each (old.filter fun a => !new.contains a) fun s a => s.modTile a Tile.cleared
        (s.replace n p).laid p

/-- REBUILD_END (R262). -/
def execRebuildEnd (part : Nat) (s : State) : Host.Outcome State Fault Refusal := run (rebuildEnd part) s

/-! ### Strips (R252, R404) -/

/-- Strips of a partition, by number. -/
def stripCount (m : BitVec 512) : Nat := ((upTo Config.strips).filter fun i => m.getLsbD i).length

/-- Bytes that a park area must have for `k` strips (R403). -/
def parkNeed (k : Nat) : Nat := 0xD000 + 0x333000 * 16 * k

/-- Strips in PRT_STRIPS after a write of one of its words. -/
def stripsWrite (m : BitVec 512) (word : Nat) (v : W32) : BitVec 512 :=
  BitVec.ofNat 512 (setBits m.toNat (32 * word + 31) (32 * word) v.toNat)

/-- Row changes of strips that leave every partition act at once (R321). -/
def State.rowsFree (s : State) (gone : BitVec 512) : State :=
  let mine := fun (y : Bool × Nat) => gone.getLsbD (y.2 / 17)
  let rows := s.frm.rowChanges.filter mine
  (s.modFrm fun f => { f with rowChanges := f.rowChanges.filter fun y => !mine y }).each rows State.rowApply

/-- Effect of PRT_STRIPS_WRITE: strips that it only adds wait for the next rebuild; any other change acts at once while no client is bound. A strip of a domain that is OFF, or whose TARGET is OFF, is not added (R344). -/
def prtStripsWrite (p word : Nat) (v : W32) (s : State) : State :=
  let x := s.part p
  let new := stripsWrite x.strips word v
  let others := (upTo Config.partitions).any fun r => r != p && (((s.part r).strips ||| (s.part r).adding) &&& new) != 0
  let dead := (upTo 32).any fun i => new.getLsbD (32 * word + i) && (s.colmap (32 * word + i)).retired
  let off := (upTo 32).any fun i => let d := s.dom (domOfStrip (32 * word + i))
    new.getLsbD (32 * word + i) && !x.strips.getLsbD (32 * word + i) && (d.state == .off || d.target == 0)
  let added := new &&& ~~~x.strips
  let gone := x.strips &&& ~~~new
  let small := (s.bound p).any fun n => decide ((s.client n).areas.parkSize < parkNeed (stripCount (new ||| x.adding)))
  if s.frm.state != .ready || off || decide (Config.partitions ≤ p) || decide (16 ≤ word) || others || dead then s
  else if gone != 0 then (if (s.bound p).isEmpty then (s.modPart p fun x => { x with strips := new, adding := x.adding &&& ~~~new }).rowsFree gone else s)
  else if added == 0 || small then s
  else s.modPart p fun x => { x with adding := x.adding ||| added, changePend := true }

/-- PRT_STRIPS_WRITE (R252). -/
def execPrtStripsWrite (part word : Nat) (value : W32) (s : State) : Host.Outcome State Fault Refusal := run (prtStripsWrite part word value) s

/-! ### Contexts (R253, R389, R403) -/

/-- The four areas of a client: base and size (R403). -/
def Areas.list (a : Areas) : List (Nat × Nat) := [(a.lo, a.hi - a.lo), (a.recs, 0x400000), (a.park, a.parkSize), (a.spill, a.spillSize)]

/-- Whether two areas share a byte. -/
def areaHit (x y : Nat × Nat) : Bool := decide (x.1 < y.1 + y.2) && decide (y.1 < x.1 + x.2)

/-- Whether two of a list of areas share a byte. -/
def areasHit : List (Nat × Nat) → Bool
  | [] => false
  | x :: r => r.any (areaHit x) || areasHit r

/-- The trace buffer while tracing is enabled. -/
def State.traceArea (s : State) : List (Nat × Nat) := if s.trace.en then [(s.trace.base, s.trace.size)] else []

/-- CLI_HBM_STATUS ERR: the first check of R403 that fails, 0 where all pass. -/
def State.hbmCheck (s : State) (n : Nat) : Nat :=
  let c := s.client n
  let a := c.areas
  let l := a.list
  let others := (upTo Config.clients).flatMap fun m => if m = n ∨ !(s.client m).en then [] else (s.client m).areas.list
  let strips := greatest 0 ((s.seats n).map fun p => stripCount (s.part p).strips)
  if [a.lo, a.hi, a.recs, a.park, a.parkSize, a.spill, a.spillSize].any (fun v => v % 0x10000 != 0) || a.recs % 0x400000 != 0 then 1
  else if a.hi ≤ a.lo ∨ a.parkSize = 0 ∨ a.spillSize = 0 then 2
  else if l.any fun x => decide (s.frm.hbmLimit < x.1 + x.2) then 3
  else if areasHit l || l.any (fun x => (others ++ s.traceArea).any (areaHit x)) then 4
  else if a.parkSize < parkNeed strips then 5
  else 0

/-- The context of a client is created: parked, with empty saved state and every record zero (R253, R403). What is left of a former context's drains ends first. -/
def State.createContext (s : State) (n : Nat) : State :=
  ((s.each (s.committedOf n) State.finishUnit).hbmClear (s.client n).areas.recs 0x400000).modClient n fun c => { c with
    en := true, resident := false, parked := {}, parkedSince := s.now, build := none, lastBuild := none, lots := [], admits := [], erd := none }

/-- Fields of SCH_BIND as a write leaves them while EN is 0; a reserved encoding leaves its field (R6, R253, FLT_ARB), and where PART and PAIR_PART would then be one partition, all three stay (DESIGN CHOICE, log 118). -/
def State.bindFields (s : State) (n : Nat) (v : Nat) : State :=
  let part := bits v 5 0
  let pair := bits v 13 8
  let pen := bit v 14
  let arb := fun p : Nat => s.flt.arbEn && p == s.flt.arbPart
  s.modClient n fun c =>
    let part := if arb part then c.bindPart else part
    let pair := if pen && (pair == part || arb pair) then c.pairPart else pair
    if pen && (pair == part || arb pair) then c else { c with bindPart := part, pairPart := pair, pairEn := pen }

/-- Whether the function of a client exists (R389). -/
def State.functionExists (s : State) (n : Nat) : Bool := funOf n == 0 || decide (funOf n ≤ tabGet 0 s.numVfs (portOf n))

/-- Effect of CONTEXT_CREATE: a write of SCH_BIND with EN = 1 while EN is 0. -/
def contextCreate (n : Nat) (bind : W32) (s : State) : State :=
  if s.frm.state != .ready || (s.client n).en || !bit bind.toNat 31 || decide (Config.clients ≤ n) then s
  else
    let s := s.bindFields n bind.toNat
    if !s.functionExists n then s
    else
      let e := s.hbmCheck n
      let s := s.modClient n fun c => { c with hbmStatus := e }
      if e ≠ 0 then s else s.createContext n

/-- CONTEXT_CREATE (R253). -/
def execContextCreate (client : Nat) (bind : W32) (s : State) : Host.Outcome State Fault Refusal := run (contextCreate client bind) s

/-- Ends a halt or break of a client (R468, R469). -/
def State.endHalt (s : State) (n : Nat) : State :=
  s.modClient n fun c => { c with dbg := { c.dbg with halted := false, stepping := false, breaking := false, hostReq := false, held := none, pass := none, stepDesc := none } }

/-- Effect of CONTEXT_TEARDOWN: a write of SCH_BIND with EN = 0 while EN is 1. -/
def contextTeardown (n : Nat) (bind : W32) (s : State) : State :=
  if s.frm.state != .ready || !(s.client n).en || bit bind.toNat 31 then s
  else (s.endHalt n).teardown n false

/-- CONTEXT_TEARDOWN (R225). -/
def execContextTeardown (client : Nat) (bind : W32) (s : State) : Host.Outcome State Fault Refusal := run (contextTeardown client bind) s

end Sys2Proof.Machine
end

