-- ==== Sys2Proof/Machine/Acct.lean ====
section
/-! DEFINITION. Accounting clears, slowdown windows and range-slot clears (15_accounting_and_interference.md, R92). -/

namespace Sys2Proof.Machine

open Sys2Proof

/-- Whether an access comes through PF BAR0 of a host port (R291, R327, R350). -/
def Via.isPf : Via → Bool
  | .pf _ => true
  | _ => false

/-- Effect of ACC_CLR: a write of CLI_ACC_CTRL. CLR acts only through PF BAR0 (R291); a context parked now counts from now. -/
def accClr (via : Via) (n : Nat) (v : W32) (s : State) : State :=
  if s.frm.state != .ready || !Via.isPf via || !bit v.toNat 0 || decide (Config.clients ≤ n) then s
  else s.modClient n fun c => { c with
    acct := { cleared := BitVec.ofNat 64 s.now }, parkedSince := if c.en && !c.resident then s.now else c.parkedSince }

/-- ACC_CLR (R291). -/
def execAccClr (via : Via) (client : Nat) (value : W32) (s : State) : Host.Outcome State Fault Refusal := run (accClr via client value) s

/-- CLI_ACC_PARKED_NS as a read gives it: it also holds the time that the context has been parked until now (R286, R289). -/
def State.parkedNs (s : State) (n : Nat) : W64 :=
  let c := s.client n
  if c.en && !c.resident then c.acct.parkedNs + BitVec.ofNat 64 (s.now - c.parkedSince) else c.acct.parkedNs

/-! ### The slowdown index (R294 to R296) -/

/-- Effect of SD_WINDOW_END: at a multiple of 10,000,000 ns the sums of the window close. `ltWaitPs` is LTWAIT, which the rims measure. -/
def sdWindowEnd (p ltWaitPs : Nat) (s : State) : State :=
  let x := s.part p
  if s.frm.state != .ready || s.now % 10000000 != 0 || x.sdEnd == s.now || decide (Config.partitions ≤ p) then s
  else
    let s := s.settleAll
    let lt := (s.tilesOf p).length * ltWaitPs
    s.modPart p fun x => { x with
      sdEnd := s.now, wBusy := 0, wHbm := 0, wTx := 0, wFab := 0
      sdClosed := some (x.wBusy + lt, x.wHbm + x.wTx + x.wFab + lt, x.wHbm, x.wTx, x.wFab, lt) }

/-- SD_WINDOW_END (R294). -/
def execSdWindowEnd (part : Nat) (ltWaitPs : Nat) (s : State) : Host.Outcome State Fault Refusal := run (sdWindowEnd part ltWaitPs) s

/-- The slowdown index in unsigned 8.8 (R295). -/
def sdIndex (tot foreign : Nat) : Nat :=
  if tot = 0 then 0x100
  else if tot ≤ foreign then 0xFFFF
  else satTo 0xFFFF (256 * tot / (tot - foreign))

/-- Effect of SD_PUBLISH: the closed window's figures are published together, and the watermark is updated (R295, R296, R458). -/
def sdPublish (p : Nat) (s : State) : State :=
  match (s.part p).sdClosed with
  | none => s
  | some (tot, foreign, hbm, tx, fab, lt) =>
    let r := wmUpdate (s.part p).sd (sdIndex tot foreign)
    let s := s.modPart p fun x => { x with
      sdClosed := none, sdTotal := tot % 2 ^ 64, sdForeign := foreign % 2 ^ 64, sdHbm := hbm % 2 ^ 64, sdTx := tx % 2 ^ 64
      sdFab := fab % 2 ^ 64, sdLtWait := lt % 2 ^ 64, sd := r.1 }
    s.when r.2 fun s => s.notice 0x06 p r.1.level none

/-- SD_PUBLISH (R295). -/
def execSdPublish (part : Nat) (s : State) : Host.Outcome State Fault Refusal := run (sdPublish part) s

/-! ### Range slots (R92) -/

/-- A range slot after CLR: GEN, MARGIN and BIND stay. -/
def RSlot.clear (x : RSlot) : RSlot := { x with amax := 0, nan := 0, inf := 0, sat := 0, scale := 0x3F800000 }

/-- MARGIN and BIND of a CLI_RS_CFG write. -/
def RSlot.config (x : RSlot) (v : Nat) : RSlot := { x with margin := bits v 2 0, bind := bit v 3 }

/-- Changes a range slot of a client. -/
def State.modSlot (s : State) (n i : Nat) (f : RSlot → RSlot) : State :=
  s.modClient n fun c => { c with rslots := tabMod {} c.rslots i f }

/-- Effect of RS_CLR: a write of CLI_RS_CFG; MARGIN and BIND take their fields, and CLR clears the slot (R92). -/
def rsClr (n i : Nat) (v : W32) (s : State) : State :=
  if s.frm.state != .ready || decide (Config.clients ≤ n) || decide (1024 ≤ i) then s
  else s.modSlot n i fun x => let y := x.config v.toNat; if bit v.toNat 31 then y.clear else y

/-- RS_CLR (R92). -/
def execRsClr (client slot : Nat) (value : W32) (s : State) : Host.Outcome State Fault Refusal := run (rsClr client slot value) s

end Sys2Proof.Machine
end

