-- ==== Sys2Proof/Machine/Handoff.lean ====
section
/-! DEFINITION. HANDOFF: sending operands to a partner, its answers and time limits, routes that are missing, and the HANDOFFs that this wafer runs for others (R193, R440, R449 to R452). -/

namespace Sys2Proof.Machine

open Sys2Proof

/-- PARTNER reason codes (R451). -/
abbrev pTIMEOUT : Nat := 1
/-- BAD_POP (R451). -/
abbrev pBAD_POP : Nat := 2
/-- BAD_OPERAND (R451). -/
abbrev pBAD_OPERAND : Nat := 3
/-- SIZE (R451). -/
abbrev pSIZE : Nat := 4
/-- FAILED (R451). -/
abbrev pFAILED : Nat := 5
/-- UNREACHABLE (R451). -/
abbrev pUNREACHABLE : Nat := 6

/-- What is known of an endpoint (R441). -/
def State.peer? (s : State) (e : Nat) : Option Peer := if tabHas s.stk.peers e then some (tabGet {} s.stk.peers e) else none

/-- MAX_OUT of an endpoint; 1, the least that R450 allows, before it has identified itself (log 25). -/
def State.maxOut (s : State) (e : Nat) : Nat := match s.peer? e with | some p => p.maxOut | none => 1

/-- HANDOFFs outstanding to an endpoint (R451). -/
def State.handoffsTo (s : State) (e : Nat) : Nat :=
  (s.units.filter fun u => match u.handoff with | some h => h.partner == e && h.outstanding && !h.answered | none => false).length

/-- Stage of a unit that is its HANDOFF: the descriptor itself, or the stage that its tiles have reached. -/
def State.handoffStage (s : State) (u : CUnit) : Nat :=
  if u.kind = kHANDOFF then 0
  else match (s.tile (u.tiles.headD 0)).run with | some r => r.stage | none => 0

/-- Whether every run of a unit has reached stage `k`. -/
def State.atStage (s : State) (u : CUnit) (k : Nat) : Bool :=
  (u.tiles ++ u.pairTiles).all fun a => match (s.tile a).run with
    | some r => r.unit == u.id && r.stage == k && r.inflight.isEmpty && r.stall.isNone
    | none => false

/-- The packed stream of a handle as a member's tile reads it: its own WET windows, or the DRY windows of the tile (R53, R193). -/
def State.memberStream (s : State) (u : CUnit) (a : Nat) (h : Handle) : Bytes :=
  let t := s.tile a
  if h.cls = 4 then
    memSlice ((upTo (s.client u.client).winSeq).foldl (fun m i =>
      match t.findWet u.id (.seq u.client u.entry i) with
      | some w => memPaste m (65536 * i) 65536 (t.winData w)
      | none => m) []) h.base h.bytes
  else memSlice ((upTo ((h.blocks + 255) / 256)).foldl (fun m j =>
      match t.find .dry (.record u.client h.index j) with
      | some w => memPaste m (65536 * j) 65536 (t.winData w)
      | none => m) []) 0 h.bytes

/-- Reads operand `i` of a HANDOFF stage of a chain. -/
def State.readStage (s : State) (u : CUnit) (k i : Nat) : State :=
  match (u.stageAt k).handles.getD i none with
  | none => s
  | some h =>
    if h.cls = 4 ∨ h.cls = 0 then
      s.modUnit u.id fun v => { v with image := memPutAll v.image ((s.memberStream u (u.tiles.headD 0) h).map fun x => (2 ^ 48 * i + x.1, x.2)) }
    else s.readSource u.id u.client i h 0

/-- A record image as a HANDOFF carries it: the record's 64 bytes with GEN and BASE 0 (R449); zeros for an absent handle. -/
def State.recordImage (s : State) (n : Nat) (h : Option Handle) : List Byte :=
  match h with
  | none => List.replicate 64 0
  | some h =>
    let b := s.hbmRead ((s.client n).areas.recs + 64 * h.index) 64
    b.take 2 ++ [0] ++ (b.drop 3).take 5 ++ List.replicate 8 0 ++ b.drop 16

/-- The HANDOFF transaction of a unit's stage (R435, R449). -/
def State.handoffTrans (s : State) (u : CUnit) (k : Nat) : Trans :=
  let st := u.stageAt k
  let d := st.desc
  let h := fun i => st.handles.getD i none
  let data := fun i => match h i with | some x => memRead (s.operand u i x) 0 x.bytes | none => []
  let bs := s.recordImage u.client (h 0) ++ s.recordImage u.client (h 1) ++ s.recordImage u.client (h 3) ++ data 0 ++ data 1
  let dl := match u.member with
    | some m => m.deadline
    | none => if dDeadline d ≠ 0 then dDeadline d
        else match (s.queue u.client u.q).accepted.find? fun a => a.ordinal == u.ordinal with
          | some a => a.accepted + (s.queue u.client u.q).qdeadline
          | none => 0
  { typ := tHANDOFF, dst := handoffPartner d, addr := BitVec.ofNat 64 (handoffPop d + handoffParg d * 2 ^ 32), len := bs.length
    client := u.client, arg := BitVec.ofNat 64 dl, data := bs }

/-- Whether a partner supports every format that a stage sends or takes back (R441, R451). -/
def State.fmtsOk (s : State) (u : CUnit) (k : Nat) : Bool :=
  match s.peer? (handoffPartner (u.stageAt k).desc) with
  | none => true
  | some p => (u.stageAt k).handles.all fun o => match o with | some h => p.fmts.getLsbD h.fmt | none => true

/-- Whether a switch has stopped a unit's tiles (R273 step 3). -/
def State.halting (s : State) (u : CUnit) : Bool :=
  match (s.part (s.client u.client).bindPart).switch with
  | some w => w.out == some u.client && w.stopAt.isSome && u.home.isNone
  | none => false

/-- Sends a unit's HANDOFF once its operands are read and the partner has room, unless a switch has stopped the unit (R271); a format that the partner lacks ends the unit (R451). -/
def State.handoffSend (s : State) (uid : Nat) : State :=
  match s.unit? uid with
  | none => s
  | some u =>
    match u.handoff with
    | none => s
    | some h =>
      let d := (s.client u.client).dbg
      if h.outstanding || h.answered || h.busyAt.isSome || !u.waitRd.isEmpty || u.phase != .running || s.halting u || (d.halted && !d.stepping) then s
      else if !s.fmtsOk u h.stage then s.endUnit u 7 pBAD_OPERAND
      else if s.maxOut h.partner ≤ s.handoffsTo h.partner then s
      else
        let r := s.request uid (s.handoffTrans u h.stage)
        r.2.modUnit uid fun u => { u with handoff := some { h with
          tid := r.1, outstanding := true, firstSend := if h.firstSend = 0 && (s.route h.partner).isSome then s.now else h.firstSend } }

/-- Effect of HANDOFF: the descriptor starts and sends, or the HANDOFF stage that a chain member has reached reads its operands and sends. -/
def handoff (sel : HandoffSel) (s : State) : State :=
  match sel with
  | .descriptor n q tag =>
    s.startWith n q tag kHANDOFF (fun _ => s.roomForUnit n) fun s d st =>
      let id := s.nextUnit
      (s.unitGo n q d st).handoffSend id
  | .stage uid =>
    match s.unit? uid with
    | none => s
    | some u =>
      let k := s.handoffStage u
      if u.kind != kLOT || dKind (u.stageAt k).desc != kHANDOFF || u.phase != .running || !s.atStage u k || u.handoff.any (fun h => h.stage == k)
          || (s.sideRuns u .main).any (fun x => x.2.stopped) then s
      else
        let s := s.modUnit uid fun u => { u with image := [], waitRd := [], handoff := some {
          partner := handoffPartner (u.stageAt k).desc, tid := 0, firstSend := 0, outstanding := false, stage := k } }
        ((s.readStage u k 0).readStage u k 1).handoffSend uid

/-- HANDOFF (R193). -/
def execHandoff (sel : HandoffSel) (s : State) : Host.Outcome State Fault Refusal := run (handoff sel) s

/-- HANDOFF_QUEUED_SEND (R451): a HANDOFF that waited is sent. -/
def execHandoffQueuedSend (unit : Nat) (s : State) : Host.Outcome State Fault Refusal := run (fun s => s.handoffSend unit) s

/-- Effect of BUSY_RESEND: 10 µs after a BUSY reply the HANDOFF may be sent again, under a new TID. -/
def busyResend (uid : Nat) (s : State) : State :=
  match s.unit? uid with
  | none => s
  | some u => match u.handoff with
    | none => s
    | some h => match h.busyAt with
      | none => s
      | some t =>
        if s.now < t + 10000 then s
        else (s.modUnit uid fun u => { u with handoff := some { h with busyAt := none } }).handoffSend uid

/-- BUSY_RESEND (R451). -/
def execBusyResend (unit : Nat) (s : State) : Host.Outcome State Fault Refusal := run (busyResend unit) s

/-- HANDOFF_TIMEOUT of an endpoint in ns; a wafer endpoint, for which the spec gives no register, has the reset value (log 25). -/
def State.handoffLimit (s : State) (e : Nat) : Nat := 1000 * (if e < 16 then 10000 else tabGet 10000 s.frm.partnerTo (e - 16))

/-- Effect of HANDOFF_TIMEOUT: no answer other than BUSY within the partner's limit of the first send; the timer pauses while the client is halted (R468). -/
def handoffTimeout (uid : Nat) (s : State) : State :=
  match s.unit? uid with
  | none => s
  | some u => match u.handoff with
    | none => s
    | some h =>
      if h.answered || h.firstSend == 0 || h.held.isSome || (s.client u.client).dbg.halted || decide (s.now < h.firstSend + s.handoffLimit h.partner) then s
      else s.endUnit u 7 pTIMEOUT

/-- HANDOFF_TIMEOUT (R451). -/
def execHandoffTimeout (unit : Nat) (s : State) : Host.Outcome State Fault Refusal := run (handoffTimeout unit) s

/-- Effect of ROUTE_TIMEOUT: a transaction of the unit has waited ROUTE_TIMEOUT for a route; a unit past its commit instant goes on waiting, since its drain always completes (R46; log 100). -/
def routeTimeout (uid : Nat) (s : State) : State :=
  match s.unit? uid with
  | none => s
  | some u =>
    let late := s.stk.unsent.any fun x => x.2.1 == uid && decide (x.1 + 1000000 * s.frm.routeTimeout ≤ s.now) && (s.route x.2.2.dst).isNone
    if !late || u.phase == .committed then s
    else (s.modStk fun k => { k with unsent := k.unsent.filter fun x => x.2.1 != uid }).endUnit u 7 pUNREACHABLE

/-- ROUTE_TIMEOUT (R440). -/
def execRouteTimeout (unit : Nat) (s : State) : Host.Outcome State Fault Refusal := run (routeTimeout unit) s

/-! ### Answers (R450 to R452) -/

/-- Writes a partner's answer wet into D of a stage of a chain, on every side (R193); the cycles of the wait are busy, and no stall (R33, R292). -/
def State.putAnswer (s : State) (u : CUnit) (k : Nat) (m : Bytes) : State :=
  match (u.stageAt k).handles.getD 3 none with
  | none => s
  | some h =>
    let w0 := h.base / 65536
    let w1 := (h.base + h.bytes + 65535) / 65536
    s.each (u.tiles ++ u.pairTiles) fun s a =>
      let s := s.each ((upTo w1).drop w0) fun s i =>
        match (s.tile a).findWet u.id (.seq u.client u.entry i) with
        | none => s
        | some w =>
          let old := (s.tile a).winData w
          let all := memSlice (memPaste (memPaste [] (65536 * i) 65536 old) h.base h.bytes m) (65536 * i) 65536
          let mine := (upTo 256).filter fun b => decide (h.base < 65536 * i + 256 * b + 256) && decide (65536 * i + 256 * b < h.base + h.bytes)
          s.modTile a fun t => mine.foldl (fun t b => t.wrote w b) (t.setWinData w all)
      let blocks := (upTo h.blocks).map fun b => (4 * k + 3, b)
      let n := s.cycle a
      (s.settle a).modRun a fun r => { r with written := r.written ++ blocks.filter fun b => !r.written.contains b, nextCyc := if r.nextCyc < n then n else r.nextCyc }

/-- An answer acts on the HANDOFF of a unit (R450, R451). -/
def State.answerTo (s : State) (u : CUnit) (h : HandoffRun) (t : Trans) : State :=
  let s := s.modUnit u.id fun u => { u with handoff := some { h with outstanding := false, held := none } }
  match t.status with
  | 0 =>
    let size := match (u.stageAt h.stage).handles.getD 3 none with | some d => d.bytes | none => 0
    if t.data.length ≠ size then s.endUnit u 7 pSIZE
    else
      let m := memWrite [] 0 t.data
      let s := s.modUnit u.id fun u => { u with handoff := some { h with outstanding := false, answered := true, held := none } }
      if u.kind = kHANDOFF then (s.putDest u 3 0 m).unitReady u.id
      else s.putAnswer u h.stage m
  | 2 => s.modUnit u.id fun u => { u with handoff := some { h with outstanding := false, busyAt := some s.now, held := none } }
  | 3 => s.endUnit u 7 pBAD_POP
  | 4 => s.endUnit u 7 pBAD_OPERAND
  | _ => s.endUnit u 7 pFAILED

/-- The unit whose outstanding HANDOFF an answer names. -/
def State.handedTo (s : State) (t : Trans) : Option (CUnit × HandoffRun) :=
  s.units.findSome? fun u => match u.handoff with
    | some h => if h.outstanding && !h.answered && h.held.isNone && h.tid == t.tid.toNat && h.partner == t.src then some (u, h) else none
    | none => none

/-- Delivers an answer: discarded where no outstanding HANDOFF has its TID (R452), held while the client is halted (R468). -/
def State.deliverAnswer (s : State) (t : Trans) : State :=
  let s := s.answered t
  match s.handedTo t with
  | none => s
  | some (u, h) =>
    let d := (s.client u.client).dbg
    if d.halted && !d.stepping then s.modUnit u.id fun u => { u with handoff := some { h with held := some t } }
    else s.answerTo u h t

/-! ### Arrived transactions (R435, R439) -/

/-- Whether a transaction has arrived and is the first of its source on its VC (R439). -/
def State.firstIn (s : State) (t : Trans) : Bool :=
  (s.inbox.find? fun x => x.src == t.src && transVc x == transVc t) == some t

/-- Takes the transaction out of the inbox. -/
def State.takeIn (s : State) (t : Trans) : State := { s with inbox := s.inbox.erase t }

/-- Runs the effect of an arrived transaction: forwarded where another endpoint is its destination (R439), else given to `f` once it is out of the inbox; nothing where it has not arrived. -/
def State.onTrans (s : State) (t : Trans) (ok : Bool) (f : State → State) : State :=
  if !ok || !s.firstIn t then s
  else if t.dst ≠ s.frm.waferId then
    match s.route t.dst with
    | some p => (s.takeIn t).sendOn p t
    | none => (s.takeIn t).modStk fun k => { k with unsent := k.unsent ++ [(s.now, 0, t)] }
  else f (s.takeIn t)

/-- HANDBACK (R452). -/
def execHandback (t : Trans) (s : State) : Host.Outcome State Fault Refusal :=
  run (fun s => s.onTrans t (t.typ == tHANDBACK) fun s => s.deliverAnswer t) s

/-! ### HANDOFFs run here (R449) -/

/-- The stage slot that POP names (R449). -/
def State.stageSlot (s : State) (i : Nat) : StageSlot := tabGet {} s.stageSlots i

/-- Whether a template's handle and a received record image agree: both absent, or a dense VAT record of the image's format and dimensions (R449). -/
def State.stageMatch (s : State) (n w : Nat) (img : List Byte) : Bool :=
  let r := parseRec (leVal img)
  if w = 0 then leVal img == 0
  else
    let x := s.trec n (bits w 15 0)
    bits w 15 0 != 0 && x.valid && x.dense && x.cls == 0 && x.fmt == r.fmt && x.rank == r.rank && x.dims == r.dims

/-- Codes of the checks at start of a stage template; A and B are written before they are read, so they need no windows. -/
def State.templateCodes (s : State) (n : Nat) (d : BitVec 512) : List Nat :=
  let written := [0, 1].any fun i => dHandle d i != 0
  (s.startCodes n [d]).filter fun c => !(written && c == cUNWRITTEN)

/-- Effect of HANDOFF_TRANSACTION: the stage slot's template becomes a unit of the slot's client that starts once its tiles are free, or the HANDOFF is answered with why not; one from a partner is refused (R450). -/
def handoffIn (t : Trans) (s : State) : State :=
  let slot := s.stageSlot (bits t.addr.toNat 5 0)
  let d := slot.template
  let n := slot.client
  let no := fun (k : Nat) => s.send { typ := tHANDBACK, dst := t.src, tid := t.tid, client := t.client, status := k }
  if 16 ≤ t.src then no 1
  else if !slot.en then no 3
  else
    let a := t.data.take 64
    let b := (t.data.drop 64).take 64
    let sizeOf := fun (i : Nat) (img : List Byte) => if dHandle d i = 0 then 0 else (parseRec (leVal img)).bytes
    let na := sizeOf 0 a
    let nb := sizeOf 1 b
    if dKind d ≠ kOP ∨ !s.stageMatch n (dHandle d 0) a ∨ !s.stageMatch n (dHandle d 1) b ∨ t.data.length ≠ 192 + na + nb then no 4
    else
      let st := s.resolve n [d]
      let u : CUnit := { s.newUnit n (slot.q % 2) { idx := 0, ordinal := 0, desc := d, accepted := s.now, timer := s.now, doorbell := s.now } st with
        phase := .killed, start := 0, answers := some (t.src, t.tid.toNat)
        image := memWrite (memWrite [] 0 ((t.data.drop 192).take na)) (2 ^ 48) (t.data.drop (192 + na)) }
      let s := { s with units := s.units ++ [u], nextUnit := s.nextUnit + 1 }
      match least (s.templateCodes n d) with
      | some code => s.endUnit u 3 code
      | none => s

/-- HANDOFF_TRANSACTION (R449). -/
def execHandoffTransaction (t : Trans) (s : State) : Host.Outcome State Fault Refusal :=
  run (fun s => s.onTrans t (t.typ == tHANDOFF) (handoffIn t)) s

end Sys2Proof.Machine
end

