-- ==== Sys2Proof/Machine/Faults.lean ====
section
/-! DEFINITION. Detected errors, timeouts, scrub and re-trim (R285, R299 to R304, R313 to R318). -/

namespace Sys2Proof.Machine

open Sys2Proof

/-! ### Corrected errors (R299) -/

/-- A corrected error of a stored word: counted, and its word awaits its read-back. `source` names the store (R300), `n` its unit. -/
def State.correctedWord (s : State) (source n : Nat) : State :=
  s.modFlt fun f => { f with corrected := f.corrected + 1, readbacks := f.readbacks ++ [(source, n)] }

/-- VAT_CORRECTED_ERROR (R299). -/
def execVatCorrectedError (ptile : Nat) (s : State) : Host.Outcome State Fault Refusal := run (fun s => s.correctedWord 0x01 ptile) s

/-- STORE_CORRECTED_ERROR (R299). -/
def execStoreCorrectedError (ptile : Nat) (s : State) : Host.Outcome State Fault Refusal := run (fun s => s.correctedWord 0x05 ptile) s

/-- Rim store bank of an entry in a copy (R304). -/
def rimBank (copy entry : Nat) : Nat := 16 * copy + ltBank entry

/-- RIM_STORE_CORRECTED_ERROR (R299). -/
def execRimStoreCorrectedError (copy entry : Nat) (s : State) : Host.Outcome State Fault Refusal := run (fun s => s.correctedWord 0x0C (rimBank copy entry)) s

/-- Class of the unit that holds a word of a source (R300). -/
def sourceClass (source : Nat) : Nat := if source = 0x0C then 3 else 0

/-- Client whose unit runs on a physical tile. -/
def State.clientAt (s : State) (pt : Nat) : Option Nat := (s.activeOf pt).bind s.clientOn

/-- Effect of CORRECTED_READBACK: the rewritten word is read back; a word that still needs correction is an upset of the unit that holds it. -/
def correctedReadback (cls n : Nat) (stillBad : Bool) (s : State) : State :=
  match s.flt.readbacks.find? fun x => sourceClass x.1 == cls && x.2 == n with
  | none => s
  | some x =>
    let s := s.modFlt fun f => { f with readbacks := f.readbacks.erase x }
    s.when stillBad fun s => s.upset x.1 cls n (if cls = 0 then s.clientAt n else none)

/-- CORRECTED_READBACK (R299). -/
def execCorrectedReadback (cls unit : Nat) (stillBad : Bool) (s : State) : Host.Outcome State Fault Refusal := run (correctedReadback cls unit stillBad) s

/-- HBM_CORRECTED_ERROR (R299, R401): counted by FLT and by the controller. -/
def execHbmCorrectedError (addr : Nat) (s : State) : Host.Outcome State Fault Refusal :=
  run (fun s => (s.modFlt fun f => { f with corrected := f.corrected + 1 }).modCtl (pcOf addr / 32) fun m => { m with corrected := m.corrected + 1 }) s

/-! ### Errors of a tile (R300, R318) -/

/-- An error of a physical tile that kills what runs on it. -/
def State.tileError (s : State) (source pt : Nat) (router : Bool) : State :=
  s.upsetTile source pt (s.activeOf pt).toList router (s.clientAt pt)

/-- LANE_PARITY_ERROR (R300). -/
def execLaneParityError (ptile : Nat) (s : State) : Host.Outcome State Fault Refusal := run (fun s => s.tileError 0x03 ptile false) s

/-- RESIDUE_ERROR (R300). -/
def execResidueError (ptile : Nat) (s : State) : Host.Outcome State Fault Refusal := run (fun s => s.tileError 0x04 ptile false) s

/-- Client that owns the data of a window. -/
def Window.client (x : Window) : Option Nat :=
  match x.owner with
  | .seq c _ _ => some c
  | .record c _ _ => some c
  | .staged c _ _ => some c
  | .nobody => none

/-- An uncorrectable word of a vat window (R300, R301): a FREE window is rewritten with zeros and what runs on the tile is killed; the unit of a WET window is killed; a DRY window is lost unless the other side of a pair can supply it; the spill window loses its sequence's data while it drains, and is copied again before that. -/
def State.vatBad (s : State) (pt w : Nat) : State :=
  match s.activeOf pt with
  | none => s.upset 0x02 0 pt none
  | some a =>
    let t := s.tile a
    if w = 47 then
      match t.spill with
      | .draining e _ _ => (s.upset 0x02 0 pt (some (s.entry e).client)).loss 0x02 0 pt (some (s.entry e).client)
      | .copying x e k _ => (s.upset 0x02 0 pt (some (s.entry e).client)).modTile a fun t => { t with spill := .copying x e k (s.cycle a) }
      | .idle => s.tileError 0x02 pt false
    else
      let x := t.win w
      match x.state with
      | .dry => (s.upset 0x02 0 pt x.client).dryLost a w []
      | .free => (s.modTile a fun t => { t with vat := memClear t.vat (65536 * w) 65536 }).tileError 0x02 pt false
      | .wet =>
        if (match t.run with | some r => r.unit == x.unit | none => false) then s.tileError 0x02 pt false
        else
          let s := s.upset 0x02 0 pt x.client
          match s.unit? x.unit with
          | some u => if u.phase == .saved then s.killStop u else s.killUnit x.unit 1
          | none => s

/-- Effect of VAT_UNCORRECTABLE: the second read has failed too. -/
def vatUncorrectable (pt w : Nat) (s : State) : State := if decide (48 ≤ w) || decide (Config.physTiles ≤ pt) then s else s.vatBad pt w

/-- VAT_UNCORRECTABLE (R300). -/
def execVatUncorrectable (ptile window : Nat) (s : State) : Host.Outcome State Fault Refusal := run (vatUncorrectable ptile window) s

/-- Effect of STORE_UNCORRECTABLE: the bad bytes come from the lowest working tile of the partition whose copy reads clean, or the bank is lost to the resident context. -/
def storeUncorrectable (a : Nat) (isPalette : Bool) (bank : Nat) (clean : Option Nat) (s : State) : State :=
  let pt := s.physTile a
  let p := s.partOfTile a
  match clean with
  | some b =>
    if !s.working a || !s.working b || s.partOfTile b != p then s
    else
      let src := s.tile b
      let take := fun (x y : BankStore) => if bank = 0 then { x with bank0 := y.bank0 } else { x with bank1 := y.bank1 }
      let s := s.modTile a fun t => if isPalette then { t with pal := take t.pal src.pal } else { t with tbl := take t.tbl src.tbl }
      s.tileError 0x06 pt false
  | none =>
    if !s.working a then s
    else
      let owner := p.bind fun p => (s.part p).resident
      (s.upset 0x06 0 pt owner).loss 0x06 0 pt owner

/-- STORE_UNCORRECTABLE (R300). -/
def execStoreUncorrectable (tile : Nat) (isPalette : Bool) (bank : Nat) (cleanCopy : Option Nat) (s : State) : Host.Outcome State Fault Refusal :=
  run (storeUncorrectable tile isPalette bank cleanCopy) s

/-! ### Timeouts (R302) -/

/-- Column of a physical tile in the mesh, 0 to 135, west to east (R172). -/
def meshX (pt : Nat) : Nat := 17 * (swatchOf (pt / 17) % 8) + pt % 17
/-- Row of a physical tile in the mesh, 0 to 63, north to south. -/
def meshY (pt : Nat) : Nat := 8 * (swatchOf (pt / 17) / 8) + pt / 17 % 8
/-- The physical tile at a column and a row of the mesh. -/
def meshAt (x y : Nat) : Nat := 17 * (8 * (8 * (y / 8) + x / 17) + y % 8) + x % 17
/-- Whether `x` lies between two coordinates. -/
def between (a b x : Nat) : Bool := (decide (a ≤ x) && decide (x ≤ b)) || (decide (b ≤ x) && decide (x ≤ a))

/-- Whether the route between two physical tiles meets the router of a third: east–west first, then north–south, turning one column further east where the router of the turn has failed (R173, R174). -/
def State.onRoute (s : State) (src dst pt : Nat) : Bool :=
  let failed := s.frm.badRouters.contains (meshAt (meshX dst) (meshY src)) && meshY src != meshY dst
  let turn := meshX dst + b2n failed
  (meshY pt == meshY src && between (meshX src) turn (meshX pt)) || (meshX pt == turn && between (meshY src) (meshY dst) (meshY pt))
    || (meshY pt == meshY dst && between turn (meshX dst) (meshX pt))

/-- Whether a message of the fabric may time out at a router: its route meets it, LINK_TIMEOUT has passed, and its sender's strip is not paused for re-trim (R302). -/
def State.linkMsg (s : State) (pt : Nat) (m : FabricMsg) : Bool :=
  s.onRoute (s.physTile m.src) (s.physTile m.dst) pt && decide (m.sent + 1000 * s.flt.linkTimeout ≤ s.now) && !tabHas s.flt.retrims (m.src / 16)

/-- Whether a tile's run waits for data that comes over the mesh from a rim: HBM, or another wafer (R178). -/
def State.rimRead (s : State) (uid a : Nat) : Bool :=
  match (s.tile a).run with
  | some r => r.unit == uid && !tabHas s.flt.retrims (a / 16) && (match r.stall with | some (.remote (.hbm _) _ _ _) => true | some (.remote (.wafer _) _ _ _) => true | _ => false)
  | none => false

/-- Sides of a unit that have a transfer on a link at a router (R302); a unit that runs no table moves all its operands over the mesh. -/
def State.linkSides (s : State) (u : CUnit) (pt : Nat) : List Side :=
  let waits := fun (a : Nat) => s.rimRead u.id a || s.fabric.any fun m => m.unit == u.id && (m.src == a || m.dst == a) && s.linkMsg pt m
  [Side.main, Side.pair, Side.third].filter fun d => (u.sideTiles d).any fun a => waits a || ((s.tile a).run.isNone && u.phase == .running)

/-- Kills a unit that had a message on a broken link; in a halted client the kill is held (R318). -/
def State.linkKill (s : State) (pt uid : Nat) : State :=
  match s.unit? uid with
  | none => s
  | some u =>
    let sides := s.linkSides u pt
    if sides.isEmpty then s
    else if (s.client u.client).dbg.halted then s.each u.allTiles fun s a => s.modTile a fun t => { t with heldUpset := true }
    else s.each sides fun s d => s.killSide uid d 1

/-- Effect of LINK_TIMEOUT: the tile whose router did not acknowledge is charged, and every unit with a message on the link is killed; `units` are those whose transfers were on the link when it timed out. -/
def linkTimeout (pt : Nat) (units : List Nat) (s : State) : State :=
  if Config.physTiles ≤ pt then s
  else
    let client := units.findSome? fun id => (s.unit? id).map CUnit.client
    (s.each units fun s id => s.linkKill pt id).upsetTile 0x07 pt [] true client

/-- LINK_TIMEOUT (R302). -/
def execLinkTimeout (ptile : Nat) (units : List Nat) (s : State) : Host.Outcome State Fault Refusal := run (linkTimeout ptile units) s

/-- Device time since which a tile waits at a barrier or on a stream result. -/
def TileRun.waitSince (r : TileRun) : Option Nat :=
  match r.stall with
  | some (.syn _ _ _ t) => some t
  | some (.barrier _ _ t) => some t
  | _ => none

/-- Effect of SYNC_TIMEOUT: a wait of SYNC_TIMEOUT ends the unit with the fault SYNC_TIMEOUT; the timer rests while the client is halted or the strip is paused for re-trim (R302, R468). -/
def syncTimeout (a : Nat) (s : State) : State :=
  match (s.tile a).run with
  | none => s
  | some r =>
    match r.waitSince, s.unit? r.unit with
    | some t, some u =>
      if (s.client u.client).dbg.halted || tabHas s.flt.retrims (a / 16) || decide (s.now < t + 1000 * s.flt.syncTimeout) then s
      else s.faultUnit u.id cSYNC_TIMEOUT
    | _, _ => s

/-- SYNC_TIMEOUT (R302). -/
def execSyncTimeout (tile : Nat) (s : State) : Host.Outcome State Fault Refusal := run (syncTimeout tile) s

/-- Moves the time since which a run waits at a barrier or on a stream (R302, R468). -/
def TileRun.shiftWait (r : TileRun) (dt : Nat) : TileRun :=
  { r with stall := match r.stall with
    | some (.syn w rho c t) => some (.syn w rho c (t + dt))
    | some (.barrier n c t) => some (.barrier n c (t + dt))
    | x => x }

/-! ### HBM (R300, R301, R398) -/

/-- An HBM location cannot be read: a loss of its owner, if it has one (R301, R402). -/
def State.hbmLost (s : State) (a : Nat) : State := s.loss 0x0B 2 (pcOf a) (s.ownerAt a)

/-- Effect of HBM_UNCORRECTABLE: charged to the pseudo-channel, and the read is re-issued once; where the pseudo-channel was retired without redirection the data is lost at once (R398). -/
def hbmUncorrectable (a : Nat) (s : State) : State :=
  if s.hbmTop ≤ a then s
  else
    let pc := pcOf a
    let s := s.modCtl (pc / 32) fun m => { m with uncorrected := m.uncorrected + 1 }
    if s.frm.unmapped.contains pc then s.hbmLost a
    else
      let s := s.upset 0x0B 2 pc (s.ownerAt a)
      s.modFlt fun f => { f with reissues := insertUp a f.reissues }

/-- HBM_UNCORRECTABLE (R300). -/
def execHbmUncorrectable (addr : Nat) (s : State) : Host.Outcome State Fault Refusal := run (hbmUncorrectable addr) s

/-- Effect of HBM_REISSUE_RESULT. -/
def hbmReissueResult (a : Nat) (clean : Bool) (s : State) : State :=
  if !s.flt.reissues.contains a then s
  else
    let s := s.modFlt fun f => { f with reissues := f.reissues.filter (· != a) }
    if clean then s else s.hbmLost a

/-- HBM_REISSUE_RESULT (R300). -/
def execHbmReissueResult (addr : Nat) (clean : Bool) (s : State) : Host.Outcome State Fault Refusal := run (hbmReissueResult addr clean) s

/-! ### Rim stores (R300, R304) -/

/-- Effect of RIM_STORE_UNCORRECTABLE: the entry is taken from the other copy into both, or is lost where that fails on a field in use or its bank is no longer used. A FREE entry has no field in use (R312). -/
def rimUncorrectable (copy i : Nat) (other : Ecc) (s : State) : State :=
  let bank := rimBank copy i
  let far := rimBank (1 - copy) i
  if s.flt.rimBad.contains bank || decide (2 ≤ copy) || decide (Config.lotEntries ≤ i) then s
  else
    let e : Entry := if copy = 0 then tabGet {} s.south i else tabGet {} s.north i
    let own := s.entry i
    let lost := other == .failUsed || s.flt.rimBad.contains far
    let s := s.upset 0x0D 3 bank none
    if lost && own.state != .free then
      let s := if other == .failUsed && !s.flt.rimBad.contains far then s.upset 0x0D 3 far none else s
      s.loss 0x0D 3 bank (some own.client)
    else
      let e := if lost then ({} : Entry) else if other = .clean then e else e.used (s.client e.client).winSeq
      { s with north := tabPut s.north i e, south := tabPut s.south i e }

/-- RIM_STORE_UNCORRECTABLE (R300). -/
def execRimStoreUncorrectable (copy entry : Nat) (other : Ecc) (s : State) : Host.Outcome State Fault Refusal := run (rimUncorrectable copy entry other) s

/-! ### Partition BIST (R306) -/

/-- Retires tiles that fail a BIST, at once and without a log entry: R300 gives BIST no source. Whether the fault lies in the router is a free value (R173; log 69). -/
def State.bistFail (s : State) (l : List Nat) : State :=
  s.each l fun s pt => let (v, s) := s.draw 203; s.retireUnit 0 pt (v.getLsbD 0)

/-- Effect of PARTITION_BIST_DONE: tiles of the partition that fail are retired, and it may take a context again. -/
def partitionBistDone (p : Nat) (failed : List Nat) (s : State) : State :=
  let x := s.part p
  if !x.bist then s
  else (s.modPart p fun x => { x with bist := false }).bistFail (failed.filter fun pt => x.strips.getLsbD (pt / 17))

/-- PARTITION_BIST_DONE (R306). -/
def execPartitionBistDone (part : Nat) (failed : List Nat) (s : State) : Host.Outcome State Fault Refusal := run (partitionBistDone part failed) s

/-! ### Vat scrub (R314, R315) -/

/-- The tile and the window that the engine of a swatch checks now: physical tile IDs in order, each vat from its first word to its last (R314). -/
def State.scrubbing (s : State) (swatch : Nat) : Nat × Nat := tabGet (136 * swatch, 0) s.flt.scrubAt swatch

/-- Where the engine goes on after a window's last word: the next window, after a vat the next tile, after the last tile the next pass. -/
def scrubNext (x : Nat × Nat) : Nat × Nat := if x.2 < 47 then (x.1, x.2 + 1) else (136 * (x.1 / 136) + (x.1 % 136 + 1) % 136, 0)

/-- Effect of VAT_SCRUB_CHECK: the engine of the tile's swatch checks a word of the window it is in, or goes on to the next; tiles of OFF domains are skipped, a whole swatch at a time. -/
def vatScrub (pt w : Nat) (f : Finding) (s : State) : State :=
  let at_ := s.scrubbing (pt / 136)
  if decide (48 ≤ w) || decide (Config.physTiles ≤ pt) || s.frm.state != .ready || (s.dom (domOfStrip (pt / 17))).state == .off
      || ((pt, w) != at_ && (pt, w) != scrubNext at_) then s
  else
    let s := s.modFlt fun x => { x with scrubAt := tabPut x.scrubAt (pt / 136) (pt, w) }
    match f with
    | .clean => s
    | .corrected => s.correctedWord 0x01 pt
    | .uncorrectable => s.vatBad pt w

/-- VAT_SCRUB_CHECK (R314). -/
def execVatScrubCheck (ptile window : Nat) (finding : Finding) (s : State) : Host.Outcome State Fault Refusal := run (vatScrub ptile window finding) s

/-! ### Re-trim (R316) -/

/-- Whether a tile is busy (R292): it holds a started unit whose ready signal it has not given. -/
def State.tileBusy (s : State) (a : Nat) : Bool :=
  match (s.tile a).run with
  | some r => !r.ready
  | none => (s.tile a).trapFor.isSome

/-- Tiles of a strip. -/
def tilesOfStrip (strip : Nat) : List Nat := (upTo 16).map fun c => 16 * strip + c

/-- Effect of RETRIM: it starts on a strip none of whose tiles is busy. -/
def retrim (strip : Nat) (s : State) : State :=
  if s.frm.state != .ready || decide (Config.strips ≤ strip) || tabHas s.flt.retrims strip || (tilesOfStrip strip).any s.tileBusy then s
  else s.modFlt fun f => { f with retrims := tabPut f.retrims strip s.now }

/-- RETRIM (R316). -/
def execRetrim (strip : Nat) (s : State) : Host.Outcome State Fault Refusal := run (retrim strip) s

/-- Effect of RETRIM_FORCED: RETRIM_MAX after the last re-trim of a strip, or after READY, the strip pauses. -/
def retrimForced (strip : Nat) (s : State) : State :=
  let base := tabGet s.frm.stateTime s.flt.lastRetrim strip
  if s.frm.state != .ready || decide (Config.strips ≤ strip) || tabHas s.flt.retrims strip || decide (s.now < base + 1000000 * s.flt.retrimMax)
    then s
  else
    let s := s.each (tilesOfStrip strip) State.settle
    (s.modFlt fun f => { f with retrims := tabPut f.retrims strip s.now, retrimForced := insertUp strip f.retrimForced }).notice 0x10 strip 0 none

/-- RETRIM_FORCED (R316). -/
def execRetrimForced (strip : Nat) (s : State) : Host.Outcome State Fault Refusal := run (retrimForced strip) s

/-- Effect of RETRIM_DONE: 2 µs after it began, or, after a forced pause, once the issued slots have completed as well. No cycle of the pause is busy (R293), and SYNC_TIMEOUT did not run in it (R302). -/
def retrimDone (strip : Nat) (s : State) : State :=
  match s.flt.retrims.find? fun x => x.1 == strip with
  | none => s
  | some (_, t0) =>
    if s.now < t0 + 2000 then s
    else
      let s := s.modFlt fun f => { f with
        retrims := tabDel f.retrims strip, lastRetrim := tabPut f.lastRetrim strip s.now, retrimForced := f.retrimForced.filter (· != strip) }
      s.each (tilesOfStrip strip) fun s a =>
        let c := s.cycle a
        s.modRun a fun r => { r.shiftWait (s.now - t0) with nextCyc := if r.nextCyc < c then c else r.nextCyc, counted := if r.counted < c then c else r.counted }

/-- RETRIM_DONE (R316). -/
def execRetrimDone (strip : Nat) (s : State) : Host.Outcome State Fault Refusal := run (retrimDone strip) s

end Sys2Proof.Machine
end

