-- ==== Sys2Proof/Machine/Ledger.lean ====
section
/-! DEFINITION. The repair ledger and probation (R326 to R336, R345). -/

namespace Sys2Proof.Machine

open Sys2Proof

/-! ### Ledger slots (R326) -/

/-- A ledger slot: 1,280 bytes, byte b in bits 8b + 7 to 8b. -/
abbrev SlotBits := BitVec 10240

/-- Bytes 0 to 1,267 of a slot with VALID read as 0 (R326). -/
def slotBody (slot reason time : Nat) (tiles : BitVec 8704) (lanes : BitVec 544) (pch : BitVec 768) : List Byte :=
  leBytes slot 1 ++ leBytes reason 1 ++ leBytes 0 6 ++ leBytes time 8 ++ leBytes tiles.toNat 1088 ++ leBytes lanes.toNat 68 ++ leBytes pch.toNat 96

/-- The slot that a commit programs: its body, VALID and CRC (R326). -/
def slotImage (slot : Nat) (o : LedgerOp) : SlotBits :=
  let body := slotBody slot o.reason o.time o.tiles o.lanes o.pch
  BitVec.ofNat 10240 (setBits (leVal (body ++ leBytes (crc32 body) 4)) 23 16 0xA5)

/-- Whether a slot is unprogrammed (R326). -/
def slotEmpty (v : SlotBits) : Bool := v == 0

/-- Whether a slot is valid (R326). -/
def slotValid (v : SlotBits) : Bool :=
  bits v.toNat 23 16 == 0xA5 && crc32 (leBytes (setBits v.toNat 23 16 0) 1268) == bits v.toNat 10175 10144

/-- The map that a slot holds: tiles, lanes, pseudo-channels (R326). -/
def slotMap (v : SlotBits) : BitVec 8704 × BitVec 544 × BitVec 768 :=
  (BitVec.ofNat 8704 (v.toNat / 2 ^ 128), BitVec.ofNat 544 (v.toNat / 2 ^ 8832), BitVec.ofNat 768 (v.toNat / 2 ^ 9376))

/-- Slot `k` of the ledger. -/
def Frm.slot (f : Frm) (k : Nat) : SlotBits := tabGet 0 f.ledger k
/-- Unprogrammed slots, ascending (R329). -/
def Frm.emptySlots (f : Frm) : List Nat := (upTo 24).filter fun k => slotEmpty (f.slot k)
/-- The newest valid slot. -/
def Frm.newest (f : Frm) : Option Nat := (upTo 24).reverse.find? fun k => slotValid (f.slot k)
/-- Programs bits of a slot: OTP bits are only ever set (R328). -/
def Frm.program (f : Frm) (k : Nat) (v : SlotBits) : Frm := { f with ledger := tabPut f.ledger k (f.slot k ||| v) }

/-- A free 10,240-bit value (log 5). -/
def freeSlot (ctr corner : Nat) : SlotBits := BitVec.ofNat 10240 ((upTo 160).foldl (fun v i => v * 2 ^ 64 + (Config.free64 ctr (corner + i)).toNat) 0)

/-- The slot that a commit in progress programs; none where it finds no unprogrammed slot, or the newest valid slot holds its map already (R328). -/
def Frm.programming (f : Frm) : Option (Nat × LedgerOp) :=
  match f.ledgerOp, f.emptySlots with
  | some o, k :: _ =>
    let same := match f.newest with
      | some j => slotMap (f.slot j) == (o.tiles, o.lanes, o.pch)
      | none => false
    if same && !o.force then none else some (k, o)
  | _, _ => none

/-- VALID of a slot (R326). -/
def slotFlag : SlotBits := BitVec.ofNat 10240 (0xFF * 2 ^ 16)

/-- A slot while it is programmed: bits of its image without VALID that are free, but not none (R328, R329). -/
def partSlot (k : Nat) (o : LedgerOp) : SlotBits :=
  let m := slotImage k o &&& ~~~ slotFlag
  let v := m &&& freeSlot o.time 300
  if slotEmpty v then m else v

/-- Slot `k` as a read gives it (R329). -/
def Frm.slotSeen (f : Frm) (k : Nat) : SlotBits :=
  match f.programming with
  | some (j, o) => if j = k then partSlot k o else f.slot k
  | none => f.slot k

/-! ### LEDGER_COMMIT (R327 to R329) -/

/-- Whether a REASON is not reserved (R326). -/
def reasonOk (r : Nat) : Bool := (decide (1 ≤ r) && decide (r ≤ 4)) || decide (0x80 ≤ r)

/-- Whether writes to BAR0 reach the FRM and PWR blocks: from the end of FRAME_BOOT on (R359, R491); JTAG reaches them in every state (R474). -/
def State.frmOpen (s : State) (via : Via) : Bool :=
  match via with
  | .pf _ => s.frm.state != .frameBoot
  | .jtag => true
  | _ => false

/-- Effect of LEDGER_COMMIT: a write of FRM_LEDGER_CTRL, accepted through PF BAR0 or JTAG. -/
def ledgerCommit (via : Via) (v : W32) (s : State) : State :=
  let n := v.toNat
  if !s.frmOpen via then s
  else if !bit n 0 || bits n 31 16 != 0x4C47 || !reasonOk (bits n 15 8) || s.frm.state != .ready then s.modFrm fun f => { f with ledgerResult := 5 }
  else match s.frm.ledgerOp with
    | some o => s.modFrm fun f => { f with ledgerOp := some { o with again := true } }
    | none => s.modFrm fun f => { f with ledgerOp := some {
        reason := bits n 15 8, force := bit n 1, time := s.now, tiles := f.rTiles, lanes := f.rLanes, pch := f.rPch } }

/-- LEDGER_COMMIT (R327). -/
def execLedgerCommit (via : Via) (value : W32) (s : State) : Host.Outcome State Fault Refusal := run (ledgerCommit via value) s

/-- What is programmed where the read-back does not verify: bits of the image that are free, save that the slot is neither unprogrammed nor valid (R326, R328). -/
def badSlot (ctr : Nat) (image : SlotBits) : SlotBits :=
  let v := image &&& freeSlot ctr 100
  if slotEmpty v || slotValid v then image &&& ~~~ slotFlag else v

/-- Ends a commit with a result: 6 where a COMMIT was written meanwhile (R328); notice LEDGER names the slot. -/
def State.ledgerEnd (s : State) (result index : Nat) : State :=
  let again := match s.frm.ledgerOp with | some o => o.again | none => false
  (s.modFrm fun f => { f with ledgerOp := none, ledgerResult := if again then 6 else result }).notice 0x12 index 0 none

/-- Effect of LEDGER_COMMIT_DONE: NO_SLOT, SAME, or a slot is programmed and read back. -/
def ledgerCommitDone (verified : Bool) (s : State) : State :=
  if !s.power || s.frm.ledgerOp.isNone then s
  else
    match s.frm.programming with
    | none => s.ledgerEnd (if s.frm.emptySlots.isEmpty then 3 else 2) 0xFFFF
    | some (k, o) =>
      let image := slotImage k o
      if verified then (s.modFrm fun f => f.program k image).ledgerEnd 1 k
      else
        let bad := badSlot s.freeCtr image
        let s := { s with freeCtr := s.freeCtr + 1 }
        (s.modFrm fun f => f.program k bad).ledgerEnd 4 k

/-- LEDGER_COMMIT_DONE (R328). -/
def execLedgerCommitDone (verified : Bool) (s : State) : Host.Outcome State Fault Refusal := runAny (ledgerCommitDone verified) s

/-! ### Probation (R331 to R335) -/

/-- Units of a class that the retirement map holds (R319). -/
def classSize (cls : Nat) : Nat :=
  match cls with
  | 0 => 8704 | 1 => 544 | 2 => 768 | _ => 0

/-- Sets REQ_ERR. -/
def State.probeErr (s : State) : State := s.modFrm fun f => { f with probeErr := true }

/-- Effect of PROBATION_REQUEST: a write of FRM_PROBE_REQ with START = 1. The record taken is the lowest that is not RUNNING. -/
def probationRequest (v : W32) (s : State) : State :=
  let unit := bits v.toNat 13 0
  let cls := bits v.toNat 17 16
  if s.frm.state == .frameBoot || !bit v.toNat 31 then s
  else if classSize cls ≤ unit ∨ !s.isRetired cls unit ∨ (s.probeOf cls unit).isSome then s.probeErr
  else match (upTo 16).find? fun k => (tabGet ({} : Probe) s.frm.probes k).state != 1 with
    | none => s.probeErr
    | some k =>
      let s := s.modFrm fun f => { f with probes := tabPut f.probes k { unit := unit, cls := cls, state := 1, steps := 0, next := s.order } }
      if cls = 1 then s.modPort (unit / 68) fun p => { p with lanes := tabMod {} p.lanes (unit % 68) fun l => { l with state := .probation } } else s

/-- PROBATION_REQUEST (R331). -/
def execProbationRequest (value : W32) (s : State) : Host.Outcome State Fault Refusal := run (probationRequest value) s

/-- A tile that passed probation returns to its row: at the rebuild of the strip's partition, or at once (R261, R333). -/
def State.tileReturn (s : State) (pt : Nat) : State :=
  match s.partOfStrip (pt / 17) with
  | some p => (s.modFrm fun f => { f with rowChanges := f.rowChanges ++ [(true, pt)] }).modPart p fun x => { x with changePend := true }
  | none => s.rowApply (true, pt)

/-- A pseudo-channel that passed probation returns to the allocator at once (R333, R398): its redirection ends and TOP rises, or its own granules read again. -/
def State.pcReturn (s : State) (n : Nat) : State :=
  if s.frm.unmapped.contains n then s.modFrm fun f => { f with unmapped := f.unmapped.filter (· != n) }
  else s.modFrm fun f => { f with withdrawn := f.withdrawn - 1, copying := f.copying.filter (· != n) }

/-- A unit passes probation (R333). -/
def State.probePass (s : State) (k : Nat) (p : Probe) : State :=
  let s := s.modFrm fun f => { f.setRetired p.cls p.unit false with probes := tabPut f.probes k { p with state := 2 }, badRouters := if p.cls = 0 then f.badRouters.filter (· != p.unit) else f.badRouters }
  let s := s.modFlt fun f => { f with history := tabDel f.history (histKey p.cls p.unit) }
  match p.cls with
  | 0 => s.tileReturn p.unit
  | 1 => s.modPort (p.unit / 68) fun x => { x with lanes := tabMod {} x.lanes (p.unit % 68) fun l => { l with state := .spare, logical := none } }
  | _ => s.pcReturn p.unit

/-- Whether a unit in probation can take a step: a tile's domain is ACTIVE (R331); a lane's port sends flits, and a pseudo-channel's stack takes writes (R332). -/
def State.probeReady (s : State) (p : Probe) : Bool :=
  match p.cls with
  | 0 => (s.dom (domOfStrip (p.unit / 17))).state == .active
  | 1 => (s.port (p.unit / 68)).state == .active
  | _ => (s.ctl (p.unit / 32)).up

/-- The record once a shadow comparison has been made: a tile's takes a unit that has committed on a working tile of its swatch, and none that it, or an earlier one, has been compared with (R332). -/
def State.probeSource (s : State) (p : Probe) : Option Probe :=
  if p.cls ≠ 0 then some p
  else (least ((s.units.filter fun u => u.phase == .committed && decide (p.next ≤ u.commitNo)
      && u.allTiles.any fun a => s.working a && swatchOf (a / 16) == swatchOf (p.unit / 17)).map CUnit.commitNo)).map fun no => { p with next := no + 1 }

/-- Effect of PROBATION_STEP; a comparison without a source, or one that is abandoned, is none. -/
def probationStep (k : Nat) (result : ProbeResult) (s : State) : State :=
  let p : Probe := tabGet {} s.frm.probes k
  if p.state != 1 || !s.probeReady p || decide (16 ≤ k) then s
  else match result, s.probeSource p with
    | .abandoned, _ => s
    | .error source, _ => s.probeFail k source
    | .mismatch, some _ => s.probeFail k 0x0E
    | .equal, some p =>
      let p := { p with steps := p.steps + 1 }
      if s.frm.probeSteps ≤ p.steps then s.probePass k p else s.modFrm fun f => { f with probes := tabPut f.probes k p }
    | _, none => s

/-- PROBATION_STEP (R332). -/
def execProbationStep (record : Nat) (result : ProbeResult) (s : State) : Host.Outcome State Fault Refusal := run (probationStep record result) s

/-- Probations of the tiles of a domain restart with no completed steps (R345). -/
def State.probeRestart (s : State) (d : Nat) : State :=
  s.modFrm fun f => { f with probes := f.probes.map fun x =>
    if x.2.state = 1 ∧ x.2.cls = 0 ∧ domOfStrip (x.2.unit / 17) = d then (x.1, { x.2 with steps := 0 }) else x }

end Sys2Proof.Machine
end

