-- ==== Sys2Proof/Machine/Power.lean ====
section
/-! DEFINITION. Frequency, domain states, the power cap, the fuse ceiling and temperature (18_clocks_time_power.md). -/

namespace Sys2Proof.Machine

open Sys2Proof

/-! ### Frequency steps (R337, R338) -/

/-- Effective code of a domain (R337). -/
def Dom.eff (d : Dom) : Nat := let a := if d.freq ≤ d.cap then d.freq else d.cap; if a ≤ d.therm then a else d.therm

/-- Begins a step where an ACTIVE domain runs at another code than its effective one: downward the frequency changes first, upward the voltage rises first (R338). -/
def Dom.restep (d : Dom) : Dom :=
  if d.state != .active || d.step != .none || d.eff == d.code then d
  else if d.eff < d.code then { d with step := .changing d.eff } else { d with step := .rising d.eff }

/-- Whether the PWR block takes writes (R359, R491). -/
def State.pwrOpen (s : State) : Bool := s.frm.state != .frameBoot

/-- Effect of FREQ_SETPOINT_WRITE: a code above 18 is a reserved encoding (R6). -/
def freqSetpoint (d code : Nat) (s : State) : State :=
  if !s.pwrOpen || decide (16 ≤ d) || decide (18 < code) then s
  else s.modDom d fun x => { x with freq := code }.restep

/-- FREQ_SETPOINT_WRITE (R337). -/
def execFreqSetpointWrite (dom code : Nat) (s : State) : Host.Outcome State Fault Refusal := run (freqSetpoint dom code) s

/-- The domain once the voltage of an upward step has risen: the frequency changes, to no more than the code now in force. -/
def Dom.risen (d : Dom) : Dom :=
  match d.step with
  | .rising c =>
    let c := if d.eff < c then d.eff else c
    if c = d.code then { d with step := .none } else { d with step := .changing c }
  | _ => d

/-- VOLTAGE_RISE_DONE (R338). -/
def execVoltageRiseDone (dom : Nat) (s : State) : Host.Outcome State Fault Refusal := run (fun s => s.modDom dom Dom.risen) s

/-- The domain once the clock stop of a frequency change ends: its tiles run at the new code, and a further step may begin. -/
def Dom.changed (d : Dom) : Dom :=
  match d.step with
  | .changing c => { d with code := c, step := .none }.restep
  | _ => d

/-- Tiles of a domain that hold anything. -/
def State.tilesOfDom (s : State) (d : Nat) : List Nat := (s.tiles.map Prod.fst).filter fun a => domOfTile a == d

/-- Effect of FREQUENCY_STEP_DONE; cycles that have passed count at the old length (R294). -/
def frequencyStepDone (d : Nat) (s : State) : State := (s.each (s.tilesOfDom d) State.settle).modDom d Dom.changed

/-- FREQUENCY_STEP_DONE (R338). -/
def execFrequencyStepDone (dom : Nat) (s : State) : Host.Outcome State Fault Refusal := run (frequencyStepDone dom) s

/-- Effect of TIME_BEACON: at each multiple of 1,000 ns, once. -/
def timeBeacon (s : State) : State := if s.now % 1000 != 0 || !s.power || s.out.contains (.timeBeacon s.now) then s else s.emit (.timeBeacon s.now)

/-- TIME_BEACON (R340). -/
def execTimeBeacon (s : State) : Host.Outcome State Fault Refusal := run timeBeacon s

/-! ### Domain states (R342 to R346) -/

/-- Whether a commit unit of a domain could start or rerun were its domain ACTIVE: one of a resident context, one forwarded here, or a third run (R308, R343, R437). -/
def State.startWaits (s : State) (d : Nat) : Bool :=
  let has := fun p => (upTo 32).any fun i => (s.part p).strips.getLsbD (stripOfDom d i)
  s.units.any (fun u => (u.home.isSome && u.phase == .killed && has u.part) || (u.phase == .third && s.flt.arbEn && has s.flt.arbPart)) ||
  s.parts.any fun (x : Nat × Part) => ((upTo 32).any fun i => x.2.strips.getLsbD (stripOfDom d i)) &&
    (match x.2.resident with
     | none => false
     | some n =>
       s.gateAll n && (((s.unitsOf n).any fun u => u.phase == .killed || !u.down.isEmpty)
         || [0, 1].any fun q => (s.queue n q).state == .running && (s.queue n q).accepted.any fun a =>
              a.state == .waiting && needsResident (dKind a.desc) && dKind a.desc != kLOT && !a.chainOpen && a.fault == 0
                && s.orderMet n q a && [0, 1, 2].all fun k => s.depState n q a.desc k == .met))

/-- Whether a domain has demand (R343). -/
def State.hasDemand (s : State) (d : Nat) : Bool := s.working? d || s.startWaits d

/-- Begins a transition of a domain; a wake takes the code in force now (R342, R353). -/
def Dom.goTo (d : Dom) (x : DomState) (now : Nat) : Dom :=
  { d with trans := some (x, now), step := if x == .active then .none else d.step, code := if x == .active then d.eff else d.code }

/-- Moves a domain towards its TARGET where the target alone asks for it (R342); not before DOMAIN_UP has switched it on. -/
def State.followTarget (s : State) (d : Nat) : State :=
  let x := s.dom d
  if x.trans.isSome || x.bist || s.frm.state == .frameBoot || s.frm.state == .domainUp then s
  else match x.state with
    | .off => if x.target = 0 then s else s.modDom d fun x => x.goTo .active s.now
    | .idle => if x.target = 3 then s.modDom d (fun x => x.goTo .active s.now) else if x.target = 0 then s.modDom d (fun x => x.goTo .off s.now) else s
    | .retain => if x.target = 3 ∨ x.target = 2 then s.modDom d (fun x => x.goTo .active s.now)
        else if x.target = 0 then s.modDom d (fun x => x.goTo .off s.now) else s
    | .active => if x.target = 0 then s.modDom d (fun x => x.goTo .off s.now) else s

/-- Whether a request of OFF is accepted (R344). -/
def State.offOk (s : State) (d : Nat) : Bool :=
  let strips := (upTo 32).map (stripOfDom d)
  !(s.parts.any fun (x : Nat × Part) => strips.any fun i => x.2.strips.getLsbD i || x.2.adding.getLsbD i)
    && !(s.tiles.any fun (x : Nat × Tile) => domOfTile x.1 == d && x.2.windows.any fun w => decide (w.1 < 47) && w.2.state != .free)

/-- Effect of DOMAIN_TARGET_WRITE: 0 OFF, 1 RETAIN, 2 IDLE, 3 ACTIVE. -/
def domainTarget (d target : Nat) (s : State) : State :=
  if !s.pwrOpen || decide (16 ≤ d) || decide (4 ≤ target) then s
  else if target = 0 ∧ !s.offOk d then s.modDom d fun x => { x with reqErr := true }
  else (s.modDom d fun x => { x with target := target }).followTarget d

/-- DOMAIN_TARGET_WRITE (R344). -/
def execDomainTargetWrite (dom target : Nat) (s : State) : Host.Outcome State Fault Refusal := run (domainTarget dom target) s

/-- Effect of RETAIN_DELAY_EXPIRY: an ACTIVE domain without demand for RETAIN_DELAY moves to its resting state. -/
def retainExpiry (d : Nat) (s : State) : State :=
  let x := s.dom d
  if x.state != .active || x.trans.isSome || s.hasDemand d || decide (s.now < x.quiet + 1000 * s.pwr.retainDelay) || s.frm.state != .ready then s
  else if x.target = 1 then s.modDom d fun x => x.goTo .retain s.now
  else if x.target = 2 then s.modDom d fun x => x.goTo .idle s.now
  else s

/-- RETAIN_DELAY_EXPIRY (R342). -/
def execRetainDelayExpiry (dom : Nat) (s : State) : Host.Outcome State Fault Refusal := run (retainExpiry dom) s

/-- Effect of DOMAIN_WAKE: demand on a resting domain begins its transition to ACTIVE. -/
def domainWake (d : Nat) (s : State) : State :=
  let x := s.dom d
  if (x.state == .idle || x.state == .retain) && x.trans.isNone && s.hasDemand d then s.modDom d fun x => x.goTo .active s.now else s

/-- DOMAIN_WAKE (R343). -/
def execDomainWake (dom : Nat) (s : State) : Host.Outcome State Fault Refusal := run (domainWake dom) s

/-- Counters of a tile that restart when its clocks start (R346). -/
def Tile.restart (t : Tile) : Tile :=
  { t with traps := 0, bridgePeak := 0, busy := 0, stall := 0, fstall := 0, pal := { t.pal with swaps := 0 }, tbl := { t.tbl with swaps := 0 } }

/-- The tile clocks of a domain start after OFF or RETAIN (R346). -/
def State.clocksStart (s : State) (d : Nat) : State :=
  (s.modDom d fun x => { x with ticks := 0 }).each (s.tilesOfDom d) fun s a => s.modTile a Tile.restart

/-- Effect of DOMAIN_TRANSITION_DONE: a transition other than a power-up completes. -/
def transitionDone (d : Nat) (s : State) : State :=
  let x := s.dom d
  match x.trans with
  | none => s
  | some (dest, _) =>
    if x.state == .off then s
    else
      let from_ := x.state
      let s := s.modDom d fun x => { x with state := dest, trans := none, quiet := if dest == .active then s.now else x.quiet }
      let s := match dest with
        | .off => (s.each (s.tilesOfDom d) fun s a => s.modTile a fun _ => {}).modDom d fun x => { x with step := .none, ticks := 0 }
        | .retain => s.modDom d fun x => { x with step := .none }
        | .idle => s.modDom d fun x => { x with step := .none, code := 0 }
        | .active => (if from_ == DomState.retain then s.clocksStart d else s).modDom d Dom.restep
      s.followTarget d

/-- DOMAIN_TRANSITION_DONE (R342). -/
def execDomainTransitionDone (dom : Nat) (s : State) : Host.Outcome State Fault Refusal := run (transitionDone dom) s

/-- Enters a start-up state (R355, R487). -/
def State.enter (s : State) (x : Startup) : State := s.modFrm fun f => { f with state := x, stateTime := s.now }

/-- Effect of DOMAIN_POWER_UP_DONE: 2 ms after a switch-on the tile clocks start. In DOMAIN_UP the domain is ACTIVE at once, and D15 ends the state (R360); else the BIST-lite begins. -/
def powerUpDone (d : Nat) (s : State) : State :=
  let x := s.dom d
  match x.trans with
  | some (.active, t) =>
    if x.state != .off || x.bist || decide (s.now < t + 2000000) then s
    else
      let s := (s.modDom d fun x => { x with code := x.eff, step := .none }).clocksStart d
      if s.frm.state == .domainUp then
        let s := s.modDom d fun x => { x with state := .active, trans := none, quiet := s.now }
        if (upTo 16).all fun k => (s.dom k).state == .active then s.enter .tileBist else s
      else s.modDom d fun x => { x with bist := true }
  | _ => s

/-- DOMAIN_POWER_UP_DONE (R346). -/
def execDomainPowerUpDone (dom : Nat) (s : State) : Host.Outcome State Fault Refusal := run (powerUpDone dom) s

/-- Effect of DOMAIN_BIST_LITE_DONE: the domain is ACTIVE; tiles of it that failed are retired, and its probations restart (R345). -/
def bistLiteDone (d : Nat) (failed : List Nat) (s : State) : State :=
  if !(s.dom d).bist then s
  else
    let s := s.modDom d fun x => { x with state := .active, trans := none, bist := false, quiet := s.now }
    let s := (s.probeRestart d).bistFail (failed.filter fun pt => domOfStrip (pt / 17) == d && decide (pt < Config.physTiles))
    (s.modDom d Dom.restep).followTarget d

/-- DOMAIN_BIST_LITE_DONE (R345). -/
def execDomainBistLiteDone (dom : Nat) (failed : List Nat) (s : State) : Host.Outcome State Fault Refusal := run (bistLiteDone dom failed) s

/-! ### The power cap and temperature (R347, R348, R351, R352) -/

/-- Cap code of a domain after a window of average power P (R347); `rise`: whether codes may rise (R348). -/
def Dom.capStep (d : Dom) (p cap hyst : Nat) (rise : Bool) : Dom :=
  if d.state != .active then d
  else if 11 * cap < 10 * p then { d with cap := d.eff - 4 }
  else if cap < p then { d with cap := d.eff - 1 }
  else if p + hyst ≤ cap ∧ rise then { d with cap := if d.cap < 18 then d.cap + 1 else 18 }
  else d

/-- Hottest of the four sensors of a domain, in quarter degrees (R351). -/
def State.hottest (s : State) (d : Nat) : Nat :=
  greatest 0 ((upTo 4).map fun i => tabGet 0 s.pwr.temps (swatchOf (stripOfDom d (8 * i))))

/-- Thermal code of a domain after a window (R351). -/
def Dom.thermStep (d : Dom) (hot limit : Nat) : Dom :=
  if 4 * limit ≤ hot then { d with therm := d.therm - 1 }
  else if hot + 12 ≤ 4 * limit then { d with therm := if d.therm < 18 then d.therm + 1 else 18 }
  else d

/-- The cap pause after a window, in µs (R348). -/
def State.pauseStep (s : State) (p : Nat) : Nat :=
  let x := s.pwr
  let active := (upTo 16).filter fun d => (s.dom d).state == .active
  if x.cap < p then (if !active.isEmpty && active.all (fun d => (s.dom d).code == 0) then satTo 50 (x.pause + 10) else x.pause)
  else if p + x.hyst ≤ x.cap then x.pause - 10
  else x.pause

/-- Effect of POWER_WINDOW_END: at a multiple of 100,000 ns, with the average power in W and the readings of the 68 sensors, in quarter degrees. -/
def powerWindowEnd (watts : Nat) (temps : List Nat) (s : State) : State :=
  if !s.power || s.now % 100000 != 0 || s.pwr.lastWindow == some s.now then s
  else
    let s := s.modPwr fun p => { p with
      lastWindow := some s.now, watts := satTo 0xFFFF watts, temps := ((temps.take 68).zipIdx.foldl (fun t x => tabPut t x.2 (x.1 % 1024)) p.temps) }
    let old := s.pwr.pause
    let pause := s.pauseStep watts
    let s := s.each (upTo 16) fun s d =>
      let hot := s.hottest d
      s.modDom d fun x => ((x.capStep watts s.pwr.cap s.pwr.hyst (old == 0)).thermStep hot s.pwr.thermLimit).restep
    let s := s.modPwr fun p => { p with pause := pause, pausing := decide (pause ≠ 0), pauseStart := s.now }
    let s := s.when (old == 0 && pause != 0) fun s => s.notice 0x11 0 0 none
    let w := wmUpdate s.pwr.wmPower watts
    let s := s.modPwr fun p => { p with wmPower := w.1 }
    let s := s.when w.2 fun s => s.notice 0x04 0 w.1.level none
    let t := wmUpdate s.pwr.wmTemp (greatest 0 ((upTo 68).map fun i => tabGet 0 s.pwr.temps i))
    let s := s.modPwr fun p => { p with wmTemp := t.1 }
    s.when t.2 fun s => s.notice 0x05 0 t.1.level none

/-- POWER_WINDOW_END (R347). -/
def execPowerWindowEnd (watts : Nat) (temps : List Nat) (s : State) : Host.Outcome State Fault Refusal := run (powerWindowEnd watts temps) s

/-- Effect of CAP_PAUSE_END: the pause of this window has run out. -/
def capPauseEnd (s : State) : State :=
  if !s.pwr.pausing || decide (s.now < s.pwr.pauseStart + 1000 * s.pwr.pause) then s else s.modPwr fun p => { p with pausing := false }

/-- CAP_PAUSE_END (R348). -/
def execCapPauseEnd (s : State) : Host.Outcome State Fault Refusal := run capPauseEnd s

/-- Requests a warm reset with a reason; one already requested is joined (R488). -/
def State.askReset (s : State) (reason : Nat) : State :=
  if s.frm.resetReq.isSome then s else s.modFrm fun f => { f with resetReq := some reason }

/-- Effect of THERMAL_TRIP: a sensor, read in quarter degrees, reaches 98 °C. -/
def thermalTrip (sensor reading : Nat) (s : State) : State :=
  if !s.power || decide (68 ≤ sensor) || decide (reading < 392) then s
  else (s.modPwr fun p => { p with temps := tabPut p.temps sensor (reading % 1024) }).askReset 3

/-- THERMAL_TRIP (R352). -/
def execThermalTrip (sensor reading : Nat) (s : State) : Host.Outcome State Fault Refusal := run (thermalTrip sensor reading) s

/-! ### The ceiling (R349, R350) -/

/-- The ceiling: the least programmed value, 20,000 W as shipped. -/
def Pwr.ceiling (p : Pwr) : Nat := (least p.fuses).getD 20000
/-- LOWERINGS: fuse slots left. -/
def Pwr.lowerings (p : Pwr) : Nat := 4 - p.fuses.length

/-- Effect of CEILING_LOWER: a write of PWR_CEIL_CTRL, accepted through PF BAR0 or JTAG alone. One that arrives while a slot is being programmed is ignored with CEIL_ERR. -/
def ceilingLower (via : Via) (v : W32) (s : State) : State :=
  let value := bits v.toNat 15 0
  if !s.frmOpen via && (via != .lead || s.frm.state != .ready) then s
  else if s.frmOpen via ∧ bits v.toNat 31 16 = 0x4345 ∧ 4000 ≤ value ∧ value < s.pwr.ceiling ∧ s.pwr.lowerings ≠ 0 ∧ s.pwr.lowering = none then
    s.modPwr fun p => { p with lowering := some value }
  else s.modPwr fun p => { p with ceilErr := true }

/-- CEILING_LOWER (R350). -/
def execCeilingLower (via : Via) (value : W32) (s : State) : Host.Outcome State Fault Refusal := run (ceilingLower via value) s

/-- Effect of CEILING_PROGRAMMED: the ceiling falls, and POWER_CAP with it. The value programmed is below the ceiling in force and a slot is left (R350), as when the command that asked for it was accepted. -/
def ceilingProgrammed (s : State) : State :=
  match (if s.power then s.pwr.lowering else none) with
  | none => s
  | some v =>
    if 4000 ≤ v ∧ v < s.pwr.ceiling ∧ s.pwr.lowerings ≠ 0 then
      s.modPwr fun p =>
        let p := { p with fuses := p.fuses ++ [v], lowering := none }
        { p with cap := if p.ceiling < p.cap then p.ceiling else p.cap }
    else s.modPwr fun p => { p with lowering := none }

/-- CEILING_PROGRAMMED (R350). -/
def execCeilingProgrammed (s : State) : Host.Outcome State Fault Refusal := runAny ceilingProgrammed s

end Sys2Proof.Machine
end

