-- ==== Sys2Proof/Machine/Hbm.lean ====
section
/-! DEFINITION. The HBM controllers: re-training, retirement copies and patrol (R372, R398, R399, R402, R407). -/

namespace Sys2Proof.Machine

open Sys2Proof

/-- Whether a retirement copy runs on a stack (R407). -/
def State.copyingOn (s : State) (m : Nat) : Bool := s.frm.copying.any fun pc => pc / 32 == m

/-- Effect of HBM_RETRAIN: a write of RETRAIN to a controller. While a retirement copy runs on the stack, the re-train waits for its end. -/
def hbmRetrain (m : Nat) (s : State) : State :=
  if s.frm.state != .ready || decide (24 ≤ m) then s
  else if s.copyingOn m then s.modCtl m fun c => { c with retrainPend := true }
  else s.modCtl m fun c => { c with retraining := true }

/-- HBM_RETRAIN (R407). -/
def execHbmRetrain (stack : Nat) (s : State) : Host.Outcome State Fault Refusal := run (hbmRetrain stack) s

/-- Effect of HBM_RETRAIN_DONE: waiting accesses proceed; a pseudo-channel of the stack that fails its re-training is retired. -/
def hbmRetrainDone (m : Nat) (failed : List Nat) (s : State) : State :=
  if !(s.ctl m).retraining then s
  else
    let s := s.modCtl m fun c => { c with retraining := false }
    s.each (failed.filter fun pc => pc / 32 == m) fun s pc => s.retireUnit 2 pc false

/-- HBM_RETRAIN_DONE (R372). -/
def execHbmRetrainDone (stack : Nat) (failedPcs : List Nat) (s : State) : Host.Outcome State Fault Refusal := run (hbmRetrainDone stack failedPcs) s

/-- Effect of PC_RETIREMENT_COPY_DONE: the copy of a retired pseudo-channel ends; each location that could not be read is a loss of its owner (R301); a re-train that waited for the copy begins. -/
def copyDone (pc : Nat) (unreadable : List Nat) (s : State) : State :=
  if !s.frm.copying.contains pc then s
  else
    let s := s.modFrm fun f => { f with copying := f.copying.filter (· != pc) }
    let s := s.each (unreadable.filter fun a => pcOf a == pc && decide (a < s.hbmTop)) State.hbmLost
    let m := pc / 32
    if (s.ctl m).retrainPend && !s.copyingOn m then s.modCtl m fun c => { c with retrainPend := false, retraining := true } else s

/-- PC_RETIREMENT_COPY_DONE (R399). -/
def execPcRetirementCopyDone (pc : Nat) (unreadable : List Nat) (s : State) : Host.Outcome State Fault Refusal := run (copyDone pc unreadable) s

/-- Whether a client or device area, or the trace buffer, covers a device address (R402, R403). -/
def State.covered (s : State) (a : Nat) : Bool := (s.ownerAt a).isSome || s.traceArea.any fun x => decide (x.1 ≤ a) && decide (a < x.1 + x.2)

/-- Effect of HBM_PATROL_READ: the patrol reads the 64-bit word at `a`, below the TOP of 24 whole stacks. A pseudo-channel whose copy runs, or that has no redirection, is skipped, and a stack that re-trains is not read. -/
def hbmPatrol (a : Nat) (f : Finding) (s : State) : State :=
  let pc := pcOf a
  let m := pc / 32
  if s.frm.state != .ready || decide (Config.hbmBytes ≤ a) || !(s.ctl m).up || (s.ctl m).retraining || s.frm.copying.contains pc || s.frm.unmapped.contains pc then s
  else match f with
    | .clean => s
    | .corrected => (s.modFlt fun x => { x with corrected := x.corrected + 1 }).modCtl m fun c => { c with corrected := c.corrected + 1 }
    | .uncorrectable =>
      if decide (a < s.hbmTop) && s.covered a then hbmUncorrectable a s
      else
        let s := (s.modCtl m fun c => { c with uncorrected := c.uncorrected + 1 }).upset 0x0B 2 pc none
        s.hbmClear (a / 8 * 8) 8

/-- HBM_PATROL_READ (R402). -/
def execHbmPatrolRead (addr : Nat) (finding : Finding) (s : State) : Host.Outcome State Fault Refusal := run (hbmPatrol addr finding) s

end Sys2Proof.Machine
end

