-- ==== Sys2Proof/Machine/LinkOps.lean ====
section
/-! DEFINITION. Tranyx ports: flits, the retry buffer, port reset, recovery and the lane map (R412, R415 to R431). -/

namespace Sys2Proof.Machine

open Sys2Proof

/-! ### Flits (R416, R417) -/

/-- The fields of a flit. -/
structure Flit where
  seq : Nat := 0
  vc : Nat := 0
  kind : Nat := 0
  ackSeq : Nat := 0
  nak : Bool := false
  cred : List Nat := [0, 0, 0, 0]
  len : Nat := 0
  sot : Bool := false
  eot : Bool := false
  payload : List Byte := []
  deriving DecidableEq, Repr

/-- Bytes 0 to 11 of a flit's header (R416). -/
def flitHead (f : Flit) : List Byte :=
  leBytes (f.seq % 4096 + f.vc % 4 * 4096 + f.kind % 4 * 16384) 2 ++ leBytes (f.ackSeq % 4096 + b2n f.nak * 4096) 2
    ++ leBytes (total (f.cred.zipIdx.map fun p => p.1 % 4096 * 4096 ^ p.2)) 6 ++ leBytes (f.len + 256 * b2n f.sot + 512 * b2n f.eot) 2

/-- The 256 bytes of a flit, with its CRC; payload beyond LEN is 0 (R417). -/
def flitBits (f : Flit) : BitVec 2048 :=
  let pay := padTo 240 (f.payload.take 240)
  BitVec.ofNat 2048 (leVal (flitHead f ++ leBytes (crc32 (flitHead f ++ pay)) 4 ++ pay))

/-- A received flit: its fields, whether its CRC passes, and whether its reserved header bits are 0. -/
def flitOf (v : BitVec 2048) : Flit × Bool × Bool :=
  let n := v.toNat
  let bs := leBytes n 256
  let len := bits n 87 80
  ({ seq := bits n 11 0, vc := bits n 13 12, kind := bits n 15 14, ackSeq := bits n 27 16, nak := bit n 28
     cred := (upTo 4).map fun i => bits n (32 + 12 * i + 11) (32 + 12 * i)
     len := len, sot := bit n 88, eot := bit n 89, payload := (bs.drop 16).take (if len ≤ 240 then if bits n 15 14 = 3 then 240 else len else 240) },
   crc32 (bs.take 12 ++ bs.drop 16) == bits n 127 96, bits n 31 29 == 0 && bits n 95 90 == 0)

/-- Receive buffers that a Slosil wafer advertises on each VC (R423). -/
def rxBuffers : List Nat := [256, 512, 64, 16]

/-- The last SEQ accepted; 4,095 means none (R420). -/
def Port.ackSeq (p : Port) : Nat := (p.expect + 4095) % 4096

/-- An outgoing flit with the port's ACK_SEQ, NAK and CRED (R416, R420, R423). -/
def Port.stamp (p : Port) (f : Flit) : Flit := { f with ackSeq := p.ackSeq, nak := p.nak, cred := p.freed }

/-- The INIT flit of a port (R424). -/
def initOf (wafer port : Nat) (p : Port) : Flit :=
  { kind := 3, payload := leBytes 0 1 ++ leBytes wafer 1 ++ leBytes port 1 ++ leBytes (b2n p.resetting + 2 * b2n p.peerGood) 1
      ++ rxBuffers.flatMap (fun n => leBytes n 2) ++ leBytes p.expect 2 }

/-- Sends a port's INIT flit. -/
def State.sendInit (s : State) (n : Nat) : State :=
  (s.emit (.flit n (flitBits (initOf s.frm.waferId n (s.port n))))).modPort n fun p => { p with lastInit := s.now }

/-! ### Port reset (R371, R428) -/

/-- The port after a port reset: retry buffer, SEQ, ACK_SEQ and CRED counters at their starting values, no partial transaction. Whole transactions not yet begun stay queued. -/
def Port.resetLink (p : Port) : Port :=
  { p with
    sendSeq := 0, expect := 0, nak := false, episode := false, held := [], replay := none, replays := 0, ctrlQ := []
    vcQ := p.vcQ.map fun l => l.dropWhile fun c => !c.sot
    sent := [0, 0, 0, 0], farFreed := [0, 0, 0, 0], freed := [0, 0, 0, 0], rx := [none, none, none, none], retireWait := none
    recSince := none, keeping := false }

/-- Units that wait on a read or a HANDBACK through a port are killed, with no upset (R371); a committed unit's writes are issued again (R46). -/
def State.killThrough (s : State) (n : Nat) : State :=
  let out := s.stk.requests.filter fun r => r.2.2.2 == some n
  let s := s.modStk fun k => { k with requests := k.requests.filter fun r => r.2.2.2 != some n }
  s.each (sortUp (out.map fun r => r.2.2.1)) fun s uid =>
    match s.unit? uid with
    | none => s
    | some u =>
      if u.phase == .committed then
        let lost := out.filterMap fun r => if r.2.2.1 = uid then some r.1 else none
        let s := if lost.isEmpty then s else s.tell u true u.waitFlip
        if u.waitWr.any fun t => lost.contains t then (s.modUnit uid fun u => { u with waitWr := [] }).drainSend u else s
      else s.killUnit uid 0

/-- A port reset (R428): its link state starts over and the units that waited through it are killed. -/
def State.portReset (s : State) (n : Nat) : State := (s.modPort n Port.resetLink).killThrough n

/-- A port goes down; where it was past DETECT, notice TX_DOWN is raised (R428, R459). -/
def State.portDown (s : State) (n : Nat) : State :=
  let was := (s.port n).state
  let s := (s.modPort n fun p => { p with state := .down, width := 0, since := s.now, lastTry := s.now, resetting := true }).portReset n
  s.when (was != .down && was != .detect) fun s => s.notice 0x14 n 0 none

/-- Full training begins at DETECT (R414). -/
def State.fullTraining (s : State) (n : Nat) : State :=
  s.modPort n fun p => { p with
    state := .detect, since := s.now, pass := BitVec.allOnes 68, trainings := p.trainings + 1, width := 0, recSince := none
    peerGood := false, peerSeenUs := false }

/-! ### Recovery and the lane map (R412, R415, R427, R430) -/

/-- Active lanes for a number of working lanes (R324). -/
def portWidth (n : Nat) : Nat :=
  if n < 16 then 0 else if n < 32 then 16 else if n < 48 then 32 else if n < 64 then 48 else 64

/-- A recovery begins on an ACTIVE port (R415). -/
def State.startRecovery (s : State) (n : Nat) : State :=
  if (s.port n).state != .active then s
  else s.modPort n fun p => { p with
    state := .recovery, since := s.now, recSince := some s.now, keeping := true, recoveries := p.recoveries + 1, retireWait := none
    peerGood := false, peerSeenUs := false }

/-- Lane `l` of a port. -/
def Port.lane (p : Port) (l : Nat) : Lane := tabGet {} p.lanes l

/-- Lanes that work: neither retired nor in probation. -/
def Port.workingLanes (p : Port) : List Nat := (upTo 68).filter fun l => (p.lane l).state == .active || (p.lane l).state == .spare

/-- Gives the lowest working lanes the logical positions of a width, in ascending physical order; the others are spares (R412). -/
def Port.mapLanes (p : Port) : Port :=
  let l := p.workingLanes
  let w := portWidth l.length
  { p with width := w, lanes := l.zipIdx.foldl (fun t x => tabMod {} t x.1 fun y =>
      if x.2 < w then { y with state := .active, logical := some x.2 } else { y with state := .spare, logical := none }) p.lanes }

/-- The lowest working spare takes each retired lane's logical position, in ascending order of the retired lanes; where the working lanes reach another width the port narrows or widens to it (R324, R427, R430). -/
def Port.takeOver (p : Port) : Port :=
  let gone := (upTo 68).filter fun l => (p.lane l).state != .active && (p.lane l).logical.isSome
  let clear := fun (t : Tab Lane) (l : Nat) => tabMod {} t l fun x => { x with logical := none }
  if portWidth p.workingLanes.length = p.width then
    let pairs := gone.zip p.spares
    { p with lanes := pairs.foldl (fun t x => tabMod {} (clear t x.1) x.2 fun y => { y with state := .active, logical := (p.lane x.1).logical }) p.lanes }
  else { p with lanes := gone.foldl clear p.lanes }.mapLanes

/-- A lane that this end has not judged itself is retired in its map (R427). -/
def State.laneGone (s : State) (n l : Nat) : State :=
  let k := 68 * n + l
  if s.isRetired 1 k then s
  else
    let s := (s.modFrm fun f => f.setRetired 1 k true).modFlt fun f => { f with history := tabDel f.history (histKey 1 k) }
    (s.trace1 { event := 7, detail := 1, unit := k }).laneOut k false

/-- Whether a lane of a port that is retired, or in probation since, still holds a logical position (R331, R427). -/
def Port.needsRecovery (p : Port) : Bool := (upTo 68).any fun l => ((p.lane l).state == .retired || (p.lane l).state == .probation) && (p.lane l).logical.isSome

/-! ### The retry buffer (R420, R421) -/

/-- Drops the held flits that an ACK_SEQ covers. -/
def Port.ack (p : Port) (a : Nat) : Port :=
  match p.held.findIdx? fun h => h.seq == a with
  | none => p
  | some i =>
    let rest := p.held.drop (i + 1)
    let gone := (p.held.take (i + 1)).map Held.seq
    { p with
      held := rest, replays := 0
      replay := match p.replay with
        | some q => if gone.contains q then rest.head?.map Held.seq else some q
        | none => none }

/-- Starts a replay from a held flit; a port whose oldest flit has been replayed REPLAY_LIMIT times starts a recovery instead (R421). -/
def State.startReplay (s : State) (n : Nat) : State :=
  let p := s.port n
  match p.held with
  | [] => s
  | h :: _ =>
    let k := if p.replayOf = h.seq then p.replays else 0
    if p.replayLimit ≤ k then (s.modPort n fun p => { p with replays := 0, replay := some h.seq }).startRecovery n
    else s.modPort n fun p => { p with replay := some h.seq, replayOf := h.seq, replays := k + 1, replayCount := p.replayCount + 1 }

/-- Starts a recovery once the LANE_RETIRE that this end sent has been acknowledged (R427). -/
def State.retireAcked (s : State) (n : Nat) : State :=
  match (s.port n).retireWait with
  | none => s
  | some (q, _) =>
    if (s.port n).held.any fun h => h.seq == q then s
    else
      let s := s.modPort n fun p => { p with retireWait := none }
      if (s.port n).needsRecovery then s.startRecovery n else s

/-- What every good flit but INIT carries: credits, acknowledgement and NAK (R420, R421, R423, R429). -/
def State.flitAcks (s : State) (n : Nat) (f : Flit) : State :=
  let s := s.modPort n fun p =>
    let adv := fun (v : Nat) => (nth f.cred v + 4096 - nth p.farFreed v) % 4096
    { p with sent := (upTo 4).map fun v => nth p.sent v - adv v, farFreed := f.cred }
  let s := (s.modPort n fun p => p.ack f.ackSeq).retireAcked n
  if f.nak then (s.modPort n fun p => { p with nakRx := p.nakRx + 1 }).startReplay n else s

/-- A sequenced flit is discarded: it opens a NAK episode unless one is open (R420). -/
def State.flitDiscard (s : State) (n : Nat) : State :=
  if (s.port n).episode then s else s.modPort n fun p => { p with episode := true, nak := true, nakAt := s.now }

/-- Whether a flit's SEQ lies behind the next expected one: a duplicate, which raises no NAK (R429). -/
def Port.isOld (p : Port) (seq : Nat) : Bool := decide ((p.expect + 4096 - seq) % 4096 < 2048) && p.expect != seq

/-- A flit in sequence is accepted. -/
def State.flitTake (s : State) (n : Nat) : State := s.modPort n fun p => { p with expect := (p.expect + 1) % 4096, episode := false, nak := false }

end Sys2Proof.Machine
end

