-- ==== Sys2Proof/Machine/Link.lean ====
section
/-! DEFINITION. Tranyx link: training, INIT, flits received and sent, errors and port control (22_tranyx_link.md). -/

namespace Sys2Proof.Machine

open Sys2Proof

/-! ### Training (R412, R414, R415) -/

/-- Moves a port into a training state. -/
def State.portTo (s : State) (n : Nat) (x : PState) : State := s.modPort n fun p => { p with state := x, since := s.now }

/-- Effect of TRAINING_DETECT_DONE: a far-end signal on at least 16 lanes. -/
def detectDone (n : Nat) (signal : List Nat) (s : State) : State :=
  if (s.port n).state != .detect || decide ((sortUp (signal.filter (· < 68))).length < 16) then s else s.portTo n .equalize

/-- TRAINING_DETECT_DONE (R414). -/
def execTrainingDetectDone (port : Nat) (signal : List Nat) (s : State) : Host.Outcome State Fault Refusal := run (detectDone port signal) s

/-- Lanes fail in training: they leave the pass map and are retired (R414). -/
def State.lanesFail (s : State) (n : Nat) (failed : List Nat) : State :=
  s.each (failed.filter (· < 68)) fun s l =>
    (s.modPort n fun p => { p with pass := p.pass &&& ~~~ BitVec.twoPow 68 l }).laneGone n l

/-- A training state in which lanes may fail ends, and the next begins. -/
def State.trainStep (s : State) (n : Nat) (at_ next : PState) (failed : List Nat) : State :=
  if (s.port n).state != at_ then s else (s.lanesFail n failed).portTo n next

/-- TRAINING_EQUALIZE_DONE (R414). -/
def execTrainingEqualizeDone (port : Nat) (failed : List Nat) (s : State) : Host.Outcome State Fault Refusal :=
  run (fun s => s.trainStep port .equalize .fecLock failed) s

/-- TRAINING_FEC_LOCK_DONE (R414). -/
def execTrainingFecLockDone (port : Nat) (failed : List Nat) (s : State) : Host.Outcome State Fault Refusal :=
  run (fun s => s.trainStep port .fecLock .laneTest failed) s

/-- TRAINING_LANE_TEST_DONE (R414): after exactly 100 ms. -/
def execTrainingLaneTestDone (port : Nat) (failed : List Nat) (s : State) : Host.Outcome State Fault Refusal :=
  run (fun s => if s.now < (s.port port).since + 100000000 then s else s.trainStep port .laneTest .laneMap failed) s

/-- The pass map that an end sends: lanes that have passed and that it has not retired (R362, R414). -/
def State.passMap (s : State) (n : Nat) : BitVec 68 :=
  (upTo 68).foldl (fun (m : BitVec 68) l => if s.isRetired 1 (68 * n + l) then m &&& ~~~ BitVec.twoPow 68 l else m) (s.port n).pass

/-- Effect of TRAINING_LANE_MAP_DONE: a lane works when both maps mark it; below 16 working lanes the port is down. A lane that only the far end does not mark is in no width and gets no bit of the retirement map (R320). Lanes in probation are in no width (R331). -/
def laneMapDone (n : Nat) (farMap : BitVec 68) (s : State) : State :=
  if (s.port n).state != .laneMap then s
  else
    let both := s.passMap n &&& farMap
    let s := s.modPort n fun p => { p with lanes := (upTo 68).foldl (fun t l => tabMod {} t l fun x => { x with
        logical := none
        state := if (s.probeOf 1 (68 * n + l)).isSome then .probation else if both.getLsbD l then .spare else .retired }) p.lanes }
    let s := s.modPort n Port.mapLanes
    if (s.port n).width = 0 then s.portDown n else s.portTo n .deskew

/-- TRAINING_LANE_MAP_DONE (R412). -/
def execTrainingLaneMapDone (port : Nat) (farMap : BitVec 68) (s : State) : Host.Outcome State Fault Refusal := run (laneMapDone port farMap) s

/-- Effect of TRAINING_DESKEW_DONE: the lanes are aligned and INIT begins; in a recovery spares take retired lanes' places first (R415, R427). -/
def deskewDone (n : Nat) (s : State) : State :=
  let p := s.port n
  if p.state == .deskew then (s.portTo n .init).sendInit n
  else if p.state == .recovery then
    let s := s.modPort n Port.takeOver
    if (s.port n).width = 0 then s.portDown n else (s.portTo n .init).sendInit n
  else s

/-- TRAINING_DESKEW_DONE (R414). -/
def execTrainingDeskewDone (port : Nat) (s : State) : Host.Outcome State Fault Refusal := run (deskewDone port) s

/-- Longest stay in a training state, in ns (R414). -/
def trainMax : PState → Nat
  | .detect => 100000000
  | .equalize => 3000000000
  | .fecLock => 50000000
  | .laneTest => 100000000
  | .laneMap => 10000000
  | .deskew => 10000000
  | .init => 10000000
  | _ => 0

/-- Effect of TRAINING_TIMEOUT: a training state has passed its maximum time, and the port is down. A recovery has its own limit (R415). -/
def trainingTimeout (n : Nat) (s : State) : State :=
  let p := s.port n
  let m := trainMax p.state
  if m = 0 ∨ p.recSince ≠ none ∨ s.now ≤ p.since + m then s else s.portDown n

/-- TRAINING_TIMEOUT (R414). -/
def execTrainingTimeout (port : Nat) (s : State) : Host.Outcome State Fault Refusal := run (trainingTimeout port) s

/-- Effect of RECOVERY_TIMEOUT: a recovery that has not reached ACTIVE within 1 ms becomes a full training that keeps retry buffer, sequence numbers and credits. -/
def recoveryTimeout (n : Nat) (s : State) : State :=
  match (s.port n).recSince with
  | none => s
  | some t => if s.now < t + 1000000 then s else s.fullTraining n

/-- RECOVERY_TIMEOUT (R415). -/
def execRecoveryTimeout (port : Nat) (s : State) : Host.Outcome State Fault Refusal := run (recoveryTimeout port) s

/-! ### INIT (R424) -/

/-- Whether an INIT flit is good: it passes its checks and advertises at least 4 credits on each VC. -/
def initGood (f : Flit × Bool × Bool) : Bool :=
  f.2.1 && f.2.2 && f.1.kind == 3 && f.1.len == 0 && (upTo 4).all fun v => decide (4 ≤ leVal ((f.1.payload.drop (4 + 2 * v)).take 2))

/-- A port that has exchanged INIT flits is ACTIVE: after a reset by either end it starts afresh, else it replays from the other end's RX_NEXT. -/
def State.initDone (s : State) (n : Nat) : State :=
  let p := s.port n
  let reset := p.resetting || bit p.peer.toNat 24
  let s := if reset then s.portReset n else s.modPort n fun p =>
    let p := p.ack ((p.peerNext + 4095) % 4096)
    { p with replay := p.held.head?.map Held.seq }
  (s.modPort n fun p => { p with state := .active, since := s.now, resetting := false, recSince := none, keeping := false }).flushUnsent

/-- Effect of INIT_FLIT: outside INIT it breaks the header rules (R418). -/
def initFlit (n : Nat) (v : BitVec 2048) (s : State) : State :=
  let f := flitOf v
  let p := s.port n
  if p.state == .active then (if f.2.1 then s.modPort n fun p => { p with proto := p.proto + 1 } else s.modPort n fun p => { p with crcFail := p.crcFail + 1 })
  else if p.state != .init then s
  else if !f.2.1 then s.modPort n fun p => { p with crcFail := p.crcFail + 1 }
  else if !f.2.2 || f.1.kind != 3 || f.1.len != 0 then s.modPort n fun p => { p with proto := p.proto + 1 }
  else
    let pl := f.1.payload
    let s := s.modPort n fun p => { p with
      peer := BitVec.ofNat 32 (leVal (pl.take 4)), peerCred := (upTo 4).map fun v => leVal ((pl.drop (4 + 2 * v)).take 2)
      peerNext := leVal ((pl.drop 12).take 2) % 4096 }
    if !initGood f then s
    else
      let s := s.modPort n fun p => { p with peerGood := true, peerSeenUs := bit p.peer.toNat 25, farEp := some (bits p.peer.toNat 15 8) }
      if (s.port n).peerSeenUs then s.initDone n else s

/-- INIT_FLIT (R424). -/
def execInitFlit (port : Nat) (flit : BitVec 2048) (s : State) : Host.Outcome State Fault Refusal := run (initFlit port flit) s

/-- Effect of INIT_RESEND: every 1 µs in INIT. -/
def initResend (n : Nat) (s : State) : State :=
  let p := s.port n
  if p.state != .init || decide (s.now < p.lastInit + 1000) then s else s.sendInit n

/-- INIT_RESEND (R424). -/
def execInitResend (port : Nat) (s : State) : Host.Outcome State Fault Refusal := run (initResend port) s

/-! ### Flits received (R418 to R423, R427) -/

/-- Whether a flit keeps the header rules of R418 that need no sequence. -/
def flitRules (f : Flit × Bool × Bool) : Bool :=
  f.2.2 && (match f.1.kind with
    | 0 => f.1.len == 0
    | 1 => decide (1 ≤ f.1.len) && decide (f.1.len ≤ 240)
    | 2 => decide (1 ≤ f.1.len) && decide (f.1.len ≤ 240)
    | _ => false)

/-- LANE_STATUS from the far end: steps of a lane's probation, or its failure (R427, R332). -/
def State.laneStatus (s : State) (n lane : Nat) (pass : Bool) (steps : Nat) : State :=
  match s.probeOf 1 (68 * n + lane) with
  | none => s
  | some k =>
    if !pass then s.probeFail k 0x09
    else
      let p : Probe := tabGet {} s.frm.probes k
      let p := { p with steps := p.steps + steps }
      if s.frm.probeSteps ≤ p.steps then s.probePass k p else s.modFrm fun f => { f with probes := tabPut f.probes k p }

/-- Link control for the link layer (R427, R431). -/
def State.linkCtrl (s : State) (n : Nat) (pl : List Byte) : State :=
  let b := fun (i : Nat) => (pl.getD i 0).toNat
  let lane := b 1
  if 68 ≤ lane then s
  else if b 0 = 0x10 then
    let s := s.laneGone n lane
    if (s.port n).needsRecovery then s.startRecovery n else s
  else if b 0 = 0x11 then s.laneStatus n lane (b 2 == 1) (leVal ((pl.drop 4).take 4))
  else s

/-- Takes the payload of an accepted DATA flit; a whole transaction joins the inbox, and the flit's buffer is free (R419, R423). -/
def State.dataTake (s : State) (n : Nat) (f : Flit) : State :=
  let old := ((s.port n).rx.getD f.vc none).getD []
  let bs := old ++ f.payload
  let s := s.modPort n fun p => { p with
    rx := p.rx.set f.vc (if f.eot then none else some bs), freed := p.freed.set f.vc ((nth p.freed f.vc + 1) % 4096) }
  if !f.eot then s
  else match parseTrans bs with
    | some t => { s with inbox := s.inbox ++ [t] }
    | none => s.modPort n fun p => { p with proto := p.proto + 1 }

/-- Whether SOT and EOT of a DATA flit are in order on its VC (R418). -/
def Port.inOrder (p : Port) (f : Flit) : Bool := f.kind != 1 || f.sot == (p.rx.getD f.vc none).isNone

/-- Corrections of the codewords that carried a flit: counted on their lanes, and as corrected errors (R299, R426). -/
def State.fecCount (s : State) (n : Nat) (fec : List FecSeen) : State :=
  s.each fec fun s x => (s.modPort n fun p => { p with lanes := tabMod {} p.lanes x.lane fun l => { l with
    corrCw := l.corrCw + BitVec.ofNat 64 x.codewords, corrSym := l.corrSym + BitVec.ofNat 64 x.symbols } }).modFlt fun f => { f with corrected := f.corrected + BitVec.ofNat 64 x.codewords }

/-- The lane with the most corrected symbols among a flit's codewords, the lower one of a tie; none where no symbol was corrected (R426). -/
def fecLane (fec : List FecSeen) : Option Nat :=
  let most := greatest 0 (fec.map FecSeen.symbols)
  if most = 0 then none else least ((fec.filter fun x => x.symbols == most).map FecSeen.lane)

/-- A CRC failure with no uncorrectable codeword is charged to that lane, or counts as unattributed (R300, R426). -/
def State.crcFailed (s : State) (n : Nat) (fec : List FecSeen) : State :=
  let s := s.modPort n fun p => { p with crcFail := p.crcFail + 1 }
  match fecLane fec with
  | none => s.modPort n fun p => { p with unattr := p.unattr + 1 }
  | some l => (s.modPort n fun p => { p with lanes := tabMod {} p.lanes l fun x => { x with crcCharged := x.crcCharged + 1 } }).upset 0x09 1 (68 * n + l) none

/-- Effect of a DATA, CTRL or IDLE flit. `sequenced`: the kind as which a flit with a failed CRC is taken; `fec`: what was corrected in its codewords. -/
def rxFlit (n : Nat) (v : BitVec 2048) (fec : List FecSeen) (sequenced : Bool) (s : State) : State :=
  let p := s.port n
  let f := flitOf v
  let s := if p.state == .init || p.state == .active then s.fecCount n (fec.filter fun x => decide (x.lane < 68)) else s
  if p.state == .init then (if f.2.1 then s.modPort n fun p => { p with proto := p.proto + 1 } else s.modPort n fun p => { p with crcFail := p.crcFail + 1 })
  else if p.state != .active then s
  else if !f.2.1 then
    let s := s.crcFailed n (fec.filter fun x => decide (x.lane < 68))
    if sequenced then s.flitDiscard n else s
  else if !flitRules f then
    let s := s.modPort n fun p => { p with proto := p.proto + 1 }
    if f.1.kind = 1 ∨ f.1.kind = 2 then s.flitDiscard n else s
  else
    let s := s.flitAcks n f.1
    if f.1.kind = 0 then s
    else if f.1.seq ≠ (s.port n).expect then (if (s.port n).isOld f.1.seq then s else s.flitDiscard n)
    else if !(s.port n).inOrder f.1 then (s.modPort n fun p => { p with proto := p.proto + 1 }).flitDiscard n
    else
      let s := s.flitTake n
      if f.1.kind = 1 then s.dataTake n f.1 else s.linkCtrl n f.1.payload

/-- IDLE_FLIT (R420). -/
def execIdleFlit (port : Nat) (flit : FlitIn) (s : State) : Host.Outcome State Fault Refusal := run (rxFlit port flit.word flit.fec false) s

/-- DATA_FLIT (R420). -/
def execDataFlit (port : Nat) (flit : FlitIn) (s : State) : Host.Outcome State Fault Refusal := run (rxFlit port flit.word flit.fec true) s

/-- CTRL_FLIT (R427). -/
def execCtrlFlit (port : Nat) (flit : FlitIn) (s : State) : Host.Outcome State Fault Refusal := run (fun s => rxFlit port flit.word flit.fec true s) s

/-! ### Flits sent (R420, R421, R425) -/

/-- Sends a flit with the port's acknowledgements; a NAK that was due goes with it (R420). -/
def State.putFlit (s : State) (n : Nat) (f : Flit) : State :=
  let p := s.port n
  (s.emit (.flit n (flitBits (p.stamp f)))).modPort n fun p => { p with
    nak := false, nakTx := if p.nak then p.nakTx + 1 else p.nakTx, nakAt := if p.nak then s.now else p.nakAt }

/-- A held flit as it is sent again (R421). -/
def Held.flit (h : Held) : Flit := { seq := h.seq, vc := h.vc, kind := h.kind, len := h.len, sot := h.sot, eot := h.eot, payload := h.payload }

/-- Sends a new sequenced flit and holds it (R421). -/
def State.sendNew (s : State) (n : Nat) (h : Held) : State :=
  let h := { h with seq := (s.port n).sendSeq, sentAt := s.now }
  let s := s.putFlit n h.flit
  s.modPort n fun p => { p with sendSeq := (p.sendSeq + 1) % 4096, held := p.held ++ [h] }

/-- Sends the next flit of a replay. -/
def State.sendReplay (s : State) (n q : Nat) : State :=
  match (s.port n).held.find? fun h => h.seq == q with
  | none => s.modPort n fun p => { p with replay := none }
  | some h =>
    let s := s.putFlit n h.flit
    s.modPort n fun p => { p with
      replayFlits := p.replayFlits + 1, held := p.held.map fun x => if x.seq = q then { x with sentAt := s.now } else x
      replay := ((p.held.dropWhile fun x => x.seq != q).drop 1).head?.map Held.seq }

/-- Whether a VC has a flit and a credit (R423, R425). -/
def Port.canSend (p : Port) (v : Nat) : Bool := !(p.vcQ.getD v []).isEmpty && decide (nth p.sent v < nth p.peerCred v)

/-- The VC of the next DATA flit: VC3 first, then VC0 to VC2 in turn (R425). -/
def Port.nextVc (p : Port) : Option Nat :=
  if p.canSend 3 then some 3 else ([0, 1, 2].map fun i => (p.rr + i) % 3).find? p.canSend

/-- Sends the first waiting DATA flit of a VC. -/
def State.sendData (s : State) (n v : Nat) : State :=
  match (s.port n).vcQ.getD v [] with
  | [] => s
  | c :: rest =>
    let s := s.sendNew n { seq := 0, vc := v, kind := 1, len := c.len, sot := c.sot, eot := c.eot, payload := c.payload, sentAt := 0 }
    s.modPort n fun p => { p with vcQ := p.vcQ.set v rest, sent := p.sent.set v (nth p.sent v + 1), rr := if v = 3 then p.rr else (v + 1) % 3 }

/-- Effect of FLIT_SEND: one flit slot of an ACTIVE port. -/
def flitSend (n : Nat) (s : State) : State :=
  let p := s.port n
  if p.state != .active then s
  else match p.replay with
    | some q => s.sendReplay n q
    | none =>
      let idle := s.putFlit n { seq := (p.sendSeq + 4095) % 4096 }
      if 512 ≤ p.held.length then idle
      else match p.ctrlQ with
        | c :: rest =>
          let seq := p.sendSeq
          let s := s.sendNew n { seq := 0, vc := 0, kind := 2, len := c.length, sot := false, eot := false, payload := c, sentAt := 0 }
          s.modPort n fun p => { p with ctrlQ := rest, retireWait := if c.head? = some 0x10 then some (seq, s.now) else p.retireWait }
        | [] => match p.nextVc with
          | some v => s.sendData n v
          | none => idle

/-- FLIT_SEND (R425). -/
def execFlitSend (port : Nat) (s : State) : Host.Outcome State Fault Refusal := run (flitSend port) s

/-- Effect of NAK_REPEAT: 1 µs after the last NAK of an open episode. -/
def nakRepeat (n : Nat) (s : State) : State :=
  let p := s.port n
  if !p.episode || p.nak || decide (s.now < p.nakAt + 1000) then s else s.modPort n fun p => { p with nak := true, nakAt := s.now }

/-- NAK_REPEAT (R420). -/
def execNakRepeat (port : Nat) (s : State) : Host.Outcome State Fault Refusal := run (nakRepeat port) s

/-- Effect of ACK_TIMEOUT: the oldest unacknowledged flit has waited ACK_TIMEOUT. -/
def ackTimeout (n : Nat) (s : State) : State :=
  let p := s.port n
  match p.held with
  | [] => s
  | h :: _ => if p.state != .active || p.replay.isSome || decide (s.now < h.sentAt + p.ackTimeout) then s else s.startReplay n

/-- ACK_TIMEOUT (R421). -/
def execAckTimeout (port : Nat) (s : State) : Host.Outcome State Fault Refusal := run (ackTimeout port) s

/-! ### Errors and lane retirement (R426, R427) -/

/-- Effect of UNCORRECTABLE_CODEWORD: one upset of the lane; where the lane is active every flit with a word in it fails. -/
def badCodeword (n l : Nat) (s : State) : State :=
  if 68 ≤ l ∨ 8 ≤ n then s
  else
    let s := s.modPort n fun p => { p with lanes := tabMod {} p.lanes l fun x => { x with uncorr := x.uncorr + 1 } }
    let s := if (s.port n).state == .active && ((s.port n).lane l).state == .active then s.flitDiscard n else s
    s.upset 0x09 1 (68 * n + l) none

/-- UNCORRECTABLE_CODEWORD (R426). -/
def execUncorrectableCodeword (port lane : Nat) (s : State) : Host.Outcome State Fault Refusal := run (badCodeword port lane) s

/-- Effect of FEC_LOCK_LOSS: one upset of the lane, and a recovery where it is active. -/
def lockLoss (n l : Nat) (s : State) : State :=
  if 68 ≤ l ∨ 8 ≤ n then s
  else
    let active := ((s.port n).lane l).state == .active
    let s := s.upset 0x09 1 (68 * n + l) none
    if active then s.startRecovery n else s

/-- FEC_LOCK_LOSS (R426). -/
def execFecLockLoss (port lane : Nat) (s : State) : Host.Outcome State Fault Refusal := run (lockLoss port lane) s

/-- Effect of LANE_RETIRE_WAIT_EXPIRY: 2 µs after LANE_RETIRE was sent the recovery starts. -/
def retireExpiry (n : Nat) (s : State) : State :=
  match (s.port n).retireWait with
  | none => s
  | some (_, t) =>
    if s.now < t + 2000 then s
    else
      let s := s.modPort n fun p => { p with retireWait := none }
      if (s.port n).needsRecovery then s.startRecovery n else s

/-- LANE_RETIRE_WAIT_EXPIRY (R427). -/
def execLaneRetireWaitExpiry (port : Nat) (s : State) : Host.Outcome State Fault Refusal := run (retireExpiry port) s

/-! ### Port control (R415, R428) -/

/-- Whether the TXL block takes writes: only in READY (R359). -/
def State.txlOpen (s : State) (n : Nat) : Bool := s.frm.state == .ready && decide (n < 8)

/-- Effect of TXL_RESET: the retry buffer is dropped and full training starts with RESET = 1; a port held down stays down. -/
def txlReset (n : Nat) (s : State) : State :=
  if !s.txlOpen n then s
  else
    let s := (s.modPort n fun p => { p with resetting := true }).portReset n
    if (s.port n).enable then s.fullTraining n else s

/-- TXL_RESET (R428). -/
def execTxlReset (port : Nat) (s : State) : Host.Outcome State Fault Refusal := run (txlReset port) s

/-- TXL_RETRAIN (R415). -/
def execTxlRetrain (port : Nat) (s : State) : Host.Outcome State Fault Refusal := run (fun s => if s.txlOpen port then s.startRecovery port else s) s

/-- Effect of TXL_ENABLE: 0 acts as RESET and holds the port down; 1 lets it train at its next try. -/
def txlEnable (n : Nat) (on : Bool) (s : State) : State :=
  if !s.txlOpen n || (s.port n).enable == on then s
  else if on then s.modPort n fun p => { p with enable := true }
  else (s.modPort n fun p => { p with enable := false }).portDown n

/-- TXL_ENABLE (R428). -/
def execTxlEnable (port : Nat) (enable : Bool) (s : State) : Host.Outcome State Fault Refusal := run (txlEnable port enable) s

/-- Effect of DOWN_PORT_RETRY: 1 s after it went down, a port with ENABLE = 1 tries DETECT again. -/
def downRetry (n : Nat) (s : State) : State :=
  let p := s.port n
  if p.state != .down || !p.enable || decide (s.now < p.lastTry + 1000000000) || s.frm.state != .ready then s else s.fullTraining n

/-- DOWN_PORT_RETRY (R428). -/
def execDownPortRetry (port : Nat) (s : State) : Host.Outcome State Fault Refusal := run (downRetry port) s

end Sys2Proof.Machine
end

