-- ==== Sys2Proof/Machine/Startup.lean ====
section
/-! DEFINITION. Start-up from power-good to READY, resets, and configuration requests (R355 to R375, R377 to R381, R488, R493). -/

namespace Sys2Proof.Machine

open Sys2Proof

/-! ### Power-good (R368, R493) -/

/-- The block right after a cold reset: one-time programmable bits and fuses are all that is kept, and POWER_CAP and its mark take the ceiling. -/
def State.cold (s : State) (x : Straps) : State :=
  let p : Pwr := { fuses := s.pwr.fuses }
  { pending := s.pending, power := true, out := s.out, freeCtr := s.freeCtr
    frm := { waferId := x.waferId % 16, lead := x.leadLow, serial := x.serial, ledger := s.frm.ledger }
    pwr := { p with cap := p.ceiling, wmPower := { mark := p.ceiling } } }

/-- Effect of POWER_GOOD: a cold reset with the straps of this moment. -/
def powerGood (x : Straps) (s : State) : State := if s.power then s else s.cold x

/-- POWER_GOOD (R493). -/
def execPowerGood (straps : Straps) (s : State) : Host.Outcome State Fault Refusal := runAny (powerGood straps) s

/-- A ledger commit that loses power before VALID is programmed spends its slot, where it had one to program (R328). -/
def State.ledgerCut (s : State) : State :=
  match s.frm.programming with
  | some (k, o) => { s with frm := s.frm.program k (partSlot k o) }
  | none => s

/-- Effect of POWER_GOOD_LOSS: everything stops; only one-time programmable bits and fuses last. -/
def powerGoodLoss (s : State) : State :=
  if !s.power then s
  else
    let s := s.ledgerCut
    { s.cold { waferId := s.frm.waferId, leadLow := s.frm.lead, serial := s.frm.serial } with power := false }

/-- POWER_GOOD_LOSS (R493). -/
def execPowerGoodLoss (s : State) : Host.Outcome State Fault Refusal := runAny powerGoodLoss s

/-! ### Frame boot (R357, R358) -/

/-- Whether an image's header and CRC are valid (R357). -/
def imageValid (b : BootImage) : Bool :=
  b.magic == 0x4C53594E && decide (b.length ≤ 0x02000000 - 16) && b.body.length == b.length && b.crc.toNat == crc32 b.body

/-- Start-up ends in FAILED with a reason (R366). -/
def State.fail (s : State) (reason : Nat) : State := (s.enter .failed).modFrm fun f => { f with reason := reason }

/-- Effect of FRAME_BOOT_DONE: image A where valid, else image B, else NO_IMAGE; every port whose link is up sends Device Readiness Status. -/
def frameBootDone (a b : BootImage) (s : State) : State :=
  if s.frm.state != .frameBoot then s
  else
    let s := s.modFrm fun f => { f with aValid := imageValid a, bValid := imageValid b }
    let s := s.each [0, 1, 2, 3] fun s p => s.when (tabGet false s.linkUp p) fun s => s.emit (.deviceReadiness p)
    if !imageValid a && !imageValid b then s.fail 1
    else
      let x := if imageValid a then a else b
      (s.modFrm fun f => { f with image := b2n (!imageValid a), bootVersion := x.version, subsystem := x.subsystem, stack := x.cfg }).enter .domainUp

/-- FRAME_BOOT_DONE (R357). -/
def execFrameBootDone (imageA imageB : BootImage) (s : State) : Host.Outcome State Fault Refusal := run (frameBootDone imageA imageB) s

/-! ### Domains, BIST and the ledger (R360 to R362) -/

/-- Effect of DOMAIN_SWITCH_ON: Dk is switched on 50k ms after DOMAIN_UP began. -/
def domainSwitchOn (d : Nat) (s : State) : State :=
  if s.frm.state != .domainUp || d != s.frm.switched || decide (16 ≤ d) || decide (s.now < s.frm.stateTime + 50000000 * d) then s
  else (s.modDom d fun x => x.goTo .active s.now).modFrm fun f => { f with switched := d + 1 }

/-- DOMAIN_SWITCH_ON (R360). -/
def execDomainSwitchOn (dom : Nat) (s : State) : Host.Outcome State Fault Refusal := run (domainSwitchOn dom) s

/-- Effect of TILE_BIST_ROUND_DONE: round r has tested D4r to D4r + 3; after the fourth round LEDGER_MERGE begins. -/
def bistRoundDone (r : Nat) (failed : List Nat) (s : State) : State :=
  if s.frm.state != .tileBist || r != s.frm.rounds then s
  else
    let bad := failed.filter fun pt => decide (pt < Config.physTiles) && domOfStrip (pt / 17) / 4 == r
    let s := s.modFrm fun f => { f with bistFailed := f.bistFailed ++ bad, rounds := r + 1 }
    let s := s.each bad fun s pt => let (v, s) := s.draw 203; s.when (v.getLsbD 0) fun s => s.modFrm fun f => { f with badRouters := insertUp pt f.badRouters }
    if r = 3 then s.enter .ledgerMerge else s

/-- TILE_BIST_ROUND_DONE (R361). -/
def execTileBistRoundDone (round : Nat) (failed : List Nat) (s : State) : Host.Outcome State Fault Refusal := run (bistRoundDone round failed) s

/-- The column map of a strip at start-up: logical column c is the c-th working physical tile, one left over is unused (R362). -/
def startMap (bad : Nat → Bool) : ColMap :=
  let l := (upTo 17).filter fun c => !bad c
  ({ cols := (upTo 16).map (fun c => l.getD c 0x1F), unused := l.getD 16 0x1F } : ColMap).judge

/-- Effect of LEDGER_MERGE: the map of the newest valid slot with the tiles that failed BIST; column maps, strip states and retired lanes follow (R320, R362). -/
def ledgerMerge (s : State) : State :=
  if s.frm.state != .ledgerMerge then s
  else
    let m := match s.frm.newest with
      | some k => slotMap (s.frm.slot k)
      | none => (0, 0, 0)
    let tiles := s.frm.bistFailed.foldl (fun (v : BitVec 8704) pt => v ||| BitVec.twoPow 8704 pt) m.1
    let strips := (upTo Config.strips).filter fun i => bits tiles.toNat (17 * i + 16) (17 * i) != 0
    let maps := strips.foldl (fun (t : Tab ColMap) i => tabPut t i (startMap fun c => tiles.getLsbD (17 * i + c))) []
    let s := s.modFrm fun f => { f with rTiles := tiles, rLanes := m.2.1, rPch := m.2.2, colmaps := maps }
    let lanes := (upTo 544).filter fun k => m.2.1.getLsbD k
    let s := s.each lanes fun s k => s.modPort (k / 68) fun p => { p with lanes := tabMod {} p.lanes (k % 68) fun l => { l with state := .retired, logical := none } }
    s.enter .hbmTrain

/-- LEDGER_MERGE (R362). -/
def execLedgerMerge (s : State) : Host.Outcome State Fault Refusal := run ledgerMerge s

/-! ### Memory and link training (R363, R364) -/

/-- Effect of HBM_TRAIN_DONE: pseudo-channels that failed are retired; a stack that failed, or has none left, is down and counts as 32 retired ones (R398). -/
def hbmTrainDone (stacksDown failed : List Nat) (s : State) : State :=
  if s.frm.state != .hbmTrain then s
  else
    let s := s.modFrm fun f => (failed.filter fun n => decide (n < 768)).foldl (fun f n => f.setRetired 2 n true) f
    let downs := (upTo 24).filter fun m => stacksDown.contains m || (upTo 32).all fun i => s.frm.rPch.getLsbD (32 * m + i)
    let s := s.modFrm fun f => { f with hbmDown := downs }
    let out := (upTo 768).filter fun n => s.frm.rPch.getLsbD n || downs.contains (n / 32)
    let s := s.each out fun s n => s.pcOut n false
    let s := s.each (upTo 24) fun s m => s.modCtl m fun c => { c with up := !downs.contains m }
    if downs.length = 24 then s.fail 3 else (s.each (upTo 8) State.fullTraining).enter .txTrain

/-- HBM_TRAIN_DONE (R363). -/
def execHbmTrainDone (stacksDown failedPcs : List Nat) (s : State) : Host.Outcome State Fault Refusal := run (hbmTrainDone stacksDown failedPcs) s

/-! ### Identity (R441) -/

/-- Whether this wafer is the lead: by its role, or before it has one by its straps (R365). -/
def State.isLead (s : State) : Bool := s.frm.role == 1 || (s.frm.role == 0 && s.frm.lead && s.frm.waferId == 0)

/-- The identity block of this wafer (R441). MAX_OUT of a wafer is free (log 25). -/
def State.identity (s : State) (claim : Bool) : List Byte :=
  leBytes 1 2 ++ leBytes 0 1 ++ leBytes s.frm.waferId 1 ++ leBytes s.frm.stack.crc.toNat 4 ++ leBytes (b2n claim + 2 * b2n s.isLead) 1 ++ leBytes 0 3
    ++ leBytes 0xFF 4 ++ leBytes (Config.free64 0 200).toNat 2 ++ leBytes 0 6 ++ leBytes s.frm.serial.toNat 8 ++ leBytes 0 32

/-- Sends ID on every port that is up (R441, R446). -/
def State.sendIds (s : State) (claim : Bool) : State :=
  s.each (upTo 8) fun s p =>
    match (s.port p).state, (s.port p).farEp with
    | .active, some e =>
      let tid := s.stk.nextTid
      let s := s.modStk fun k => { k with nextTid := (tid + 1) % 2 ^ 32, requests := k.requests ++ [(tid, e, 0, some p)] }
      s.sendOn p { typ := tID, src := s.frm.waferId, dst := e, tid := BitVec.ofNat 32 tid, len := 64, data := s.identity claim }
    | _, _ => s

/-- Effect of TX_TRAIN_DONE: every port is up or down; STACK_FORM begins, and ID goes out on every port that is up. -/
def txTrainDone (s : State) : State :=
  if s.frm.state != .txTrain || !((upTo 8).all fun p => (s.port p).state == .active || (s.port p).state == .down) then s
  else (s.enter .stackForm).sendIds false

/-- TX_TRAIN_DONE (R364). -/
def execTxTrainDone (s : State) : Host.Outcome State Fault Refusal := run txTrainDone s

/-! ### Stack formation and READY (R365, R367, R400) -/

/-- Wafers of the stack configuration other than this one. -/
def State.otherWafers (s : State) : List Nat := s.frm.stack.members.filter (· != s.frm.waferId)

/-- A watermark group at READY: PEAK is LEVEL, CROSSED and CROSS_COUNT are 0 (R367). -/
def Wm.atReady (w : Wm) : Wm := { w with peak := w.level, count := 0, crossed := false }

/-- The device reports READY: LIMIT is fixed from TOP and GUARD (R400). -/
def State.becomeReady (s : State) : State :=
  let s := (s.enter .ready).modFrm fun f => { f with hbmLimit := s.hbmTop - f.guard * Config.pcBytes }
  let s := s.modPwr fun p => { p with wmPower := p.wmPower.atReady, wmTemp := p.wmTemp.atReady }
  { s with wmLot := s.wmLot.atReady }.modFlt fun f => { f with wm := f.wm.atReady }

/-- A wafer of the stack configuration known to have joined. -/
def State.joined (s : State) (w : Nat) : Bool := w == s.frm.waferId || (tabHas s.stk.peers w && (tabGet ({} : Peer) s.stk.peers w).kindEp == 0)

/-- Membership map of the wafers that have joined. -/
def State.memberMap (s : State) : BitVec 16 :=
  (upTo 16).foldl (fun (m : BitVec 16) w => if s.joined w then m ||| BitVec.twoPow 16 w else m) 0

/-- The lead that has answered this wafer, if one has (R365, R442): by a beacon, or by its identity. -/
def State.leadSeen (s : State) : Option Nat :=
  if s.stk.leadTime.isSome then some s.frm.leadId
  else (s.stk.peers.find? fun x => x.2.lead && x.2.kindEp == 0 && x.1 != s.frm.waferId).map Prod.fst

/-- A follower joins a lead and takes its device time (R339, R365): the time of its last beacon, moved on to now; where no beacon has come, R441 carries no time and the value is free. -/
def State.follow (s : State) (lead : Nat) : State :=
  let x : Nat × State := match s.stk.leadTime with
    | some (t, at_) => (t + (s.now - at_), s)
    | none => let r := s.draw 201; (r.1.toNat, r.2)
  let s := { x.2 with now := x.1 }
  (s.modFrm fun f => { f with role := 2, leadId := lead }).modStk fun k => { k with lastBeacon := s.now, lastSync := s.now }

/-- Effect of STACK_FORM_DONE. -/
def stackFormDone (r : FormResult) (s : State) : State :=
  if !s.power || s.frm.state != .stackForm then s
  else
    let late := decide (s.frm.stateTime + 10000000000 ≤ s.now)
    match r with
    | .idConflict => if tabHas s.stk.peers s.frm.waferId then s.fail 5 else s
    | .noLead => if !s.isLead && s.leadSeen.isNone && !s.otherWafers.isEmpty && late then s.fail 4 else s
    | .formed =>
      match s.leadSeen with
      | some l => (s.follow l).becomeReady
      | none =>
        if s.otherWafers.isEmpty then (s.modFrm fun f => { f with members := BitVec.twoPow 16 f.waferId, leadId := f.waferId }).becomeReady
        else if s.isLead && (late || s.otherWafers.all s.joined) then
          ((s.modFrm fun f => { f with role := 1, leadId := f.waferId, members := s.memberMap }).modStk fun k => { k with lastBeacon := s.now, beacons := 0 }).becomeReady
        else s

/-- STACK_FORM_DONE (R365). -/
def execStackFormDone (result : FormResult) (s : State) : Host.Outcome State Fault Refusal := runAny (stackFormDone result) s

/-- Longest stay in a start-up state, in ns (R355). -/
def startupMax : Startup → Option Nat
  | .frameBoot => some 1000000000
  | .domainUp => some 752000000
  | .tileBist => some 16000000000
  | .ledgerMerge => some 50000000
  | .hbmTrain => some 5000000000
  | .txTrain => some 4000000000
  | .stackForm => some 12000000000
  | .ready => none
  | .failed => none

/-- Effect of STARTUP_TIMEOUT: FAILED with reason TIMEOUT, or DOMAIN where a domain has not reached ACTIVE (R360). -/
def startupTimeout (s : State) : State :=
  match startupMax s.frm.state with
  | none => s
  | some m => if s.now ≤ s.frm.stateTime + m then s else s.fail (if s.frm.state = .domainUp then 2 else 6)

/-- STARTUP_TIMEOUT (R356). -/
def execStartupTimeout (s : State) : Host.Outcome State Fault Refusal := run startupTimeout s

/-! ### Configuration requests (R358, R377 to R381) -/

/-- Whether a capability of the list is one of the PF's (R379). -/
def pfCap (f : CfgField) : Bool :=
  [CfgField.capPowerManagement, .capPciExpressFlr, .capMsix, .capAer, .capAri, .capSriov, .capAcs, .capSerial, .capDataLink, .capPhysicalLayer, .capLaneMargining, .capDevice3].contains f

/-- Whether a capability is one of a VF's (R379). -/
def vfCap (f : CfgField) : Bool := [CfgField.capPciExpressFlr, .capMsix, .capAer, .capAri].contains f

/-- The value of a configuration field of a client's function (R377 to R381). -/
def State.cfgValue (s : State) (n : Nat) (f : CfgField) : Nat :=
  let pf := funOf n == 0
  let onPf := fun (v : Nat) => if pf then v else 0
  match f with
  | .vendorId => if pf then 0x1F6A else 0xFFFF
  | .deviceId => if pf then 0x0900 else 0xFFFF
  | .revisionId => 0x10
  | .classCode => 0x120000
  | .subsystemVendorId => 0x1F6A
  | .subsystemId => s.frm.subsystem.toNat
  | .serialNumber => onPf s.frm.serial.toNat
  | .interruptPin => 0
  | .totalVfs => onPf 31
  | .initialVfs => onPf 31
  | .firstVfOffset => onPf 1
  | .vfStride => onPf 1
  | .pageSizes => onPf 1
  | .numVfs => onPf (tabGet 0 s.numVfs (portOf n))
  | .vfDeviceId => onPf 0x0901
  | .barSizeLog2 b => if b = 0 then (if pf then 28 else 16) else if b = 2 then (if pf then 36 else 32) else 0
  | .busMasterEnable => b2n (s.client n).func.bme
  | .powerState => if (s.client n).func.d3hot then 3 else 0
  | f => b2n (if pf then pfCap f else vfCap f)

/-- Effect of CONFIG_REQUEST: a port answers from 100 ms after power-good and the end of its link training on; until FRAME_BOOT of a cold start ends, with Retry Status. -/
def configRequest (n : Nat) (f : CfgField) (s : State) : State :=
  if decide (Config.clients ≤ n) || !tabGet false s.linkUp (portOf n) || (decide (s.now < 100000000) && !s.frm.afterWarm) then s
  else if s.frm.state == .frameBoot && !s.frm.afterWarm then s.emit .configRetry
  else if !s.functionExists n then s.emit .unsupportedRequest
  else s.emit (.configReply f (BitVec.ofNat 64 (s.cfgValue n f)))

/-- CONFIG_REQUEST (R358). -/
def execConfigRequest (client : Nat) (field : CfgField) (s : State) : Host.Outcome State Fault Refusal := run (configRequest client field) s

/-! ### Warm reset (R368, R369, R488, R489) -/

/-- Effect of FRM_RESET: a 4-byte write through PF BAR0 with KEY and WARM. -/
def frmReset (via : Via) (v : W32) (s : State) : State :=
  if !Via.isPf via || s.frm.state == .frameBoot || bits v.toNat 15 0 != 0x5752 || !bit v.toNat 16 then s else s.askReset 2

/-- FRM_RESET (R488). -/
def execFrmReset (via : Via) (value : W32) (s : State) : Host.Outcome State Fault Refusal := run (frmReset via value) s

/-- A client after a warm reset: its function's configuration space is kept, with its MSI-X table (R369). -/
def Client.warm (c : Client) : Client :=
  { func := { bme := c.func.bme, d3hot := c.func.d3hot, masked := c.func.masked, funcMask := c.func.funcMask, msixTable := c.func.msixTable } }

/-- The fault block after a warm reset: the log and its counters are kept (R369). -/
def Flt.warm (f : Flt) : Flt :=
  { corrected := f.corrected, upsets := f.upsets, permanent := f.permanent, latent := f.latent, losses := f.losses, mismatch := f.mismatch
    pairFail := f.pairFail, head := f.head, log := f.log }

/-- Effect of WARM_RESET: it waits for a ledger commit or a ceiling lowering in progress (R373). -/
def warmReset (s : State) : State :=
  match s.frm.resetReq with
  | none => s
  | some reason =>
    if s.frm.ledgerOp.isSome || s.pwr.lowering.isSome then s
    else
      let c := s.cold { waferId := s.frm.waferId, leadLow := s.frm.lead, serial := s.frm.serial }
      { c with
        now := s.now, numVfs := s.numVfs, linkUp := s.linkUp, jtag := s.jtag, flt := s.flt.warm
        clients := s.clients.map fun x => (x.1, x.2.warm)
        frm := { c.frm with
          guard := s.frm.guard, resetReason := reason, warms := satTo 0xFFFF (s.frm.warms + 1), resetTime := s.now, afterWarm := true, stateTime := s.now } }

/-- WARM_RESET (R369). -/
def execWarmReset (s : State) : Host.Outcome State Fault Refusal := run warmReset s

end Sys2Proof.Machine
end

