-- ==== Sys2Proof/Machine/Pcie.lean ====
section
/-! DEFINITION. Functions of the host ports: function resets, Bus Master Enable, D-states, BAR2 and link events (R375, R376, R382 to R390, R464). -/

namespace Sys2Proof.Machine

open Sys2Proof

/-! ### Function resets (R225, R286, R387 to R389, R464) -/

/-- What a function reset clears of a client beside its context: accounting (R286), watermark groups and undelivered vector-3 messages (R464), and the function's own configuration. -/
def Client.flrClear (c : Client) (now : Nat) : Client :=
  { c with acct := {}, wmQ0 := {}, wmQ1 := {}, wmDefer := {}, deferNow := 0, parkedSince := now, func := {} }

/-- A client torn down as under a VF FLR (R225, R464). -/
def State.flrTear (s : State) (n : Nat) : State := ((s.endHalt n).teardown n true).modClient n fun c => c.flrClear s.now

/-- The FLR of a function that goes on: the teardown, then a new empty context with the same binding where there was one (R387). -/
def State.flrClient (s : State) (n : Nat) : State :=
  let had := (s.client n).en
  let s := (s.flrTear n).modClient n fun c => { c with func := { c.func with flr := true } }
  if had then s.createContext n else s

/-- Effect of VF_FLR. -/
def vfFlr (n : Nat) (s : State) : State :=
  if funOf n = 0 ∨ Config.clients ≤ n ∨ !s.functionExists n then s else s.flrClient n

/-- VF_FLR (R387). -/
def execVfFlr (client : Nat) (s : State) : Host.Outcome State Fault Refusal := run (vfFlr client) s

/-- VF_FLR_DONE (R387): memory requests to the function are served again. -/
def execVfFlrDone (client : Nat) (s : State) : Host.Outcome State Fault Refusal :=
  run (fun s => s.modClient client fun c => { c with func := { c.func with flr := false } }) s

/-- NumVFs of a port is set: each VF that ceases to exist is torn down as under VF FLR, and its EN is 0 (R378, R389). -/
def State.setVfs (s : State) (port k : Nat) : State :=
  let old := tabGet 0 s.numVfs port
  let gone := ((upTo 32).filter fun f => decide (k < f) && decide (f ≤ old)).map fun f => 32 * port + f
  let s := s.each gone State.flrTear
  { s with numVfs := tabPut s.numVfs port k }

/-- Effect of VF_ENABLE_CLEAR: NumVFs of a port takes a value from 0 to 31. -/
def vfEnable (port k : Nat) (s : State) : State := if 4 ≤ port ∨ 32 ≤ k then s else s.setVfs port k

/-- VF_ENABLE_CLEAR (R389). -/
def execVfEnableClear (port numVfs : Nat) (s : State) : Host.Outcome State Fault Refusal := run (vfEnable port numVfs) s

/-- Effect of PF_FLR. -/
def pfFlr (port : Nat) (s : State) : State := if 4 ≤ port then s else (s.setVfs port 0).flrClient (32 * port)

/-- PF_FLR (R388). -/
def execPfFlr (port : Nat) (s : State) : Host.Outcome State Fault Refusal := run (pfFlr port) s

/-! ### Bus Master Enable and D-states (R390) -/

/-- Effect of BUS_MASTER_ENABLE_CHANGE. -/
def busMaster (n : Nat) (on : Bool) (s : State) : State :=
  if Config.clients ≤ n ∨ !s.functionExists n then s
  else (s.modClient n fun c => { c with func := { c.func with bme := on } }).dmaRelease n

/-- BUS_MASTER_ENABLE_CHANGE (R390). -/
def execBusMasterEnableChange (client : Nat) (on : Bool) (s : State) : Host.Outcome State Fault Refusal := run (busMaster client on) s

/-- Effect of POWER_STATE_CHANGE. -/
def powerState (n : Nat) (d3 : Bool) (s : State) : State :=
  if Config.clients ≤ n ∨ !s.functionExists n then s
  else (s.modClient n fun c => { c with func := { c.func with d3hot := d3 } }).dmaRelease n

/-- POWER_STATE_CHANGE (R390). -/
def execPowerStateChange (client : Nat) (d3hot : Bool) (s : State) : Host.Outcome State Fault Refusal := run (powerState client d3hot) s

/-! ### BAR2 (R384, R385, R408, R491) -/

/-- Bytes that an access covers. -/
def accessLen : Access → Nat
  | .read n => n
  | .write l => l.length

/-- Whether an access is a write. -/
def accessWrite : Access → Bool
  | .read _ => false
  | .write _ => true

/-- A BAR2 access that reaches HBM. -/
def State.hbmAccess (s : State) (a : Nat) (x : Access) : State :=
  match x with
  | .read n => s.emit (.readBytes (s.hbmRead a n))
  | .write l => s.hbmWrite a l

/-- Whether a function answers memory requests: it exists, is in D0 and is not in an FLR (R387, R390). -/
def State.memOk (s : State) (n : Nat) : Bool := s.functionExists n && !(s.client n).func.d3hot && !(s.client n).func.flr

/-- A memory access to a function that answers none: a read completes as an Unsupported Request, a write is discarded (R387). -/
def State.memRefuse (s : State) (x : Access) : State := if accessWrite x then s else s.emit .unsupportedRequest

/-- A BAR2 access before READY: reads give 0 and writes are ignored (R359, R491). -/
def State.memEarly (s : State) (x : Access) : State :=
  match x with
  | .read n => s.emit (.readBytes (List.replicate n 0))
  | .write _ => s

/-- Effect of PF_BAR2_ACCESS: device address 2^30 × BASE + o, refused as a whole where any byte has no HBM behind it. -/
def pfBar2 (port o : Nat) (x : Access) (s : State) : State :=
  if 4 ≤ port ∨ 2 ^ 36 < o + accessLen x then s
  else if !s.memOk (32 * port) then s.memRefuse x
  else if s.frm.state != .ready then s.memEarly x
  else
    let a := 2 ^ 30 * tabGet 0 s.frm.bar2Base port + o
    if s.hbmTop < a + accessLen x then s.emit .unsupportedRequest else s.hbmAccess a x

/-- PF_BAR2_ACCESS (R384). -/
def execPfBar2Access (port offset : Nat) (acc : Access) (s : State) : Host.Outcome State Fault Refusal := run (pfBar2 port offset acc) s

/-- Effect of VF_BAR2_ACCESS: device address HBM_LO + o, refused as a whole with BAR2_UR at or above HBM_HI or TOP. -/
def vfBar2 (n o : Nat) (x : Access) (s : State) : State :=
  if funOf n = 0 ∨ Config.clients ≤ n ∨ 2 ^ 32 < o + accessLen x then s
  else if !s.memOk n then s.memRefuse x
  else if s.frm.state != .ready then s.memEarly x
  else
    let c := s.client n
    let a := c.areas.lo + o
    if c.areas.hi < a + accessLen x ∨ s.hbmTop < a + accessLen x then (s.modClient n fun c => { c with pcieBar2 := true }).emit .unsupportedRequest
    else s.hbmAccess a x

/-- VF_BAR2_ACCESS (R385). -/
def execVfBar2Access (client offset : Nat) (acc : Access) (s : State) : Host.Outcome State Fault Refusal := run (vfBar2 client offset acc) s

/-- POISONED_WRITE (R382): discarded, and recorded by AER. -/
def execPoisonedWrite (client _bar _offset : Nat) (s : State) : Host.Outcome State Fault Refusal :=
  run (fun s => if Config.clients ≤ client ∨ !s.functionExists client then s else s.emit (.aerPoisoned client)) s

/-! ### Link events (R358, R375, R376) -/

/-- Clients of a port. -/
def clientsOf (port : Nat) : List Nat := (upTo 32).map fun f => 32 * port + f

/-- Effect of PCIE_LINK_UP: after FRAME_BOOT the port sends Device Readiness Status; held traffic proceeds. -/
def linkUp (port : Nat) (s : State) : State :=
  if 4 ≤ port then s
  else
    let s := { s with linkUp := tabPut s.linkUp port true }
    let s := s.when (s.frm.state != .frameBoot) fun s => s.emit (.deviceReadiness port)
    s.each (clientsOf port) State.dmaRelease

/-- PCIE_LINK_UP (R358). -/
def execPcieLinkUp (port : Nat) (s : State) : Host.Outcome State Fault Refusal := run (linkUp port) s

/-- The 32 clients of a port are torn down as under VF FLR, and its configuration space returns to its reset values: no VF is left (R375). -/
def State.portGone (s : State) (port : Nat) : State :=
  let s := s.each (clientsOf port) State.flrTear
  { s with numVfs := tabPut s.numVfs port 0, linkUp := tabPut s.linkUp port false }

/-- Effect of PERST_HOT_RESET: the port retrains. -/
def perst (port : Nat) (s : State) : State := if 4 ≤ port then s else s.portGone port

/-- PERST_HOT_RESET (R375). -/
def execPerstHotReset (port : Nat) (s : State) : Host.Outcome State Fault Refusal := run (perst port) s

/-- Effect of PCIE_LINK_DOWN: as R375 while the device is READY; before that the port has no client to tear down. -/
def linkDown (port : Nat) (s : State) : State :=
  if 4 ≤ port then s
  else if s.frm.state == .ready then s.portGone port
  else { s with linkUp := tabPut s.linkUp port false }

/-- PCIE_LINK_DOWN (R376). -/
def execPcieLinkDown (port : Nat) (s : State) : Host.Outcome State Fault Refusal := run (linkDown port) s

end Sys2Proof.Machine
end

