-- ==== Sys2Proof/Machine/Watch.lean ====
section
/-! DEFINITION. Watermark groups and the SMBus sensors (R454 to R458, R463). -/

namespace Sys2Proof.Machine

open Sys2Proof

/-! ### Watermark groups -/

/-- Whether a name is one of a watermark group (R458). -/
def wmValid : WmId → Bool
  | .queue n q => decide (n < 128) && decide (q < 2)
  | .defer n => decide (n < 128)
  | .slowdown p => decide (p < 64)
  | _ => true

/-- Whether writes reach a group now: the PWR block's from the end of FRAME_BOOT on, the others at READY (R359). -/
def State.wmOpen (s : State) (w : WmId) : Bool :=
  wmValid w && (match w with
    | .power => s.pwrOpen
    | .temp => s.pwrOpen
    | _ => s.frm.state == .ready)

/-- A watermark group. -/
def State.wmGet (s : State) (w : WmId) : Wm :=
  match w with
  | .queue n q => if q = 0 then (s.client n).wmQ0 else (s.client n).wmQ1
  | .defer n => (s.client n).wmDefer
  | .lotOcc => s.wmLot
  | .power => s.pwr.wmPower
  | .temp => s.pwr.wmTemp
  | .slowdown p => (s.part p).sd
  | .upset => s.flt.wm

/-- Replaces a watermark group. -/
def State.wmPut (s : State) (w : WmId) (x : Wm) : State :=
  match w with
  | .queue n q => s.modClient n fun c => if q = 0 then { c with wmQ0 := x } else { c with wmQ1 := x }
  | .defer n => s.modClient n fun c => { c with wmDefer := x }
  | .lotOcc => { s with wmLot := x }
  | .power => s.modPwr fun p => { p with wmPower := x }
  | .temp => s.modPwr fun p => { p with wmTemp := x }
  | .slowdown p => s.modPart p fun y => { y with sd := x }
  | .upset => s.modFlt fun f => { f with wm := x }

/-- Notice code, INDEX, and the client of a vector-3 notice (R458, R460). -/
def wmNotice : WmId → Nat × Nat × Option Nat
  | .queue n q => (0x01, 2 * n + q, some n)
  | .defer n => (0x02, n, some n)
  | .lotOcc => (0x03, 0, none)
  | .power => (0x04, 0, none)
  | .temp => (0x05, 0, none)
  | .slowdown p => (0x06, p, none)
  | .upset => (0x07, 0, none)

/-- A group takes a new value, and raises its notice where the change asks for one. -/
def State.wmSet (s : State) (w : WmId) (r : Wm × Bool) : State :=
  let x := wmNotice w
  (s.wmPut w r.1).when r.2 fun s => s.notice x.1 x.2.1 r.1.level x.2.2

/-- Effect of WM_CROSSED_CLEAR: a write of 1 to CROSSED. -/
def crossedClear (w : WmId) (s : State) : State := if s.wmOpen w then s.wmSet w (wmClear (s.wmGet w)) else s

/-- WM_CROSSED_CLEAR (R456). -/
def execWmCrossedClear (wm : WmId) (s : State) : Host.Outcome State Fault Refusal := run (crossedClear wm) s

/-- MARK as a group stores it: PRT_SD_MARK has 16 bits. -/
def wmMark (w : WmId) (v : W32) : Nat :=
  match w with
  | .slowdown _ => bits v.toNat 15 0
  | _ => v.toNat

/-- Effect of WM_MARK_WRITE. -/
def markWrite (w : WmId) (v : W32) (s : State) : State := if s.wmOpen w then s.wmSet w (wmSetMark (s.wmGet w) (wmMark w v)) else s

/-- WM_MARK_WRITE (R455). -/
def execWmMarkWrite (wm : WmId) (mark : W32) (s : State) : Host.Outcome State Fault Refusal := run (markWrite wm mark) s

/-- Effect of DEFER_WINDOW_END: at a multiple of 10,000,000 ns LEVEL becomes the window's DEFERRED outcomes. -/
def deferWindow (n : Nat) (s : State) : State :=
  let c := s.client n
  if s.frm.state != .ready || decide (Config.clients ≤ n) || s.now % 10000000 != 0 || c.deferEnd == s.now then s
  else
    let r := wmUpdate c.wmDefer c.deferNow
    (s.modClient n fun c => { c with deferNow := 0, deferEnd := s.now }).wmSet (.defer n) r

/-- DEFER_WINDOW_END (R458). -/
def execDeferWindowEnd (client : Nat) (s : State) : Host.Outcome State Fault Refusal := run (deferWindow client) s

/-- Effect of UPSET_WINDOW_END: at a multiple of 1,000,000,000 ns LEVEL becomes the window's UPSET log entries. -/
def upsetWindow (s : State) : State :=
  if s.frm.state != .ready || s.now % 1000000000 != 0 || s.flt.upsetEnd == s.now then s
  else
    let r := wmUpdate s.flt.wm s.flt.upsetNow
    (s.modFlt fun f => { f with upsetNow := 0, upsetEnd := s.now }).wmSet .upset r

/-- UPSET_WINDOW_END (R458). -/
def execUpsetWindowEnd (s : State) : Host.Outcome State Fault Refusal := run upsetWindow s

/-! ### SMBus (R463) -/

/-- The answer to an SMBus command: a completion code and its data. -/
def State.answerBus (s : State) (completion : Nat) (data : List W32) : State := s.emit (.smbus completion data)

/-- Completion code ERROR_UNSUPPORTED_PLDM_CMD (PLDM base specification; PRESUMED, log 30). -/
abbrev unsupportedPldm : Nat := 5
/-- Completion code for a sensor that the device does not have (DSP0248; PRESUMED, log 30). -/
abbrev invalidSensor : Nat := 0x80

/-- SET_ENDPOINT_ID (R463). -/
def execSetEndpointId (eid : Nat) (s : State) : Host.Outcome State Fault Refusal :=
  run (fun s => { s with smbusEid := eid % 256 }.answerBus 0 []) s

/-- GET_TID (R463): the terminus ID is free (log 30). -/
def execGetTid (s : State) : Host.Outcome State Fault Refusal := run (fun s => s.answerBus 0 [(Config.pldmTid 0).setWidth 32]) s

/-- GET_PLDM_VERSION (R463): the version of types 0 and 2 is free (log 30). -/
def execGetPldmVersion (typ : Nat) (s : State) : Host.Outcome State Fault Refusal :=
  run (fun s => if typ = 0 ∨ typ = 2 then s.answerBus 0 [Config.pldmVersion typ] else s.answerBus unsupportedPldm []) s

/-- GET_PLDM_TYPES (R463): types 0 and 2, one bit each. -/
def execGetPldmTypes (s : State) : Host.Outcome State Fault Refusal := run (fun s => s.answerBus 0 [0b101]) s

/-- Numbers of the PLDM commands that R463 names: GetTID 2, GetPLDMVersion 3, GetPLDMTypes 4 and GetPLDMCommands 5 of type 0; GetSensorReading 0x11, GetStateSensorReadings 0x21, GetPDRRepositoryInfo 0x50 and GetPDR 0x51 of type 2 (DSP0240, DSP0248; PRESUMED, log 30). -/
def pldmNumbers (typ : Nat) : List Nat := if typ = 0 then [2, 3, 4, 5] else [0x11, 0x21, 0x50, 0x51]

/-- The 256-bit set of a type's commands, as eight words. -/
def pldmCommands (typ : Nat) : List W32 :=
  (upTo 8).map fun i => BitVec.ofNat 32 (total (((pldmNumbers typ).filter fun k => k / 32 == i).map fun k => 2 ^ (k % 32)))

/-- GET_PLDM_COMMANDS (R463). -/
def execGetPldmCommands (typ : Nat) (s : State) : Host.Outcome State Fault Refusal :=
  run (fun s => if typ = 0 ∨ typ = 2 then s.answerBus 0 (pldmCommands typ) else s.answerBus unsupportedPldm []) s

/-- GET_PDR_REPOSITORY_INFO (R463): its words are free (log 30). -/
def execGetPdrRepositoryInfo (s : State) : Host.Outcome State Fault Refusal := run (fun s => s.answerBus 0 ((upTo 4).map fun i => Config.pldmPdr 0 i)) s

/-- GET_PDR (R463): the words of a record are free (log 30). -/
def execGetPdr (handle : Nat) (s : State) : Host.Outcome State Fault Refusal :=
  run (fun s => s.answerBus 0 ((upTo 8).map fun i => Config.pldmPdr (handle + 1) i)) s

/-- STATE of FRM_STATE (R355). -/
def Startup.code : Startup → Nat
  | .frameBoot => 1 | .domainUp => 2 | .tileBist => 3 | .ledgerMerge => 4 | .hbmTrain => 5 | .txTrain => 6 | .stackForm => 7 | .ready => 8 | .failed => 9

/-- Reading of a numeric sensor (R463). -/
def State.sensor (s : State) (i : Nat) : Option Nat :=
  if i = 1 then some s.pwr.wmPower.level
  else if i = 2 then some s.pwr.wmTemp.level
  else if 0x100 ≤ i ∧ i ≤ 0x143 then some (tabGet 0 s.pwr.temps (i - 0x100))
  else if i = 0x200 then some s.wmLot.level
  else if i = 0x201 then some s.flt.wm.level
  else none

/-- Reading of a state sensor (R463). -/
def State.stateSensor (s : State) (i : Nat) : Option Nat :=
  if i = 0x300 then some s.frm.state.code else if i = 0x301 then some s.frm.reason else none

/-- Answers a sensor reading. -/
def State.answerSensor (s : State) (v : Option Nat) : State :=
  match v with
  | some v => s.answerBus 0 [BitVec.ofNat 32 v]
  | none => s.answerBus invalidSensor []

/-- GET_SENSOR_READING (R463). -/
def execGetSensorReading (sensor : Nat) (s : State) : Host.Outcome State Fault Refusal := run (fun s => s.answerSensor (s.sensor sensor)) s

/-- GET_STATE_SENSOR_READINGS (R463). -/
def execGetStateSensorReadings (sensor : Nat) (s : State) : Host.Outcome State Fault Refusal := run (fun s => s.answerSensor (s.stateSensor sensor)) s

/-- UNSUPPORTED_PLDM_CMD (R463). -/
def execUnsupportedPldmCmd (_typ _cmd : Nat) (s : State) : Host.Outcome State Fault Refusal := run (fun s => s.answerBus unsupportedPldm []) s

end Sys2Proof.Machine
end

