-- ==== Sys2Proof/Machine/Debug.lean ====
section
/-! DEFINITION. Breaks, halts, steps and the trace buffer (R404, R466 to R469, R473, R477). -/

namespace Sys2Proof.Machine

open Sys2Proof

/-- Whether debug writes reach a client (R359). -/
def State.dbgOpen (s : State) (n : Nat) : Bool := s.frm.state == .ready && decide (n < Config.clients)

/-- Changes a client's debug state. -/
def State.modDbg (s : State) (n : Nat) (f : Dbg → Dbg) : State := s.modClient n fun c => { c with dbg := f c.dbg }

/-- Effect of HALT: a host break before the client's next descriptor start; ignored while it is halted, or halting already. -/
def dbgHalt (n : Nat) (s : State) : State :=
  let d := (s.client n).dbg
  if !s.dbgOpen n || d.halted || d.breaking then s else s.modDbg n fun d => { d with hostReq := true }

/-- HALT (R466). -/
def execHalt (client : Nat) (s : State) : Host.Outcome State Fault Refusal := run (dbgHalt client) s

/-- Whether a run has stopped at a long-word boundary with its issued slots completed, or has nothing left to issue (R273, R467). -/
def State.runStopped (s : State) (a : Nat) (r : TileRun) : Bool :=
  r.ready || (r.stopped && (!r.stepOne || r.ended) && r.inflight.all fun f => decide (f.due ≤ s.cycle a))

/-- Runs of a client's units, by tile. -/
def State.runsOf (s : State) (n : Nat) : List (Nat × TileRun) :=
  s.tiles.filterMap fun (x : Nat × Tile) =>
    match x.2.run with
    | some r => if (s.unit? r.unit).any fun u => u.client == n then some (x.1, r) else none
    | none => none

/-- Whether placed members that could start have started: each waits behind a run on its tile, or the context may not start anything (R467 step 2). -/
def State.placedDone (s : State) (n : Nat) : Bool :=
  !s.gateAll n || s.tiles.all fun (x : Nat × Tile) =>
    x.2.run.isSome || !(x.2.queue.any fun id => (s.unit? id).any fun u => u.client == n && u.phase == .placed)

/-- Whether steps 1 to 4 of R467 are done: no build, no unit on its way to its commit, no switch of the context under way, every run stopped. -/
def State.haltReady (s : State) (n : Nat) : Bool :=
  (s.client n).build.isNone
    && (s.unitsOf n).all (fun u => !(u.phase == .ready || u.phase == .committed || u.phase == .third))
    && (s.seats n).all (fun p => match (s.part p).switch with | some w => w.out != some n && w.incoming != some n | none => true)
    && (s.runsOf n).all (fun x => s.runStopped x.1 x.2)
    && s.placedDone n

/-- Effect of HALT_COMPLETE: HALTED becomes 1 and a BREAK record is written (R467 step 5). -/
def haltComplete (n : Nat) (s : State) : State :=
  let d := (s.client n).dbg
  if !d.breaking || d.halted || !s.haltReady n then s
  else
    let c := s.client n
    let s := s.modDbg n fun d => { d with halted := true, breaking := false, stepping := false, stepped := false, parked := !c.resident, since := s.now }
    s.trace1 { event := 9, client := n, q := d.q, detail := d.cause, tag := d.tag.toNat, part := c.bindPart }

/-- HALT_COMPLETE (R467). -/
def execHaltComplete (client : Nat) (s : State) : Host.Outcome State Fault Refusal := run (haltComplete client) s

/-- Changes the runs of a client's units. -/
def State.modRuns (s : State) (n : Nat) (f : Nat → TileRun → TileRun) : State :=
  s.each (s.runsOf n) fun s x => s.modRun x.1 (f x.1)

/-- A stopped run resumes at its tile's present cycle. -/
def TileRun.resume (r : TileRun) (cyc : Nat) : TileRun := { r with stopped := false, stepOne := false, nextCyc := if r.nextCyc < cyc then cyc else r.nextCyc }

/-- The descriptor that the halt holds next: the one the break held, or, once that has started, the earliest accepted one that waits and could start (R469; log 31). -/
def State.nextHeld (s : State) (n : Nat) : Option (Nat × ADesc) :=
  let wait := fun (q : Nat) => ((s.queue n q).accepted.filter fun d => d.state == .waiting && !d.chainOpen && d.fault == 0
    && s.orderMet n q d && [0, 1, 2].all fun k => s.depState n q d.desc k == .met).map fun d => (q, d)
  let l := wait 0 ++ wait 1
  match (s.client n).dbg.held.bind fun h => l.find? fun x => x.1 == h.1 && x.2.ordinal == h.2 with
  | some x => some x
  | none => minBy (fun x : Nat × ADesc => x.2.accepted) l

/-- Delivers the HANDBACKs held while a client was halted (R468). -/
def State.deliverHeld (s : State) (n : Nat) : State :=
  s.each (s.unitsOf n) fun s u =>
    match s.unit? u.id with
    | none => s
    | some u =>
      match u.handoff with
      | none => s
      | some h =>
        match h.held with
        | none => s
        | some t => s.answerTo u h t

/-- A timer base once a halt that began at `since` ends: the time of the halt does not count (R468). -/
def pausedBase (base since now : Nat) : Nat := if base < since then base + (now - since) else now

/-- The timers of a client's descriptors and units run on from where they stood (R468). -/
def State.resumeTimers (s : State) (n : Nat) : State :=
  let t0 := (s.client n).dbg.since
  let s := s.each [0, 1] fun s q => s.modQueue n q fun x => { x with accepted := x.accepted.map fun d => { d with timer := pausedBase d.timer t0 s.now } }
  let s := s.each (s.unitsOf n) fun s u => s.modUnit u.id fun u => { u with
    handoff := u.handoff.map fun h => if h.firstSend = 0 then h else { h with firstSend := pausedBase h.firstSend t0 s.now } }
  s.modRuns n fun _ r => match r.waitSince with
    | some t => r.shiftWait (pausedBase t t0 s.now - t)
    | none => r

/-- Upsets held during a halt act (R318). -/
def State.heldUpsets (s : State) (n : Nat) : State :=
  s.each (s.seatTiles n) fun s a =>
    if (s.tile a).heldUpset then (s.modTile a fun t => { t with heldUpset := false }).killOn a 1 else s

/-- Effect of RELEASE. -/
def dbgRelease (n : Nat) (s : State) : State :=
  let d := (s.client n).dbg
  if !s.dbgOpen n || !d.halted then s
  else
    let s := s.trace1 { event := 10, client := n, q := d.q, tag := d.tag.toNat, part := (s.client n).bindPart }
    let s := s.resumeTimers n
    let s := s.modRuns n fun a r => r.resume (s.cycle a)
    let s := s.modDbg n fun d => { d with halted := false, stepping := false, stepped := false, breaking := false, pass := d.held, held := none, stepDesc := none }
    (s.deliverHeld n).heldUpsets n

/-- RELEASE (R469). -/
def execRelease (client : Nat) (s : State) : Host.Outcome State Fault Refusal := run (dbgRelease client) s

/-- Effect of STEP_DESC: ignored while STEPPING is 1, and where no descriptor is held. -/
def dbgStepDesc (n : Nat) (s : State) : State :=
  let d := (s.client n).dbg
  if !s.dbgOpen n || !d.halted || d.stepping then s
  else match s.nextHeld n with
    | none => s
    | some (q, x) =>
      let s := s.modDbg n fun d => { d with
        stepping := true, stepped := false, breaking := false, held := none, pass := some (q, x.ordinal), stepDesc := some (q, x.ordinal), q := q, tag := dTag x.desc }
      (s.modRuns n fun a r => r.resume (s.cycle a)).deliverHeld n

/-- STEP_DESC (R469). -/
def execStepDesc (client : Nat) (s : State) : Host.Outcome State Fault Refusal := run (dbgStepDesc client) s

/-- Effect of STEP_LW: each tile with a started unit may issue one cycle; where no unit has started, the held descriptor starts first. -/
def dbgStepLw (n : Nat) (s : State) : State :=
  let d := (s.client n).dbg
  if !s.dbgOpen n || !d.halted || d.stepping then s
  else if (s.runsOf n).isEmpty then
    match s.nextHeld n with
    | none => s
    | some (q, x) => s.modDbg n fun d => { d with stepping := true, stepped := false, held := none, pass := some (q, x.ordinal), q := q, tag := dTag x.desc }
  else
    let s := s.modDbg n fun d => { d with stepping := true, stepped := false }
    (s.modRuns n fun a r => if r.ready then r else { r with stepOne := true, nextCyc := if r.nextCyc < s.cycle a then s.cycle a else r.nextCyc }).deliverHeld n

/-- STEP_LW (R469). -/
def execStepLw (client : Nat) (s : State) : Host.Outcome State Fault Refusal := run (dbgStepLw client) s

/-- Effect of STEP_COMPLETE: every tile has halted again, and the stepped descriptor, if one was named, has ended or started. -/
def stepComplete (n : Nat) (s : State) : State :=
  let d := (s.client n).dbg
  if !d.halted || !d.stepping || d.stepDesc.isSome || d.pass.isSome || !s.haltReady n then s
  else
    let s := s.modRuns n fun _ r => { r with stepOne := false }
    let s := s.modDbg n fun d => { d with stepping := false, stepped := true, breaking := false }
    match s.nextHeld n with
    | some (q, x) => s.modDbg n fun d => { d with held := some (q, x.ordinal), q := q, tag := dTag x.desc }
    | none => s

/-- STEP_COMPLETE (R469). -/
def execStepComplete (client : Nat) (s : State) : Host.Outcome State Fault Refusal := run (stepComplete client) s

/-! ### The trace buffer (R404, R473) -/

/-- Whether the trace ring may be enabled: its placement, and the RANGE and OVERLAP checks against every client with EN = 1. -/
def State.traceOk (s : State) : Bool :=
  let t := s.trace
  let all := (upTo Config.clients).flatMap fun m => if (s.client m).en then (s.client m).areas.list else []
  t.base % 0x10000 == 0 && t.size % 0x10000 == 0 && decide (0x10000 ≤ t.size) && decide (t.size ≤ 0x4000000)
    && decide (t.base + t.size ≤ s.frm.hbmLimit) && !(all.any (areaHit (t.base, t.size)))

/-- Effect of TRACE_ENABLE: a write of DBG_TRACE_CFG. -/
def traceEnable (v : W32) (s : State) : State :=
  if s.frm.state != .ready then s
  else
    let on := bit v.toNat 0 && (s.trace.en || s.traceOk)
    { s with trace := { s.trace with en := on, stop := bit v.toNat 1, members := bit v.toNat 2 } }

/-- TRACE_ENABLE (R404). -/
def execTraceEnable (value : W32) (s : State) : Host.Outcome State Fault Refusal := run (traceEnable value) s

end Sys2Proof.Machine
end

