-- ==== Sys2Proof/Machine/RegRead.lean ====
section
/-! DEFINITION. Reading registers of BAR0 (26_register_map.md, R290, R359, R386, R470, R478 to R491). -/

namespace Sys2Proof.Machine

open Sys2Proof

/-! ### Words of the blocks. Each function takes a block offset that is a multiple of 4 and gives the 32-bit word there; an offset that no table lists reads 0 (R5, R479). -/

/-- The low or high word of a 64-bit value, by an offset (R481). -/
def half (v o : Nat) : Nat := if o % 8 = 4 then v / 2 ^ 32 % 2 ^ 32 else v % 2 ^ 32

/-- Word `k` of a watermark group (R454). -/
def Wm.word (w : Wm) (k : Nat) : Nat :=
  match k with
  | 0 => w.level
  | 1 => w.mark
  | 2 => w.peak
  | _ => w.count + 2 ^ 16 * b2n w.crossed

/-- FRM_CAP_LIVE (R486). -/
def State.capLive (s : State) : Nat :=
  let live := (upTo Config.strips).filter fun i => !(s.colmap i).retired
  total (live.map fun i => (s.colmap i).working) + 2 ^ 14 * live.length

/-- FRM_LEDGER_STATUS. -/
def Frm.ledgerStatus (f : Frm) : Nat :=
  b2n f.ledgerOp.isSome + 2 * f.ledgerResult + 2 ^ 8 * (f.emptySlots.length - b2n f.programming.isSome) + 2 ^ 16 * f.newest.getD 0 + 2 ^ 21 * b2n f.newest.isNone

/-- FRM_COLMAP of a strip, 128 bits. -/
def ColMap.value (m : ColMap) : Nat :=
  total (m.cols.zipIdx.map fun x => x.1 * 2 ^ (5 * x.2)) + m.unused * 2 ^ 80 + b2n m.retired * 2 ^ 85 + m.working * 2 ^ 86

/-- FRM_RMAP as one number, TILES first (R326). -/
def Frm.rmap (f : Frm) : Nat := f.rTiles.toNat + f.rLanes.toNat * 2 ^ 8704 + f.rPch.toNat * 2 ^ 9248

/-- Words of the FRM block. -/
def State.frmWord (s : State) (o : Nat) : Nat :=
  let f := s.frm
  if o = 0x0 then 0x09001F6A
  else if o = 0x4 then 0x10 + 0xB * 2 ^ 8 + f.waferId * 2 ^ 16 + b2n f.lead * 2 ^ 20
  else if o / 8 = 1 then half f.serial.toNat o
  else if o = 0x10 then f.image + 2 * b2n f.aValid + 4 * b2n f.bValid
  else if o = 0x14 then f.bootVersion.toNat
  else if o = 0x40 then 64 + 512 * 2 ^ 8
  else if o = 0x44 then 8192 + 8704 * 2 ^ 14
  else if o = 0x48 then 48 + 64 * 2 ^ 6 + 4 * 2 ^ 13 + 32 * 2 ^ 16 + 8 * 2 ^ 22
  else if o = 0x4C then 4 + 8 * 2 ^ 3 + 24 * 2 ^ 7 + 16 * 2 ^ 12 + 128 * 2 ^ 17 + 64 * 2 ^ 25
  else if o = 0x50 then 131072 + 1024 * 2 ^ 18
  else if o = 0x54 then 0xFF + 16 * 2 ^ 8 + 2 ^ 13 + 2 ^ 14
  else if o = 0x58 then s.capLive
  else if o = 0x100 then f.state.code + f.reason * 2 ^ 8 + b2n (f.state == .ready) * 2 ^ 16 + b2n f.afterWarm * 2 ^ 17
  else if o / 8 = 0x108 / 8 then half f.stateTime o
  else if o = 0x204 then f.resetReason + f.warms * 2 ^ 16
  else if o / 8 = 0x208 / 8 then half f.resetTime o
  else if o = 0x404 then f.ledgerStatus
  else if o = 0x410 then f.probeSteps
  else if 0x440 ≤ o ∧ o < 0x4C0 then
    let k := (o - 0x440) / 8
    let p : Probe := tabGet {} f.probes k
    half (p.unit + p.cls * 2 ^ 16 + p.state * 2 ^ 18 + b2n (k == 0 && f.probeErr) * 2 ^ 20 + p.steps * 2 ^ 32) o
  else if 0x600 ≤ o ∧ o < 0x620 then (if o % 8 = 0 then tabGet 0 f.bar2Base ((o - 0x600) / 8) else 0)
  else if o / 8 = 0x800 / 8 then half s.hbmTop o
  else if o / 8 = 0x808 / 8 then half f.hbmLimit o
  else if o = 0x810 then f.guard
  else if o = 0x814 then f.withdrawn
  else if o = 0x818 then f.mig
  else if o = 0x81C then f.scrubPeriod
  else if o = 0x900 then f.role + f.leadId * 2 ^ 4 + f.deputy * 2 ^ 8 + f.members.toNat * 2 ^ 16
  else if o = 0x904 then f.leadLoss + f.routeTimeout * 2 ^ 16
  else if o = 0x908 then wrapInt 32 f.timeOffset
  else if 0xA00 ≤ o ∧ o < 0xAC0 then tabGet 10000 f.partnerTo ((o - 0xA00) / 4)
  else if 0x10000 ≤ o ∧ o < 0x17800 then let x := o - 0x10000; bits (f.slotSeen (x / 0x500)).toNat (8 * (x % 0x500) + 31) (8 * (x % 0x500))
  else if 0x20000 ≤ o ∧ o < 0x204E4 then bits f.rmap (8 * (o - 0x20000) + 31) (8 * (o - 0x20000))
  else if 0x30000 ≤ o ∧ o < 0x32000 then let x := o - 0x30000; bits (s.colmap (x / 16)).value (8 * (x % 16) + 31) (8 * (x % 16))
  else 0

/-- SCH_BIND of a client. -/
def Client.bindWord (c : Client) : Nat := c.bindPart + c.pairPart * 2 ^ 8 + b2n c.pairEn * 2 ^ 14 + b2n c.en * 2 ^ 31

/-- Words of the SCH block. -/
def State.schWord (s : State) (o : Nat) : Nat :=
  if o = 0x80 then s.swShare
  else if o = 0x100 then s.ltLimit
  else if o = 0x104 then s.ltOcc
  else if 0x110 ≤ o ∧ o < 0x120 then s.wmLot.word ((o - 0x110) / 4)
  else if 0x200 ≤ o ∧ o < 0x400 then (s.client ((o - 0x200) / 4)).quota
  else if 0x400 ≤ o ∧ o < 0x600 then (s.client ((o - 0x400) / 4)).bindWord
  else if 0x600 ≤ o ∧ o < 0x800 then (s.client ((o - 0x600) / 4)).stackQuota
  else if 0x3000 ≤ o ∧ o < 0x4400 then
    let x : StageSlot := tabGet {} s.stageSlots ((o - 0x3000) / 0x50)
    let k := (o - 0x3000) % 0x50
    if k = 0 then x.client + x.q * 2 ^ 8 + b2n x.en * 2 ^ 31
    else if 0x10 ≤ k then bits x.template.toNat (8 * (k - 0x10) + 31) (8 * (k - 0x10))
    else 0
  else 0

/-- PRT_STATE; TILES is T of R200, over all wafers of a widened partition (R448). -/
def State.partState (s : State) (p : Nat) : Nat :=
  let x := s.part p
  let phase := if x.rebuilding then 2 else if x.switch.isSome then 1 else 0
  x.resident.getD 0 + b2n x.resident.isSome * 2 ^ 7 + phase * 2 ^ 8 + b2n x.rebuildPend * 2 ^ 10 + stripCount x.strips * 2 ^ 12 + spreadTotal (s.spread p) * 2 ^ 32

/-- Words of partition `p`'s PRT block. -/
def State.prtWord (s : State) (p o : Nat) : Nat :=
  let x := s.part p
  if o < 0x40 then bits x.strips.toNat (8 * o + 31) (8 * o)
  else if o / 8 = 0x40 / 8 then half (s.partState p) o
  else if o = 0x48 then x.switchEst
  else if o = 0x4C then x.horizon
  else if o = 0x50 then x.minQuantum
  else if o / 8 = 0x58 / 8 then half x.since o
  else if o / 8 = 0x60 / 8 then half (satTo 0xFFFF x.preempts + satTo 0xFFFF x.idleSwitches * 2 ^ 16 + satTo 0xFFFF x.denied * 2 ^ 32 + satTo 0xFFFF x.rebuilds * 2 ^ 48) o
  else if o = 0x68 then x.rebuildNs % 2 ^ 32
  else if o = 0x70 then x.saveNs % 2 ^ 32
  else if o = 0x74 then x.restoreNs % 2 ^ 32
  else if o / 8 = 0x78 / 8 then half x.saveBytes o
  else if o = 0x80 then x.faultMode
  else if o = 0x90 then x.homeWafer + x.homePart * 2 ^ 4 + b2n x.homeEn * 2 ^ 31
  else if o / 8 = 0x100 / 8 then half x.commits.toNat o
  else if o / 8 = 0x108 / 8 then half (satTo 0xFFFF x.kUpset + satTo 0xFFFF x.kPreempt * 2 ^ 16 + satTo 0xFFFF x.kRetire * 2 ^ 32 + satTo 0xFFFF x.kPair * 2 ^ 48) o
  else if o / 8 = 0x200 / 8 then half x.sdTotal o
  else if o / 8 = 0x208 / 8 then half x.sdForeign o
  else if o / 8 = 0x210 / 8 then half x.sdHbm o
  else if o / 8 = 0x218 / 8 then half x.sdTx o
  else if o / 8 = 0x220 / 8 then half x.sdFab o
  else if o / 8 = 0x228 / 8 then half x.sdLtWait o
  else if 0x230 ≤ o ∧ o < 0x240 then x.sd.word ((o - 0x230) / 4)
  else 0

/-- Words of a queue's registers. -/
def Queue.word (x : Queue) (o : Nat) : Nat :=
  let code := match x.state with | .disabled => 0 | .running => 1 | .stopped => 2 | .tornDown => 3
  let held := if x.state == .stopped then (x.accepted.filter fun d => d.state == .waiting).length else 0
  if o / 8 = 0 then half (x.baseLoc + x.base / 4096 * 4096) o
  else if o / 8 = 1 then half (x.cbaseLoc + x.cbase / 4096 * 4096) o
  else if o = 0x10 then x.log2 + x.clog2 * 2 ^ 8 + b2n (x.state != .disabled && !x.closing) * 2 ^ 31
  else if o = 0x14 then code + 4 * b2n x.dbErr + satTo 0xFFFF held * 2 ^ 16
  else if o = 0x18 then x.cc.toNat
  else if o = 0x1C then x.pc.toNat
  else if o / 8 = 0x20 / 8 then half x.acceptedCount o
  else if o = 0x28 then x.ccount.toNat
  else if o = 0x2C then x.coalCount + x.coalTime * 2 ^ 16
  else if o = 0x34 then x.skipped.toNat
  else 0

/-- Accounting counter `k` of R286, in register order. -/
def State.acctAt (s : State) (n k : Nat) : Nat :=
  let a := (s.client n).acct
  let l : List W64 := [a.qsum0, a.qsum1, a.qmax0, a.qmax1, a.lots, a.served, a.late, a.deferred, a.skipped, a.failed, a.refused, a.preempts, a.stopFull, a.stopKill,
    s.parkedNs n, a.saveNs, a.restoreNs, a.cleared]
  (l.getD k 0).toNat

/-- Words of a range slot. -/
def RSlot.word (x : RSlot) (o : Nat) : Nat :=
  if o = 0 then x.amax.toNat
  else if o = 4 then x.scale.toNat
  else if o = 8 then x.gen.toNat
  else if o = 0xC then x.margin + 8 * b2n x.bind
  else if o = 0x10 then x.nan.toNat
  else if o = 0x14 then x.inf.toNat
  else if o = 0x18 then x.sat.toNat
  else 0

/-- Words of the MSI-X table and Pending Bit Array of a function (R386). -/
def State.msixWord (s : State) (n o : Nat) : Nat :=
  let f := (s.client n).func
  if o < 0xE800 then
    let k := (o - 0xE000) / 16
    if vectorsOf n ≤ k then 0
    else if o % 16 = 12 then b2n (f.masked.contains k)
    else (tabGet (0 : W32) f.msixTable ((o - 0xE000) / 4)).toNat
  else if o = 0xE800 then total (f.pendingBits.map fun v => 2 ^ v)
  else 0

/-- Words of client `n`'s CLI block; `own`: the access comes through the client's own function (R386). -/
def State.cliWord (s : State) (n : Nat) (own : Bool) (o : Nat) : Nat :=
  let c := s.client n
  if o = 0x100 then c.depTimeout
  else if o / 8 = 0x108 / 8 then half c.q0.qdeadline o
  else if o / 8 = 0x110 / 8 then half c.q1.qdeadline o
  else if o / 8 = 0x120 / 8 then half c.lastMark.toNat o
  else if 0x200 ≤ o ∧ o < 0x300 then c.q0.word (o - 0x200)
  else if 0x300 ≤ o ∧ o < 0x400 then c.q1.word (o - 0x300)
  else if o / 8 = 0x400 / 8 then half (c.out.loc + c.out.base / 4096 * 4096) o
  else if o = 0x408 then c.out.log2 + b2n c.out.enable * 2 ^ 31
  else if o = 0x40C then c.out.count.toNat
  else if o = 0x410 then c.out.coalCount + c.out.coalTime * 2 ^ 16
  else if o = 0x500 then c.latePolicy + c.winSeq * 2 ^ 4 + c.migRange * 2 ^ 8 + c.deferLimit * 2 ^ 16
  else if o = 0x504 then c.lotInterval
  else if o = 0x508 then c.stepEst
  else if o = 0x50C then c.moveEst
  else if o = 0x510 then (s.entriesOf n).length
  else if o = 0x514 then c.refuse
  else if o = 0x520 then c.ltSel
  else if 0x540 ≤ o ∧ o < 0x580 then bits c.ltData.toNat (8 * (o - 0x540) + 31) (8 * (o - 0x540))
  else if o / 8 = 0x600 / 8 then half (c.erd.getD (2 ^ 64 - 1)) o
  else if o = 0x608 then b2n c.resident
  else if o = 0x610 then c.preemptMode + c.killLimit * 2 ^ 16
  else if o = 0x700 then b2n c.pcieErr0 + 2 * b2n c.pcieErr1 + 4 * b2n c.pcieBar2 + c.pcieCause * 2 ^ 8
  else if 0x800 ≤ o ∧ o < 0x890 then half (s.acctAt n ((o - 0x800) / 8)) o
  else if 0xA00 ≤ o ∧ o < 0xA38 then
    let a := c.areas
    half (nth [a.lo, a.hi, a.recs, a.park, a.parkSize, a.spill, a.spillSize] ((o - 0xA00) / 8)) o
  else if o = 0xA38 then c.hbmStatus
  else if 0xC00 ≤ o ∧ o < 0xC10 then c.wmQ0.word ((o - 0xC00) / 4)
  else if 0xC10 ≤ o ∧ o < 0xC20 then c.wmQ1.word ((o - 0xC10) / 4)
  else if 0xC20 ≤ o ∧ o < 0xC30 then c.wmDefer.word ((o - 0xC20) / 4)
  else if o = 0xC30 then b2n c.wmQ0.crossed + 2 * b2n c.wmQ1.crossed + 4 * b2n c.wmDefer.crossed
  else if 0x4000 ≤ o ∧ o < 0xC000 then (c.rslot ((o - 0x4000) / 32)).word (o % 32)
  else if 0xE000 ≤ o ∧ o < 0xF000 then (if own then s.msixWord n o else 0)
  else 0

/-- STATE of TXL_STATUS: from the start of a recovery to its end it is RECOVERY (R415). -/
def Port.code (p : Port) : Nat :=
  if p.recSince.isSome then 9
  else match p.state with
    | .down => 0 | .detect => 1 | .equalize => 2 | .fecLock => 3 | .laneTest => 4 | .laneMap => 5 | .deskew => 6 | .init => 7 | .active => 8 | .recovery => 9

/-- TXL_LANE of a lane. -/
def Lane.value (l : Lane) : Nat :=
  let st := match l.state with | .active => 0 | .spare => 1 | .retired => 2 | .probation => 3
  l.logical.getD 0 + b2n l.logical.isSome * 2 ^ 6 + st * 2 ^ 8

/-- Words of port `p`'s TXL block. -/
def State.txlWord (s : State) (n o : Nat) : Nat :=
  let p := s.port n
  if o = 0 then 4 * b2n p.enable
  else if o = 4 then p.code + p.width * 2 ^ 4 + p.spares.length * 2 ^ 11
  else if o = 8 then p.ackTimeout + p.replayLimit * 2 ^ 16
  else if o / 8 = 0x10 / 8 then half (p.peer.toNat + p.peerNext * 2 ^ 32) o
  else if o / 8 = 0x18 / 8 then half (total (p.peerCred.zipIdx.map fun x => x.1 * 2 ^ (16 * x.2))) o
  else if 0x100 ≤ o ∧ o < 0x200 then (p.lane ((o - 0x100) / 4)).value
  else if 0x200 ≤ o ∧ o < 0x248 then
    let l : List W64 := [p.crcFail, p.unattr, p.proto, p.nakTx, p.nakRx, p.replayCount, p.replayFlits, p.recoveries, p.trainings]
    half (l.getD ((o - 0x200) / 8) 0).toNat o
  else if 0x300 ≤ o ∧ o < 0x310 then (p.lane (64 + (o - 0x300) / 4)).value
  else if 0x1000 ≤ o ∧ o < 0x1880 then
    let x := p.lane ((o - 0x1000) / 32)
    half ((nth [x.corrCw.toNat, x.corrSym.toNat, x.uncorr.toNat, x.crcCharged.toNat] (o % 32 / 8))) o
  else 0

/-- Words of controller `m`'s HBM block. -/
def State.hbmRegWord (s : State) (m o : Nat) : Nat :=
  let c := s.ctl m
  if o = 4 then b2n c.up + 2 * b2n c.retraining + 4 * b2n (s.copyingOn m)
  else if o = 8 then bits s.frm.rPch.toNat (32 * m + 31) (32 * m)
  else if o / 8 = 0x10 / 8 then half c.corrected.toNat o
  else if o / 8 = 0x18 / 8 then half c.uncorrected.toNat o
  else 0

/-- PWR_DOM_STATUS. -/
def Dom.statusWord (d : Dom) : Nat :=
  let st := match d.state with | .off => 0 | .retain => 1 | .idle => 2 | .active => 3
  st + 4 * b2n (d.trans.isSome || d.bist || d.step != .none) + (if d.state = .off then 0 else d.eff) * 2 ^ 8 + d.cap * 2 ^ 16 + d.therm * 2 ^ 24

/-- Words of the PWR, CLK and TIME block. -/
def State.pwrWord (s : State) (o : Nat) : Nat :=
  let p := s.pwr
  if o / 8 = 0 then half s.now o
  else if o = 0x1000 then p.cap
  else if o = 0x1004 then p.hyst
  else if o = 0x1008 then p.ceiling + p.lowerings * 2 ^ 16 + b2n p.ceilErr * 2 ^ 19
  else if o = 0x1010 then p.watts + p.pause * 2 ^ 16
  else if o = 0x1014 then p.thermLimit
  else if o = 0x1018 then p.retainDelay
  else if 0x1100 ≤ o ∧ o < 0x1140 then let d := s.dom ((o - 0x1100) / 4); d.target + d.freq * 2 ^ 8 + b2n d.reqErr * 2 ^ 31
  else if 0x1140 ≤ o ∧ o < 0x1180 then (s.dom ((o - 0x1140) / 4)).statusWord
  else if 0x1200 ≤ o ∧ o < 0x1300 then tabGet 0 p.temps ((o - 0x1200) / 4)
  else if 0x1300 ≤ o ∧ o < 0x1310 then p.wmPower.word ((o - 0x1300) / 4)
  else if 0x1310 ≤ o ∧ o < 0x1320 then p.wmTemp.word ((o - 0x1310) / 4)
  else if 0x1400 ≤ o ∧ o < 0x1410 then tabGet 0 p.temps (64 + (o - 0x1400) / 4)
  else 0

/-- The 16 bytes of a fault log entry. -/
def FltEntry.bytes (e : FltEntry) : List Byte :=
  leBytes e.time 8 ++ leBytes e.source 1 ++ leBytes e.result 1 ++ leBytes e.cls 1 ++ leBytes 0 1 ++ leBytes e.unit 2
    ++ leBytes (match e.client with | some c => c + 128 | none => 0) 1 ++ leBytes 0 1

/-- The 16 bytes of a notice log entry (R460). -/
def NtcEntry.bytes (e : NtcEntry) : List Byte :=
  leBytes e.time 8 ++ leBytes e.code 1 ++ leBytes (e.wafer + 128 * b2n e.forwarded) 1 ++ leBytes e.index 2 ++ leBytes e.value 4

/-- A word of a list of bytes. -/
def wordAt (bs : List Byte) (o : Nat) : Nat := leVal ((bs.drop o).take 4)

/-- Words of the FLT block. -/
def State.fltWord (s : State) (o : Nat) : Nat :=
  let f := s.flt
  if o < 0x10 then f.limit (o / 4) + tabGet 1000 f.windows (o / 4) * 2 ^ 16
  else if o = 0x10 then f.linkTimeout
  else if o = 0x14 then f.syncTimeout
  else if o = 0x18 then f.scrub
  else if o = 0x1C then f.retrimMax
  else if o = 0x20 then f.arbPart + b2n f.arbEn * 2 ^ 31
  else if 0x100 ≤ o ∧ o < 0x138 then
    half (nth [f.corrected.toNat, f.upsets.toNat, f.permanent.toNat, f.latent.toNat, f.losses.toNat, f.mismatch.toNat, f.pairFail.toNat] ((o - 0x100) / 8)) o
  else if o = 0x200 then f.head.toNat
  else if 0x300 ≤ o ∧ o < 0x310 then f.wm.word ((o - 0x300) / 4)
  else if 0x1000 ≤ o ∧ o < 0x1400 then
    match f.log.find? fun x => x.1 == (o - 0x1000) / 16 with
    | some x => wordAt x.2.bytes (o % 16)
    | none => 0
  else 0

/-- Words of the NTC block. -/
def State.ntcWord (s : State) (o : Nat) : Nat :=
  if o = 0 then s.ntc.head.toNat
  else if o = 4 then s.ntc.route + b2n s.ntc.fwd * 2 ^ 8
  else if 0x100 ≤ o ∧ o < 0x500 then
    match s.ntc.log.find? fun x => x.1 == (o - 0x100) / 16 with
    | some x => wordAt x.2.bytes (o % 16)
    | none => 0
  else 0

/-- DBG_STATUS. -/
def Dbg.status (d : Dbg) : Nat :=
  b2n d.halted + 2 * b2n d.stepping + 4 * b2n d.stepped + 8 * d.cause + 64 * d.q + 128 * b2n d.parked + (if d.halted then d.tag.toNat else 0) * 2 ^ 32

/-- Words of the DBG block. -/
def State.dbgWord (s : State) (o : Nat) : Nat :=
  let t := s.trace
  let d := fun (i : Nat) => (s.client i).dbg
  if o / 8 = 0 then half t.base o
  else if o = 8 then t.size
  else if o = 0xC then b2n t.en + 2 * b2n t.stop + 4 * b2n t.members
  else if o / 8 = 0x10 / 8 then half t.head.toNat o
  else if o / 8 = 0x18 / 8 then half t.drops.toNat o
  else if 0x1000 ≤ o ∧ o < 0x2000 then
    let x := d ((o - 0x1000) / 32)
    if o % 16 < 8 then half (if o % 32 < 16 then x.count0 else x.count1).toNat o else 0
  else if 0x2000 ≤ o ∧ o < 0x3000 then
    let x := d ((o - 0x2000) / 32)
    if o % 16 < 8 then half (if o % 32 < 16 then x.tag0 else x.tag1).toNat o else 0
  else if 0x3000 ≤ o ∧ o < 0x3200 then let x := d ((o - 0x3000) / 4); b2n x.tagEn0 + 2 * b2n x.tagEn1
  else if 0x3400 ≤ o ∧ o < 0x3800 then half (d ((o - 0x3400) / 8)).status o
  else 0

/-! ### Tile windows (R470, R484) -/

/-- Client under a halt whose partition holds a tile (R470). -/
def State.tileHalted (s : State) (a : Nat) : Bool :=
  match (s.partOfTile a).bind fun p => (s.part p).resident with
  | some n => (s.client n).dbg.halted
  | none => false

/-- Code of a link in TIL_MESH_LINK: no neighbour, a failed router, across a swatch edge, or within a swatch. -/
def State.linkCode (s : State) (src : Nat) (dst : Option Nat) : Nat :=
  match dst with
  | none => 3
  | some d => if s.frm.badRouters.contains d then 2 else if swatchOf (src / 17) = swatchOf (d / 17) then 0 else 1

/-- Physical neighbours of a physical tile: north, east, south, west (R172). -/
def neighbours (pt : Nat) : List (Option Nat) :=
  let strip := pt / 17
  let c := pt % 17
  let sw := swatchOf strip
  let row := strip % 8
  let at_ := fun (sw row c : Nat) => some (17 * (8 * sw + row) + c)
  [ if row = 0 then (if sw < 8 then none else at_ (sw - 8) 7 c) else at_ sw (row - 1) c,
    if c = 16 then (if sw % 8 = 7 then none else at_ (sw + 1) row 0) else at_ sw row (c + 1),
    if row = 7 then (if 56 ≤ sw then none else at_ (sw + 8) 0 c) else at_ sw (row + 1) c,
    if c = 0 then (if sw % 8 = 0 then none else at_ (sw - 1) row 16) else at_ sw row (c - 1) ]

/-- TIL_MESH_LINK. -/
def State.meshLink (s : State) (a : Nat) : Nat :=
  let pt := s.physTile a
  total ((neighbours pt).zipIdx.map fun x => s.linkCode pt x.1 * 2 ^ (2 * x.2)) + (s.tile a).bridgePeak * 2 ^ 16

/-- TIL_LOOP of a counter. -/
def Tile.loopWord (t : Tile) (c : Nat) : Nat :=
  match t.run with
  | none => 0
  | some r => (match r.loops.find? fun l => l.counter == c with | some l => l.remain % 2 ^ 16 | none => 0) + nth [r.x0, r.x1, r.x2, r.x3] c % 2 ^ 16 * 2 ^ 16

/-- TIL_DBG_STATE. -/
def State.dbgState (s : State) (a : Nat) : Nat :=
  match (s.tile a).run.bind fun r => s.unit? r.unit with
  | some u => b2n (s.tileHalted a) + 4 + (if u.isMember then s.seqOf u else 0) * 2 ^ 8 + u.tag.toNat * 2 ^ 32
  | none => b2n (s.tileHalted a)

/-- The word at byte `o` of the aperture of a halted tile (R470). -/
def State.aperture (s : State) (a o : Nat) : Nat :=
  let t := s.tile a
  let bank := fun (b : BankStore) => if t.dbgBank = 0 then b.bank0 else b.bank1
  match t.dbgSpace with
  | 0 => match t.run with
    | some r => wordAt (vregBytes (r.v (o / 256))) (o % 256)
    | none => 0
  | 1 =>
    let u := t.run.bind fun r => s.unit? r.unit
    let slot := match u with | some u => indexIn ((s.unitTable u.client).map CUnit.id) u.id | none => 0
    wordAt (s.tileHeader a slot u) o
  | 2 => match t.run with
    | some r => (tabGet (0 : W32) r.acc (2048 * t.dbgPage + o / 4)).toNat
    | none => 0
  | 3 => memVal t.vat (8192 * t.dbgPage + o) 4
  | 4 => memVal (bank t.pal) o 4
  | 5 => memVal (bank t.tbl) (8192 * t.dbgPage + o) 4
  | _ => 0

/-- State of a window as TIL_WIN_STATE encodes it (R24): FREE 0, DRY 1, WET 2; window 47 reads 3. -/
def Tile.winCode (t : Tile) (w : Nat) : Nat :=
  if w = 47 then 3 else match (t.win w).state with | .free => 0 | .dry => 1 | .wet => 2

/-- A palette or table state word. -/
def BankStore.word (b : BankStore) : Nat := b.active + 2 * b2n b.pending + b.swaps * 2 ^ 16

/-- Words of the window of active tile `a`: an absent column reads 0 but for ABSENT, whatever its domain's state (R17), and a tile whose domain is OFF reads 0; the cycles of a run that are not counted yet are part of its counters (R484, R292). -/
def State.tilWord (s : State) (a o : Nat) : Nat :=
  let t := s.tile a
  if s.physCol (a / 16) (a % 16) = 0x1F then (if o = 0x100 then 2 else 0)
  else if (s.dom (domOfTile a)).state = .off then 0
  else if o / 8 = 0 then half (s.cycle a) o
  else if o = 0x10 ∨ o = 0x14 ∨ o = 0x18 then total ((upTo 16).map fun i => t.winCode (16 * ((o - 0x10) / 4) + i) * 4 ^ i)
  else if o = 0x20 then t.watermark
  else if o = 0x24 then b2n (t.spill != .idle) + t.spillSrc * 2 + satTo 0xFFFF t.traps * 2 ^ 16
  else if o = 0x30 then t.pal.word
  else if o = 0x34 then t.tbl.word
  else if o = 0x38 then t.lastPos
  else if 0x40 ≤ o ∧ o < 0x50 then t.loopWord ((o - 0x40) / 4)
  else if o = 0x60 then s.meshLink a
  else if o / 8 = 0x80 / 8 then half (t.busy + (s.openCycles a).1) o
  else if o / 8 = 0x88 / 8 then half (t.stall + (s.openCycles a).2.1) o
  else if o / 8 = 0x90 / 8 then half (t.fstall + (if (s.openCycles a).2.2 = 0 then 0 else (s.openCycles a).2.1)) o
  else if o / 8 = 0x100 / 8 then half (s.dbgState a) o
  else if o = 0x108 then t.dbgSpace + 8 * t.dbgBank + t.dbgPage * 2 ^ 8
  else if 0x2000 ≤ o ∧ o < 0x4000 then (if s.tileHalted a then s.aperture a (o - 0x2000) else 0)
  else 0

/-! ### The map (R478, R480) -/

/-- A block of the register map, its instance and the offset in it (R478). -/
inductive Place where
  | frm (o : Nat) | sch (o : Nat) | prt (p o : Nat) | cli (n o : Nat) | txl (p o : Nat) | hbm (m o : Nat) | pwr (o : Nat)
  | flt (o : Nat) | ntc (o : Nat) | dbg (o : Nat) | til (t o : Nat)
  | reserved
  deriving DecidableEq, Repr

/-- The place of a PF BAR0 address (R478). -/
def placeOf (a : Nat) : Place :=
  if a < 0x100000 then .frm a
  else if a < 0x200000 then .sch (a - 0x100000)
  else if a < 0x400000 then .prt ((a - 0x200000) / 0x8000) (a % 0x8000)
  else if a < 0xC00000 then .cli ((a - 0x400000) / 0x10000) (a % 0x10000)
  else if a < 0xD00000 then .txl ((a - 0xC00000) / 0x20000) (a % 0x20000)
  else if a < 0xE00000 then (if (a - 0xD00000) / 0x8000 < 24 then .hbm ((a - 0xD00000) / 0x8000) (a % 0x8000) else .reserved)
  else if a < 0xF00000 then .pwr (a - 0xE00000)
  else if a < 0xF10000 then .flt (a - 0xF00000)
  else if a < 0xF20000 then .ntc (a - 0xF10000)
  else if a < 0xF30000 then .dbg (a - 0xF20000)
  else if a < 0x1000000 then .reserved
  else if a < 0x9000000 then .til ((a - 0x1000000) / 0x4000) (a % 0x4000)
  else .reserved

/-- Place of an access (R480): a VF sees its own CLI block alone. -/
def viaPlace (via : Via) (a : Nat) : Place :=
  match via with
  | .vf n => if a < 0x10000 then .cli n a else .reserved
  | _ => placeOf a

/-- Client whose own function an access comes through. -/
def viaClient : Via → Option Nat
  | .pf p => some (32 * p)
  | .vf n => some n
  | _ => none

/-- Whether a block is readable, and the FRM and PWR blocks writable, before READY (R359). -/
def Place.early (x : Place) : Bool :=
  match x with
  | .frm _ | .pwr _ | .flt _ | .ntc _ => true
  | _ => false

/-- Whether an access reads a place in the present start-up state: BAR0 under R359 and R491, JTAG always (R474), the lead only at READY. -/
def State.readable (s : State) (via : Via) (x : Place) : Bool :=
  match via with
  | .jtag => true
  | .lead => s.frm.state == .ready
  | _ => s.frm.state == .ready || (s.frm.state != .frameBoot && x.early)

/-- The word at a place; `via` tells own accesses of MSI-X tables. -/
def State.wordAt (s : State) (via : Via) (x : Place) : Nat :=
  match x with
  | .frm o => s.frmWord o
  | .sch o => s.schWord o
  | .prt p o => s.prtWord p o
  | .cli n o => s.cliWord n (viaClient via == some n) o
  | .txl p o => s.txlWord p o
  | .hbm m o => s.hbmRegWord m o
  | .pwr o => s.pwrWord o
  | .flt o => s.fltWord o
  | .ntc o => s.ntcWord o
  | .dbg o => s.dbgWord o
  | .til t o => s.tilWord t o
  | .reserved => 0

/-- The word that a read of an address gives (R359, R483). -/
def State.regWord (s : State) (via : Via) (a : Nat) : Nat :=
  let x := viaPlace via a
  if s.readable via x then s.wordAt via x % 2 ^ 32 else 0

/-- Whether a block offset is the low half of a 64-bit register (R481). -/
def Place.wide (x : Place) : Bool :=
  match x with
  | .frm o => o == 0x8 || o == 0x108 || o == 0x208 || o == 0x800 || o == 0x808 || (decide (0x440 ≤ o) && decide (o < 0x4C0) && o % 8 == 0)
  | .prt _ o => [0x40, 0x58, 0x60, 0x78, 0x100, 0x108, 0x200, 0x208, 0x210, 0x218, 0x220, 0x228].contains o
  | .cli _ o => [0x108, 0x110, 0x120, 0x200, 0x208, 0x220, 0x300, 0x308, 0x320, 0x400, 0x600].contains o
      || (decide (0x800 ≤ o) && decide (o < 0x890) && o % 8 == 0) || (decide (0xA00 ≤ o) && decide (o < 0xA38) && o % 8 == 0)
  | .txl _ o => o == 0x10 || o == 0x18 || (decide (0x200 ≤ o) && decide (o < 0x248) && o % 8 == 0) || (decide (0x1000 ≤ o) && decide (o < 0x1880) && o % 8 == 0)
  | .hbm _ o => o == 0x10 || o == 0x18
  | .pwr o => o == 0
  | .flt o => decide (0x100 ≤ o) && decide (o < 0x138) && o % 8 == 0
  | .dbg o => o == 0 || o == 0x10 || o == 0x18 || (decide (0x1000 ≤ o) && decide (o < 0x3000) && o % 16 == 0) || (decide (0x3400 ≤ o) && decide (o < 0x3800) && o % 8 == 0)
  | .til _ o => [0, 0x80, 0x88, 0x90, 0x100].contains o
  | _ => false

/-- Bytes of BAR0 that an access can name (R381). -/
def viaSize : Via → Nat
  | .vf _ => 0x10000
  | _ => 0x10000000

/-- Whether a memory request by a way is answered: its function is there, in D0 and in no FLR (R387, R389, R390). -/
def State.viaOk (s : State) (via : Via) : Bool :=
  match viaClient via with
  | some n => s.memOk n && decide (n < Config.clients)
  | none => true

/-- Effect of COUNTER_LOW_HALF_READ: a read of 4 or 8 bytes (R382). One of 8 bytes is answered as of one instant and latches nothing. In one of 4, the low half of a 64-bit register latches the high half for the next read of it by the same way (R290, R481); any other word is answered as it stands (R483). -/
def lowHalfRead (via : Via) (a size : Nat) (s : State) : State :=
  if viaSize via ≤ a then s
  else if (size ≠ 4 ∧ size ≠ 8) ∨ a % size ≠ 0 ∨ !s.viaOk via then s.emit .unsupportedRequest
  else if size = 8 then s.emit (.readData (BitVec.ofNat 64 (s.regWord via a + 2 ^ 32 * s.regWord via (a + 4))))
  else
    let own := fun (l : HighLatch) => l.via == via && l.addr == a
    match s.latches.find? own with
    | some l => { s with latches := s.latches.filter fun l => !own l }.emit (.readData (l.value.setWidth 64))
    | none =>
      let v := s.regWord via a
      let s := if (viaPlace via a).wide then
          { s with latches := { via := via, addr := a + 4, value := BitVec.ofNat 32 (s.regWord via (a + 4)) } :: s.latches.filter fun l => !(l.via == via && l.addr == a + 4) }
        else s
      s.emit (.readData (BitVec.ofNat 64 v))

/-- COUNTER_LOW_HALF_READ (R290). -/
def execCounterLowHalfRead (via : Via) (addr : RegRead) (s : State) : Host.Outcome State Fault Refusal := run (lowHalfRead via addr.addr addr.size) s

end Sys2Proof.Machine
end

