-- ==== Sys2Proof/Machine/RegWrite.lean ====
section
/-! DEFINITION. Writing registers of BAR0: fields under the access codes and reserved encodings of R6, and the routing of a write to the register's own behaviour (R5, R6, R359, R382, R383, R480, R481, R490, R491). -/

namespace Sys2Proof.Machine

open Sys2Proof

/-- A field as a write leaves it: the new value where it lies in the field's range, the old one where it is a reserved encoding (R6). -/
def field (old new lo hi : Nat) : Nat := if lo ≤ new ∧ new ≤ hi then new else old

/-- A write of word `k` of a watermark group: MARK at 1, CROSSED in STATUS at 3 (R454). -/
def wmWrite (w : WmId) (k : Nat) (v : W32) (s : State) : State :=
  if k = 1 then markWrite w v s else if k = 3 ∧ bit v.toNat 16 then crossedClear w s else s

/-- A 32-bit write to the FRM block. `size`: bytes of the whole access. -/
def frmWrite (via : Via) (size o : Nat) (v : W32) (s : State) : State :=
  let n := v.toNat
  if o = 0x200 then (if size = 4 then frmReset via v s else s)
  else if o = 0x400 then ledgerCommit via v s
  else if o = 0x410 then s.modFrm fun f => { f with probeSteps := field f.probeSteps n 1 1000000 }
  else if o = 0x414 then probationRequest v s
  else if o = 0x440 then (if bit n 20 then s.modFrm fun f => { f with probeErr := false } else s)
  else if 0x600 ≤ o ∧ o < 0x620 ∧ o % 8 = 0 then
    s.modFrm fun f => { f with bar2Base := tabMod 0 f.bar2Base ((o - 0x600) / 8) fun x => field x (bits n 9 0) 0 512 }
  else if o = 0x810 then s.modFrm fun f => { f with guard := field f.guard (bits n 7 0) 0 64 }
  else if o = 0x818 then s.modFrm fun f => { f with mig := field f.mig (bits n 4 0) 1 16 }
  else if o = 0x81C then s.modFrm fun f => { f with scrubPeriod := field f.scrubPeriod n 10 86400 }
  else if o = 0x904 then s.modFrm fun f => { f with leadLoss := field f.leadLoss (bits n 15 0) 1000 60000, routeTimeout := field f.routeTimeout (bits n 31 16) 1 10000 }
  else if 0xA00 ≤ o ∧ o < 0xAC0 then s.modFrm fun f => { f with partnerTo := tabMod 10000 f.partnerTo ((o - 0xA00) / 4) fun x => field x n 10 10000000 }
  else s

/-- A write of SCH_BIND: EN from 0 to 1 creates the context, from 1 to 0 tears it down, and while EN is 0 the other fields are taken (R253). -/
def bindWrite (n : Nat) (v : W32) (s : State) : State :=
  if (s.client n).en then contextTeardown n v s
  else if bit v.toNat 31 then contextCreate n v s
  else s.bindFields n v.toNat

/-- A 32-bit write to the SCH block. -/
def schWrite (o : Nat) (v : W32) (s : State) : State :=
  let n := v.toNat
  if o = 0x80 then { s with swShare := field s.swShare (bits n 4 0) 1 16 }
  else if o = 0x100 then { s with ltLimit := field s.ltLimit (bits n 17 0) 0 131072 }
  else if 0x110 ≤ o ∧ o < 0x120 then wmWrite .lotOcc ((o - 0x110) / 4) v s
  else if 0x200 ≤ o ∧ o < 0x400 then s.modClient ((o - 0x200) / 4) fun c => { c with quota := bits n 17 0 }
  else if 0x400 ≤ o ∧ o < 0x600 then bindWrite ((o - 0x400) / 4) v s
  else if 0x600 ≤ o ∧ o < 0x800 then s.modClient ((o - 0x600) / 4) fun c => { c with stackQuota := bits n 21 0 }
  else if 0x3000 ≤ o ∧ o < 0x4400 then
    let k := (o - 0x3000) % 0x50
    let put := fun (x : StageSlot) =>
      if k = 0 then { x with client := bits n 6 0, q := bits n 8 8, en := bit n 31 }
      else if 0x10 ≤ k then { x with template := BitVec.ofNat 512 (setBits x.template.toNat (8 * (k - 0x10) + 31) (8 * (k - 0x10)) n) }
      else x
    { s with stageSlots := tabMod {} s.stageSlots ((o - 0x3000) / 0x50) put }
  else s

/-- A 32-bit write to partition `p`'s PRT block. -/
def prtWrite (p o : Nat) (v : W32) (s : State) : State :=
  let n := v.toNat
  if o < 0x40 then prtStripsWrite p (o / 4) v s
  else if o = 0x48 then s.modPart p fun x => { x with switchEst := n }
  else if o = 0x4C then s.modPart p fun x => { x with horizon := n }
  else if o = 0x50 then s.modPart p fun x => { x with minQuantum := field x.minQuantum n 0 1000000 }
  else if o = 0x6C then (if bit n 0 then s.wantRebuild p else s)
  else if o = 0x80 then s.modPart p fun x => { x with faultMode := bits n 0 0 }
  else if o = 0x90 then s.modPart p fun x => { x with homeWafer := bits n 3 0, homePart := bits n 9 4, homeEn := bit n 31 }
  else if o = 0x234 ∨ o = 0x23C then wmWrite (.slowdown p) ((o - 0x230) / 4) v s
  else s

/-- Coalescing fields (CLI_Q_COAL): count and time. -/
def coalWrite (v : Nat) : Nat × Nat := (bits v 7 0, bits v 31 16)

/-- A write of CLI_Q_CTRL: RESUME, then FLUSH. -/
def queueCtrl (n q : Nat) (v : Nat) (s : State) : State :=
  let s := if bit v 0 then resume n q s else s
  if bit v 1 then flush n q s else s

/-- A 32-bit write to queue `q`'s registers. -/
def queueWrite (n q o : Nat) (v : W32) (s : State) : State :=
  if o = 0x10 then (if bit v.toNat 31 then queueEnable n q v s else queueDisable n q v s)
  else if o = 0x14 then (if bit v.toNat 2 then s.modQueue n q fun x => { x with dbErr := false } else s)
  else if o = 0x2C then s.modQueue n q fun x => { x with coalCount := (coalWrite v.toNat).1, coalTime := (coalWrite v.toNat).2 }
  else if o = 0x30 then queueCtrl n q v.toNat s
  else s

/-- A write of CLI_LOT_CFG; WIN_SEQ keeps its value while the client has entries (R251). -/
def lotCfgWrite (n : Nat) (v : Nat) (s : State) : State :=
  let idle := (s.entriesOf n).isEmpty
  s.modClient n fun c => { c with
    latePolicy := field c.latePolicy (bits v 1 0) 0 2, winSeq := if idle then field c.winSeq (bits v 7 4) 0 8 else c.winSeq
    migRange := bits v 10 8, deferLimit := field c.deferLimit (bits v 23 16) 1 255 }

/-- A write to a function's MSI-X table: a message word, or a vector's mask (R386). -/
def msixWrite (n o : Nat) (v : W32) (s : State) : State :=
  let k := (o - 0xE000) / 16
  if 0xE800 ≤ o ∨ vectorsOf n ≤ k then s
  else if o % 16 = 12 then
    if bit v.toNat 0 then s.modClient n fun c => { c with func := { c.func with masked := insertUp k c.func.masked } }
    else msixVectorUnmask n (some k) s
  else s.modClient n fun c => { c with func := { c.func with msixTable := tabPut c.func.msixTable ((o - 0xE000) / 4) v } }

/-- A doorbell write (R212). -/
def doorbell (n i : Nat) (v : W32) (s : State) : State :=
  match i with
  | 0 => cliDbQ n 0 v s
  | 1 => cliDbQ n 1 v s
  | 2 => cliDbC n 0 v s
  | 3 => cliDbC n 1 v s
  | 4 => cliDbOut n v s
  | _ => s

/-- A 32-bit write to client `n`'s CLI block. `own`: through the client's own function; `size`: bytes of the whole access. -/
def cliWrite (via : Via) (size n : Nat) (own : Bool) (o : Nat) (v : W32) (s : State) : State :=
  let x := v.toNat
  if o = 0x100 then s.modClient n fun c => { c with depTimeout := field c.depTimeout x 1 1000000 }
  else if 0x200 ≤ o ∧ o < 0x300 then queueWrite n 0 (o - 0x200) v s
  else if 0x300 ≤ o ∧ o < 0x400 then queueWrite n 1 (o - 0x300) v s
  else if o = 0x408 then
    if bit x 31 then outcomeRingEnable n v s
    else if (s.client n).out.enable then outcomeRingDisable n s
    else s.modClient n fun c => { c with out := c.out.setSize x }
  else if o = 0x410 then s.modClient n fun c => { c with out := { c.out with coalCount := (coalWrite x).1, coalTime := (coalWrite x).2 } }
  else if o = 0x500 then lotCfgWrite n x s
  else if o = 0x504 then s.modClient n fun c => { c with lotInterval := field c.lotInterval x 20 1000000 }
  else if o = 0x508 then s.modClient n fun c => { c with stepEst := field c.stepEst x 1 0xFFFFFFFF }
  else if o = 0x50C then s.modClient n fun c => { c with moveEst := x }
  else if o = 0x520 then cliLtSel n v s
  else if o = 0x610 then s.modClient n fun c => { c with preemptMode := field c.preemptMode (bits x 1 0) 0 2, killLimit := field c.killLimit (bits x 31 16) 1 65535 }
  else if o = 0x700 then s.modClient n fun c => { c with
    pcieErr0 := c.pcieErr0 && !bit x 0, pcieErr1 := c.pcieErr1 && !bit x 1, pcieBar2 := c.pcieBar2 && !bit x 2 }
  else if o = 0x890 then accClr via n v s
  else if 0xC00 ≤ o ∧ o < 0xC10 then wmWrite (.queue n 0) ((o - 0xC00) / 4) v s
  else if 0xC10 ≤ o ∧ o < 0xC20 then wmWrite (.queue n 1) ((o - 0xC10) / 4) v s
  else if 0xC20 ≤ o ∧ o < 0xC30 then wmWrite (.defer n) ((o - 0xC20) / 4) v s
  else if 0x4000 ≤ o ∧ o < 0xC000 then (if o % 32 = 0xC then rsClr n ((o - 0x4000) / 32) v s else s)
  else if 0xE000 ≤ o ∧ o < 0xF000 then (if own then msixWrite n o v s else s)
  else if 0xF000 ≤ o then (if size = 4 then doorbell n ((o - 0xF000) / 4) v s else s)
  else s

/-- A 32-bit write to port `p`'s TXL block: ENABLE, then RESET, then RETRAIN. -/
def txlWrite (p o : Nat) (v : W32) (s : State) : State :=
  let n := v.toNat
  if o = 0 then
    let s := txlEnable p (bit n 2) s
    let s := if bit n 0 then txlReset p s else s
    if bit n 1 && s.txlOpen p then s.startRecovery p else s
  else if o = 8 then s.modPort p fun x => { x with ackTimeout := field x.ackTimeout (bits n 15 0) 500 60000, replayLimit := field x.replayLimit (bits n 19 16) 1 15 }
  else s

/-- A write of PWR_DOM_CTRL: REQ_ERR is cleared first, then FREQ and TARGET are taken. -/
def domWrite (d : Nat) (v : Nat) (s : State) : State :=
  let s := if bit v 31 then s.modDom d fun x => { x with reqErr := false } else s
  domainTarget d (bits v 1 0) (freqSetpoint d (bits v 12 8) s)

/-- A 32-bit write to the PWR, CLK and TIME block. -/
def pwrWrite (via : Via) (o : Nat) (v : W32) (s : State) : State :=
  let n := v.toNat
  if o = 0x1000 then s.modPwr fun p => { p with cap := field p.cap (bits n 15 0) 4000 p.ceiling }
  else if o = 0x1004 then s.modPwr fun p => { p with hyst := field p.hyst n 0 2000 }
  else if o = 0x1008 then (if bit n 19 then s.modPwr fun p => { p with ceilErr := false } else s)
  else if o = 0x100C then ceilingLower via v s
  else if o = 0x1014 then s.modPwr fun p => { p with thermLimit := field p.thermLimit n 60 93 }
  else if o = 0x1018 then s.modPwr fun p => { p with retainDelay := field p.retainDelay n 10 1000000 }
  else if 0x1100 ≤ o ∧ o < 0x1140 then domWrite ((o - 0x1100) / 4) n s
  else if 0x1300 ≤ o ∧ o < 0x1310 then wmWrite .power ((o - 0x1300) / 4) v s
  else if 0x1310 ≤ o ∧ o < 0x1320 then wmWrite .temp ((o - 0x1310) / 4) v s
  else s

/-- A 32-bit write to the FLT block. -/
def fltWrite (o : Nat) (v : W32) (s : State) : State :=
  let n := v.toNat
  if o < 0x10 then s.modFlt fun f => { f with
    limits := tabMod 3 f.limits (o / 4) fun x => field x (bits n 3 0) 1 15, windows := tabMod 1000 f.windows (o / 4) fun x => field x (bits n 31 16) 1 60000 }
  else if o = 0x10 then s.modFlt fun f => { f with linkTimeout := field f.linkTimeout n 20 10000 }
  else if o = 0x14 then s.modFlt fun f => { f with syncTimeout := field f.syncTimeout n 100 1000000 }
  else if o = 0x18 then s.modFlt fun f => { f with scrub := field f.scrub n 1000 60000 }
  else if o = 0x1C then s.modFlt fun f => { f with retrimMax := field f.retrimMax n 100 60000 }
  else if o = 0x20 then s.modFlt fun f => { f with arbPart := bits n 5 0, arbEn := bit n 31 }
  else if 0x300 ≤ o ∧ o < 0x310 then wmWrite .upset ((o - 0x300) / 4) v s
  else s

/-- A 32-bit write to the NTC block. -/
def ntcRegWrite (o : Nat) (v : W32) (s : State) : State :=
  if o = 4 then { s with ntc := { s.ntc with route := bits v.toNat 3 0, fwd := bit v.toNat 8 } } else s

/-- A write of DBG_CTRL: RELEASE, STEP_DESC, STEP_LW, then HALT. -/
def dbgCtrl (n : Nat) (v : Nat) (s : State) : State :=
  let s := if bit v 0 then dbgRelease n s else s
  let s := if bit v 1 then dbgStepDesc n s else s
  let s := if bit v 2 then dbgStepLw n s else s
  if bit v 3 then dbgHalt n s else s

/-- A 32-bit write to the DBG block. -/
def dbgWrite (o : Nat) (v : W32) (s : State) : State :=
  let n := v.toNat
  if o = 8 then { s with trace := { s.trace with size := n } }
  else if o = 0xC then traceEnable v s
  else if 0x3000 ≤ o ∧ o < 0x3200 then s.modDbg ((o - 0x3000) / 4) fun d => { d with tagEn0 := bit n 0, tagEn1 := bit n 1 }
  else if 0x3200 ≤ o ∧ o < 0x3400 then dbgCtrl ((o - 0x3200) / 4) n s
  else s

/-- Pages of an aperture space (R470). -/
def spacePages (sp : Nat) : Nat := nth [1, 1, 32, 384, 1, 2] sp

/-- TIL_DBG_SEL of a tile after a write; a reserved space, or a page beyond the space's count, leaves its field (R6). -/
def Tile.select (t : Tile) (v : Nat) : Tile :=
  let sp := field t.dbgSpace (bits v 2 0) 0 5
  { t with dbgSpace := sp, dbgBank := bits v 3 3, dbgPage := if bits v 16 8 < spacePages sp then bits v 16 8 else t.dbgPage }

/-- A 32-bit write to a tile's window; the window of an absent or OFF tile ignores it (R484). -/
def tilWrite (a o : Nat) (v : W32) (s : State) : State :=
  if o ≠ 0x108 ∨ (s.dom (domOfTile a)).state = .off ∨ s.physCol (a / 16) (a % 16) = 0x1F then s
  else s.modTile a fun t => t.select v.toNat

/-- A 32-bit write at a place. -/
def wordWrite (via : Via) (size : Nat) (x : Place) (v : W32) (s : State) : State :=
  match x with
  | .frm o => frmWrite via size o v s
  | .sch o => schWrite o v s
  | .prt p o => prtWrite p o v s
  | .cli n o => cliWrite via size n (viaClient via == some n) o v s
  | .txl p o => txlWrite p o v s
  | .hbm m o => if o = 0 ∧ bit v.toNat 0 then hbmRetrain m s else s
  | .pwr o => pwrWrite via o v s
  | .flt o => fltWrite o v s
  | .ntc o => ntcRegWrite o v s
  | .dbg o => dbgWrite o v s
  | .til a o => tilWrite a o v s
  | .reserved => s

/-- A ring base after a write of its register: taken while the ring is disabled and the base fits (R209, R210). -/
def State.baseWrite (s : State) (n : Nat) (idle : Bool) (v : Nat) (put : Nat → Nat → State) : State :=
  let loc := v % 2
  let base := v / 4096 * 4096
  if idle && s.ringOk n loc base then put loc base else s

/-- A write of the `k`-th CLI_HBM register: through PF BAR0 alone, and only while EN is 0 (R403, R480; log 92). -/
def areaWrite (via : Via) (n k v : Nat) (s : State) : State :=
  if !Via.isPf via || (s.client n).en then s
  else
    let put := fun (a : Areas) => match k with
      | 0 => { a with lo := v }
      | 1 => { a with hi := v }
      | 2 => { a with recs := v }
      | 3 => { a with park := v }
      | 4 => { a with parkSize := v }
      | 5 => { a with spill := v }
      | _ => { a with spillSize := v }
    s.modClient n fun c => { c with areas := put c.areas }

/-- The whole write of a 64-bit RW register; none where the place is no such register. -/
def wideWrite (via : Via) (x : Place) (v : Nat) (s : State) : Option State :=
  match x with
  | .cli n o =>
    if o = 0x108 then some (s.modQueue n 0 fun x => { x with qdeadline := v })
    else if o = 0x110 then some (s.modQueue n 1 fun x => { x with qdeadline := v })
    else if o = 0x200 ∨ o = 0x300 then
      let q := (o - 0x200) / 0x100
      some (s.baseWrite n ((s.queue n q).state == .disabled) v fun loc b => s.modQueue n q fun x => { x with baseLoc := loc, base := b })
    else if o = 0x208 ∨ o = 0x308 then
      let q := (o - 0x208) / 0x100
      some (s.baseWrite n ((s.queue n q).state == .disabled) v fun loc b => s.modQueue n q fun x => { x with cbaseLoc := loc, cbase := b })
    else if o = 0x400 then some (s.baseWrite n (!(s.client n).out.enable) v fun loc b => s.modClient n fun c => { c with out := { c.out with loc := loc, base := b } })
    else if 0xA00 ≤ o ∧ o < 0xA38 then some (areaWrite via n ((o - 0xA00) / 8) v s)
    else none
  | .dbg o =>
    if o = 0 then some { s with trace := { s.trace with base := v } }
    else if 0x1000 ≤ o ∧ o < 0x2000 ∧ o % 16 = 0 then
      some (s.modDbg ((o - 0x1000) / 32) fun d => if o % 32 < 16 then { d with count0 := BitVec.ofNat 64 v } else { d with count1 := BitVec.ofNat 64 v })
    else if 0x2000 ≤ o ∧ o < 0x3000 ∧ o % 16 = 0 then
      some (s.modDbg ((o - 0x2000) / 32) fun d => if o % 32 < 16 then { d with tag0 := BitVec.ofNat 64 v } else { d with tag1 := BitVec.ofNat 64 v })
    else none
  | _ => none

/-- Whether a write by a way reaches a place now (R359, R474, R491). -/
def State.writable (s : State) (via : Via) (x : Place) : Bool :=
  match via with
  | .jtag => true
  | .lead => s.frm.state == .ready
  | _ => s.frm.state == .ready || (s.frm.state != .frameBoot && (match x with | .frm _ | .pwr _ => true | _ => false))

/-- A 4-byte write at an address: to one half of a 64-bit RW register, whose whole value is then judged, or to a 32-bit register (R481). -/
def write4 (via : Via) (size a : Nat) (v : W32) (s : State) : State :=
  let x := viaPlace via a
  if !s.writable via x then s
  else
    let base := a / 8 * 8
    let lo := s.wordAt via (viaPlace via base)
    let hi := s.wordAt via (viaPlace via (base + 4))
    let whole := if a % 8 = 0 then v.toNat + hi * 2 ^ 32 else lo + v.toNat * 2 ^ 32
    match wideWrite via (viaPlace via base) whole s with
    | some t => t
    | none => wordWrite via size x v s

/-- An 8-byte write at an address: a 64-bit RW register as a whole, or both registers of the pair, each judged on its own (R481, R490). -/
def write8 (via : Via) (a : Nat) (v : W64) (s : State) : State :=
  let x := viaPlace via a
  if !s.writable via x then s
  else match wideWrite via x v.toNat s with
    | some t => t
    | none => write4 via 8 (a + 4) (BitVec.ofNat 32 (v.toNat / 2 ^ 32)) (write4 via 8 a (BitVec.ofNat 32 v.toNat) s)

/-- Whether an address lies in a doorbell page (R212). -/
def inDoorbells (x : Place) : Bool :=
  match x with
  | .cli _ o => decide (0xF000 ≤ o)
  | _ => false

/-- Effect of REGISTER_WRITE: a naturally aligned write of 4 or 8 bytes; any other completes as an Unsupported Request, save in the doorbell page, where it is ignored (R212, R382). -/
def registerWrite (via : Via) (a size : Nat) (v : W64) (s : State) : State :=
  if viaSize via ≤ a ∨ !s.viaOk via then s
  else if (size = 4 ∨ size = 8) ∧ a % size = 0 then (if size = 4 then write4 via 4 a (v.setWidth 32) s else write8 via a v s)
  else if inDoorbells (viaPlace via a) then s
  else s.emit .unsupportedRequest

/-- REGISTER_WRITE (R6). -/
def execRegisterWrite (via : Via) (addr size : Nat) (value : W64) (s : State) : Host.Outcome State Fault Refusal := run (registerWrite via addr size value) s

end Sys2Proof.Machine
end

