-- ==== Sys2Proof/Machine/Stacks.lean ====
section
/-! DEFINITION. What arriving stack transactions do, stack time, and the lead: remote accesses, forwarded units, admission, takeover (R434 to R453, R462). -/

namespace Sys2Proof.Machine

open Sys2Proof

/-! ### Remote reads and writes (R433 to R435) -/

/-- What a global address names on this wafer, once the access has been checked (R434). -/
inductive Target where
  | vat (tile a : Nat)
  | hbm (a : Nat)
  | reg (a : Nat)
  | refused
  deriving DecidableEq, Repr

/-- Whether every byte of a vat access lies in DRY windows of client `n` (R25, R434). -/
def State.vatOpen (s : State) (n tile a len : Nat) : Bool :=
  decide (a + len ≤ 65536 * 47) && (upTo ((a % 65536 + len + 65535) / 65536)).all fun i =>
    let w := (s.tile tile).win (a / 65536 + i)
    w.state == WinState.dry && (match w.owner with | .seq c _ _ => c == n | .record c _ _ => c == n | _ => false)

/-- The target of an RD, WR or WRP, checked for its client; requests of partners are refused (R434, R450). -/
def State.target (s : State) (t : Trans) : Target :=
  let o := gaOffset t.addr
  let c := s.client t.client
  if 16 ≤ t.src ∨ gaWafer t.addr ≠ s.frm.waferId ∨ t.len = 0 ∨ 4096 < t.len ∨ bits t.addr.toNat 63 58 ≠ 0 then .refused
  else match gaSpace t.addr with
    | 0 => if o < 2 ^ 35 ∧ s.vatOpen t.client (bits o 34 22) (bits o 21 0) t.len then .vat (bits o 34 22) (bits o 21 0) else .refused
    | 1 => if c.areas.lo ≤ o ∧ o + t.len ≤ c.areas.hi ∧ o + t.len ≤ s.hbmTop then .hbm o else .refused
    | 2 => if s.frm.role = 2 ∧ t.src = s.frm.leadId ∧ o + t.len ≤ viaSize .lead then .reg o else .refused
    | _ => .refused

/-- Whether a remote access waits: for a flip to be acknowledged (R448), or for a stack that re-trains (R372). -/
def State.targetWaits (s : State) (t : Trans) : Bool :=
  t.dst == s.frm.waferId && match s.target t with
    | .vat a _ => (s.partOfTile a).any s.flipWaits
    | .hbm a => s.hbmWaits a t.len
    | _ => false

/-- The data of a remote read; none where it is refused. Registers are read in whole words. -/
def State.remoteRead (s : State) (t : Trans) : Option (List Byte) :=
  match s.target t with
  | .vat a o => some (memRead (s.tile a).vat o t.len)
  | .hbm a => some (s.hbmRead a t.len)
  | .reg a => if a % 4 = 0 ∧ t.len % 4 = 0 then some ((upTo (t.len / 4)).flatMap fun i => leBytes (s.regWord .lead (a + 4 * i)) 4) else none
  | .refused => none

/-- The state after a remote write; none where it is refused. A register takes naturally aligned writes of 4 or 8 bytes (R382). -/
def State.remoteWrite (s : State) (t : Trans) : Option State :=
  match s.target t with
  | .vat a o => some (s.modTile a fun x => { x with vat := memWrite x.vat o t.data })
  | .hbm a => some (s.hbmWrite a t.data)
  | .reg a => if (t.len = 4 ∨ t.len = 8) ∧ a % t.len = 0 then some (registerWrite .lead a t.len (BitVec.ofNat 64 (leVal t.data)) s) else none
  | .refused => none

/-- RD (R435). -/
def execRd (t : Trans) (s : State) : Host.Outcome State Fault Refusal :=
  run (fun s => s.onTrans t (t.typ == tRD && !t.resp && !s.targetWaits t) fun s =>
    match s.remoteRead t with
    | some bs => s.send (transReply t 0 bs)
    | none => s.send (transReply t 1 [])) s

/-- The data of an awaited read reaches the unit: a block that the drain writes in part, an operand read whole, or the long word that stalls for it (R46, R142, R178). -/
def State.readArrives (s : State) (u : CUnit) (tid : Nat) (data : List Byte) : State :=
  match u.waitMerge.find? fun x => x.1 == tid with
  | some x => (s.modUnit u.id fun u => { u with waitMerge := u.waitMerge.filter fun y => y.1 != tid }).drainOne u (drainMerge data x.2)
  | none =>
  match u.waitRd.find? fun x => x.1 == tid with
  | some x =>
    let s := s.modUnit u.id fun u => { u with waitRd := u.waitRd.filter fun y => y.1 != tid, image := memWrite u.image x.2.1 data }
    if u.kind = kLOT ∨ u.kind = kHANDOFF then s.handoffSend u.id else s.dataGo u.id
  | none => s.each u.allTiles fun s a => s.modRun a fun r =>
      match r.stall with
      | some (.remote (.wafer k) n none since) => if r.unit = u.id ∧ k = tid then { r with stall := some (.remote (.wafer k) n (some data) since) } else r
      | _ => r

/-- Effect of an answer to a request of a commit unit: nothing where it is awaited no more (R271). -/
def State.onAnswer (s : State) (t : Trans) (f : State → CUnit → State) : State :=
  match s.awaited t with
  | none => s
  | some uid =>
    match s.unit? uid with
    | none => s.answered t
    | some u => f (s.answered t) u

/-- Refused data ends the unit with ACCESS; one that has committed ends so once its drain is done (R202, R434). -/
def State.readRefused (s : State) (u : CUnit) (tid : Nat) : State :=
  if u.phase = .committed then s.modUnit u.id fun u => { u with waitMerge := u.waitMerge.filter (fun y => y.1 != tid), status := 3, code := cACCESS }
  else s.faultUnit u.id cACCESS

/-- RD_RESPONSE (R435): data, or a refusal (R434). -/
def execRdResponse (t : Trans) (s : State) : Host.Outcome State Fault Refusal :=
  run (fun s => s.onTrans t (t.typ == tRD && t.resp) fun s => s.onAnswer t fun s u =>
    if t.status ≠ 0 then s.readRefused u t.tid.toNat else s.readArrives u t.tid.toNat t.data) s

/-- WR (R435). -/
def execWr (t : Trans) (s : State) : Host.Outcome State Fault Refusal :=
  run (fun s => s.onTrans t (t.typ == tWR && !t.resp && !s.targetWaits t) fun s =>
    match s.remoteWrite t with
    | some s => s.send (transReply t 0 [])
    | none => s.send (transReply t 1 [])) s

/-- WR_RESPONSE (R46): one write of a drain is acknowledged; a refused one makes its unit end with ACCESS (R202, R434). -/
def execWrResponse (t : Trans) (s : State) : Host.Outcome State Fault Refusal :=
  run (fun s => s.onTrans t (t.typ == tWR && t.resp) fun s => s.onAnswer t fun s u =>
    s.modUnit u.id fun u => { u with
      waitWr := u.waitWr.filter (· != t.tid.toNat)
      status := if t.status = 0 then u.status else 3, code := if t.status = 0 then u.code else cACCESS }) s

/-- The unit, homed here or forwarded here, that a fabric write of another wafer names (R435; log 117). -/
def State.fabricUnit (s : State) (t : Trans) : Option CUnit :=
  let f := fun (o n : Nat) => leVal ((t.data.drop o).take n)
  s.units.find? fun u => u.client == t.client && u.tag.toNat == f 0 4 && u.q == f 4 1 && s.unitSeq u == f 8 4
    && (match u.home with | some (w, _) => w == t.src | none => u.others.contains t.src)

/-- A fabric accumulator write that crosses wafers: it goes onto the mesh towards its tile, or on to the wafer that has the tile (R179, R435, R508; log 117). -/
def State.fabricIn (s : State) (t : Trans) : State :=
  let f := fun (o n : Nat) => leVal ((t.data.drop o).take n)
  match s.fabricUnit t with
  | none => s
  | some u => s.fabricTo none u (f 12 4) (f 16 4) (f 24 8) (match fabricBody (t.data.drop 32) with
      | .terms ts => .terms (ts.map fun x => { x with row := f 24 8 })
      | b => b)

/-- Whether a WRP carries a fabric accumulator write. -/
def isFabric (t : Trans) : Bool := gaSpace t.addr == 0 && gaOffset t.addr == fabricAddr

/-- WRP (R435): as WR, with no response; or a fabric accumulator write of another wafer. -/
def execWrp (t : Trans) (s : State) : Host.Outcome State Fault Refusal :=
  run (fun s => s.onTrans t (t.typ == tWRP && !s.targetWaits t) fun s => if isFabric t then s.fabricIn t else (s.remoteWrite t).getD s) s

/-! ### Forwarded units (R436, R437, R448) -/

/-- The partition here whose strips count as strips of a home partition on another wafer (R448). -/
def State.lentPart (s : State) (wafer part : Nat) : Option Nat :=
  (upTo Config.partitions).find? fun p => (s.part p).homeEn && (s.part p).homeWafer == wafer && (s.part p).homePart == part

/-- Places a forwarded member on the tile of the partition with the fewest placed members, under an entry number of its own (see `farEntry`); its STEP and M words, which R437 does not carry, are free values (log 48). -/
def State.takeMember (s : State) (u : CUnit) (seq : Nat) (tiles : List Nat) : State :=
  match minBy (fun a => (s.tile a).queue.length) tiles with
  | none => s.failReply u
  | some a =>
    let x := s.draw 210
    let y := x.2.draw 211
    let z := y.2.draw 212
    let u := { u with
      phase := .placed, tiles := [a]
      member := some { entry := farEntry seq, deadline := 0, step := x.1.toNat % 2 ^ 32, m0 := y.1.toNat % 2 ^ 32, m1 := z.1.toNat % 2 ^ 32 } }
    { z.2 with units := z.2.units ++ [u], nextUnit := z.2.nextUnit + 1 }.modTile a fun t => { t with queue := t.queue ++ [u.id] }

/-- Effect of DESC_FWD: a forwarded descriptor starts on the working tiles here as soon as they are free, a forwarded member is placed on one of them. -/
def descFwd (t : Trans) (s : State) : State :=
  let d : BitVec 512 := BitVec.ofNat 512 (leVal (t.data.take 64))
  let f := fun (o k : Nat) => leVal (((t.data.drop 64).drop o).take k)
  match s.lentPart t.src (f 8 1 % 64) with
  | none => s.send (transReply t 1 [])
  | some p =>
    if t.data.length ≠ 96 then s.send (transReply t 1 [])
    else
      let u : CUnit := {
        id := s.nextUnit, client := t.client, q := bits (f 8 1) 6 6, tag := dTag d, part := p, kind := dKind d, stages := s.resolve t.client [d]
        tiles := s.tilesOf p, first := f 0 4, total := f 6 2, phase := .killed, start := f 16 8, startNo := s.order, home := some (t.src, t.tid.toNat) }
      let s := { s with order := s.order + 1 }
      if (least (s.startCodes t.client [d])).isSome then s.failReply u
      else if bit (f 12 4) 31 then s.takeMember u (f 12 4 % 2 ^ 21) u.tiles
      else unitRerunStart u.id { s with units := s.units ++ [u], nextUnit := s.nextUnit + 1 }

/-- DESC_FWD (R437). -/
def execDescFwd (t : Trans) (s : State) : Host.Outcome State Fault Refusal :=
  run (fun s => s.onTrans t (t.typ == tDESC && !t.resp) (descFwd t)) s

/-- DESC_FWD_RESPONSE (R437): work that ended without its home's COMMIT ends the unit, with PARTNER and FAILED. -/
def execDescFwdResponse (t : Trans) (s : State) : Host.Outcome State Fault Refusal :=
  run (fun s => s.onTrans t (t.typ == tDESC && t.resp) fun s => s.onAnswer t fun s u =>
    if t.status = 0 ∨ u.phase = .committed ∨ u.phase = .killed then s else s.endUnit u 7 pFAILED) s

/-- Whether a transaction is a LOT_SYNC request of a subtype (R436). -/
def isSync (t : Trans) (sub : Nat) : Bool := t.typ == tLOT && !t.resp && bits t.arg.toNat 7 0 == sub

/-- TAG that LOT_SYNC data begins with (R436). -/
def syncTag (t : Trans) : W32 := BitVec.ofNat 32 (leVal (t.data.take 4))

/-- The unit homed here that a contributing wafer's LOT_SYNC names; `seq`: the SEQ_ID and MEMBER word, where the subtype carries it (R436). -/
def State.homeUnit (s : State) (t : Trans) (seq : Option Nat) : Option CUnit :=
  s.units.find? fun u => u.client == t.client && u.tag == syncTag t && u.home.isNone && u.others.contains t.src && seq.all fun x => s.unitSeq u == x

/-- The unit forwarded here that its home's LOT_SYNC names (R436). -/
def State.awayUnit (s : State) (t : Trans) (seq : Option Nat) : Option CUnit :=
  s.units.find? fun u => u.client == t.client && u.tag == syncTag t && u.home.any (fun h => h.1 == t.src) && seq.all fun x => s.unitSeq u == x

/-- A range entry of READY data (R278). -/
def rangeOf (bs : List Byte) : RangeC :=
  let f := fun (o n : Nat) => leVal ((bs.drop o).take n)
  { slot := bits (f 0 2) 9 0, amax := BitVec.ofNat 32 (f 4 4), nan := f 8 4, inf := f 12 4, sat := f 16 4
    pub := if bit (f 24 1) 0 then some (BitVec.ofNat 32 (f 20 4)) else none }

/-- LOT_SYNC_READY (R436): the wafer's ready signal, its flags and its contributions join the unit. -/
def execLotSyncReady (t : Trans) (s : State) : Host.Outcome State Fault Refusal :=
  run (fun s => s.onTrans t (isSync t 4) fun s =>
    let get := fun (o n : Nat) => leVal ((t.data.drop o).take n)
    match s.homeUnit t (some (get 8 4)) with
    | none => s
    | some u =>
      if !(u.phase == .running || u.phase == .ready || u.phase == .saved) || !u.waitReady.contains t.src then s
      else
        let rs := (upTo (get 6 2)).map fun i => rangeOf ((t.data.drop (16 + 32 * i)).take 32)
        s.modUnit u.id fun u => { u with
          waitReady := u.waitReady.filter (· != t.src), flags := u.flags ||| BitVec.ofNat 8 (get 5 1), ranges := rangesJoin u.ranges rs }) s

/-- LOT_SYNC_BARRIER (R436): the wafer's tiles have all issued BARRIER NUM. -/
def execLotSyncBarrier (t : Trans) (s : State) : Host.Outcome State Fault Refusal :=
  run (fun s => s.onTrans t (isSync t 5) fun s =>
    let n := leVal ((t.data.drop 4).take 1)
    match s.homeUnit t none with
    | none => s
    | some u => if !(u.phase == .running || u.phase == .saved) || u.waitBarrier.contains (t.src, n) then s
        else s.modUnit u.id fun u => { u with waitBarrier := (t.src, n) :: u.waitBarrier }) s

/-- BARRIER_GO (R436): the tiles here resume. -/
def execBarrierGo (t : Trans) (s : State) : Host.Outcome State Fault Refusal :=
  run (fun s => s.onTrans t (isSync t 6) fun s =>
    let n := leVal ((t.data.drop 4).take 1)
    match s.awayUnit t none with
    | none => s
    | some u => if s.barrierMet u.id u.tiles != some n then s
        else (s.modUnit u.id fun u => { u with waitBarrier := u.waitBarrier.filter fun x => x.2 != n }).barrierGo u.tiles) s

/-- The entries of MERGE data (R436). -/
def mergeList (t : Trans) : List (Nat × W32) :=
  (upTo (leVal ((t.data.drop 4).take 2))).map fun i =>
    let e := (t.data.drop (8 + 8 * i)).take 8
    (bits (leVal (e.take 2)) 9 0, BitVec.ofNat 32 (leVal ((e.drop 4).take 4)))

/-- MERGE (R436): a wafer's maxima of pass 1; a rerun that comes to its merge after the others is answered at once. -/
def execMerge (t : Trans) (s : State) : Host.Outcome State Fault Refusal :=
  run (fun s => s.onTrans t (isSync t 7) fun s =>
    match s.homeUnit t none with
    | none => s
    | some u =>
      let runs := s.sideRuns u .main
      if u.phase == .running && !runs.isEmpty && runs.all (fun x => x.2.pass == 2) then
        let l := (u.merged.filter fun x => x.1 / 1024 == 0).map fun x => (x.1 % 1024, x.2)
        s.sendFor u.id { lotSync 8 u.client t.src (mergeData u.tag l) with src := s.frm.waferId }
      else if !(u.phase == .running || u.phase == .saved) then s
      else s.modUnit u.id fun u => { u with merges := (t.src, mergeList t) :: u.merges.filter fun x => x.1 != t.src }) s

/-- MERGE_RESULT (R436): pass 2 begins here. -/
def execMergeResult (t : Trans) (s : State) : Host.Outcome State Fault Refusal :=
  run (fun s => s.onTrans t (isSync t 8) fun s =>
    match s.awayUnit t none with
    | none => s
    | some u => if u.tiles.isEmpty || !s.sideMerging u.id u.tiles then s else s.startTwo u.id .main (mergeList t)) s

/-- Effect of LOT_SYNC COMMIT: the unit flips its windows as soon as it is ready and says so, or is discarded and says so; a unit that is no longer here is acknowledged. -/
def lotSyncCommit (t : Trans) (s : State) : State :=
  let get := fun (o n : Nat) => leVal ((t.data.drop o).take n)
  let ack := fun (s : State) => s.send (transReply t 0 [])
  match s.awayUnit t (some (get 8 4)) with
  | none => ack s
  | some u =>
    if u.phase = .committed then ack s
    else if bit (get 4 1) 0 then
      let u' := { u with waitFlip := [t.tid.toNat] }
      let s := s.modUnit u.id fun u => { u with waitFlip := [t.tid.toNat] }
      if u.phase = .ready then s.commitHere u' else s
    else ack ((((s.discardOn u.id u.allTiles).dropUnit u.id).dropRequests u.id).failReply u)

/-- LOT_SYNC_COMMIT (R436). -/
def execLotSyncCommit (t : Trans) (s : State) : Host.Outcome State Fault Refusal :=
  run (fun s => s.onTrans t (isSync t 9) (lotSyncCommit t)) s

/-- LOT_SYNC_COMMIT_RESPONSE (R448). -/
def execLotSyncCommitResponse (t : Trans) (s : State) : Host.Outcome State Fault Refusal :=
  run (fun s => s.onTrans t (t.typ == tLOT && t.resp && bits t.arg.toNat 7 0 == 9) fun s => s.onAnswer t fun s u =>
    s.modUnit u.id fun u => { u with waitFlip := u.waitFlip.filter (· != t.src) }) s

/-! ### Stack-wide admission (R445, R447) -/

/-- The lead grants an admission request against the stack quota, or refuses it (R445). -/
def State.admitAnswer (s : State) (t : Trans) : State :=
  let n := leVal ((t.data.drop 4).take 1) % 128
  if s.stackCount n < (s.client n).stackQuota then
    (s.modStk fun k => { k with counts := tabMod 0 k.counts (128 * t.src + n) (· + 1) }).send (transReply t 0 [])
  else s.send (transReply t 1 [])

/-- ADMIT_REQ (R445): it waits while the lead rebuilds its counts (R447); a wafer that is not the lead refuses it, and so does one that a partner sends (R450). -/
def execAdmitReq (t : Trans) (s : State) : Host.Outcome State Fault Refusal :=
  run (fun s => s.onTrans t (isSync t 1) fun s =>
    if s.frm.role ≠ 1 ∨ 16 ≤ t.src then s.send (transReply t 1 [])
    else if s.stk.rebuilding.isSome then s.modStk fun k => { k with waitingReqs := k.waitingReqs ++ [t] }
    else s.admitAnswer t) s

/-- ADMIT_REQ_RESPONSE (R445): the waiting ADMIT commits or is refused with LEAD, once its commit instant may come (R235). -/
def execAdmitReqResponse (t : Trans) (s : State) : Host.Outcome State Fault Refusal :=
  run (fun s => s.onTrans t (t.typ == tLOT && t.resp && bits t.arg.toNat 7 0 == 1) fun s =>
    let n := t.client
    if (s.awaited t).isNone then s
    else
      let s := s.answered t
      match (s.client n).admits.find? fun a => a.tid == t.tid.toNat && a.answer.isNone with
      | none => s
      | some a => s.admitAnswered n a (if t.status = 0 then 0 else 7)) s

/-- Effect of ADMIT_REQ_TIMEOUT: no answer within LEAD_LOSS_TIMEOUT + 20 ms. -/
def admitTimeout (n q : Nat) (tag : W32) (s : State) : State :=
  match (s.client n).admits.find? fun a => a.q == q && a.tag == tag && a.answer.isNone with
  | none => s
  | some a => if s.now < a.since + 1000 * s.frm.leadLoss + 20000000 then s else s.admitAnswered n a 7

/-- ADMIT_REQ_TIMEOUT (R445). -/
def execAdmitReqTimeout (client q : Nat) (tag : W32) (s : State) : Host.Outcome State Fault Refusal := run (admitTimeout client q tag) s

/-- LOT_SYNC_RELEASE (R445): the lead lowers the stack-wide count. -/
def execLotSyncRelease (t : Trans) (s : State) : Host.Outcome State Fault Refusal :=
  run (fun s => s.onTrans t (isSync t 2) fun s =>
    let n := leVal ((t.data.drop 4).take 1) % 128
    if s.frm.role ≠ 1 ∨ 16 ≤ t.src then s
    else s.modStk fun k => { k with counts := tabMod 0 k.counts (128 * t.src + n) (· - 1) }) s

/-- LOT_SYNC_COUNT (R447): a follower's counts for the rebuild. -/
def execLotSyncCount (t : Trans) (s : State) : Host.Outcome State Fault Refusal :=
  run (fun s => s.onTrans t (isSync t 3) fun s =>
    if s.frm.role ≠ 1 ∨ 16 ≤ t.src then s
    else s.modStk fun k => { k with
      counts := (upTo 128).foldl (fun c n => tabPut c (128 * t.src + n) (leVal ((t.data.drop (4 * n)).take 4))) k.counts
      rebuilding := k.rebuilding.map fun x => (x.1.filter (· != t.src), x.2) }) s

/-- The lead's own ADMITs that waited for a former lead are judged here (R445). -/
def State.ownAdmits (s : State) : State :=
  s.each (upTo Config.clients) fun s n => s.each ((s.client n).admits.filter fun a => a.answer.isNone) fun s a =>
    s.admitAnswered n a (if (s.client n).stackQuota ≤ s.stackCount n then 7 else 0)

/-- Effect of COUNT_REBUILD_END: every COUNT is there, or LEAD_LOSS_TIMEOUT has passed since the claim; waiting requests proceed. -/
def countRebuildEnd (s : State) : State :=
  match s.stk.rebuilding with
  | none => s
  | some (l, since) =>
    if !l.isEmpty && decide (s.now < since + 1000 * s.frm.leadLoss) then s
    else
      let w := s.stk.waitingReqs
      ((s.modStk fun k => { k with rebuilding := none, waitingReqs := [] }).ownAdmits).each w State.admitAnswer

/-- COUNT_REBUILD_END (R436). -/
def execCountRebuildEnd (s : State) : Host.Outcome State Fault Refusal := run countRebuildEnd s

/-! ### Stack time (R438, R443) -/

/-- Whether this wafer acts as lead: it is READY as lead, or forms the stack by its straps and has seen no other (R365, R442). -/
def State.leading (s : State) : Bool := s.frm.role == 1 || (s.frm.state == .stackForm && s.isLead && s.leadSeen.isNone)

/-- The data of a beacon (R438). -/
def State.beaconData (s : State) : List Byte :=
  leBytes s.frm.members.toNat 2 ++ leBytes s.frm.waferId 1 ++ leBytes 0 1 ++ leBytes s.stk.beacons 4 ++ leBytes 0 8

/-- Endpoints that a beacon goes to: the far end of every port that is up, and every other wafer of the stack (R443). -/
def State.beaconTo (s : State) : List Nat :=
  sortUp (((upTo 8).filterMap fun p => if (s.port p).state == .active then (s.port p).farEp else none) ++ s.otherWafers.filter fun w => (s.route w).isSome)

/-- Effect of LEAD_BEACON_SEND. -/
def leadBeaconSend (s : State) : State :=
  if !s.leading || decide (s.now < s.stk.lastBeacon + 100000 && s.stk.lastBeacon != 0) then s
  else
    let s := s.modFrm fun f => { f with members := f.members ||| s.memberMap }
    let s := s.modStk fun k => { k with lastBeacon := s.now, beacons := (k.beacons + 1) % 2 ^ 32 }
    let d := s.beaconData
    s.each s.beaconTo fun s e => s.send { typ := tTIME, dst := e, len := 16, arg := BitVec.ofNat 64 s.now, data := d }

/-- LEAD_BEACON_SEND (R443). -/
def execLeadBeaconSend (s : State) : Host.Outcome State Fault Refusal := run leadBeaconSend s

/-- Whether this wafer can reach a wafer (R446). -/
def State.reach (s : State) (w : Nat) : Bool := w == s.frm.waferId || (s.route w).isSome

/-- Wafers of the membership map. -/
def State.mapWafers (s : State) : List Nat := (upTo 16).filter fun w => s.frm.members.getLsbD w

/-- The deputy: the lowest wafer of the map other than the lead that can be reached (R446). -/
def State.deputyOf (s : State) : Option Nat := s.mapWafers.find? fun w => w != s.frm.leadId && s.reach w

/-- Keeps FRM_STACK_ROLE's DEPUTY at the deputy of the present map. -/
def State.setDeputy (s : State) : State := match s.deputyOf with | some w => s.modFrm fun f => { f with deputy := w } | none => s

/-- A beacon of the lead is taken in: its map, and that the lead is there. -/
def State.beaconIn (s : State) (t : Trans) : State :=
  let s := s.modFrm fun f => { f with members := BitVec.ofNat 16 (leVal (t.data.take 2)), leadId := t.src }
  (s.modStk fun k => { k with lastBeacon := s.now, lost := false, leadTime := some (t.arg.toNat, s.now) }).setDeputy

/-- Effect of TIME_BEACON_RECEIVE: a wafer in STACK_FORM joins that lead, and identifies itself to it; a follower takes the beacons of its lead, or, while it has none, of the deputy it computed. -/
def timeBeaconReceive (t : Trans) (s : State) : State :=
  if 16 ≤ t.src then s
  else if s.frm.state = .stackForm ∧ s.frm.role = 0 then
    let new := s.stk.leadTime.isNone
    let s := s.beaconIn t
    if new then (s.request 0 { typ := tID, dst := t.src, len := 64, data := s.identity false }).2 else s
  else if s.frm.role = 2 ∧ (t.src = s.frm.leadId ∨ (s.stk.lost ∧ t.src = s.frm.deputy)) then s.beaconIn t
  else s

/-- TIME_BEACON_RECEIVE (R442). -/
def execTimeBeaconReceive (t : Trans) (s : State) : Host.Outcome State Fault Refusal :=
  run (fun s => s.onTrans t (t.typ == tTIME && !t.resp && t.len == 16) (timeBeaconReceive t)) s

/-- The neighbour one hop nearer the lead (R443). -/
def State.nearer (s : State) : Option Nat := (s.route s.frm.leadId).bind fun p => (s.port p).farEp

/-- Effect of TIME_SYNC_SEND. -/
def timeSyncSend (s : State) : State :=
  if s.frm.role ≠ 2 ∨ s.now < s.stk.lastSync + 100000 then s
  else match s.nearer with
    | none => s
    | some e =>
      let r := s.request 0 { typ := tTIME, dst := e, arg := BitVec.ofNat 64 s.now }
      r.2.modStk fun k => { k with lastSync := s.now, syncT1 := some s.now }

/-- TIME_SYNC_SEND (R443). -/
def execTimeSyncSend (s : State) : Host.Outcome State Fault Refusal := run timeSyncSend s

/-- TIME_SYNC_REQUEST (R438): t2 and t3 are the time at which the request is acted on; a partner's is refused (R450). -/
def execTimeSyncRequest (t : Trans) (s : State) : Host.Outcome State Fault Refusal :=
  run (fun s => s.onTrans t (t.typ == tTIME && !t.resp && t.len == 0) fun s =>
    if 16 ≤ t.src then s.send (transReply t 1 []) else s.send (transReply t 0 (leBytes s.now 8 ++ leBytes s.now 8))) s

/-- Effect of TIME_SYNC_REPLY: the offset of R443, and the slew that removes it where it exceeds 3 ns. -/
def timeSyncReply (t : Trans) (s : State) : State :=
  let t2 : Int := leVal (t.data.take 8)
  let t3 : Int := leVal ((t.data.drop 8).take 8)
  if (s.awaited t).isNone then s
  else if s.stk.syncT1 != some t.arg.toNat || t.status != 0 then s.answered t
  else
    let x := ((t2 - t.arg.toNat) + (t3 - s.now)).tdiv 2
    ((s.answered t).modFrm fun f => { f with timeOffset := x }).modStk fun k => { k with syncT1 := none, slew := if x.natAbs ≤ 3 then 0 else x }

/-- TIME_SYNC_REPLY (R443). -/
def execTimeSyncReply (t : Trans) (s : State) : Host.Outcome State Fault Refusal :=
  run (fun s => s.onTrans t (t.typ == tTIME && t.resp) (timeSyncReply t)) s

/-! ### Identity, claims and takeover (R441, R442, R446, R447, R453) -/

/-- What an identity block says of its endpoint (R441). -/
def peerOf (l : List Byte) : Peer :=
  let f := fun (o n : Nat) => leVal ((l.drop o).take n)
  { kindEp := f 2 1, cfgCrc := BitVec.ofNat 32 (f 4 4), fmts := BitVec.ofNat 16 (f 12 4), maxOut := f 16 2, serial := BitVec.ofNat 64 (f 24 8), lead := bit (f 8 1) 1 }

/-- An identity block is taken in; a follower whose stack configuration differs from the lead's replaces it with the lead's (R441). -/
def State.learn (s : State) (t : Trans) : State :=
  if t.data.length ≠ 64 ∨ leVal (t.data.take 2) ≠ 1 then s
  else
    let p := peerOf t.data
    let s := s.modStk fun k => { k with peers := tabPut k.peers (leVal ((t.data.drop 3).take 1)) p }
    if p.lead && p.kindEp == 0 && !s.leading && p.cfgCrc != s.frm.stack.crc then
      { s with freeCtr := s.freeCtr + 1 }.modFrm fun f => { f with stack := { Config.leadStackCfg s.freeCtr p.cfgCrc with crc := p.cfgCrc } }
    else s

/-- COUNT data: non-FREE entries of each client (R436). -/
def State.countData (s : State) : List Byte := (upTo Config.clients).flatMap fun n => leBytes (s.entriesOf n).length 4

/-- Waiting ADMITs ask the new lead (R447). -/
def State.askAgain (s : State) : State :=
  s.each (upTo Config.clients) fun s n => s.each ((s.client n).admits.filter fun a => a.answer.isNone) fun s a =>
    match s.admitDesc n a.q a.tag with
    | none => s
    | some d =>
      let r := s.request 0 (lotSync 1 n s.frm.leadId (admitData (seqIdOf d.desc) n))
      r.2.modClient n fun c => { c with admits := c.admits.map fun b => if b.q = a.q ∧ b.tag = a.tag then { b with tid := r.1 } else b }

/-- A wafer leaves the map, and what it had identified is forgotten. -/
def State.leaveMap (s : State) (w : Nat) : State :=
  (s.modFrm fun f => { f with members := f.members &&& ~~~(BitVec.twoPow 16 w) }).modStk fun k => { k with peers := tabDel k.peers w }

/-- A follower accepts a CLAIM: it follows that wafer, reports its counts and asks again for the ADMITs that wait (R446, R447). -/
def State.acceptClaim (s : State) (w : Nat) : State :=
  let old := s.frm.leadId
  let s := s.leaveMap old
  let s := s.modStk fun k => { k with lost := false, lastBeacon := s.now, requests := k.requests.filter fun r => !(r.2.1 == old && r.2.2.1 == 0) }
  let s := (s.modFrm fun f => { f with leadId := w }).setDeputy
  (s.send (lotSync 3 0 w s.countData)).askAgain

/-- ID (R441, R453): the identity is taken in and answered; a CLAIM is accepted only of the computed deputy. -/
def execId (t : Trans) (s : State) : Host.Outcome State Fault Refusal :=
  run (fun s => s.onTrans t (t.typ == tID && !t.resp) fun s =>
    let s := s.learn t
    let s := s.send (transReply t 0 (s.identity false))
    if bit (leVal ((t.data.drop 8).take 1)) 0 && s.frm.role == 2 && s.stk.lost && t.src == s.frm.deputy then s.acceptClaim t.src else s) s

/-- ID_RESPONSE (R441). -/
def execIdResponse (t : Trans) (s : State) : Host.Outcome State Fault Refusal :=
  run (fun s => s.onTrans t (t.typ == tID && t.resp) fun s => if (s.awaited t).isNone then s else (s.answered t).learn t) s

/-- The deputy becomes lead: it sends its CLAIM to every wafer of the map, starts its beacons from its own time and rebuilds the counts (R446, R447). -/
def State.claim (s : State) : State :=
  let s := s.leaveMap s.frm.leadId
  let s := (s.modFrm fun f => { f with role := 1, leadId := f.waferId }).setDeputy
  let rest := s.mapWafers.filter (· != s.frm.waferId)
  let s := s.modStk fun k => { k with
    lost := false, lastBeacon := s.now, beacons := 0, slew := 0, syncT1 := none, counts := [], rebuilding := some (rest, s.now), waitingReqs := [] }
  let s := { s with ntc := { s.ntc with toForward := [] } }
  s.each rest fun s w => (s.request 0 { typ := tID, dst := w, len := 64, data := s.identity true }).2

/-- The deputy is computed; where it is this wafer and more than half of the map can be reached, it claims (R446). -/
def State.elect (s : State) : State :=
  match s.deputyOf with
  | none => s
  | some w =>
    let s := s.modFrm fun f => { f with deputy := w }
    let l := s.mapWafers
    if w = s.frm.waferId ∧ l.length < 2 * (l.filter s.reach).length then s.claim else s

/-- Effect of LEAD_LOSS_TIMEOUT. -/
def leadLossTimeout (s : State) : State :=
  if s.frm.role ≠ 2 ∨ s.stk.lost ∨ s.now < s.stk.lastBeacon + 1000 * s.frm.leadLoss then s
  else (s.modStk fun k => { k with lost := true, claimSince := s.now }).elect

/-- LEAD_LOSS_TIMEOUT (R446). -/
def execLeadLossTimeout (s : State) : Host.Outcome State Fault Refusal := run leadLossTimeout s

/-- Effect of CLAIM_TIMEOUT: a deputy that has not claimed leaves the map; this wafer, if it is the deputy, looks again whether it may claim. -/
def claimTimeout (s : State) : State :=
  if s.frm.role ≠ 2 ∨ !s.stk.lost ∨ s.now < s.stk.claimSince + 1000 * s.frm.leadLoss then s
  else
    let s := s.modStk fun k => { k with claimSince := s.now }
    (if s.frm.deputy = s.frm.waferId then s else s.leaveMap s.frm.deputy).elect

/-- CLAIM_TIMEOUT (R446). -/
def execClaimTimeout (s : State) : Host.Outcome State Fault Refusal := run claimTimeout s

/-! ### Notices (R462) -/

/-- NOTICE (R462): the lead logs it as FORWARDED and signals it on vector 4; a follower discards it. -/
def execNotice (t : Trans) (s : State) : Host.Outcome State Fault Refusal :=
  run (fun s => s.onTrans t (t.typ == tNOTICE && !t.resp) fun s =>
    let get := fun (o n : Nat) => leVal ((t.data.drop o).take n)
    if s.frm.role = 2 then s
    else (s.ntcWrite { time := get 0 8, code := t.arg.toNat % 256, wafer := get 9 1 % 16, forwarded := true, index := get 10 2, value := get 12 4 }).msix4) s

/-- Effect of NOTICE_FORWARD: the oldest notice goes to the lead; it waits while the lead is lost. -/
def noticeForward (s : State) : State :=
  match s.ntc.toForward with
  | [] => s
  | e :: r =>
    if s.frm.role ≠ 2 ∨ s.stk.lost then s
    else { s with ntc := { s.ntc with toForward := r } }.send
      { typ := tNOTICE, dst := s.frm.leadId, len := 16, arg := BitVec.ofNat 64 e.code, data := e.bytes }

/-- NOTICE_FORWARD (R462). -/
def execNoticeForward (s : State) : Host.Outcome State Fault Refusal := run noticeForward s

end Sys2Proof.Machine
end

