-- ==== Sys2Proof/Machine/Jtag.lean ====
section
/-! DEFINITION. The JTAG test access port (R474). -/

namespace Sys2Proof.Machine

open Sys2Proof

/-! ### Instructions -/

/-- Selects a TAP instruction, in the order of R474 from 0, BYPASS; pins are driven from the boundary register only under EXTEST. -/
def State.tap (s : State) (ir : Nat) : State := { s with jtag := { s.jtag with ir := ir, driven := ir == 3 } }

/-- BYPASS (R474): the one-bit bypass register, captured as 0, delays TDI by one bit (IEEE 1149.1). -/
def execBypass (tdi : W64) (s : State) : Host.Outcome State Fault Refusal := run (fun s => (s.tap 0).emit (.jtagOut (tdi <<< 1))) s

/-- IDCODE (R474). -/
def execIdcode (s : State) : Host.Outcome State Fault Refusal := run (fun s => (s.tap 1).emit (.jtagOut 0x190006B7)) s

/-- Effect of SAMPLE_PRELOAD: what the pins show, a free value, is shifted out as the preloaded cells are shifted in. -/
def samplePreload (cells : W64) (s : State) : State :=
  let s' := { s.tap 2 with freeCtr := s.freeCtr + 1 }
  { s' with jtag := { s'.jtag with boundary := cells } }.emit (.jtagOut (Config.freeScan s.freeCtr))

/-- SAMPLE_PRELOAD (R474). -/
def execSamplePreload (cells : W64) (s : State) : Host.Outcome State Fault Refusal := run (samplePreload cells) s

/-- EXTEST (R474): the pins are driven from the boundary register. -/
def execExtest (s : State) : Host.Outcome State Fault Refusal := run (fun s => s.tap 3) s

/-- Effect of SCAN: what a chain holds, a free value, is shifted out. -/
def scan (_chain : Nat) (_tdi : W64) (s : State) : State := { s.tap 4 with freeCtr := s.freeCtr + 1 }.emit (.jtagOut (Config.freeScan s.freeCtr))

/-- SCAN (R474). -/
def execScan (chain : Nat) (tdi : W64) (s : State) : Host.Outcome State Fault Refusal := run (scan chain tdi) s

/-! ### MEMACC -/

/-- Reads or writes bytes of a store of `size` bytes at `a`; nothing where the access leaves it. -/
def State.store (s : State) (size a : Nat) (x : Access) (m : Bytes) (put : Bytes → State) : State :=
  if size < a + accessLen x then s
  else match x with
    | .read n => s.emit (.readBytes (memRead m a n))
    | .write l => put (memWrite m a l)

/-- Bank `b` of a palette or table store, replaced. -/
def BankStore.putBank (x : BankStore) (b : Nat) (m : Bytes) : BankStore := if b = 0 then { x with bank0 := m } else { x with bank1 := m }

/-- Bank `b` of a palette or table store. -/
def BankStore.atBank (x : BankStore) (b : Nat) : Bytes := if b = 0 then x.bank0 else x.bank1

/-- An access to an accumulator entry: four bytes; it is 0 on a tile that runs nothing (R22). -/
def State.accAccess (s : State) (a entry : Nat) (x : Access) : State :=
  match x with
  | .read _ => s.emit (.readBytes (leBytes (match (s.tile a).run with | some r => (tabGet (0 : W32) r.acc entry).toNat | none => 0) 4))
  | .write l => s.modRun a fun r => { r with acc := tabPut r.acc entry (BitVec.ofNat 32 (leVal (l.take 4))) }

/-- An access to one copy of a Lot Table entry: its 64 bytes (R228). -/
def State.lotAccess (s : State) (copy i : Nat) (x : Access) : State :=
  let e : Entry := tabGet {} (if copy = 0 then s.north else s.south) i
  match x with
  | .read n => s.emit (.readBytes ((entryBytes e).take n))
  | .write l =>
    let e := parseEntry (l.take 64 ++ (entryBytes e).drop l.length)
    if copy = 0 then { s with north := tabPut s.north i e } else { s with south := tabPut s.south i e }

/-- An access to registers: reads of whole words, naturally aligned writes of 4 or 8 bytes (R382). -/
def State.regAccess (s : State) (a : Nat) (x : Access) : State :=
  match x with
  | .read n => if a % 4 = 0 ∧ n % 4 = 0 then s.emit (.readBytes ((upTo (n / 4)).flatMap fun i => leBytes (s.regWord .jtag (a + 4 * i)) 4)) else s
  | .write l => if (l.length = 4 ∨ l.length = 8) ∧ a % l.length = 0 then registerWrite .jtag a l.length (BitVec.ofNat 64 (leVal l)) s else s

/-- Effect of MEMACC: partitions, client bounds and halts are ignored. -/
def memacc (target : MemTarget) (x : Access) (s : State) : State :=
  let s := s.tap 5
  let ok := fun (a : Nat) => decide (a < Config.activeTiles)
  match target with
  | .vat a o => if ok a then s.store (65536 * 48) o x (s.tile a).vat fun m => s.modTile a fun t => { t with vat := m } else s
  | .acc a e => if ok a && decide (e < 65536) then s.accAccess a e x else s
  | .palStore a b o => if ok a then s.store 8192 o x ((s.tile a).pal.atBank b) fun m => s.modTile a fun t => { t with pal := t.pal.putBank b m } else s
  | .tblStore a b o => if ok a then s.store 16384 o x ((s.tile a).tbl.atBank b) fun m => s.modTile a fun t => { t with tbl := t.tbl.putBank b m } else s
  | .lotStore c i => if decide (c < 2) && decide (i < Config.lotEntries) then s.lotAccess c i x else s
  | .hbm a => if s.hbmTop < a + accessLen x then s else s.hbmAccess a x
  | .reg a => s.regAccess a x

/-- MEMACC (R474). -/
def execMemacc (target : MemTarget) (acc : Access) (s : State) : Host.Outcome State Fault Refusal := run (memacc target acc) s

/-! ### FUSE, RESET -/

/-- Effect of FUSE: fuses and OTP bits are read, or programmed: bits of a ledger slot are only ever set (R328), and the ceiling only falls (R350). -/
def fuse (op : FuseOp) (s : State) : State :=
  if !s.power then s
  else
    let s := s.tap 6
    match op with
    | .readLedger k => if k < 24 then s.emit (.readBytes (leBytes (s.frm.slotSeen k).toNat 1280)) else s
    | .programLedger k v => if k < 24 then s.modFrm fun f => f.program k v else s
    | .readCeiling => s.emit (.readData (BitVec.ofNat 64 s.pwr.ceiling))
    | .programCeiling v => ceilingLower .jtag (BitVec.ofNat 32 (0x43450000 + v % 65536)) s
    | .readSerial => s.emit (.readData s.frm.serial)

/-- FUSE (R474). -/
def execFuse (op : FuseOp) (s : State) : Host.Outcome State Fault Refusal := runAny (fuse op) s

/-- JTAG_RESET (R474): a warm reset is requested. -/
def execJtagReset (s : State) : Host.Outcome State Fault Refusal := run (fun s => (s.tap 7).askReset 4) s

end Sys2Proof.Machine
end

