-- ==== Sys2Proof/Machine/Dispatch.lean ====
section
/-! DEFINITION. The dispatch of commands to their meanings: one arm for each constructor of Instr. -/

namespace Sys2Proof.Machine

open Sys2Proof

/-- What a command does to everything but the queue. -/
def exec (i : Instr) (s : State) : Host.Outcome State Fault Refusal :=
  match i with
  | .longWordIssue tile => Sys2Proof.Machine.execLongWordIssue tile s
  | .synDeferredIssue tile => Sys2Proof.Machine.execSynDeferredIssue tile s
  | .barrierRelease unit => Sys2Proof.Machine.execBarrierRelease unit s
  | .slotComplete tile => Sys2Proof.Machine.execSlotComplete tile s
  | .tileReady tile => Sys2Proof.Machine.execTileReady tile s
  | .remoteReadRequest tile => Sys2Proof.Machine.execRemoteReadRequest tile s
  | .remoteReadData tile => Sys2Proof.Machine.execRemoteReadData tile s
  | .fabricAccWrite src dst => Sys2Proof.Machine.execFabricAccWrite src dst s
  | .memberStart tile => Sys2Proof.Machine.execMemberStart tile s
  | .spillCopyDone tile => Sys2Proof.Machine.execSpillCopyDone tile s
  | .spillDrainDone tile => Sys2Proof.Machine.execSpillDrainDone tile s
  | .commitInstant unit => Sys2Proof.Machine.execCommitInstant unit s
  | .thirdRunStart unit => Sys2Proof.Machine.execThirdRunStart unit s
  | .thirdRunDone unit => Sys2Proof.Machine.execThirdRunDone unit s
  | .postCommitDrainDone unit => Sys2Proof.Machine.execPostCommitDrainDone unit s
  | .coalesceTimer client ring => Sys2Proof.Machine.execCoalesceTimer client ring s
  | .unitRerunStart unit => Sys2Proof.Machine.execUnitRerunStart unit s
  | .currentMergeDone unit => Sys2Proof.Machine.execCurrentMergeDone unit s
  | .paletteBankSwap tile => Sys2Proof.Machine.execPaletteBankSwap tile s
  | .tableBankSwap tile => Sys2Proof.Machine.execTableBankSwap tile s
  | .descriptorFetch client q res => Sys2Proof.Machine.execDescriptorFetch client q res s
  | .fetchRetry client q res => Sys2Proof.Machine.execFetchRetry client q res s
  | .descriptorAccept client q => Sys2Proof.Machine.execDescriptorAccept client q s
  | .depTimeout client q tag => Sys2Proof.Machine.execDepTimeout client q tag s
  | .op client q tag => Sys2Proof.Machine.execOp client q tag s
  | .move client q tag => Sys2Proof.Machine.execMove client q tag s
  | .lot client q tag => Sys2Proof.Machine.execLot client q tag s
  | .seqAdmit client q tag => Sys2Proof.Machine.execSeqAdmit client q tag s
  | .seqRetire client q tag => Sys2Proof.Machine.execSeqRetire client q tag s
  | .seqKick client q tag => Sys2Proof.Machine.execSeqKick client q tag s
  | .seqSetDeadline client q tag => Sys2Proof.Machine.execSeqSetDeadline client q tag s
  | .seqSetPeriod client q tag => Sys2Proof.Machine.execSeqSetPeriod client q tag s
  | .seqSetCounts client q tag => Sys2Proof.Machine.execSeqSetCounts client q tag s
  | .palette client q tag => Sys2Proof.Machine.execPalette client q tag s
  | .table client q tag => Sys2Proof.Machine.execTable client q tag s
  | .fence client q tag => Sys2Proof.Machine.execFence client q tag s
  | .mark client q tag => Sys2Proof.Machine.execMark client q tag s
  | .record client q tag => Sys2Proof.Machine.execRecord client q tag s
  | .handoff sel => Sys2Proof.Machine.execHandoff sel s
  | .cliDbQ client q pc => Sys2Proof.Machine.execCliDbQ client q pc s
  | .cliDbC client q consumed => Sys2Proof.Machine.execCliDbC client q consumed s
  | .cliDbOut client consumed => Sys2Proof.Machine.execCliDbOut client consumed s
  | .queueEnable client q cfg => Sys2Proof.Machine.execQueueEnable client q cfg s
  | .queueDisable client q cfg => Sys2Proof.Machine.execQueueDisable client q cfg s
  | .outcomeRingEnable client cfg => Sys2Proof.Machine.execOutcomeRingEnable client cfg s
  | .resume client q => Sys2Proof.Machine.execResume client q s
  | .flush client q => Sys2Proof.Machine.execFlush client q s
  | .buildEnd client => Sys2Proof.Machine.execBuildEnd client s
  | .retiringFreed entry => Sys2Proof.Machine.execRetiringFreed entry s
  | .ltScrubCompare entry north south => Sys2Proof.Machine.execLtScrubCompare entry north south s
  | .cliLtSel client value => Sys2Proof.Machine.execCliLtSel client value s
  | .schedEvaluate part => Sys2Proof.Machine.execSchedEvaluate part s
  | .stopComplete part => Sys2Proof.Machine.execStopComplete part s
  | .saveComplete part => Sys2Proof.Machine.execSaveComplete part s
  | .restoreComplete part => Sys2Proof.Machine.execRestoreComplete part s
  | .rebuild part => Sys2Proof.Machine.execRebuild part s
  | .rebuildBegin part lost => Sys2Proof.Machine.execRebuildBegin part lost s
  | .rebuildEnd part => Sys2Proof.Machine.execRebuildEnd part s
  | .prtStripsWrite part word value => Sys2Proof.Machine.execPrtStripsWrite part word value s
  | .contextCreate client bind => Sys2Proof.Machine.execContextCreate client bind s
  | .contextTeardown client bind => Sys2Proof.Machine.execContextTeardown client bind s
  | .accClr via client value => Sys2Proof.Machine.execAccClr via client value s
  | .counterLowHalfRead via addr => Sys2Proof.Machine.execCounterLowHalfRead via addr s
  | .sdWindowEnd part ltWaitPs => Sys2Proof.Machine.execSdWindowEnd part ltWaitPs s
  | .sdPublish part => Sys2Proof.Machine.execSdPublish part s
  | .rsClr client slot value => Sys2Proof.Machine.execRsClr client slot value s
  | .vatCorrectedError ptile => Sys2Proof.Machine.execVatCorrectedError ptile s
  | .correctedReadback cls unit stillBad => Sys2Proof.Machine.execCorrectedReadback cls unit stillBad s
  | .vatUncorrectable ptile window => Sys2Proof.Machine.execVatUncorrectable ptile window s
  | .laneParityError ptile => Sys2Proof.Machine.execLaneParityError ptile s
  | .residueError ptile => Sys2Proof.Machine.execResidueError ptile s
  | .storeCorrectedError ptile => Sys2Proof.Machine.execStoreCorrectedError ptile s
  | .storeUncorrectable tile isPalette bank cleanCopy => Sys2Proof.Machine.execStoreUncorrectable tile isPalette bank cleanCopy s
  | .linkTimeout ptile units => Sys2Proof.Machine.execLinkTimeout ptile units s
  | .hbmCorrectedError addr => Sys2Proof.Machine.execHbmCorrectedError addr s
  | .hbmUncorrectable addr => Sys2Proof.Machine.execHbmUncorrectable addr s
  | .hbmReissueResult addr clean => Sys2Proof.Machine.execHbmReissueResult addr clean s
  | .rimStoreCorrectedError copy entry => Sys2Proof.Machine.execRimStoreCorrectedError copy entry s
  | .rimStoreUncorrectable copy entry other => Sys2Proof.Machine.execRimStoreUncorrectable copy entry other s
  | .partitionBistDone part failed => Sys2Proof.Machine.execPartitionBistDone part failed s
  | .syncTimeout tile => Sys2Proof.Machine.execSyncTimeout tile s
  | .vatScrubCheck ptile window finding => Sys2Proof.Machine.execVatScrubCheck ptile window finding s
  | .retrim strip => Sys2Proof.Machine.execRetrim strip s
  | .retrimForced strip => Sys2Proof.Machine.execRetrimForced strip s
  | .retrimDone strip => Sys2Proof.Machine.execRetrimDone strip s
  | .ledgerCommit via value => Sys2Proof.Machine.execLedgerCommit via value s
  | .ledgerCommitDone verified => Sys2Proof.Machine.execLedgerCommitDone verified s
  | .probationRequest value => Sys2Proof.Machine.execProbationRequest value s
  | .probationStep record result => Sys2Proof.Machine.execProbationStep record result s
  | .freqSetpointWrite dom code => Sys2Proof.Machine.execFreqSetpointWrite dom code s
  | .voltageRiseDone dom => Sys2Proof.Machine.execVoltageRiseDone dom s
  | .frequencyStepDone dom => Sys2Proof.Machine.execFrequencyStepDone dom s
  | .timeBeacon => Sys2Proof.Machine.execTimeBeacon s
  | .domainTargetWrite dom target => Sys2Proof.Machine.execDomainTargetWrite dom target s
  | .retainDelayExpiry dom => Sys2Proof.Machine.execRetainDelayExpiry dom s
  | .domainWake dom => Sys2Proof.Machine.execDomainWake dom s
  | .domainTransitionDone dom => Sys2Proof.Machine.execDomainTransitionDone dom s
  | .domainPowerUpDone dom => Sys2Proof.Machine.execDomainPowerUpDone dom s
  | .domainBistLiteDone dom failed => Sys2Proof.Machine.execDomainBistLiteDone dom failed s
  | .powerWindowEnd watts temps => Sys2Proof.Machine.execPowerWindowEnd watts temps s
  | .thermalTrip sensor reading => Sys2Proof.Machine.execThermalTrip sensor reading s
  | .ceilingLower via value => Sys2Proof.Machine.execCeilingLower via value s
  | .ceilingProgrammed => Sys2Proof.Machine.execCeilingProgrammed s
  | .powerGood straps => Sys2Proof.Machine.execPowerGood straps s
  | .powerGoodLoss => Sys2Proof.Machine.execPowerGoodLoss s
  | .frameBootDone imageA imageB => Sys2Proof.Machine.execFrameBootDone imageA imageB s
  | .domainSwitchOn dom => Sys2Proof.Machine.execDomainSwitchOn dom s
  | .tileBistRoundDone round failed => Sys2Proof.Machine.execTileBistRoundDone round failed s
  | .ledgerMerge => Sys2Proof.Machine.execLedgerMerge s
  | .hbmTrainDone stacksDown failedPcs => Sys2Proof.Machine.execHbmTrainDone stacksDown failedPcs s
  | .txTrainDone => Sys2Proof.Machine.execTxTrainDone s
  | .stackFormDone result => Sys2Proof.Machine.execStackFormDone result s
  | .startupTimeout => Sys2Proof.Machine.execStartupTimeout s
  | .configRequest client field => Sys2Proof.Machine.execConfigRequest client field s
  | .frmReset via value => Sys2Proof.Machine.execFrmReset via value s
  | .warmReset => Sys2Proof.Machine.execWarmReset s
  | .perstHotReset port => Sys2Proof.Machine.execPerstHotReset port s
  | .hbmRetrain stack => Sys2Proof.Machine.execHbmRetrain stack s
  | .hbmRetrainDone stack failedPcs => Sys2Proof.Machine.execHbmRetrainDone stack failedPcs s
  | .pcRetirementCopyDone pc unreadable => Sys2Proof.Machine.execPcRetirementCopyDone pc unreadable s
  | .hbmPatrolRead addr finding => Sys2Proof.Machine.execHbmPatrolRead addr finding s
  | .vfFlr client => Sys2Proof.Machine.execVfFlr client s
  | .pfFlr port => Sys2Proof.Machine.execPfFlr port s
  | .vfEnableClear port numVfs => Sys2Proof.Machine.execVfEnableClear port numVfs s
  | .busMasterEnableChange client on => Sys2Proof.Machine.execBusMasterEnableChange client on s
  | .powerStateChange client d3hot => Sys2Proof.Machine.execPowerStateChange client d3hot s
  | .pfBar2Access port offset acc => Sys2Proof.Machine.execPfBar2Access port offset acc s
  | .vfBar2Access client offset acc => Sys2Proof.Machine.execVfBar2Access client offset acc s
  | .poisonedWrite client bar offset => Sys2Proof.Machine.execPoisonedWrite client bar offset s
  | .registerWrite via addr size value => Sys2Proof.Machine.execRegisterWrite via addr size value s
  | .trainingDetectDone port signal => Sys2Proof.Machine.execTrainingDetectDone port signal s
  | .trainingEqualizeDone port failed => Sys2Proof.Machine.execTrainingEqualizeDone port failed s
  | .trainingFecLockDone port failed => Sys2Proof.Machine.execTrainingFecLockDone port failed s
  | .trainingLaneTestDone port failed => Sys2Proof.Machine.execTrainingLaneTestDone port failed s
  | .trainingLaneMapDone port farMap => Sys2Proof.Machine.execTrainingLaneMapDone port farMap s
  | .trainingDeskewDone port => Sys2Proof.Machine.execTrainingDeskewDone port s
  | .trainingTimeout port => Sys2Proof.Machine.execTrainingTimeout port s
  | .initFlit port flit => Sys2Proof.Machine.execInitFlit port flit s
  | .initResend port => Sys2Proof.Machine.execInitResend port s
  | .idleFlit port flit => Sys2Proof.Machine.execIdleFlit port flit s
  | .dataFlit port flit => Sys2Proof.Machine.execDataFlit port flit s
  | .ctrlFlit port flit => Sys2Proof.Machine.execCtrlFlit port flit s
  | .flitSend port => Sys2Proof.Machine.execFlitSend port s
  | .nakRepeat port => Sys2Proof.Machine.execNakRepeat port s
  | .ackTimeout port => Sys2Proof.Machine.execAckTimeout port s
  | .uncorrectableCodeword port lane => Sys2Proof.Machine.execUncorrectableCodeword port lane s
  | .fecLockLoss port lane => Sys2Proof.Machine.execFecLockLoss port lane s
  | .recoveryTimeout port => Sys2Proof.Machine.execRecoveryTimeout port s
  | .txlReset port => Sys2Proof.Machine.execTxlReset port s
  | .txlRetrain port => Sys2Proof.Machine.execTxlRetrain port s
  | .txlEnable port enable => Sys2Proof.Machine.execTxlEnable port enable s
  | .downPortRetry port => Sys2Proof.Machine.execDownPortRetry port s
  | .rd t => Sys2Proof.Machine.execRd t s
  | .rdResponse t => Sys2Proof.Machine.execRdResponse t s
  | .wr t => Sys2Proof.Machine.execWr t s
  | .wrResponse t => Sys2Proof.Machine.execWrResponse t s
  | .wrp t => Sys2Proof.Machine.execWrp t s
  | .descFwd t => Sys2Proof.Machine.execDescFwd t s
  | .descFwdResponse t => Sys2Proof.Machine.execDescFwdResponse t s
  | .handoffTransaction t => Sys2Proof.Machine.execHandoffTransaction t s
  | .handback t => Sys2Proof.Machine.execHandback t s
  | .handoffQueuedSend unit => Sys2Proof.Machine.execHandoffQueuedSend unit s
  | .busyResend unit => Sys2Proof.Machine.execBusyResend unit s
  | .handoffTimeout unit => Sys2Proof.Machine.execHandoffTimeout unit s
  | .routeTimeout unit => Sys2Proof.Machine.execRouteTimeout unit s
  | .admitReq t => Sys2Proof.Machine.execAdmitReq t s
  | .admitReqResponse t => Sys2Proof.Machine.execAdmitReqResponse t s
  | .admitReqTimeout client q tag => Sys2Proof.Machine.execAdmitReqTimeout client q tag s
  | .lotSyncRelease t => Sys2Proof.Machine.execLotSyncRelease t s
  | .lotSyncCount t => Sys2Proof.Machine.execLotSyncCount t s
  | .countRebuildEnd => Sys2Proof.Machine.execCountRebuildEnd s
  | .lotSyncReady t => Sys2Proof.Machine.execLotSyncReady t s
  | .lotSyncBarrier t => Sys2Proof.Machine.execLotSyncBarrier t s
  | .barrierGo t => Sys2Proof.Machine.execBarrierGo t s
  | .merge t => Sys2Proof.Machine.execMerge t s
  | .mergeResult t => Sys2Proof.Machine.execMergeResult t s
  | .lotSyncCommit t => Sys2Proof.Machine.execLotSyncCommit t s
  | .lotSyncCommitResponse t => Sys2Proof.Machine.execLotSyncCommitResponse t s
  | .leadBeaconSend => Sys2Proof.Machine.execLeadBeaconSend s
  | .timeBeaconReceive t => Sys2Proof.Machine.execTimeBeaconReceive t s
  | .timeSyncSend => Sys2Proof.Machine.execTimeSyncSend s
  | .timeSyncRequest t => Sys2Proof.Machine.execTimeSyncRequest t s
  | .timeSyncReply t => Sys2Proof.Machine.execTimeSyncReply t s
  | .notice t => Sys2Proof.Machine.execNotice t s
  | .id t => Sys2Proof.Machine.execId t s
  | .idResponse t => Sys2Proof.Machine.execIdResponse t s
  | .leadLossTimeout => Sys2Proof.Machine.execLeadLossTimeout s
  | .claimTimeout => Sys2Proof.Machine.execClaimTimeout s
  | .noticeForward => Sys2Proof.Machine.execNoticeForward s
  | .wmCrossedClear wm => Sys2Proof.Machine.execWmCrossedClear wm s
  | .wmMarkWrite wm mark => Sys2Proof.Machine.execWmMarkWrite wm mark s
  | .deferWindowEnd client => Sys2Proof.Machine.execDeferWindowEnd client s
  | .upsetWindowEnd => Sys2Proof.Machine.execUpsetWindowEnd s
  | .setEndpointId eid => Sys2Proof.Machine.execSetEndpointId eid s
  | .getTid => Sys2Proof.Machine.execGetTid s
  | .getPldmVersion typ => Sys2Proof.Machine.execGetPldmVersion typ s
  | .getPldmTypes => Sys2Proof.Machine.execGetPldmTypes s
  | .getPldmCommands typ => Sys2Proof.Machine.execGetPldmCommands typ s
  | .getPdrRepositoryInfo => Sys2Proof.Machine.execGetPdrRepositoryInfo s
  | .getPdr handle => Sys2Proof.Machine.execGetPdr handle s
  | .getSensorReading sensor => Sys2Proof.Machine.execGetSensorReading sensor s
  | .getStateSensorReadings sensor => Sys2Proof.Machine.execGetStateSensorReadings sensor s
  | .unsupportedPldmCmd typ cmd => Sys2Proof.Machine.execUnsupportedPldmCmd typ cmd s
  | .haltComplete client => Sys2Proof.Machine.execHaltComplete client s
  | .halt client => Sys2Proof.Machine.execHalt client s
  | .release client => Sys2Proof.Machine.execRelease client s
  | .stepDesc client => Sys2Proof.Machine.execStepDesc client s
  | .stepLw client => Sys2Proof.Machine.execStepLw client s
  | .stepComplete client => Sys2Proof.Machine.execStepComplete client s
  | .bypass tdi => Sys2Proof.Machine.execBypass tdi s
  | .idcode => Sys2Proof.Machine.execIdcode s
  | .samplePreload cells => Sys2Proof.Machine.execSamplePreload cells s
  | .extest => Sys2Proof.Machine.execExtest s
  | .scan chain tdi => Sys2Proof.Machine.execScan chain tdi s
  | .memacc target acc => Sys2Proof.Machine.execMemacc target acc s
  | .fuse op => Sys2Proof.Machine.execFuse op s
  | .jtagReset => Sys2Proof.Machine.execJtagReset s
  | .capPauseEnd => Sys2Proof.Machine.execCapPauseEnd s
  | .fetchCompletionTimeout client q => Sys2Proof.Machine.execFetchCompletionTimeout client q s
  | .pcieLinkUp port => Sys2Proof.Machine.execPcieLinkUp port s
  | .pcieLinkDown port => Sys2Proof.Machine.execPcieLinkDown port s
  | .laneRetireWaitExpiry port => Sys2Proof.Machine.execLaneRetireWaitExpiry port s
  | .msixVectorUnmask client vector => Sys2Proof.Machine.execMsixVectorUnmask client vector s
  | .outcomeRingDisable client => Sys2Proof.Machine.execOutcomeRingDisable client s
  | .traceEnable value => Sys2Proof.Machine.execTraceEnable value s
  | .vfFlrDone client => Sys2Proof.Machine.execVfFlrDone client s

end Sys2Proof.Machine
end

