-- ==== Sys2Proof/Safety.lean ====
section
/-! DEFINITION. The terms in which statements are made: a live device, what a command answers, and the invariants of the one-time programmable parts and of device time. -/

namespace Sys2Proof.Safety

open Sys2Proof Sys2Proof.Machine

/-- Power-good is asserted and the device is READY (R355). -/
abbrev Live (s : State) : Prop := s.power = true ∧ s.frm.state = .ready

/-- The command answers a next state, of which `P` holds. -/
def Answers (c : Instr) (s : State) (P : State → Prop) : Prop := ∃ t, exec c s = .next t ∧ P t

/-- What is programmed into the ceiling's fuses: at most four values, each from 4,000 W to below the 20,000 W as shipped, each below the one before (R349, R350). -/
abbrev CeilingOk (s : State) : Prop :=
  s.pwr.fuses.length ≤ 4 ∧ (∀ v ∈ s.pwr.fuses, 4000 ≤ v ∧ v < 20000) ∧ s.pwr.fuses.Pairwise fun a b => b < a

/-- Every bit that is programmed in a ledger slot of `s` is programmed in `t` (R328). -/
def LedgerGrows (s t : State) : Prop := ∀ k, s.frm.slot k &&& t.frm.slot k = s.frm.slot k

/-- A watermark group whose PEAK is at least its LEVEL (R454). -/
abbrev WmOk (w : Wm) : Prop := w.level ≤ w.peak

/-- Nothing that a host can reach has changed but what `out` shows: the state differs in what has been sent only. -/
def OnlySent (s t : State) : Prop := t = { s with out := t.out }

/-- A unit of a class whose next upset is not its last: in no probation, not retired, and below its limit in its window (R303). -/
abbrev Steady (s : State) (cls n : Nat) : Prop :=
  s.probeOf cls n = none ∧ s.isRetired cls n = false
    ∧ (((s.now :: tabGet [] s.flt.history (histKey cls n)).take 15).filter fun t => decide (s.now - t ≤ s.flt.window cls)).length < s.flt.limit cls

/-- FLT after an upset that makes nothing permanent: its time in the unit's history, one log entry of result UPSET, the counters (R303). -/
def upsetFlt (s : State) (source cls n : Nat) (client : Option Nat) : Flt :=
  { s.flt with
    history := tabPut s.flt.history (histKey cls n) ((s.now :: tabGet [] s.flt.history (histKey cls n)).take 15)
    log := tabPut s.flt.log (s.flt.head.toNat % 64) { time := s.now, source := source, result := 1, cls := cls, unit := n, client := client }
    head := s.flt.head + 1, upsets := s.flt.upsets + 1, upsetNow := s.flt.upsetNow + 1 }

/-- A transaction has arrived for this wafer, and is the first of its source on its virtual channel (R439). -/
abbrev Here (s : State) (m : Trans) : Prop := s.firstIn m = true ∧ m.dst = s.frm.waferId

/-- A response is awaited by a live commit unit (R435, R452). -/
abbrev Awaits (s : State) (m : Trans) (u : CUnit) : Prop := s.awaited m = some u.id ∧ s.unit? u.id = some u

/-- Descriptor `d` waits in a queue under a tag, and nothing stands in its way that R203, R204, R206, R255, R466 or R467 name: the device is READY, the queue runs, its chain is complete, its dependencies are met, no break holds it, its context may run, the checks at start find no fault, and, unless it is a LOT, it is no chain. -/
abbrev CanStart (s : State) (n q : Nat) (tag : W32) (kind : Nat) (d : ADesc) : Prop :=
  Live s ∧ s.waiting? n q tag = some d ∧ (s.queue n q).state = .running ∧ dKind d.desc = kind ∧ d.chainOpen = false ∧ d.fault = 0 ∧ s.killedFirst n q = false
    ∧ s.depState n q d.desc 0 = .met ∧ s.depState n q d.desc 1 = .met ∧ s.depState n q d.desc 2 = .met ∧ s.orderMet n q d = true
    ∧ (s.client n).dbg.mayStart q d.ordinal = true ∧ (needsResident kind = true → s.gateAll n = true) ∧ s.breakCause n q d = 0 ∧ s.startCodes n (s.stagesOf n q d) = []
    ∧ (kind ≠ kLOT → s.stagesOf n q d = [d.desc])

/-- The commit unit that a descriptor becomes when it starts in `s` (R42, R195). -/
def unitOf (s : State) (n q : Nat) (d : ADesc) : CUnit := s.newUnit n q d (s.resolve n (s.stagesOf n q d))

/-- The tiles have FREE windows for every destination of a unit, whatever the rest of the device holds (R43, R199, R507). -/
def Fits (s : State) (u : CUnit) : Prop := ∀ t : State, t.tiles = s.tiles → ((t.allocSide u .main).bind fun t => t.allocSide u .pair).isSome = true

/-- The host traffic of a client's function is not held, and none of it waits to be released (R390, R395). -/
abbrev Unheld (s : State) (n : Nat) : Prop := s.canDma n = true ∧ (s.client n).func.held = []

/-- A unit that was live is so no more, and, where it is neither a member nor forwarded and its client's records are not held, its queue has one record more and lists its descriptor no longer (R49, R217). -/
abbrev Ended (s t : State) (u : CUnit) : Prop :=
  t.unit? u.id = none ∧ (u.member = none → u.home = none → Unheld s u.client →
    (t.queue u.client u.q).ccount = (s.queue u.client u.q).ccount + 1 ∧ ∀ d ∈ (t.queue u.client u.q).accepted, d.ofHead u.ordinal = false)

/-- The arbiter's tiles have FREE windows for every destination of a third run of a unit, with the banks of the unit's own tiles (R308, R310). -/
def ThirdFits (s : State) (u : CUnit) : Prop :=
  ∀ t : State, (∀ a, (t.tile a).windows = (s.tile a).windows) → (∀ a ∈ s.tilesOf s.flt.arbPart, (t.tile a).tbl.bank = (s.tile (u.tiles.headD 0)).tbl.bank) →
    ∀ d, (t.allocSide { u with thirdTiles := s.tilesOf s.flt.arbPart, down := d } .third).isSome = true

/-- A descriptor of the rims has started and committed: its waiting time is counted, its record DONE stands in the ring's count, it is listed no longer, its tag is known as DONE, and its partition counts a commit (R44, R205, R217, R287). -/
abbrev RimDone (s t : State) (n q : Nat) (d : ADesc) : Prop :=
  (t.queue n q).ccount = (s.queue n q).ccount + 1 ∧ (∀ a ∈ (t.queue n q).accepted, a.ofHead d.ordinal = false) ∧ (∀ r ∈ (t.queue n q).tags, r.ordinal = d.ordinal → r.status = some 1)
    ∧ (t.part (s.client n).bindPart).commits = (s.part (s.client n).bindPart).commits + 1 ∧ (q = 0 → (t.client n).acct.qsum0 = (s.client n).acct.qsum0 + BitVec.ofNat 64 (s.now - d.doorbell))

/-- A descriptor has become commit unit `u`, which started now, and its queue lists it as started (R42, R215). -/
abbrev Begun (s t : State) (n q : Nat) (d : ADesc) (u : CUnit) : Prop :=
  t.unit? s.nextUnit = some u ∧ u.client = n ∧ u.q = q ∧ u.tag = dTag d.desc ∧ u.start = s.now ∧ t.nextUnit = s.nextUnit + 1
    ∧ ∀ a ∈ (t.queue n q).accepted, a.ordinal = d.ordinal → a.state = .started s.nextUnit

/-- A partition that has tiles is to be evaluated now, and neither switches, rebuilds nor runs a BIST-lite (R257). -/
abbrev Due (s : State) (p : Nat) : Prop :=
  Live s ∧ s.now % 10000 = 0 ∧ (s.part p).lastEval ≠ some s.now ∧ p < Config.partitions ∧ (s.part p).homeEn = false ∧ (s.part p).switch = none ∧ (s.part p).rebuilding = false ∧ (s.part p).bist = false ∧ s.tilesOf p ≠ []

/-- A tile's run may issue the word `l` at its position in this cycle: R30 and R33 let it, nothing is in flight, no fabric write holds a bank, and the decode checks pass (R138, R139). -/
abbrev MayIssue (s : State) (a : Nat) (r : TileRun) (u : CUnit) (l : LongWord) : Prop :=
  s.power = true ∧ (s.tile a).run = some r ∧ s.unit? r.unit = some u ∧ s.canIssue a r u = true ∧ longWord (s.tile a).tbl.bank r.off = l ∧ r.issueAt l ≤ s.cycle a ∧ r.inflight = []
    ∧ (s.tile a).bankHits = [] ∧ l.decodeCodes (fun i => ((s.ctx a r u).handle i).isSome) r.loops (s.ctx a r u).len r.pos = []

/-- The long word without its slots. -/
def bare (l : LongWord) : LongWord := { l with ld := none, ari := none, pal := none, red := none, cvt := none, skn := none, st := none, syn := none }

end Sys2Proof.Safety
end

