-- ==== Sys2Proof/Certificates/Slice0/Obligations.lean ====
section
/-! DEFINITION. The statements for the provers, each from the numbered rules of the spec. -/

open Sys2Proof Sys2Proof.Machine Sys2Proof.Safety

/-- The step of the block: the command at the front of the queue acts as exec says on the state with the queue's rest. -/
def Obligations.stepRunsFront : Prop :=
  ∀ c r s, s.pending = c :: r → step s = exec c { s with pending := r }

/-- What a step with no command waiting does is the model's choice (log 2): device time moves on by 0, 1 or 2 ns (2 or 0 only while a slew is applied), domains count their cycles, and nothing else changes. -/
def Obligations.idleStep : Prop :=
  (∀ s, s.pending = [] → s.power = false → step s = .next s)
  ∧ (∀ s, s.pending = [] → s.power = true → ∃ t, step s = .next t ∧ s.now ≤ t.now ∧ t.now ≤ s.now + 2 ∧ (s.stk.slew = 0 → t.now = s.now + 1)
      ∧ (∀ d, (t.dom d).state = (s.dom d).state ∧ (s.dom d).ticks ≤ (t.dom d).ticks) ∧ t = { s with now := t.now, stk := { s.stk with slew := t.stk.slew }, pwr := { s.pwr with doms := t.pwr.doms } })

/-- Reset values that the spec states: device time is 0 (R339), the start-up state is FRAME_BOOT (R355), the ceiling and POWER_CAP are 20,000 W as shipped (R349), every queue is DISABLED with its counts 0 (R209), every Lot Table entry is FREE, every context is absent, no window of a tile holds anything, and the queue of commands is empty. -/
def Obligations.resetValues : Prop :=
  State.reset.now = 0 ∧ State.reset.frm.state = .frameBoot ∧ State.reset.pwr.ceiling = 20000 ∧ State.reset.pwr.cap = 20000 ∧ State.reset.pwr.lowerings = 4 ∧ State.reset.pending = []
    ∧ (∀ n q, (State.reset.queue n q).state = .disabled ∧ (State.reset.queue n q).cc = 0 ∧ (State.reset.queue n q).pc = 0 ∧ (State.reset.queue n q).ccount = 0)
    ∧ (∀ n, (State.reset.client n).en = false ∧ (State.reset.client n).resident = false) ∧ (∀ i, (State.reset.entry i).state = .free)
    ∧ (∀ a w, ((State.reset.tile a).win w).state = .free) ∧ (∀ k, State.reset.frm.slot k = 0)

/-- The invariants that every step keeps hold of the state after reset. -/
def Obligations.resetInvariants : Prop :=
  CeilingOk State.reset ∧ memWf State.reset.hbm = true ∧ (∀ a, memWf (State.reset.tile a).vat = true) ∧ WmOk State.reset.wmLot ∧ WmOk State.reset.flt.wm

/-- Every command answers a next state, and leaves the commands that wait behind it as they are; without power-good only POWER_GOOD changes anything. -/
def Obligations.everyCommandAnswers : Prop :=
  (∀ c s, ∃ t, exec c s = .next t ∧ t.pending = s.pending)
  ∧ (∀ c s, s.power = false → (∀ x, c ≠ .powerGood x) → exec c s = .next s)

/-- R350, R474: no step raises the ceiling or undoes a lowering, whatever command stands in front: the values programmed stay in order and within range, and those of before are the first of those after. -/
def Obligations.ceilingOnlyFalls : Prop :=
  ∀ s t, CeilingOk s → step s = .next t → CeilingOk t ∧ t.pwr.ceiling ≤ s.pwr.ceiling ∧ s.pwr.fuses <+: t.pwr.fuses

/-- R328, R474: no step clears a bit of a ledger slot: what a commit, a commit cut by a loss of power, FUSE and every other command do to the ledger sets bits only. -/
def Obligations.ledgerOnlyGrows : Prop :=
  ∀ s t, step s = .next t → LedgerGrows s t

/-- R339, R365, R368: device time never falls in a step, but where power-good comes or goes and where stack formation sets it to the lead's. -/
def Obligations.timeNeverFalls : Prop :=
  ∀ s t, (∀ x r, s.pending ≠ .powerGood x :: r) → (∀ r, s.pending ≠ .powerGoodLoss :: r) → (∀ x r, s.pending ≠ .stackFormDone x :: r) → step s = .next t → s.now ≤ t.now

/-- R454 to R456: an update of LEVEL, a write of MARK and a write of 1 to CROSSED keep PEAK at or above LEVEL where LEVEL is a 32-bit value; CROSSED, once set, stays until it is cleared; and a notice is raised only where CROSSED rises. -/
def Obligations.watermarkRules : Prop :=
  (∀ w l, WmOk w → WmOk (wmUpdate w l).1 ∧ (wmUpdate w l).1.mark = w.mark ∧ ((wmUpdate w l).2 = true ↔ (w.crossed = false ∧ (wmUpdate w l).1.crossed = true)))
  ∧ (∀ w m, WmOk w → WmOk (wmSetMark w m).1 ∧ (wmSetMark w m).1.level = w.level ∧ ((wmSetMark w m).2 = true ↔ (w.crossed = false ∧ (wmSetMark w m).1.crossed = true)))
  ∧ (∀ w, WmOk (wmClear w).1 ∧ (wmClear w).1.level = w.level ∧ (wmClear w).1.count = 0)

/-- R19, R146: a vector register that an LD fills with n bytes gives the same n bytes to an ST, at each operand width. -/
def Obligations.loadThenStore : Prop :=
  ∀ w (bs : List Byte), w = 4 ∨ w = 8 ∨ w = 16 ∨ w = 32 → 8 * bs.length ≤ 2048 → w ∣ 8 * bs.length → vStore w bs.length (vLoad w bs) = bs

/-- R456: a write of 1 to CROSSED of a watermark group sets CROSSED and CROSS_COUNT to 0 and PEAK to LEVEL; where LEVEL is above a MARK that is not 0, CROSSED becomes 1 again and one notice is written. Nothing else changes where no notice is raised. -/
def Obligations.watermarkClear : Prop :=
  (∀ w s, s.power = true → s.wmOpen w = true → ((s.wmGet w).mark = 0 ∨ (s.wmGet w).level ≤ (s.wmGet w).mark) →
      exec (.wmCrossedClear w) s = .next (s.wmPut w { s.wmGet w with crossed := false, count := 0, peak := (s.wmGet w).level }))
  ∧ (∀ w s, s.power = true → s.wmOpen w = true → (s.wmGet w).mark ≠ 0 → (s.wmGet w).mark < (s.wmGet w).level →
      Answers (.wmCrossedClear w) s fun t =>
        t.wmGet w = { s.wmGet w with crossed := true, count := 0, peak := (s.wmGet w).level } ∧ t.ntc.head = s.ntc.head + 1)

/-- R455, R458: a write of MARK stores it and counts a crossing only where LEVEL is above it and was not above the old one; a window of DEFERRED outcomes or of UPSET entries ends at its multiple of the window, with LEVEL the window's count, which starts again at 0. -/
def Obligations.watermarkMarkAndWindows : Prop :=
  (∀ w m s, s.power = true → s.wmOpen w = true → (wmMark w m = 0 ∨ (s.wmGet w).level ≤ wmMark w m) →
      exec (.wmMarkWrite w m) s = .next (s.wmPut w { s.wmGet w with mark := wmMark w m }))
  ∧ (∀ w m s, s.power = true → s.wmOpen w = true → (s.wmGet w).crossed = false → (s.wmGet w).count < 0xFFFF →
      wmMark w m ≠ 0 → wmMark w m < (s.wmGet w).level → (s.wmGet w).level ≤ (s.wmGet w).mark →
      Answers (.wmMarkWrite w m) s fun t =>
        t.wmGet w = { s.wmGet w with mark := wmMark w m, crossed := true, count := (s.wmGet w).count + 1 } ∧ t.ntc.head = s.ntc.head + 1)
  ∧ (∀ n s, Live s → n < 128 → s.now % 10000000 = 0 → (s.client n).deferEnd ≠ s.now →
      Answers (.deferWindowEnd n) s fun t =>
        (t.client n).wmDefer = (wmUpdate (s.client n).wmDefer (s.client n).deferNow).1 ∧ (t.client n).deferNow = 0 ∧ (t.client n).deferEnd = s.now)
  ∧ (∀ s, Live s → s.now % 1000000000 = 0 → s.flt.upsetEnd ≠ s.now →
      Answers .upsetWindowEnd s fun t =>
        t.flt = { s.flt with wm := (wmUpdate s.flt.wm s.flt.upsetNow).1, upsetNow := 0, upsetEnd := s.now })

/-- R463: a device that has power answers SMBus commands whatever its start-up state. An endpoint ID is stored; a numeric sensor answers its reading (total power, hottest sensor, the 68 temperature sensors, Lot Table occupancy, upsets of the last window), a state sensor the start-up state or the failure reason, a sensor the device does not have an error; PLDM types 0 and 2 are listed; any other command is answered as unsupported. The numbers of the completion codes and of the commands in a type's command set are the model's (log 30), and what R463 leaves open (terminus ID, versions, PDR words) is a free value. -/
def Obligations.smbusAnswers : Prop :=
  (∀ eid s, s.power = true → exec (.setEndpointId eid) s = .next { s with smbusEid := eid % 256, out := .smbus 0 [] :: s.out })
  ∧ (∀ s, s.power = true → exec .getTid s = .next { s with out := .smbus 0 [(Config.pldmTid 0).setWidth 32] :: s.out })
  ∧ (∀ s, s.power = true → exec .getPldmTypes s = .next { s with out := .smbus 0 [0b101] :: s.out })
  ∧ (∀ typ s, s.power = true → (typ = 0 ∨ typ = 2) →
      exec (.getPldmVersion typ) s = .next { s with out := .smbus 0 [Config.pldmVersion typ] :: s.out })
  ∧ (∀ typ s, s.power = true → (typ = 0 ∨ typ = 2) →
      exec (.getPldmCommands typ) s = .next { s with
        out := .smbus 0 (pldmCommands typ) :: s.out })
  ∧ (∀ typ s, s.power = true → typ ≠ 0 → typ ≠ 2 →
      exec (.getPldmVersion typ) s = .next { s with out := .smbus unsupportedPldm [] :: s.out }
      ∧ exec (.getPldmCommands typ) s = .next { s with out := .smbus unsupportedPldm [] :: s.out })
  ∧ (∀ s, s.power = true → exec .getPdrRepositoryInfo s = .next { s with out := .smbus 0 ((upTo 4).map fun i => Config.pldmPdr 0 i) :: s.out })
  ∧ (∀ handle s, s.power = true → exec (.getPdr handle) s = .next { s with out := .smbus 0 ((upTo 8).map fun i => Config.pldmPdr (handle + 1) i) :: s.out })
  ∧ (∀ s, s.power = true → exec (.getSensorReading 1) s = .next { s with out := .smbus 0 [BitVec.ofNat 32 s.pwr.wmPower.level] :: s.out })
  ∧ (∀ s, s.power = true → exec (.getSensorReading 2) s = .next { s with out := .smbus 0 [BitVec.ofNat 32 s.pwr.wmTemp.level] :: s.out })
  ∧ (∀ k s, s.power = true → k < 68 →
      exec (.getSensorReading (0x100 + k)) s = .next { s with out := .smbus 0 [BitVec.ofNat 32 (tabGet 0 s.pwr.temps k)] :: s.out })
  ∧ (∀ s, s.power = true → exec (.getSensorReading 0x200) s = .next { s with out := .smbus 0 [BitVec.ofNat 32 s.wmLot.level] :: s.out })
  ∧ (∀ s, s.power = true → exec (.getSensorReading 0x201) s = .next { s with out := .smbus 0 [BitVec.ofNat 32 s.flt.wm.level] :: s.out })
  ∧ (∀ s, s.power = true → exec (.getStateSensorReadings 0x300) s = .next { s with out := .smbus 0 [BitVec.ofNat 32 s.frm.state.code] :: s.out })
  ∧ (∀ s, s.power = true → exec (.getStateSensorReadings 0x301) s = .next { s with out := .smbus 0 [BitVec.ofNat 32 s.frm.reason] :: s.out })
  ∧ (∀ typ cmd s, s.power = true → exec (.unsupportedPldmCmd typ cmd) s = .next { s with out := .smbus unsupportedPldm [] :: s.out })

/-- R474: each TAP instruction is selected (the register's numbers are the model's own, log 32), pins are driven from the boundary register only under EXTEST, IDCODE shifts out 0x190006B7, BYPASS shifts TDI out one bit later, SAMPLE/PRELOAD and SCAN shift out free values and SAMPLE/PRELOAD takes the preloaded cells, and RESET requests a warm reset of reason JTAG unless one is requested already. R474, R328, R350: MEMACC reads and writes vats, accumulators, palette and table stores, either copy of a Lot Table entry and HBM below TOP, ignoring partitions, client bounds and halts; FUSE reads ledger slots, the ceiling and the serial number and programs ledger slots, in which bits are only ever set. -/
def Obligations.jtag : Prop :=
  (∀ tdi s, s.power = true → exec (.bypass tdi) s = .next { s with jtag := { s.jtag with ir := 0, driven := false }, out := .jtagOut (tdi <<< 1) :: s.out })
  ∧ (∀ s, s.power = true → exec .idcode s = .next { s with jtag := { s.jtag with ir := 1, driven := false }, out := .jtagOut 0x190006B7 :: s.out })
  ∧ (∀ cells s, s.power = true → exec (.samplePreload cells) s = .next { s with
      jtag := { s.jtag with ir := 2, driven := false, boundary := cells }, freeCtr := s.freeCtr + 1, out := .jtagOut (Config.freeScan s.freeCtr) :: s.out })
  ∧ (∀ s, s.power = true → exec .extest s = .next { s with jtag := { s.jtag with ir := 3, driven := true } })
  ∧ (∀ chain tdi s, s.power = true → exec (.scan chain tdi) s = .next { s with
      jtag := { s.jtag with ir := 4, driven := false }, freeCtr := s.freeCtr + 1, out := .jtagOut (Config.freeScan s.freeCtr) :: s.out })
  ∧ (∀ s, s.power = true → s.frm.resetReq = none →
      exec .jtagReset s = .next { s with jtag := { s.jtag with ir := 7, driven := false }, frm := { s.frm with resetReq := some 4 } })
  ∧ (∀ s r, s.power = true → s.frm.resetReq = some r → exec .jtagReset s = .next { s with jtag := { s.jtag with ir := 7, driven := false } })
  ∧ (∀ a o n s, s.power = true → a < 8192 → o + n ≤ 65536 * 48 →
      exec (.memacc (.vat a o) (.read n)) s = .next { s with
        jtag := { s.jtag with ir := 5, driven := false }, out := .readBytes (memRead (s.tile a).vat o n) :: s.out })
  ∧ (∀ a o l s, s.power = true → a < 8192 → o + l.length ≤ 65536 * 48 →
      exec (.memacc (.vat a o) (.write l)) s = .next { s.modTile a (fun t => { t with vat := memWrite t.vat o l }) with
        jtag := { s.jtag with ir := 5, driven := false } })
  ∧ (∀ a l s, s.power = true → a + l.length ≤ s.hbmTop → s.frm.unmapped = [] →
      exec (.memacc (.hbm a) (.write l)) s = .next { s with jtag := { s.jtag with ir := 5, driven := false }, hbm := memWrite s.hbm a l })
  ∧ (∀ k s, s.power = true → k < 24 →
      exec (.fuse (.readLedger k)) s = .next { s with jtag := { s.jtag with ir := 6, driven := false }, out := .readBytes (leBytes (s.frm.slot k).toNat 1280) :: s.out })
  ∧ (∀ k v s, s.power = true → k < 24 →
      exec (.fuse (.programLedger k v)) s = .next { s with
        jtag := { s.jtag with ir := 6, driven := false }, frm := { s.frm with ledger := tabPut s.frm.ledger k (s.frm.slot k ||| v) } })
  ∧ (∀ s, s.power = true → exec (.fuse .readSerial) s = .next { s with jtag := { s.jtag with ir := 6, driven := false }, out := .readData s.frm.serial :: s.out })

/-- R337, R338: a FREQ_SETPOINT is stored, and an ACTIVE domain that runs at another code than the least of its three begins a step: downward the frequency changes first, upward the voltage rises first; when the voltage has risen the frequency changes, to no more than the code then in force; when the change ends the tiles run at the new code. R342 to R346: a TARGET write is stored and a wake begins where the target asks for it; OFF is refused with REQ_ERR while strips of the domain belong to a partition; an ACTIVE domain without demand for RETAIN_DELAY begins to move to RETAIN or IDLE as its target says; demand wakes a resting one. R342, R345, R346, R360: a transition that ends leaves the domain in its new state with none in progress; 2 ms after a switch-on a domain's tile clocks start, and outside DOMAIN_UP its BIST-lite begins; when that ends with no failed tile the domain is ACTIVE. -/
def Obligations.domains : Prop :=
  (∀ d c s, s.power = true → s.pwrOpen = true → d < 16 → c ≤ 18 →
      exec (.freqSetpointWrite d c) s = .next (s.modDom d fun x => { x with freq := c }.restep))
  ∧ (∀ x : Dom, x.state = .active → x.step = .none → x.eff < x.code → x.restep = { x with step := .changing x.eff })
  ∧ (∀ x : Dom, x.state = .active → x.step = .none → x.code < x.eff → x.restep = { x with step := .rising x.eff })
  ∧ (∀ d c s, s.power = true → (s.dom d).step = .rising c → c ≤ (s.dom d).eff → c ≠ (s.dom d).code →
      Answers (.voltageRiseDone d) s fun t =>
        t.dom d = { s.dom d with step := .changing c } ∧ (∀ k, k ≠ d → t.dom k = s.dom k) ∧ t = { s with pwr := { s.pwr with doms := t.pwr.doms } })
  ∧ (∀ d c s, s.power = true → (s.dom d).step = .changing c → (s.dom d).eff = c →
      Answers (.frequencyStepDone d) s fun t =>
        t.dom d = { s.dom d with step := .none, code := c } ∧ (∀ k, k ≠ d → t.dom k = s.dom k)
        ∧ t = { s with pwr := { s.pwr with doms := t.pwr.doms }, tiles := t.tiles, parts := t.parts } ∧ ∀ a, (t.tile a).vat = (s.tile a).vat ∧ (t.tile a).windows = (s.tile a).windows)
  ∧ (∀ d s, s.power = true → s.pwrOpen = true → d < 16 → s.offOk d = false →
      exec (.domainTargetWrite d 0) s = .next (s.modDom d fun x => { x with reqErr := true }))
  ∧ (∀ d x s, s.power = true → s.frm.state = .ready → d < 16 → 0 < x → x < 4 → (s.dom d).trans = none → (s.dom d).bist = false → (s.dom d).state = .active →
      Answers (.domainTargetWrite d x) s fun t => t = s.modDom d fun y => { y with target := x })
  ∧ (∀ d s, s.power = true → s.frm.state = .ready → d < 16 → (s.dom d).trans = none → (s.dom d).bist = false → (s.dom d).state = .off →
      Answers (.domainTargetWrite d 3) s fun t => (t.dom d).target = 3 ∧ (t.dom d).trans = some (.active, s.now)
        ∧ (∀ k, k ≠ d → t.dom k = s.dom k) ∧ t = { s with pwr := { s.pwr with doms := t.pwr.doms } })
  ∧ (∀ d s, Live s → (s.dom d).state = .active → (s.dom d).trans = none → s.hasDemand d = false → (s.dom d).quiet + 1000 * s.pwr.retainDelay ≤ s.now → (s.dom d).target = 1 →
      exec (.retainDelayExpiry d) s = .next (s.modDom d fun x => { x with trans := some (.retain, s.now) }))
  ∧ (∀ d s, Live s → (s.dom d).state = .active → (s.dom d).trans = none → s.hasDemand d = false → (s.dom d).quiet + 1000 * s.pwr.retainDelay ≤ s.now → (s.dom d).target = 2 →
      exec (.retainDelayExpiry d) s = .next (s.modDom d fun x => { x with trans := some (.idle, s.now) }))
  ∧ (∀ d s, s.power = true → ((s.dom d).state = .idle ∨ (s.dom d).state = .retain) → (s.dom d).trans = none → s.hasDemand d = true →
      exec (.domainWake d) s = .next (s.modDom d fun x => { x with trans := some (.active, s.now), step := .none, code := x.eff }))
  ∧ (∀ d t0 s, s.power = true → (s.dom d).state = .active → (s.dom d).trans = some (.retain, t0) → (s.dom d).target = 1 → s.frm.state = .ready → (s.dom d).bist = false →
      exec (.domainTransitionDone d) s = .next (s.modDom d fun x => { x with state := .retain, trans := none, step := .none }))
  ∧ (∀ d t0 s, Live s → d < 16 → (s.dom d).state = .off → (s.dom d).trans = some (.active, t0) → (s.dom d).bist = false → t0 + 2000000 ≤ s.now →
      Answers (.domainPowerUpDone d) s fun t => (t.dom d).bist = true ∧ (t.dom d).ticks = 0 ∧ (t.dom d).state = .off ∧ (∀ k, k ≠ d → t.dom k = s.dom k)
        ∧ t = { s with pwr := { s.pwr with doms := t.pwr.doms }, tiles := t.tiles })
  ∧ (∀ d s, Live s → (s.dom d).bist = true → (s.dom d).target ≠ 0 → (s.dom d).step = .none → (s.dom d).eff = (s.dom d).code →
      Answers (.domainBistLiteDone d []) s fun t =>
        t.dom d = { s.dom d with state := .active, trans := none, bist := false, quiet := s.now } ∧ (∀ k, k ≠ d → t.dom k = s.dom k)
        ∧ t = { s with pwr := { s.pwr with doms := t.pwr.doms }, frm := { s.frm with probes := t.frm.probes } })

/-- R340, R347, R348, R351, R352: a beacon carries device time at each multiple of 1,000 ns; a window's average power and sensor readings are stored at each multiple of 100,000 ns, and while no cap pause is in force or begins each ACTIVE domain's cap code falls by one where the power exceeds the cap by no more than a tenth; the pause of a window ends after its time; a sensor that reads 98 °C asks for a warm reset of reason THERMAL. R349, R350: a write of PWR_CEIL_CTRL with its key and a value from 4,000 W to below the ceiling, while a slot is left and none is being programmed, begins the lowering; any other sets CEIL_ERR; the lowering ends with the value programmed and POWER_CAP no higher than it. -/
def Obligations.powerControl : Prop :=
  (∀ s, s.power = true → s.now % 1000 = 0 → ¬ s.out.contains (.timeBeacon s.now) →
      exec .timeBeacon s = .next { s with out := .timeBeacon s.now :: s.out })
  ∧ (∀ w l s, s.power = true → s.now % 100000 = 0 → s.pwr.lastWindow ≠ some s.now →
      Answers (.powerWindowEnd w l) s fun t =>
        t.pwr.lastWindow = some s.now ∧ t.pwr.watts = satTo 0xFFFF w ∧ t.pwr.wmPower = (wmUpdate s.pwr.wmPower w).1
        ∧ t.pwr.cap = s.pwr.cap ∧ t.pwr.fuses = s.pwr.fuses ∧ t.now = s.now)
  ∧ (∀ (x : Dom) p cap hyst rise, x.state = .active → cap < p → 10 * p ≤ 11 * cap → x.capStep p cap hyst rise = { x with cap := x.eff - 1 })
  ∧ (∀ s, s.power = true → s.pwr.pausing = true → s.pwr.pauseStart + 1000 * s.pwr.pause ≤ s.now →
      exec .capPauseEnd s = .next { s with pwr := { s.pwr with pausing := false } })
  ∧ (∀ k r s, s.power = true → k < 68 → 392 ≤ r → r < 1024 → s.frm.resetReq = none →
      exec (.thermalTrip k r) s = .next { s with
        pwr := { s.pwr with temps := tabPut s.pwr.temps k r }, frm := { s.frm with resetReq := some 3 } })
  ∧ (∀ via (v : W32) s, s.power = true → s.frmOpen via = true → bits v.toNat 31 16 = 0x4345 → 4000 ≤ bits v.toNat 15 0 → bits v.toNat 15 0 < s.pwr.ceiling →
      s.pwr.lowerings ≠ 0 → s.pwr.lowering = none →
      exec (.ceilingLower via v) s = .next { s with pwr := { s.pwr with lowering := some (bits v.toNat 15 0) } })
  ∧ (∀ via (v : W32) s, s.power = true → s.frmOpen via = true → (bits v.toNat 31 16 ≠ 0x4345 ∨ bits v.toNat 15 0 < 4000 ∨ s.pwr.ceiling ≤ bits v.toNat 15 0 ∨ s.pwr.lowerings = 0) →
      exec (.ceilingLower via v) s = .next { s with pwr := { s.pwr with ceilErr := true } })
  ∧ (∀ v s, s.power = true → s.pwr.lowering = some v → 4000 ≤ v → v < s.pwr.ceiling → s.pwr.lowerings ≠ 0 →
      Answers .ceilingProgrammed s fun t =>
        t.pwr.fuses = s.pwr.fuses ++ [v] ∧ t.pwr.ceiling = v ∧ t.pwr.cap ≤ v ∧ t.pwr.lowering = none ∧ t.pwr.lowerings + 1 = s.pwr.lowerings
        ∧ t = { s with pwr := { s.pwr with fuses := t.pwr.fuses, lowering := none, cap := t.pwr.cap } })

/-- R326 to R329: a LEDGER_COMMIT with its key, a REASON that is not reserved and COMMIT = 1 in READY captures the map and the time; one while BUSY is only noted; any other is answered with RESULT 5. When it ends, a slot that verifies holds exactly the image of that map, with VALID, over what it held; with no slot left RESULT is 3 and nothing is programmed. R331 to R335: a request for a retired unit that no record runs takes the lowest record that is not RUNNING, with no steps; a unit of no class, or not retired, sets REQ_ERR; an equal result counts one step, a tile's where a unit has committed on its swatch that it has not been compared with (log 124), an abandoned one none; the step that reaches PROBE_STEPS passes the unit, which is then not retired; a mismatch fails the record and is logged as PERMANENT. -/
def Obligations.repairs : Prop :=
  (∀ via (v : W32) s, s.power = true → s.frmOpen via = true → s.frm.state = .ready → bit v.toNat 0 = true → bits v.toNat 31 16 = 0x4C47 →
      reasonOk (bits v.toNat 15 8) = true → s.frm.ledgerOp = none →
      exec (.ledgerCommit via v) s = .next { s with frm := { s.frm with ledgerOp := some {
        reason := bits v.toNat 15 8, force := bit v.toNat 1, time := s.now, tiles := s.frm.rTiles, lanes := s.frm.rLanes, pch := s.frm.rPch } } })
  ∧ (∀ via (v : W32) s, s.power = true → s.frmOpen via = true → (bit v.toNat 0 = false ∨ bits v.toNat 31 16 ≠ 0x4C47 ∨ reasonOk (bits v.toNat 15 8) = false ∨ s.frm.state ≠ .ready) →
      exec (.ledgerCommit via v) s = .next { s with frm := { s.frm with ledgerResult := 5 } })
  ∧ (∀ (o : LedgerOp) k r s, s.power = true → s.frm.ledgerOp = some o → s.frm.emptySlots = k :: r → s.frm.newest = none → o.again = false →
      Answers (.ledgerCommitDone true) s fun t =>
        t.frm = { s.frm with ledger := tabPut s.frm.ledger k (s.frm.slot k ||| slotImage k o), ledgerOp := none, ledgerResult := 1 }
        ∧ t.ntc.head = s.ntc.head + 1 ∧ t = { s with frm := t.frm, ntc := t.ntc, clients := t.clients, out := t.out })
  ∧ (∀ (o : LedgerOp) v s, s.power = true → s.frm.ledgerOp = some o → s.frm.emptySlots = [] → o.again = false →
      Answers (.ledgerCommitDone v) s fun t =>
        t.frm = { s.frm with ledgerOp := none, ledgerResult := 3 } ∧ t = { s with frm := t.frm, ntc := t.ntc, clients := t.clients, out := t.out })
  ∧ (∀ (v : W32) k s, s.power = true → s.frm.state ≠ .frameBoot → bit v.toNat 31 = true → bits v.toNat 17 16 ≠ 1 → bits v.toNat 13 0 < classSize (bits v.toNat 17 16) →
      s.isRetired (bits v.toNat 17 16) (bits v.toNat 13 0) = true → s.probeOf (bits v.toNat 17 16) (bits v.toNat 13 0) = none →
      ((upTo 16).find? fun k => (tabGet ({} : Probe) s.frm.probes k).state != 1) = some k →
      exec (.probationRequest v) s = .next { s with frm := { s.frm with
        probes := tabPut s.frm.probes k { unit := bits v.toNat 13 0, cls := bits v.toNat 17 16, state := 1, steps := 0, next := s.order } } })
  ∧ (∀ (v : W32) s, s.power = true → s.frm.state ≠ .frameBoot → bit v.toNat 31 = true → s.isRetired (bits v.toNat 17 16) (bits v.toNat 13 0) = false →
      exec (.probationRequest v) s = .next { s with frm := { s.frm with probeErr := true } })
  ∧ (∀ k p s, s.power = true → k < 16 → tabGet ({} : Probe) s.frm.probes k = p → p.state = 1 → p.cls ≠ 0 → s.probeReady p = true → p.steps + 1 < s.frm.probeSteps →
      exec (.probationStep k .equal) s = .next { s with frm := { s.frm with probes := tabPut s.frm.probes k { p with steps := p.steps + 1 } } })
  ∧ (∀ k p u a s, s.power = true → k < 16 → tabGet ({} : Probe) s.frm.probes k = p → p.state = 1 → p.cls = 0 → s.probeReady p = true → p.steps + 1 < s.frm.probeSteps →
      u ∈ s.units → u.phase = .committed → p.next ≤ u.commitNo → a ∈ u.allTiles → s.working a = true → swatchOf (a / 16) = swatchOf (p.unit / 17) →
      Answers (.probationStep k .equal) s fun t => (tabGet ({} : Probe) t.frm.probes k).steps = p.steps + 1 ∧ (tabGet ({} : Probe) t.frm.probes k).state = 1 ∧ p.next < (tabGet ({} : Probe) t.frm.probes k).next
        ∧ t = { s with frm := { s.frm with probes := t.frm.probes } })
  ∧ (∀ k p s, s.power = true → tabGet ({} : Probe) s.frm.probes k = p → p.cls = 0 → s.units = [] → exec (.probationStep k .equal) s = .next s ∧ exec (.probationStep k .mismatch) s = .next s)
  ∧ (∀ k s, s.power = true → exec (.probationStep k .abandoned) s = .next s)
  ∧ (∀ k p s, s.power = true → k < 16 → tabGet ({} : Probe) s.frm.probes k = p → p.state = 1 → p.cls = 2 → p.unit < 768 → (s.ctl (p.unit / 32)).up = true → s.frm.probeSteps ≤ p.steps + 1 → s.frm.unmapped.contains p.unit = true →
      Answers (.probationStep k .equal) s fun t => t.isRetired 2 p.unit = false ∧ tabGet ({} : Probe) t.frm.probes k = { p with steps := p.steps + 1, state := 2 }
        ∧ t = { s with frm := t.frm, flt := t.flt })
  ∧ (∀ k p s, s.power = true → k < 16 → tabGet ({} : Probe) s.frm.probes k = p → p.state = 1 → p.cls = 2 → (s.ctl (p.unit / 32)).up = true →
      Answers (.probationStep k .mismatch) s fun t =>
        t.frm = { s.frm with probes := tabPut s.frm.probes k { p with state := 3 } } ∧ t.flt.permanent = s.flt.permanent + 1 ∧ t.flt.head = s.flt.head + 1
        ∧ t.flt.log = tabPut s.flt.log (s.flt.head.toNat % 64) { time := s.now, source := 0x0E, result := 2, cls := 2, unit := p.unit, client := none })

/-- R299: a corrected error of a vat, store or rim store word is counted and its word awaits its read-back, one of HBM is counted by FLT and by its controller; a read-back that is clean takes the word off the list; one that is still bad is an upset of the unit. R300, R301, R314, R402: an uncorrectable HBM read is charged to its pseudo-channel and its controller and re-issued once; a clean re-issue ends it; a lost re-issue of data that no client owns ends it too, and is no loss. An uncorrectable rim store entry is taken from the other copy into both. The scrub of a swatch checks the window it is in or goes on to the next; a clean word only moves it, a corrected one also counts; the patrol counts a corrected word. R372, R407: RETRAIN of a stack begins its re-training, or, while a retirement copy runs on it, waits for the copy's end; when the re-training ends, accesses go on; when a copy ends, a re-training that waited for it begins. -/
def Obligations.memoryErrors : Prop :=
  (∀ pt s, s.power = true → exec (.vatCorrectedError pt) s = .next { s with flt := { s.flt with
      corrected := s.flt.corrected + 1, readbacks := s.flt.readbacks ++ [(0x01, pt)] } })
  ∧ (∀ pt s, s.power = true → exec (.storeCorrectedError pt) s = .next { s with flt := { s.flt with
      corrected := s.flt.corrected + 1, readbacks := s.flt.readbacks ++ [(0x05, pt)] } })
  ∧ (∀ copy i s, s.power = true → exec (.rimStoreCorrectedError copy i) s = .next { s with flt := { s.flt with
      corrected := s.flt.corrected + 1, readbacks := s.flt.readbacks ++ [(0x0C, 16 * copy + i / 8192)] } })
  ∧ (∀ a s, s.power = true → exec (.hbmCorrectedError a) s = .next { s with
      flt := { s.flt with corrected := s.flt.corrected + 1 }
      hbmCtl := tabMod {} s.hbmCtl (pcOf a / 32) fun m => { m with corrected := m.corrected + 1 } })
  ∧ (∀ cls n x s, s.power = true → (s.flt.readbacks.find? fun y => sourceClass y.1 == cls && y.2 == n) = some x →
      exec (.correctedReadback cls n false) s = .next { s with flt := { s.flt with readbacks := s.flt.readbacks.erase x } })
  ∧ (∀ n x s, s.power = true → (s.flt.readbacks.find? fun y => sourceClass y.1 == 3 && y.2 == n) = some x → Steady s 3 n →
      exec (.correctedReadback 3 n true) s = .next { s with flt := { upsetFlt s x.1 3 n none with readbacks := s.flt.readbacks.erase x } })
  ∧ (∀ a s, s.power = true → a < s.hbmTop → s.frm.unmapped = [] → Steady s 2 (pcOf a) →
      exec (.hbmUncorrectable a) s = .next { s with
        flt := { upsetFlt s 0x0B 2 (pcOf a) (s.ownerAt a) with reissues := insertUp a s.flt.reissues }
        hbmCtl := tabMod {} s.hbmCtl (pcOf a / 32) fun m => { m with uncorrected := m.uncorrected + 1 } })
  ∧ (∀ a s, s.power = true → s.flt.reissues.contains a = true →
      exec (.hbmReissueResult a true) s = .next { s with flt := { s.flt with reissues := s.flt.reissues.filter (· != a) } })
  ∧ (∀ a s, s.power = true → s.flt.reissues.contains a = true → s.ownerAt a = none →
      exec (.hbmReissueResult a false) s = .next { s with flt := { s.flt with reissues := s.flt.reissues.filter (· != a) } })
  ∧ (∀ i s, s.power = true → i < 131072 → s.flt.rimBad = [] → Steady s 3 (i / 8192) →
      exec (.rimStoreUncorrectable 0 i .clean) s = .next { s with
        flt := upsetFlt s 0x0D 3 (i / 8192) none, north := tabPut s.north i (tabGet {} s.south i), south := tabPut s.south i (tabGet {} s.south i) })
  ∧ (∀ pt w s, Live s → pt < 8704 → w < 48 → (s.dom (domOfStrip (pt / 17))).state ≠ .off → ((pt, w) = s.scrubbing (pt / 136) ∨ (pt, w) = scrubNext (s.scrubbing (pt / 136))) →
      exec (.vatScrubCheck pt w .clean) s = .next { s with flt := { s.flt with scrubAt := tabPut s.flt.scrubAt (pt / 136) (pt, w) } }
      ∧ exec (.vatScrubCheck pt w .corrected) s = .next { s with flt := { s.flt with
          scrubAt := tabPut s.flt.scrubAt (pt / 136) (pt, w), corrected := s.flt.corrected + 1, readbacks := s.flt.readbacks ++ [(0x01, pt)] } })
  ∧ (∀ a s, Live s → a < Config.hbmBytes → (s.ctl (pcOf a / 32)).up = true → (s.ctl (pcOf a / 32)).retraining = false → s.frm.copying = [] → s.frm.unmapped = [] →
      exec (.hbmPatrolRead a .corrected) s = .next { s with
        flt := { s.flt with corrected := s.flt.corrected + 1 }
        hbmCtl := tabMod {} s.hbmCtl (pcOf a / 32) fun m => { m with corrected := m.corrected + 1 } })
  ∧ (∀ m s, Live s → m < 24 → s.copyingOn m = false → exec (.hbmRetrain m) s = .next { s with hbmCtl := tabMod {} s.hbmCtl m fun c => { c with retraining := true } })
  ∧ (∀ m s, Live s → m < 24 → s.copyingOn m = true → exec (.hbmRetrain m) s = .next { s with hbmCtl := tabMod {} s.hbmCtl m fun c => { c with retrainPend := true } })
  ∧ (∀ m s, s.power = true → (s.ctl m).retraining = true →
      exec (.hbmRetrainDone m []) s = .next { s with hbmCtl := tabMod {} s.hbmCtl m fun c => { c with retraining := false } })
  ∧ (∀ pc s, s.power = true → pc ∈ s.frm.copying → (s.ctl (pc / 32)).retrainPend = false →
      exec (.pcRetirementCopyDone pc []) s = .next { s with frm := { s.frm with copying := s.frm.copying.filter (· != pc) } })
  ∧ (∀ pc s, s.power = true → pc ∈ s.frm.copying → (s.ctl (pc / 32)).retrainPend = true → (∀ x ∈ s.frm.copying, x / 32 = pc / 32 → x = pc) →
      exec (.pcRetirementCopyDone pc []) s = .next { s with
        frm := { s.frm with copying := s.frm.copying.filter (· != pc) }
        hbmCtl := tabMod {} s.hbmCtl (pc / 32) fun c => { c with retrainPend := false, retraining := true } })

/-- R300, R303: a parity or residue error of a tile, an unacknowledged link and a vat word of a tile that serves no column are each charged to the tile, with the source's code; where nothing runs there and the tile stays below its limit, nothing else changes. R300, R304, R49, R50: an error of a tile with a unit that is neither paired nor halted kills that unit: it loses its wet state, counts a retry, waits for its rerun, and its partition counts the kill. -/
def Obligations.tileErrors : Prop :=
  (∀ pt a s, s.power = true → s.activeOf pt = some a → (s.tile a).run = none → Steady s 0 pt →
      exec (.laneParityError pt) s = .next { s with flt := upsetFlt s 0x03 0 pt none }
      ∧ exec (.residueError pt) s = .next { s with flt := upsetFlt s 0x04 0 pt none })
  ∧ (∀ pt s, s.power = true → pt < 8704 → Steady s 0 pt → exec (.linkTimeout pt []) s = .next { s with flt := upsetFlt s 0x07 0 pt none })
  ∧ (∀ pt w s, s.power = true → pt < 8704 → w < 48 → s.activeOf pt = none → Steady s 0 pt →
      exec (.vatUncorrectable pt w) s = .next { s with flt := upsetFlt s 0x02 0 pt none })
  ∧ (∀ a b bank s, s.power = true → s.working a = true → s.working b = true → s.partOfTile b = s.partOfTile a → s.activeOf (s.physTile a) = some a → (s.tile a).run = none →
      Steady s 0 (s.physTile a) →
      Answers (.storeUncorrectable a true bank (some b)) s fun t =>
        t.flt = upsetFlt s 0x06 0 (s.physTile a) none ∧ (t.tile a).pal.atBank bank = (s.tile b).pal.atBank bank
        ∧ (∀ k, k ≠ a → t.tile k = s.tile k) ∧ t = { s with flt := t.flt, tiles := t.tiles })
  ∧ (∀ pt a (r : TileRun) (u : CUnit) s, s.power = true → s.activeOf pt = some a → (s.tile a).run = some r → s.unit? r.unit = some u → u.pairTiles = [] →
      u.phase = .running → (s.client u.client).dbg.halted = false → ((s.partOfTile a).bind fun p => (s.part p).switch) = none → Steady s 0 pt →
      Answers (.laneParityError pt) s fun t => ∃ v, t.unit? r.unit = some v ∧ v.phase = .killed ∧ v.retries = u.retries + 1 ∧ v.ranges = [] ∧ v.flags = 0)
  ∧ (∀ pt a (r : TileRun) (u : CUnit) s, s.power = true → s.activeOf pt = some a → (s.tile a).run = some r → s.unit? r.unit = some u → u.pairTiles = [] →
      u.phase = .running → (s.client u.client).dbg.halted = false → ((s.partOfTile a).bind fun p => (s.part p).switch) = none → Steady s 0 pt →
      Answers (.residueError pt) s fun t => ∃ v, t.unit? r.unit = some v ∧ v.phase = .killed ∧ v.retries = u.retries + 1 ∧ v.ranges = [] ∧ v.flags = 0)
  ∧ (∀ pt a (r : TileRun) (u : CUnit) s, s.power = true → s.activeOf pt = some a → (s.tile a).run = some r → s.unit? r.unit = some u →
      (s.client u.client).dbg.halted = true → ((s.partOfTile a).bind fun p => (s.part p).switch) = none → Steady s 0 pt →
      Answers (.laneParityError pt) s fun t => t.units = s.units ∧ (t.tile a).heldUpset = true)

/-- R302, R306, R316: the BIST of a partition that was reset ends with no failed tile and it may take a context again; a re-trim starts at once on a strip none of whose tiles is busy, is forced with notice RETRIM_FORCED when RETRIM_MAX has passed since the last, and ends after 2 µs; a wait of SYNC_TIMEOUT ends the unit, which is then live no more. -/
def Obligations.stripAndPartitionUpkeep : Prop :=
  (∀ p s, s.power = true → (s.part p).bist = true → exec (.partitionBistDone p []) s = .next (s.modPart p fun x => { x with bist := false }))
  ∧ (∀ k s, Live s → k < 512 → tabHas s.flt.retrims k = false → (tilesOfStrip k).any s.tileBusy = false →
      exec (.retrim k) s = .next { s with flt := { s.flt with retrims := tabPut s.flt.retrims k s.now } })
  ∧ (∀ k s, Live s → k < 512 → tabHas s.flt.retrims k = false → tabGet s.frm.stateTime s.flt.lastRetrim k + 1000000 * s.flt.retrimMax ≤ s.now →
      Answers (.retrimForced k) s fun t => t.flt = { s.flt with retrims := tabPut s.flt.retrims k s.now, retrimForced := insertUp k s.flt.retrimForced }
        ∧ t.ntc.head = s.ntc.head + 1 ∧ t = { s with flt := t.flt, ntc := t.ntc, clients := t.clients, out := t.out, tiles := t.tiles, parts := t.parts }
        ∧ ∀ a, (t.tile a).vat = (s.tile a).vat ∧ (t.tile a).windows = (s.tile a).windows)
  ∧ (∀ k t0 s, s.power = true → s.flt.retrims = [(k, t0)] → t0 + 2000 ≤ s.now →
      Answers (.retrimDone k) s fun t => t.flt = { s.flt with retrims := [], lastRetrim := tabPut s.flt.lastRetrim k s.now, retrimForced := s.flt.retrimForced.filter (· != k) }
        ∧ t = { s with flt := t.flt, tiles := t.tiles })
  ∧ (∀ a (r : TileRun) (u : CUnit) t0 s, s.power = true → (s.tile a).run = some r → r.waitSince = some t0 → s.unit? r.unit = some u → u.phase ≠ .committed →
      (s.client u.client).dbg.halted = false → tabHas s.flt.retrims (a / 16) = false → t0 + 1000 * s.flt.syncTimeout ≤ s.now →
      Answers (.syncTimeout a) s fun t => t.unit? u.id = none)

/-- R387, R388: the FLR of a function tears its context down, clears its accounting and its watermark groups and leaves it in FLR until VF_FLR_DONE, with a new context where it had one; that of a PF ends every VF of the port too. R378, R389: NumVFs of a port takes the value written; where it falls, every VF that ceases to exist is torn down as by VF FLR, and where it does not, nothing else changes. R390: Bus Master Enable and the D-state of a function take the value written; where nothing is held, or the function may still not reach the host, nothing else changes, and a message that was held goes out when both allow it. -/
def Obligations.functions : Prop :=
  (∀ n s, s.power = true → funOf n ≠ 0 → n < 128 → s.functionExists n = true →
      Answers (.vfFlr n) s fun t => (t.client n).en = (s.client n).en ∧ (t.client n).resident = false ∧ (t.client n).acct = {} ∧ (t.client n).q0 = {} ∧ (t.client n).q1 = {}
        ∧ (t.client n).out = {} ∧ (t.client n).wmQ0 = {} ∧ (t.client n).wmQ1 = {} ∧ (t.client n).wmDefer = {} ∧ (t.client n).func = { flr := true }
        ∧ (t.client n).bindPart = (s.client n).bindPart)
  ∧ (∀ n s, s.power = true → exec (.vfFlrDone n) s = .next { s with clients := tabMod {} s.clients n fun c => { c with func := { c.func with flr := false } } })
  ∧ (∀ p s, s.power = true → p < 4 → Answers (.pfFlr p) s fun t => tabGet 0 t.numVfs p = 0 ∧ (t.client (32 * p)).q0 = {} ∧ (t.client (32 * p)).q1 = {}
        ∧ (t.client (32 * p)).acct = {} ∧ (t.client (32 * p)).func = { flr := true } ∧ ∀ n, portOf n = p → funOf n ≠ 0 → t.functionExists n = false)
  ∧ (∀ p k s, s.power = true → p < 4 → k < 32 → tabGet 0 s.numVfs p ≤ k → exec (.vfEnableClear p k) s = .next { s with numVfs := tabPut s.numVfs p k })
  ∧ (∀ p k s, s.power = true → p < 4 → k < 32 → Answers (.vfEnableClear p k) s fun t =>
        tabGet 0 t.numVfs p = k ∧ ∀ f, k < f → f < 32 → f ≤ tabGet 0 s.numVfs p → (t.client (32 * p + f)).en = false)
  ∧ (∀ n on s, s.power = true → n < 128 → s.functionExists n = true → (on = false ∨ (s.client n).func.held = []) →
      exec (.busMasterEnableChange n on) s = .next { s with clients := tabMod {} s.clients n fun c => { c with func := { c.func with bme := on } } })
  ∧ (∀ n d3 s, s.power = true → n < 128 → s.functionExists n = true → (d3 = true ∨ (s.client n).func.held = []) →
      exec (.powerStateChange n d3) s = .next { s with clients := tabMod {} s.clients n fun c => { c with func := { c.func with d3hot := d3 } } })
  ∧ (∀ n v s, s.power = true → n < 128 → s.functionExists n = true → (s.client n).func.held = [.msix v] → (s.client n).func.funcMask = false → v ∉ (s.client n).func.masked →
      tabGet false s.linkUp (portOf n) = true → (s.client n).func.d3hot = false →
      exec (.busMasterEnableChange n true) s = .next { s with
        clients := tabMod {} s.clients n fun c => { c with func := { c.func with bme := true, held := [] } }, out := .msix n v :: s.out })

/-- R384, R385, R387, R390, R491: a BAR2 access of a function that answers reaches HBM at 2^30 × BASE + o (PF) or HBM_LO + o (VF) where every byte lies below TOP (and HBM_HI); elsewhere a read or a write as a whole is an Unsupported Request, which for a VF sets BAR2_UR; before READY reads give 0 and writes are ignored. R358, R375, R376, R378, R382: a poisoned write is discarded and recorded by AER; a link that comes up sends Device Readiness Status once FRAME_BOOT has ended; PERST#, a hot reset and, at READY, a loss of the link end the contexts of the port's 32 clients and its VFs; a configuration request is answered, or with Retry Status while FRAME_BOOT of a cold start runs. -/
def Obligations.hostAccesses : Prop :=
  (∀ p o n s, Live s → p < 4 → s.memOk (32 * p) = true → o + n ≤ 2 ^ 36 → 2 ^ 30 * tabGet 0 s.frm.bar2Base p + o + n ≤ s.hbmTop →
      exec (.pfBar2Access p o (.read n)) s = .next { s with out := .readBytes (s.hbmRead (2 ^ 30 * tabGet 0 s.frm.bar2Base p + o) n) :: s.out })
  ∧ (∀ p o l s, Live s → p < 4 → s.memOk (32 * p) = true → o + l.length ≤ 2 ^ 36 → 2 ^ 30 * tabGet 0 s.frm.bar2Base p + o + l.length ≤ s.hbmTop → s.frm.unmapped = [] →
      exec (.pfBar2Access p o (.write l)) s = .next { s with hbm := memWrite s.hbm (2 ^ 30 * tabGet 0 s.frm.bar2Base p + o) l })
  ∧ (∀ p o x s, Live s → p < 4 → s.memOk (32 * p) = true → o + accessLen x ≤ 2 ^ 36 → s.hbmTop < 2 ^ 30 * tabGet 0 s.frm.bar2Base p + o + accessLen x →
      exec (.pfBar2Access p o x) s = .next { s with out := .unsupportedRequest :: s.out })
  ∧ (∀ n o k s, Live s → funOf n ≠ 0 → n < 128 → s.memOk n = true → o + k ≤ 2 ^ 32 → (s.client n).areas.lo + o + k ≤ (s.client n).areas.hi → (s.client n).areas.lo + o + k ≤ s.hbmTop →
      exec (.vfBar2Access n o (.read k)) s = .next { s with out := .readBytes (s.hbmRead ((s.client n).areas.lo + o) k) :: s.out })
  ∧ (∀ n o l s, Live s → funOf n ≠ 0 → n < 128 → s.memOk n = true → o + l.length ≤ 2 ^ 32 → (s.client n).areas.lo + o + l.length ≤ (s.client n).areas.hi →
      (s.client n).areas.lo + o + l.length ≤ s.hbmTop → s.frm.unmapped = [] →
      exec (.vfBar2Access n o (.write l)) s = .next { s with hbm := memWrite s.hbm ((s.client n).areas.lo + o) l })
  ∧ (∀ n o x s, Live s → funOf n ≠ 0 → n < 128 → s.memOk n = true → o + accessLen x ≤ 2 ^ 32 →
      ((s.client n).areas.hi < (s.client n).areas.lo + o + accessLen x ∨ s.hbmTop < (s.client n).areas.lo + o + accessLen x) →
      exec (.vfBar2Access n o x) s = .next { s with
        clients := tabMod {} s.clients n fun c => { c with pcieBar2 := true }, out := .unsupportedRequest :: s.out })
  ∧ (∀ p o x s, s.power = true → s.frm.state ≠ .ready → p < 4 → s.memOk (32 * p) = true → o + accessLen x ≤ 2 ^ 36 →
      exec (.pfBar2Access p o x) s = .next (s.memEarly x))
  ∧ (∀ p o x s, s.power = true → p < 4 → s.memOk (32 * p) = false → o + accessLen x ≤ 2 ^ 36 → exec (.pfBar2Access p o x) s = .next (s.memRefuse x))
  ∧ (∀ n b o s, s.power = true → n < 128 → s.functionExists n = true → exec (.poisonedWrite n b o) s = .next { s with out := .aerPoisoned n :: s.out })
  ∧ (∀ p s, s.power = true → p < 4 → s.frm.state ≠ .frameBoot → (∀ f, f < 32 → (s.client (32 * p + f)).func.bme = false) →
      exec (.pcieLinkUp p) s = .next { s with linkUp := tabPut s.linkUp p true, out := .deviceReadiness p :: s.out })
  ∧ (∀ p s, Live s → p < 4 → Answers (.pcieLinkDown p) s fun t =>
      tabGet false t.linkUp p = false ∧ tabGet 0 t.numVfs p = 0 ∧ ∀ f, f < 32 → (t.client (32 * p + f)).en = false ∧ (t.client (32 * p + f)).q0 = {})
  ∧ (∀ p s, s.power = true → s.frm.state ≠ .ready → p < 4 → exec (.pcieLinkDown p) s = .next { s with linkUp := tabPut s.linkUp p false })
  ∧ (∀ p s, s.power = true → p < 4 → Answers (.perstHotReset p) s fun t =>
      tabGet false t.linkUp p = false ∧ tabGet 0 t.numVfs p = 0 ∧ ∀ f, f < 32 → (t.client (32 * p + f)).en = false ∧ (t.client (32 * p + f)).q0 = {})
  ∧ (∀ n f s, s.power = true → n < 128 → tabGet false s.linkUp (portOf n) = true → 100000000 ≤ s.now → s.frm.state ≠ .frameBoot → s.functionExists n = true →
      exec (.configRequest n f) s = .next { s with out := .configReply f (BitVec.ofNat 64 (s.cfgValue n f)) :: s.out })
  ∧ (∀ n f s, s.power = true → n < 128 → tabGet false s.linkUp (portOf n) = true → 100000000 ≤ s.now → s.frm.state = .frameBoot → s.frm.afterWarm = false →
      exec (.configRequest n f) s = .next { s with out := .configRetry :: s.out })

/-- R466 to R469: HALT asks for a break; when every run of a breaking client has stopped it is halted; a step lets the held descriptor start or each run issue one cycle; when all is still again the step is done. R404, R469, R473: RELEASE ends the halt, lets the held descriptor past its break, moves the timers on by the time of the halt and lets the runs go on; a write of DBG_TRACE_CFG turns tracing on only where the ring's placement passes. -/
def Obligations.debugging : Prop :=
  (∀ n s, s.power = true → s.dbgOpen n = true → (s.client n).dbg.halted = false → (s.client n).dbg.breaking = false →
      exec (.halt n) s = .next { s with clients := tabMod {} s.clients n fun c => { c with dbg := { c.dbg with hostReq := true } } })
  ∧ (∀ n s, s.power = true → (s.client n).dbg.breaking = true → (s.client n).dbg.halted = false → s.haltReady n = true →
      Answers (.haltComplete n) s fun t => t = { s with
        clients := tabMod {} s.clients n fun c => { c with dbg := { c.dbg with
          halted := true, breaking := false, stepping := false, stepped := false, parked := !(s.client n).resident, since := s.now } }
        hbm := t.hbm, trace := t.trace })
  ∧ (∀ n q (x : ADesc) s, s.power = true → s.dbgOpen n = true → (s.client n).dbg.halted = true → (s.client n).dbg.stepping = false → s.nextHeld n = some (q, x) →
      (∀ u ∈ s.units, u.handoff.bind (fun h : HandoffRun => h.held) = none) →
      Answers (.stepDesc n) s fun t => (t.client n).dbg = { (s.client n).dbg with
        stepping := true, stepped := false, breaking := false, held := none, pass := some (q, x.ordinal), stepDesc := some (q, x.ordinal), q := q, tag := dTag x.desc })
  ∧ (∀ n q (x : ADesc) s, s.power = true → s.dbgOpen n = true → (s.client n).dbg.halted = true → (s.client n).dbg.stepping = false → s.runsOf n = [] → s.nextHeld n = some (q, x) →
      exec (.stepLw n) s = .next { s with clients := tabMod {} s.clients n fun c => { c with dbg := { c.dbg with
        stepping := true, stepped := false, held := none, pass := some (q, x.ordinal), q := q, tag := dTag x.desc } } })
  ∧ (∀ n a (r : TileRun) s, s.power = true → s.dbgOpen n = true → (s.client n).dbg.halted = true → (s.client n).dbg.stepping = false → s.runsOf n = [(a, r)] → r.ready = false →
      (s.tile a).run = some r → (∀ u ∈ s.units, u.handoff.bind (fun h : HandoffRun => h.held) = none) →
      Answers (.stepLw n) s fun t => (t.client n).dbg = { (s.client n).dbg with stepping := true, stepped := false }
        ∧ (t.tile a).run = some { r with stepOne := true, nextCyc := if r.nextCyc < s.cycle a then s.cycle a else r.nextCyc })
  ∧ (∀ n s, s.power = true → (s.client n).dbg.halted = true → (s.client n).dbg.stepping = true → (s.client n).dbg.stepDesc = none → (s.client n).dbg.pass = none → s.haltReady n = true →
      Answers (.stepComplete n) s fun t => (t.client n).dbg.stepping = false ∧ (t.client n).dbg.stepped = true ∧ (t.client n).dbg.halted = true)
  ∧ (∀ n s, s.power = true → s.dbgOpen n = true → (s.client n).dbg.halted = true → (∀ u ∈ s.units, u.handoff.bind (fun h : HandoffRun => h.held) = none) →
      (∀ a ∈ s.seatTiles n, (s.tile a).heldUpset = false) →
      Answers (.release n) s fun t => (t.client n).dbg = { (s.client n).dbg with
          halted := false, stepping := false, stepped := false, breaking := false, pass := (s.client n).dbg.held, held := none, stepDesc := none }
        ∧ (t.client n).q0.accepted = (s.client n).q0.accepted.map (fun d => { d with timer := pausedBase d.timer (s.client n).dbg.since s.now })
        ∧ (t.client n).q1.accepted = (s.client n).q1.accepted.map (fun d => { d with timer := pausedBase d.timer (s.client n).dbg.since s.now }))
  ∧ (∀ n a (r : TileRun) s, s.power = true → s.dbgOpen n = true → (s.client n).dbg.halted = true → (∀ u ∈ s.units, u.handoff.bind (fun h : HandoffRun => h.held) = none) →
      (∀ a ∈ s.seatTiles n, (s.tile a).heldUpset = false) → s.runsOf n = [(a, r)] → (s.tile a).run = some r →
      Answers (.release n) s fun t => ∃ r', (t.tile a).run = some r' ∧ r'.stopped = false ∧ r'.stepOne = false ∧ s.cycle a ≤ r'.nextCyc)
  ∧ (∀ v s, Live s → exec (.traceEnable v) s = .next { s with trace := { s.trace with
        en := bit v.toNat 0 && (s.trace.en || s.traceOk), stop := bit v.toNat 1, members := bit v.toNat 2 } })

/-- R290, R291, R481, R483: CLR through PF BAR0 clears the accounting of a client, and through no other way; a read of a register answers its word; one of the low half of a 64-bit register also latches the high half, which the next read of that half by the same way returns; a read of 8 bytes answers both halves at once and latches nothing; a read of another size or alignment is an Unsupported Request. R92, R294, R295: a slowdown window that ends takes in the cycles passed until then and closes its sums, which publication makes visible together with the index; a write of CLI_RS_CFG takes MARGIN and BIND, and with CLR clears AMAX, the counts and the scale of the range slot alone. -/
def Obligations.accounting : Prop :=
  (∀ p n v s, Live s → n < 128 → bit v.toNat 0 = true → exec (.accClr (.pf p) n v) s = .next { s with
      clients := tabMod {} s.clients n fun c => { c with acct := { cleared := BitVec.ofNat 64 s.now }, parkedSince := if c.en && !c.resident then s.now else c.parkedSince } })
  ∧ (∀ m n v s, s.power = true → exec (.accClr (.vf m) n v) s = .next s ∧ exec (.accClr .jtag n v) s = .next s ∧ exec (.accClr .lead n v) s = .next s)
  ∧ (∀ via a s, s.power = true → a < viaSize via → a % 4 = 0 → s.viaOk via = true → (∀ l ∈ s.latches, l.via = via → l.addr ≠ a) → (viaPlace via a).wide = false →
      exec (.counterLowHalfRead via ⟨a, 4⟩) s = .next { s with out := .readData (BitVec.ofNat 64 (s.regWord via a)) :: s.out })
  ∧ (∀ via a s, s.power = true → a < viaSize via → a % 4 = 0 → s.viaOk via = true → (∀ l ∈ s.latches, l.via = via → l.addr ≠ a) → (viaPlace via a).wide = true →
      exec (.counterLowHalfRead via ⟨a, 4⟩) s = .next { s with
        out := .readData (BitVec.ofNat 64 (s.regWord via a)) :: s.out
        latches := { via := via, addr := a + 4, value := BitVec.ofNat 32 (s.regWord via (a + 4)) } :: s.latches.filter fun l => !(l.via == via && l.addr == a + 4) })
  ∧ (∀ via a v s, s.power = true → a < viaSize via → a % 4 = 0 → s.viaOk via = true → (s.latches.find? fun l => l.via == via && l.addr == a) = some { via := via, addr := a, value := v } →
      exec (.counterLowHalfRead via ⟨a, 4⟩) s = .next { s with
        out := .readData (v.setWidth 64) :: s.out, latches := s.latches.filter fun l => !(l.via == via && l.addr == a) })
  ∧ (∀ via a s, s.power = true → a < viaSize via → a % 8 = 0 → s.viaOk via = true →
      exec (.counterLowHalfRead via ⟨a, 8⟩) s = .next { s with out := .readData (BitVec.ofNat 64 (s.regWord via a + 2 ^ 32 * s.regWord via (a + 4))) :: s.out })
  ∧ (∀ via a size s, s.power = true → a < viaSize via → ((size ≠ 4 ∧ size ≠ 8) ∨ a % size ≠ 0 ∨ s.viaOk via = false) → exec (.counterLowHalfRead via ⟨a, size⟩) s = .next { s with out := .unsupportedRequest :: s.out })
  ∧ (∀ p w s, Live s → p < 64 → s.now % 10000000 = 0 → (s.part p).sdEnd ≠ s.now → Answers (.sdWindowEnd p w) s fun t =>
      (t.part p).sdEnd = s.now ∧ (∃ tot f hbm tx fab, (t.part p).sdClosed = some (tot, f, hbm, tx, fab, (s.tilesOf p).length * w)
        ∧ f = hbm + tx + fab + (s.tilesOf p).length * w ∧ tot = (s.settleAll.part p).wBusy + (s.tilesOf p).length * w ∧ hbm = (s.settleAll.part p).wHbm ∧ tx = (s.settleAll.part p).wTx ∧ fab = (s.settleAll.part p).wFab)
      ∧ (t.part p).wBusy = 0 ∧ (t.part p).wHbm = 0 ∧ (t.part p).wTx = 0 ∧ (t.part p).wFab = 0)
  ∧ (∀ p w s, Live s → p < 64 → s.now % 10000000 = 0 → (s.part p).sdEnd ≠ s.now → s.tiles = [] → Answers (.sdWindowEnd p w) s fun t => (t.part p).sdClosed
      = some ((s.part p).wBusy + (s.tilesOf p).length * w, (s.part p).wHbm + (s.part p).wTx + (s.part p).wFab + (s.tilesOf p).length * w, (s.part p).wHbm, (s.part p).wTx, (s.part p).wFab, (s.tilesOf p).length * w))
  ∧ (∀ p tot f hbm tx fab lt s, s.power = true → (s.part p).sdClosed = some (tot, f, hbm, tx, fab, lt) → tot < 2 ^ 64 → f < 2 ^ 64 →
      Answers (.sdPublish p) s fun t => (t.part p).sdClosed = none ∧ (t.part p).sdTotal = tot ∧ (t.part p).sdForeign = f
        ∧ (t.part p).sd.level = (if tot = 0 then 0x100 else if tot ≤ f then 0xFFFF else min 0xFFFF (256 * tot / (tot - f))))
  ∧ (∀ n i v s, Live s → n < 128 → i < 1024 → exec (.rsClr n i v) s = .next { s with
      clients := tabMod {} s.clients n fun c => { c with rslots := tabMod {} c.rslots i fun x => if bit v.toNat 31 then { gen := x.gen, margin := bits v.toNat 2 0, bind := bit v.toNat 3 } else { x with margin := bits v.toNat 2 0, bind := bit v.toNat 3 } } })

/-- R6, R212, R382, R481: a register write stores an RW field that is in range and leaves one that is reserved; a 64-bit register is written as a whole; a write of another size or alignment is an Unsupported Request and changes nothing, and in the doorbell page it is ignored. -/
def Obligations.registerWrites : Prop :=
  (∀ p k v s, Live s → k < 4 → s.memOk (32 * k) = true → p < 64 →
      exec (.registerWrite (.pf k) (0x200000 + 0x8000 * p + 0x50) 4 v) s = .next { s with
        parts := tabMod {} s.parts p fun x => { x with minQuantum := if v.toNat % 2 ^ 32 ≤ 1000000 then v.toNat % 2 ^ 32 else x.minQuantum } })
  ∧ (∀ n k v s, Live s → k < 4 → s.memOk (32 * k) = true → n < 128 →
      exec (.registerWrite (.pf k) (0x400000 + 0x10000 * n + 0x108) 8 v) s = .next { s with
        clients := tabMod {} s.clients n fun c => { c with q0 := { c.q0 with qdeadline := v.toNat } } })
  ∧ (∀ via a size v s, s.power = true → a < viaSize via → s.viaOk via = true → ¬((size = 4 ∨ size = 8) ∧ a % size = 0) → inDoorbells (viaPlace via a) = false →
      exec (.registerWrite via a size v) s = .next { s with out := .unsupportedRequest :: s.out })
  ∧ (∀ via a size v s, s.power = true → ¬((size = 4 ∨ size = 8) ∧ a % size = 0) → inDoorbells (viaPlace via a) = true →
      exec (.registerWrite via a size v) s = .next s)

/-- R213: a producer doorbell is taken where it covers no more than the ring, with its time; a consumer doorbell where it names written slots; any other is ignored and sets DB_ERR. An outcome doorbell releases outcome slots. R223, R386: a vector whose pending bit is set sends its message when it is unmasked; a ring whose oldest pending entry is TIME µs old sends its message, and its pending count starts again. -/
def Obligations.doorbellsAndMessages : Prop :=
  (∀ n q pc s, Live s → ((s.queue n q).state = .running ∨ (s.queue n q).state = .stopped) →
      (pc - (s.queue n q).cc).toNat ≤ 2 ^ (s.queue n q).log2 → (pc - (s.queue n q).pc).toNat ≤ 2 ^ (s.queue n q).log2 →
      Answers (.cliDbQ n q pc) s fun t => t.queue n q = { s.queue n q with
        pc := pc, doorbells := if pc = (s.queue n q).pc then (s.queue n q).doorbells else (s.queue n q).doorbells ++ [(pc, s.now)] })
  ∧ (∀ n q pc s, Live s → ((s.queue n q).state = .running ∨ (s.queue n q).state = .stopped) →
      (2 ^ (s.queue n q).log2 < (pc - (s.queue n q).cc).toNat ∨ 2 ^ (s.queue n q).log2 < (pc - (s.queue n q).pc).toNat) →
      exec (.cliDbQ n q pc) s = .next (s.modQueue n q fun x => { x with dbErr := true }))
  ∧ (∀ n q c s, Live s → ((s.queue n q).state = .running ∨ (s.queue n q).state = .stopped) →
      (c - (s.queue n q).consumed).toNat ≤ ((s.queue n q).ccount - (s.queue n q).consumed).toNat →
      exec (.cliDbC n q c) s = .next (s.modQueue n q fun x => { x with consumed := c }))
  ∧ (∀ n q c s, Live s → ((s.queue n q).state = .running ∨ (s.queue n q).state = .stopped) →
      ((s.queue n q).ccount - (s.queue n q).consumed).toNat < (c - (s.queue n q).consumed).toNat →
      exec (.cliDbC n q c) s = .next (s.modQueue n q fun x => { x with dbErr := true }))
  ∧ (∀ n c s, Live s → (s.client n).out.enable = true → (c - (s.client n).out.consumed).toNat ≤ ((s.client n).out.count - (s.client n).out.consumed).toNat → (s.client n).lostSeqs = [] →
      exec (.cliDbOut n c) s = .next { s with clients := tabMod {} s.clients n fun x => { x with out := { x.out with consumed := c } } })
  ∧ (∀ n v s, s.power = true → (s.client n).func.pendingBits = [v] → (s.client n).func.funcMask = false → s.canDma n = true →
      exec (.msixVectorUnmask n (some v)) s = .next { s with
        clients := tabMod {} s.clients n fun c => { c with func := { c.func with masked := c.func.masked.filter (· != v), pendingBits := [] } }
        out := .msix n v :: s.out })
  ∧ (∀ n v s, s.power = true → (s.client n).func.pendingBits = [] →
      exec (.msixVectorUnmask n (some v)) s = .next { s with clients := tabMod {} s.clients n fun c => { c with func := { c.func with masked := c.func.masked.filter (· != v) } } })
  ∧ (∀ n v s, s.power = true → (s.client n).func.pendingBits = [v] → v ∉ (s.client n).func.masked → s.canDma n = true →
      exec (.msixVectorUnmask n none) s = .next { s with
        clients := tabMod {} s.clients n fun c => { c with func := { c.func with funcMask := false, pendingBits := [] } }
        out := .msix n v :: s.out })
  ∧ (∀ n q s, s.power = true → q < 2 → (s.queue n q).pend ≠ 0 → (s.queue n q).coalTime ≠ 0 → (s.queue n q).oldest + 1000 * (s.queue n q).coalTime ≤ s.now →
      (s.client n).func.funcMask = false → q ∉ (s.client n).func.masked → s.canDma n = true →
      exec (.coalesceTimer n q) s = .next { (s.modQueue n q fun x => { x with pend := 0 }) with out := .msix n q :: s.out })
  ∧ (∀ n s, s.power = true → (s.client n).out.pend ≠ 0 → (s.client n).out.coalTime ≠ 0 → (s.client n).out.oldest + 1000 * (s.client n).out.coalTime ≤ s.now →
      (s.client n).func.funcMask = false → 2 ∉ (s.client n).func.masked → s.canDma n = true →
      exec (.coalesceTimer n 2) s = .next { s with clients := tabMod {} s.clients n fun c => { c with out := { c.out with pend := 0 } }, out := .msix n 2 :: s.out })

/-- R214, R215, R393: a fetch read takes the descriptors it covers; one that fails is made once more 1 ms later, and a second failure stops the queue with the cause of the last. R205, R206, R215, R216: the next fetched descriptor is accepted under the next ordinal; one that fails a check at acceptance, and one whose dependency has not come in time, end at once with a record. -/
def Obligations.fetchAndAcceptance : Prop :=
  (∀ n q l s, s.power = true → s.canFetch n q = true → (s.queue n q).fetchFail = none → (s.queue n q).baseLoc = 0 →
      exec (.descriptorFetch n q (.data l)) s = .next { (s.modQueue n q fun x => { x with fetched := x.fetched ++ l.take x.fetchCount }) with
        out := .hostRead n (s.queue n q).fetchAddr (64 * (s.queue n q).fetchCount) :: s.out })
  ∧ (∀ n q res s, s.power = true → s.canFetch n q = true → (s.queue n q).fetchFail = none → (s.queue n q).baseLoc = 1 →
      (s.queue n q).fetchAddr + 64 * (s.queue n q).fetchCount ≤ s.hbmTop →
      exec (.descriptorFetch n q res) s = .next (s.modQueue n q fun x => { x with
        fetched := x.fetched ++ (upTo x.fetchCount).map fun i => BitVec.ofNat 512 (s.hbmVal (x.fetchAddr + 64 * i) 64) }))
  ∧ (∀ n q s, s.power = true → s.canFetch n q = true → (s.queue n q).fetchFail = none → (s.queue n q).baseLoc = 0 →
      exec (.descriptorFetch n q .completerAbort) s = .next { (s.modQueue n q fun x => { x with fetchFail := some { cause := 2, at_ := s.now } }) with
        out := .hostRead n (s.queue n q).fetchAddr (64 * (s.queue n q).fetchCount) :: s.out })
  ∧ (∀ n q c t0 l s, s.power = true → s.canFetch n q = true → (s.queue n q).fetchFail = some { cause := c, at_ := t0 } → t0 + 1000000 ≤ s.now → (s.queue n q).baseLoc = 0 →
      exec (.fetchRetry n q (.data l)) s = .next { (s.modQueue n q fun x => { x with fetched := x.fetched ++ l.take x.fetchCount, fetchFail := none }) with
        out := .hostRead n (s.queue n q).fetchAddr (64 * (s.queue n q).fetchCount) :: s.out })
  ∧ (∀ n q c t0 s, s.power = true → s.canFetch n q = true → (s.queue n q).fetchFail = some { cause := c, at_ := t0 } → t0 + 1000000 ≤ s.now → (s.queue n q).baseLoc = 0 →
      Answers (.fetchRetry n q .unsupportedRequest) s fun t => (t.queue n q).state = .stopped ∧ (t.queue n q).fetchFail = none ∧ (t.client n).pcieCause = 1
        ∧ (q = 0 → (t.client n).pcieErr0 = true) ∧ (q = 1 → (t.client n).pcieErr1 = true))
  ∧ (∀ n q s, s.power = true → s.canFetch n q = true → (s.queue n q).fetchFail = none → (s.queue n q).baseLoc = 0 →
      exec (.fetchCompletionTimeout n q) s = .next { (s.modQueue n q fun x => { x with fetchFail := some { cause := 4, at_ := s.now } }) with
        out := .hostRead n (s.queue n q).fetchAddr (64 * (s.queue n q).fetchCount) :: s.out })
  ∧ (∀ n q c t0 s, s.power = true → s.canFetch n q = true → (s.queue n q).fetchFail = some { cause := c, at_ := t0 } → t0 + 1000000 ≤ s.now → (s.queue n q).baseLoc = 0 →
      Answers (.fetchCompletionTimeout n q) s fun t => (t.queue n q).state = .stopped ∧ (t.client n).pcieCause = 4)
  ∧ (∀ n q d r s, s.power = true → s.canAccept n q = true → (s.queue n q).fetched = d :: r → (∀ a ∈ (s.queue n q).accepted, a.fault = 0 ∧ a.chainOpen = false) →
      acceptCodes (s.queue n q) d 0 = [] → dChain d = false →
      Answers (.descriptorAccept n q) s fun t => (t.queue n q).cc = (s.queue n q).cc + 1 ∧ (t.queue n q).fetched = r
        ∧ (t.queue n q).acceptedCount = ((s.queue n q).acceptedCount + 1) % 2 ^ 64
        ∧ ∃ a : ADesc, (t.queue n q).accepted = (s.queue n q).accepted ++ [a] ∧ a.desc = d ∧ a.ordinal = (s.queue n q).acceptedCount + 1 ∧ a.accepted = s.now
            ∧ a.state = .waiting ∧ a.fault = 0 ∧ a.idx = (s.queue n q).cc.toNat)
  ∧ (∀ n q d r c e s, s.power = true → s.canAccept n q = true → (s.queue n q).fetched = d :: r → (s.queue n q).accepted = [] → acceptCodes (s.queue n q) d 0 = c :: e →
      (∀ x ∈ c :: e, x ≠ 0) → dChain d = false → ((s.queue n q).cbaseLoc = 1 ∨ s.canDma n = true) → (s.client n).func.held = [] →
      Answers (.descriptorAccept n q) s fun t => (t.queue n q).accepted = [] ∧ (t.queue n q).ccount = (s.queue n q).ccount + 1 ∧ (t.queue n q).cc = (s.queue n q).cc + 1)
  ∧ (∀ n q tag (d : ADesc) k s, s.power = true → s.waiting? n q tag = some d → d.timer + 1000 * (s.client n).depTimeout ≤ s.now → k < 3 → s.depState n q d.desc k = .unseen →
      (s.client n).dbg.halted = false → ((s.queue n q).cbaseLoc = 1 ∨ s.canDma n = true) → (s.client n).func.held = [] →
      Answers (.depTimeout n q tag) s fun t => (t.queue n q).accepted = (s.queue n q).accepted.filter (fun x => !x.ofHead d.ordinal)
        ∧ (t.queue n q).ccount = (s.queue n q).ccount + 1)

/-- R209 to R211: ENABLE with sizes in range starts an empty queue; its end disables one with nothing accepted at once, and closes one with started work until that work ends; a TORN_DOWN queue becomes DISABLED. R224: RESUME makes a STOPPED queue RUNNING, which fetches again from CC; FLUSH also ends what waits with FLUSHED and moves CC on to PC. -/
def Obligations.queueControl : Prop :=
  (∀ n q cfg s, Live s → (s.queue n q).state = .disabled → 6 ≤ bits cfg.toNat 4 0 → bits cfg.toNat 4 0 ≤ 16 → 6 ≤ bits cfg.toNat 12 8 → bits cfg.toNat 12 8 ≤ 16 →
      Answers (.queueEnable n q cfg) s fun t => t.queue n q = { s.queue n q with
        log2 := bits cfg.toNat 4 0, clog2 := bits cfg.toNat 12 8, state := .running, closing := false, cc := 0, pc := 0, ccount := 0, skipped := 0, consumed := 0
        doorbells := [], fetched := [], fetchFail := none, pend := 0 })
  ∧ (∀ n q cfg s, Live s → ((s.queue n q).state = .running ∨ (s.queue n q).state = .stopped) → (s.queue n q).accepted = [] →
      Answers (.queueDisable n q cfg) s fun t => t.queue n q = { s.queue n q with state := .disabled, closing := false, fetched := [], fetchFail := none })
  ∧ (∀ n q cfg s, Live s → ((s.queue n q).state = .running ∨ (s.queue n q).state = .stopped) → (s.queue n q).accepted ≠ [] → (∀ a ∈ (s.queue n q).accepted, a.state ≠ .waiting) →
      Answers (.queueDisable n q cfg) s fun t => t.queue n q = { s.queue n q with closing := true, fetched := [], fetchFail := none })
  ∧ (∀ n q cfg s, Live s → (s.queue n q).state = .tornDown → exec (.queueDisable n q cfg) s = .next (s.modQueue n q fun x => { x with state := .disabled }))
  ∧ (∀ n cfg s, Live s → (s.client n).out.enable = false → 10 ≤ bits cfg.toNat 4 0 → bits cfg.toNat 4 0 ≤ 20 →
      exec (.outcomeRingEnable n cfg) s = .next { s with clients := tabMod {} s.clients n fun c => { c with out := { c.out with
        log2 := bits cfg.toNat 4 0, enable := true, count := 0, consumed := 0, pend := 0, reserved := 0, epoch := c.out.epoch + 1 } } })
  ∧ (∀ n s, Live s → exec (.outcomeRingDisable n) s = .next { s with
        clients := tabMod {} s.clients n fun c => { c with out := { c.out with enable := false, reserved := 0, pend := 0 }, lostSeqs := [] } })
  ∧ (∀ n q s, s.power = true → (s.queue n q).state = .stopped → exec (.resume n q) s = .next (s.modQueue n q fun x => { x with state := .running, fetched := [] }))
  ∧ (∀ n q s, s.power = true → (s.queue n q).state = .stopped → (∀ a ∈ (s.queue n q).accepted, a.state ≠ .waiting) →
      Answers (.flush n q) s fun t => t.queue n q = { s.queue n q with
        state := .running, skipped := (s.queue n q).skipped + ((s.queue n q).pc - (s.queue n q).cc), cc := (s.queue n q).pc, fetched := [], doorbells := [] })
  ∧ (∀ n q (d : ADesc) s, s.power = true → (s.queue n q).state = .stopped → (s.queue n q).accepted = [d] → d.state = .waiting → ((s.queue n q).cbaseLoc = 1 ∨ s.canDma n = true) → (s.client n).func.held = [] →
      Answers (.flush n q) s fun t => (t.queue n q).accepted = [] ∧ (t.queue n q).state = .running ∧ (t.queue n q).ccount = (s.queue n q).ccount + 1
        ∧ (t.queue n q).cc = (s.queue n q).pc)

/-- R368, R493: power-good begins a cold start: device time is 0, the state is FRAME_BOOT, the straps are sampled, POWER_CAP is the ceiling, and nothing is kept but the one-time programmable bits and fuses; its loss keeps no more. R357, R360 to R362: image A where it is valid, else image B, else FAILED with NO_IMAGE; Dk is switched on 50k ms after DOMAIN_UP began; a BIST round notes its failed tiles (whether a failed tile's router has failed too is free, log 69) and the fourth ends TILE_BIST; LEDGER_MERGE joins them to the newest slot's map. -/
def Obligations.coldStart : Prop :=
  (∀ x s, s.power = false → Answers (.powerGood x) s fun t =>
      t.power = true ∧ t.now = 0 ∧ t.frm.state = .frameBoot ∧ t.frm.waferId = x.waferId % 16 ∧ t.frm.lead = x.leadLow ∧ t.frm.serial = x.serial
      ∧ t.frm.ledger = s.frm.ledger ∧ t.pwr.fuses = s.pwr.fuses ∧ t.pwr.cap = s.pwr.ceiling ∧ t.pwr.wmPower.mark = s.pwr.ceiling
      ∧ t.clients = [] ∧ t.parts = [] ∧ t.tiles = [] ∧ t.units = [] ∧ t.north = [] ∧ t.south = [] ∧ t.hbm = [] ∧ t.ports = [] ∧ t.flt = {} ∧ t.pending = s.pending)
  ∧ (∀ x s, s.power = true → exec (.powerGood x) s = .next s)
  ∧ (∀ s, s.power = true → s.frm.ledgerOp = none → Answers .powerGoodLoss s fun t =>
      t.power = false ∧ t.frm.ledger = s.frm.ledger ∧ t.pwr.fuses = s.pwr.fuses ∧ t.clients = [] ∧ t.tiles = [] ∧ t.units = [] ∧ t.hbm = [] ∧ t.north = [] ∧ t.pending = s.pending)
  ∧ (∀ a b s, s.power = true → s.frm.state = .frameBoot → imageValid a = true → Answers (.frameBootDone a b) s fun t =>
      t.frm.state = .domainUp ∧ t.frm.stateTime = s.now ∧ t.frm.image = 0 ∧ t.frm.bootVersion = a.version ∧ t.frm.subsystem = a.subsystem ∧ t.frm.stack = a.cfg ∧ t.frm.aValid = true ∧ t.frm.bValid = imageValid b)
  ∧ (∀ a b s, s.power = true → s.frm.state = .frameBoot → imageValid a = false → imageValid b = true → Answers (.frameBootDone a b) s fun t =>
      t.frm.state = .domainUp ∧ t.frm.image = 1 ∧ t.frm.bootVersion = b.version ∧ t.frm.subsystem = b.subsystem ∧ t.frm.stack = b.cfg)
  ∧ (∀ a b s, s.power = true → s.frm.state = .frameBoot → imageValid a = false → imageValid b = false → Answers (.frameBootDone a b) s fun t => t.frm.state = .failed ∧ t.frm.reason = 1)
  ∧ (∀ d s, s.power = true → s.frm.state = .domainUp → d = s.frm.switched → d < 16 → s.frm.stateTime + 50000000 * d ≤ s.now → Answers (.domainSwitchOn d) s fun t =>
      t.frm = { s.frm with switched := d + 1 } ∧ (t.dom d).trans = some (.active, s.now) ∧ ∀ k, k ≠ d → t.dom k = s.dom k)
  ∧ (∀ r l s, s.power = true → s.frm.state = .tileBist → r = s.frm.rounds → r < 3 → (∀ pt ∈ l, pt < 8704 ∧ domOfStrip (pt / 17) / 4 = r) →
      Answers (.tileBistRoundDone r l) s fun t => t.frm = { s.frm with bistFailed := s.frm.bistFailed ++ l, rounds := r + 1, badRouters := t.frm.badRouters }
        ∧ (∀ pt ∈ t.frm.badRouters, pt ∈ s.frm.badRouters ∨ pt ∈ l) ∧ t = { s with frm := t.frm, freeCtr := s.freeCtr + l.length })
  ∧ (∀ l s, s.power = true → s.frm.state = .tileBist → s.frm.rounds = 3 → (∀ pt ∈ l, pt < 8704 ∧ domOfStrip (pt / 17) / 4 = 3) →
      Answers (.tileBistRoundDone 3 l) s fun t => t.frm = { s.frm with bistFailed := s.frm.bistFailed ++ l, rounds := 4, state := .ledgerMerge, stateTime := s.now, badRouters := t.frm.badRouters }
        ∧ (∀ pt ∈ t.frm.badRouters, pt ∈ s.frm.badRouters ∨ pt ∈ l) ∧ t = { s with frm := t.frm, freeCtr := s.freeCtr + l.length })
  ∧ (∀ k s, s.power = true → s.frm.state = .ledgerMerge → s.frm.newest = some k → Answers .ledgerMerge s fun t =>
      t.frm.state = .hbmTrain ∧ t.frm.rLanes = (slotMap (s.frm.slot k)).2.1 ∧ t.frm.rPch = (slotMap (s.frm.slot k)).2.2
      ∧ ∀ pt, pt < 8704 → t.frm.rTiles.getLsbD pt = ((slotMap (s.frm.slot k)).1.getLsbD pt || decide (pt ∈ s.frm.bistFailed)))
  ∧ (∀ s, s.power = true → s.frm.state = .ledgerMerge → s.frm.newest = none → s.frm.bistFailed = [] →
      exec .ledgerMerge s = .next { s with frm := { s.frm with rTiles := 0, rLanes := 0, rPch := 0, colmaps := [], state := .hbmTrain, stateTime := s.now } })

/-- R356, R363 to R367, R400: with every stack up the ports train; with every port up or down the stack forms; a wafer alone becomes READY with LIMIT fixed from TOP and GUARD; a state that lasts too long ends in FAILED. R369, R373, R488: FRM_RESET with its key through PF BAR0 asks for a warm reset with reason HOST; the reset, once no ledger commit or ceiling lowering runs, starts again at FRAME_BOOT and keeps device time, GUARD, the fault log and its counters, one-time programmable bits and fuses. -/
def Obligations.trainingAndResets : Prop :=
  (∀ s, s.power = true → s.frm.state = .hbmTrain → s.frm.rPch = 0 → Answers (.hbmTrainDone [] []) s fun t =>
      t.frm.state = .txTrain ∧ t.frm.hbmDown = [] ∧ t.frm.withdrawn = s.frm.withdrawn ∧ (∀ m, m < 24 → (t.ctl m).up = true) ∧ ∀ p, p < 8 → (t.port p).state = .detect)
  ∧ (∀ s, s.power = true → s.frm.state = .hbmTrain → Answers (.hbmTrainDone (upTo 24) []) s fun t => t.frm.state = .failed ∧ t.frm.reason = 3)
  ∧ (∀ s, s.power = true → s.frm.state = .txTrain → (∀ p, p < 8 → (s.port p).state = .down) → exec .txTrainDone s = .next { s with frm := { s.frm with state := .stackForm, stateTime := s.now } })
  ∧ (∀ p e s, s.power = true → s.frm.state = .txTrain → p < 8 → (s.port p).state = .active → (s.port p).farEp = some e → (∀ k, k < 8 → k ≠ p → (s.port k).state = .down) →
      Answers .txTrainDone s fun t => t.frm.state = .stackForm ∧ t.stk.requests = s.stk.requests ++ [(s.stk.nextTid, e, 0, some p)])
  ∧ (∀ s, s.power = true → s.frm.state = .stackForm → s.leadSeen = none → s.otherWafers = [] → Answers (.stackFormDone .formed) s fun t =>
      t.frm.state = .ready ∧ t.frm.stateTime = s.now ∧ t.frm.role = s.frm.role ∧ t.frm.leadId = s.frm.waferId ∧ t.frm.members = BitVec.twoPow 16 s.frm.waferId
      ∧ t.frm.hbmLimit = s.hbmTop - s.frm.guard * 0x30000000 ∧ t.now = s.now)
  ∧ (∀ s, s.power = true → s.frm.state = .stackForm → s.isLead = false → s.leadSeen = none → s.otherWafers ≠ [] → s.frm.stateTime + 10000000000 ≤ s.now →
      exec (.stackFormDone .noLead) s = .next { s with frm := { s.frm with state := .failed, reason := 4, stateTime := s.now } })
  ∧ (∀ m s, s.power = true → startupMax s.frm.state = some m → s.frm.stateTime + m < s.now →
      exec .startupTimeout s = .next { s with frm := { s.frm with state := .failed, reason := if s.frm.state = .domainUp then 2 else 6, stateTime := s.now } })
  ∧ (∀ p v s, s.power = true → s.frm.state ≠ .frameBoot → bits v.toNat 15 0 = 0x5752 → bit v.toNat 16 = true → s.frm.resetReq = none →
      exec (.frmReset (.pf p) v) s = .next { s with frm := { s.frm with resetReq := some 2 } })
  ∧ (∀ n v s, s.power = true → exec (.frmReset (.vf n) v) s = .next s ∧ exec (.frmReset .jtag v) s = .next s ∧ exec (.frmReset .lead v) s = .next s)
  ∧ (∀ r s, s.power = true → s.frm.resetReq = some r → s.frm.ledgerOp = none → s.pwr.lowering = none → Answers .warmReset s fun t =>
      t.frm.state = .frameBoot ∧ t.frm.afterWarm = true ∧ t.frm.resetReason = r ∧ t.frm.resetTime = s.now ∧ t.frm.warms = min 0xFFFF (s.frm.warms + 1) ∧ t.frm.resetReq = none
      ∧ t.frm.guard = s.frm.guard ∧ t.now = s.now ∧ t.flt.log = s.flt.log ∧ t.flt.head = s.flt.head ∧ t.flt.upsets = s.flt.upsets ∧ t.frm.ledger = s.frm.ledger ∧ t.pwr.fuses = s.pwr.fuses
      ∧ t.units = [] ∧ t.tiles = [] ∧ t.hbm = [] ∧ t.north = [] ∧ t.parts = [] ∧ t.numVfs = s.numVfs
      ∧ ∀ n, (t.client n).en = false ∧ (t.client n).func.msixTable = (s.client n).func.msixTable ∧ (t.client n).func.bme = (s.client n).func.bme)

/-- R412, R414: each training state ends in the next; lanes that fail leave the pass map and are retired; lanes in both pass maps carry the width, and below 16 of them the port goes down; the aligned port sends INIT. R414, R415, R428: a training state past its longest time, outside a recovery, takes the port down; a recovery that has lasted 1 ms becomes a full training, which keeps what the recovery keeps; a port down for 1 s tries again. -/
def Obligations.portTraining : Prop :=
  (∀ n l s, s.power = true → (s.port n).state = .detect → 16 ≤ (sortUp (l.filter (· < 68))).length →
      exec (.trainingDetectDone n l) s = .next (s.modPort n fun p => { p with state := .equalize, since := s.now }))
  ∧ (∀ n s, s.power = true → (s.port n).state = .equalize → exec (.trainingEqualizeDone n []) s = .next (s.modPort n fun p => { p with state := .fecLock, since := s.now }))
  ∧ (∀ n s, s.power = true → (s.port n).state = .fecLock → exec (.trainingFecLockDone n []) s = .next (s.modPort n fun p => { p with state := .laneTest, since := s.now }))
  ∧ (∀ n s, s.power = true → (s.port n).state = .laneTest → (s.port n).since + 100000000 ≤ s.now →
      exec (.trainingLaneTestDone n []) s = .next (s.modPort n fun p => { p with state := .laneMap, since := s.now }))
  ∧ (∀ n l s, s.power = true → n < 8 → l < 68 → (s.port n).state = .equalize → Answers (.trainingEqualizeDone n [l]) s fun t =>
      (t.port n).state = .fecLock ∧ (t.port n).pass.getLsbD l = false ∧ t.isRetired 1 (68 * n + l) = true)
  ∧ (∀ n l s, s.power = true → n < 8 → l < 68 → (s.port n).state = .fecLock → Answers (.trainingFecLockDone n [l]) s fun t =>
      (t.port n).state = .laneTest ∧ (t.port n).pass.getLsbD l = false ∧ t.isRetired 1 (68 * n + l) = true)
  ∧ (∀ n s, s.power = true → n < 8 → (s.port n).state = .laneMap → (∀ l, l < 68 → s.isRetired 1 (68 * n + l) = false ∧ s.probeOf 1 (68 * n + l) = none) → (s.port n).pass = BitVec.allOnes 68 →
      Answers (.trainingLaneMapDone n (BitVec.allOnes 68)) s fun t => (t.port n).state = .deskew ∧ (t.port n).width = 64)
  ∧ (∀ n s, s.power = true → n < 8 → (s.port n).state = .laneMap → Answers (.trainingLaneMapDone n 0) s fun t => (t.port n).state = .down ∧ (t.port n).width = 0 ∧ (t.port n).lastTry = s.now)
  ∧ (∀ n s, s.power = true → (s.port n).state = .deskew → exec (.trainingDeskewDone n) s = .next { (s.modPort n fun p => { p with state := .init, since := s.now, lastInit := s.now }) with
      out := .flit n (flitBits (initOf s.frm.waferId n (s.port n))) :: s.out })
  ∧ (∀ n s, s.power = true → trainMax (s.port n).state ≠ 0 → (s.port n).recSince = none → (s.port n).since + trainMax (s.port n).state < s.now →
      Answers (.trainingTimeout n) s fun t => (t.port n).state = .down ∧ (t.port n).width = 0 ∧ (t.port n).lastTry = s.now ∧ (t.port n).held = [])
  ∧ (∀ n t0 s, s.power = true → (s.port n).recSince = some t0 → t0 + 1000000 ≤ s.now → exec (.recoveryTimeout n) s = .next (s.modPort n fun p => { p with
      state := .detect, since := s.now, pass := BitVec.allOnes 68, trainings := p.trainings + 1, width := 0, recSince := none, peerGood := false, peerSeenUs := false }))
  ∧ (∀ n s, Live s → (s.port n).state = .down → (s.port n).enable = true → (s.port n).lastTry + 1000000000 ≤ s.now → exec (.downPortRetry n) s = .next (s.modPort n fun p => { p with
      state := .detect, since := s.now, pass := BitVec.allOnes 68, trainings := p.trainings + 1, width := 0, recSince := none, peerGood := false, peerSeenUs := false }))

/-- R300, R420 to R424, R426: what a port does with a flit it receives. An INIT flit's advertisement is taken, and where the far end has seen ours the port is ACTIVE; an IDLE flit's credits are taken; a DATA or CTRL flit in sequence is accepted and the next expected; a failed check counts, is charged to the lane with the most corrected symbols of its codewords, if any, and for a sequenced flit opens a NAK episode. R420, R421, R424, R425: what a port sends in a flit slot: the next flit of a replay, else a waiting CTRL or DATA flit with a credit, which it holds until it is acknowledged, else IDLE; INIT again each µs in INIT; a NAK again each µs of an episode; and a replay once its oldest flit has waited ACK_TIMEOUT. -/
def Obligations.flits : Prop :=
  (∀ n v f s, s.power = true → (s.port n).state = .init → flitOf v = (f, true, true) → initGood (f, true, true) = true → bit (leVal (f.payload.take 4) % 2 ^ 32) 25 = false →
      exec (.initFlit n v) s = .next (s.modPort n fun p => { p with
        peer := BitVec.ofNat 32 (leVal (f.payload.take 4)), peerCred := (upTo 4).map fun v => leVal ((f.payload.drop (4 + 2 * v)).take 2)
        peerNext := leVal ((f.payload.drop 12).take 2) % 4096, peerGood := true, peerSeenUs := false
        farEp := some (bits (leVal (f.payload.take 4) % 2 ^ 32) 15 8) }))
  ∧ (∀ n v f s, s.power = true → (s.port n).state = .init → (s.port n).resetting = false → s.stk.unsent = [] → flitOf v = (f, true, true) → initGood (f, true, true) = true →
      bit (leVal (f.payload.take 4) % 2 ^ 32) 25 = true → bit (leVal (f.payload.take 4) % 2 ^ 32) 24 = false →
      Answers (.initFlit n v) s fun t => (t.port n).state = .active ∧ (t.port n).since = s.now ∧ (t.port n).recSince = none ∧ (t.port n).sendSeq = (s.port n).sendSeq)
  ∧ (∀ n v s, s.power = true → (s.port n).state = .init → (flitOf v).2.1 = false → exec (.initFlit n v) s = .next (s.modPort n fun p => { p with crcFail := p.crcFail + 1 }))
  ∧ (∀ n v f s, s.power = true → (s.port n).state = .active → flitOf v = (f, true, true) → f.kind = 0 → f.len = 0 → f.nak = false → (s.port n).held = [] → (s.port n).retireWait = none →
      exec (.idleFlit n ⟨v, []⟩) s = .next (s.modPort n fun p => { p with
        sent := (upTo 4).map fun v => nth p.sent v - (nth f.cred v + 4096 - nth p.farFreed v) % 4096, farFreed := f.cred }))
  ∧ (∀ n v l k c s, s.power = true → n < 8 → l < 68 → 0 < k → (s.port n).state = .active → (flitOf v).2.1 = false → Steady s 1 (68 * n + l) →
      Answers (.idleFlit n ⟨v, [{ lane := l, codewords := c, symbols := k }]⟩) s fun t => (t.port n).crcFail = (s.port n).crcFail + 1 ∧ (t.port n).unattr = (s.port n).unattr
        ∧ ((t.port n).lane l).corrSym = ((s.port n).lane l).corrSym + BitVec.ofNat 64 k ∧ ((t.port n).lane l).corrCw = ((s.port n).lane l).corrCw + BitVec.ofNat 64 c ∧ ((t.port n).lane l).crcCharged = ((s.port n).lane l).crcCharged + 1
        ∧ t.flt.log = (upsetFlt s 0x09 1 (68 * n + l) none).log ∧ t.flt.upsets = s.flt.upsets + 1)
  ∧ (∀ n v s, s.power = true → (s.port n).state = .active → (flitOf v).2.1 = false →
      exec (.idleFlit n ⟨v, []⟩) s = .next (s.modPort n fun p => { p with crcFail := p.crcFail + 1, unattr := p.unattr + 1 }))
  ∧ (∀ n v s, s.power = true → (s.port n).state = .active → (flitOf v).2.1 = false → (s.port n).episode = false →
      exec (.dataFlit n ⟨v, []⟩) s = .next (s.modPort n fun p => { p with crcFail := p.crcFail + 1, unattr := p.unattr + 1, episode := true, nak := true, nakAt := s.now })
      ∧ exec (.ctrlFlit n ⟨v, []⟩) s = exec (.dataFlit n ⟨v, []⟩) s)
  ∧ (∀ n v f s, s.power = true → (s.port n).state = .active → flitOf v = (f, true, true) → f.kind = 1 → 1 ≤ f.len → f.len ≤ 240 → f.vc < 4 → f.seq = (s.port n).expect → f.nak = false →
      (s.port n).held = [] → (s.port n).retireWait = none → (s.port n).rx = [none, none, none, none] → f.sot = true → f.eot = false →
      Answers (.dataFlit n ⟨v, []⟩) s fun t => (t.port n).expect = ((s.port n).expect + 1) % 4096 ∧ (t.port n).nak = false ∧ (t.port n).episode = false
        ∧ (t.port n).rx.getD f.vc none = some f.payload ∧ t.inbox = s.inbox)
  ∧ (∀ n v f l s, s.power = true → n < 8 → l < 68 → (s.port n).state = .active → flitOf v = (f, true, true) → f.kind = 2 → 1 ≤ f.len → f.len ≤ 240 → f.seq = (s.port n).expect → f.nak = false →
      (s.port n).held = [] → (s.port n).retireWait = none → f.payload = [0x10, BitVec.ofNat 8 l] → s.isRetired 1 (68 * n + l) = false → s.probeOf 1 (68 * n + l) = none →
      Answers (.ctrlFlit n ⟨v, []⟩) s fun t => (t.port n).expect = ((s.port n).expect + 1) % 4096 ∧ ((t.port n).lane l).state = .retired ∧ t.isRetired 1 (68 * n + l) = true)
  ∧ (∀ n s, s.power = true → (s.port n).state = .active → (s.port n).replay = none → (s.port n).held.length < 512 → (s.port n).ctrlQ = [] → (s.port n).nextVc = none → (s.port n).nak = false →
      exec (.flitSend n) s = .next { s with out := .flit n (flitBits ((s.port n).stamp { seq := ((s.port n).sendSeq + 4095) % 4096 })) :: s.out })
  ∧ (∀ n v c r s, s.power = true → (s.port n).state = .active → (s.port n).replay = none → (s.port n).held.length < 512 → (s.port n).ctrlQ = [] → (s.port n).nextVc = some v → v < 4 →
      (s.port n).vcQ.getD v [] = c :: r → (s.port n).vcQ.length = 4 → (s.port n).sent.length = 4 →
      Answers (.flitSend n) s fun t =>
        t.out = .flit n (flitBits ((s.port n).stamp { seq := (s.port n).sendSeq, vc := v, kind := 1, len := c.len, sot := c.sot, eot := c.eot, payload := c.payload })) :: s.out
        ∧ (t.port n).sendSeq = ((s.port n).sendSeq + 1) % 4096 ∧ (t.port n).vcQ.getD v [] = r ∧ nth (t.port n).sent v = nth (s.port n).sent v + 1
        ∧ (t.port n).held = (s.port n).held ++ [{ seq := (s.port n).sendSeq, vc := v, kind := 1, len := c.len, sot := c.sot, eot := c.eot, payload := c.payload, sentAt := s.now }])
  ∧ (∀ n (h : Held) r s, s.power = true → (s.port n).state = .active → (s.port n).held = h :: r → (s.port n).replay = some h.seq → (∀ x ∈ r, x.seq ≠ h.seq) →
      Answers (.flitSend n) s fun t => t.out = .flit n (flitBits ((s.port n).stamp h.flit)) :: s.out ∧ (t.port n).replay = r.head?.map Held.seq
        ∧ (t.port n).held = { h with sentAt := s.now } :: r ∧ (t.port n).replayFlits = (s.port n).replayFlits + 1)
  ∧ (∀ n s, s.power = true → (s.port n).state = .init → (s.port n).lastInit + 1000 ≤ s.now →
      exec (.initResend n) s = .next { (s.modPort n fun p => { p with lastInit := s.now }) with out := .flit n (flitBits (initOf s.frm.waferId n (s.port n))) :: s.out })
  ∧ (∀ n s, s.power = true → (s.port n).episode = true → (s.port n).nak = false → (s.port n).nakAt + 1000 ≤ s.now →
      exec (.nakRepeat n) s = .next (s.modPort n fun p => { p with nak := true, nakAt := s.now }))
  ∧ (∀ n (h : Held) r s, s.power = true → (s.port n).state = .active → (s.port n).held = h :: r → (s.port n).replay = none → h.sentAt + (s.port n).ackTimeout ≤ s.now →
      (s.port n).replayOf ≠ h.seq → (s.port n).replayLimit ≠ 0 →
      exec (.ackTimeout n) s = .next (s.modPort n fun p => { p with replay := some h.seq, replayOf := h.seq, replays := 1, replayCount := p.replayCount + 1 }))
  ∧ (∀ n (h : Held) r s, s.power = true → (s.port n).state = .active → (s.port n).held = h :: r → (s.port n).replay = none → h.sentAt + (s.port n).ackTimeout ≤ s.now →
      (s.port n).replayOf = h.seq → (s.port n).replayLimit ≤ (s.port n).replays →
      Answers (.ackTimeout n) s fun t => (t.port n).state = .recovery ∧ (t.port n).recSince = some s.now ∧ (t.port n).held = (s.port n).held)

/-- R415, R426 to R428: an uncorrectable codeword or a lost FEC lock is an upset of its lane, and where the lane is active discards a flit or starts a recovery; LANE_RETIRE has its recovery 2 µs later; RESET starts the port over, RETRAIN starts a recovery, ENABLE = 0 holds the port down. -/
def Obligations.portControl : Prop :=
  (∀ n l s, s.power = true → n < 8 → l < 68 → (s.port n).state ≠ .active → Steady s 1 (68 * n + l) →
      exec (.uncorrectableCodeword n l) s = .next { s with
        ports := tabMod {} s.ports n fun p => { p with lanes := tabMod {} p.lanes l fun x => { x with uncorr := x.uncorr + 1 } }
        flt := upsetFlt s 0x09 1 (68 * n + l) none })
  ∧ (∀ n l s, s.power = true → n < 8 → l < 68 → (s.port n).state = .active → ((s.port n).lane l).state = .active → (s.port n).episode = false → Steady s 1 (68 * n + l) →
      exec (.uncorrectableCodeword n l) s = .next { s with
        ports := tabMod {} s.ports n fun p => { p with
          lanes := tabMod {} p.lanes l fun x => { x with uncorr := x.uncorr + 1 }, episode := true, nak := true, nakAt := s.now }
        flt := upsetFlt s 0x09 1 (68 * n + l) none })
  ∧ (∀ n l s, s.power = true → n < 8 → l < 68 → ((s.port n).lane l).state ≠ .active → Steady s 1 (68 * n + l) →
      exec (.fecLockLoss n l) s = .next { s with flt := upsetFlt s 0x09 1 (68 * n + l) none })
  ∧ (∀ n l s, s.power = true → n < 8 → l < 68 → (s.port n).state = .active → ((s.port n).lane l).state = .active → Steady s 1 (68 * n + l) →
      Answers (.fecLockLoss n l) s fun t => t.flt = upsetFlt s 0x09 1 (68 * n + l) none ∧ (t.port n).state = .recovery ∧ (t.port n).recSince = some s.now
        ∧ (t.port n).recoveries = (s.port n).recoveries + 1 ∧ (t.port n).held = (s.port n).held)
  ∧ (∀ n q t0 s, s.power = true → (s.port n).retireWait = some (q, t0) → t0 + 2000 ≤ s.now → (s.port n).needsRecovery = false →
      exec (.laneRetireWaitExpiry n) s = .next (s.modPort n fun p => { p with retireWait := none }))
  ∧ (∀ n q t0 s, s.power = true → (s.port n).state = .active → (s.port n).retireWait = some (q, t0) → t0 + 2000 ≤ s.now → (s.port n).needsRecovery = true →
      Answers (.laneRetireWaitExpiry n) s fun t => (t.port n).state = .recovery ∧ (t.port n).retireWait = none ∧ (t.port n).held = (s.port n).held)
  ∧ (∀ n s, Live s → n < 8 → (s.port n).enable = true → (∀ r ∈ s.stk.requests, r.2.2.2 ≠ some n) → Answers (.txlReset n) s fun t =>
      (t.port n).state = .detect ∧ (t.port n).resetting = true ∧ (t.port n).held = [] ∧ (t.port n).sendSeq = 0 ∧ (t.port n).expect = 0 ∧ (t.port n).sent = [0, 0, 0, 0]
      ∧ (t.port n).trainings = (s.port n).trainings + 1 ∧ (∀ k, k ≠ n → t.port k = s.port k) ∧ t.units = s.units)
  ∧ (∀ n s, Live s → n < 8 → (s.port n).state = .active → exec (.txlRetrain n) s = .next (s.modPort n fun p => { p with
      state := .recovery, since := s.now, recSince := some s.now, keeping := true, recoveries := p.recoveries + 1, retireWait := none, peerGood := false, peerSeenUs := false }))
  ∧ (∀ n s, Live s → n < 8 → (s.port n).enable = false → exec (.txlEnable n true) s = .next (s.modPort n fun p => { p with enable := true }))
  ∧ (∀ n s, Live s → n < 8 → (s.port n).enable = true → Answers (.txlEnable n false) s fun t =>
      (t.port n).enable = false ∧ (t.port n).state = .down ∧ (t.port n).width = 0 ∧ (t.port n).held = [] ∧ (t.port n).resetting = true)

/-- R433 to R435, R439: a remote read answers the bytes of HBM or of a vat, or is refused with status 1; one for another endpoint is passed on; its data reaches the long word that stalls for it, and a refusal ends the unit, or, once it has committed, leaves its record with ACCESS. R46, R202, R433 to R435: a remote write stores its bytes, in HBM or in a vat, and is acknowledged, or is refused with status 1; a posted one has no answer, and one that carries a fabric write of another wafer goes onto the mesh (its bytes are the model's, log 117); an acknowledgement takes a write off a unit's drain, and a refusal leaves its record with ACCESS. -/
def Obligations.remoteAccesses : Prop :=
  (∀ m a s, s.power = true → Here s m → m.typ = 1 → m.resp = false → s.target m = .hbm a → s.hbmWaits a m.len = false →
      exec (.rd m) s = .next ((s.takeIn m).send (transReply m 0 (s.hbmRead a m.len))))
  ∧ (∀ m a o s, s.power = true → Here s m → m.typ = 1 → m.resp = false → s.target m = .vat a o → (s.partOfTile a).any s.flipWaits = false →
      exec (.rd m) s = .next ((s.takeIn m).send (transReply m 0 (memRead (s.tile a).vat o m.len))))
  ∧ (∀ m s, s.power = true → Here s m → m.typ = 1 → m.resp = false → s.target m = .refused → exec (.rd m) s = .next ((s.takeIn m).send (transReply m 1 [])))
  ∧ (∀ m p s, s.power = true → s.firstIn m = true → m.dst ≠ s.frm.waferId → m.typ = 1 → m.resp = false → s.route m.dst = some p → exec (.rd m) s = .next ((s.takeIn m).sendOn p m))
  ∧ (∀ m a k since (r : TileRun) u s, s.power = true → Here s m → m.typ = 1 → m.resp = true → m.status = 0 → Awaits s m u → (∀ x ∈ u.waitMerge, x.1 ≠ m.tid.toNat) → (∀ x ∈ u.waitRd, x.1 ≠ m.tid.toNat) → u.allTiles = [a] →
      (s.tile a).run = some r → r.unit = u.id → r.stall = some (.remote (.wafer m.tid.toNat) k none since) →
      Answers (.rdResponse m) s fun t => (t.tile a).run = some { r with stall := some (.remote (.wafer m.tid.toNat) k (some m.data) since) }
        ∧ t.stk.requests = s.stk.requests.filter (fun x => !(x.1 == m.tid.toNat && x.2.1 == m.src)))
  ∧ (∀ m u s, s.power = true → Here s m → m.typ = 1 → m.resp = true → m.status ≠ 0 → Awaits s m u → u.phase ≠ .committed → Answers (.rdResponse m) s fun t => t.unit? u.id = none)
  ∧ (∀ m u s, s.power = true → Here s m → m.typ = 1 → m.resp = true → m.status ≠ 0 → Awaits s m u → u.phase = .committed → exec (.rdResponse m) s = .next (((s.takeIn m).answered m).modUnit u.id fun v => { v with
      waitMerge := v.waitMerge.filter (fun y => y.1 != m.tid.toNat), status := 3, code := cACCESS }))
  ∧ (∀ m a s, s.power = true → Here s m → m.typ = 2 → m.resp = false → s.target m = .hbm a → s.hbmWaits a m.len = false →
      exec (.wr m) s = .next (((s.takeIn m).hbmWrite a m.data).send (transReply m 0 [])))
  ∧ (∀ m a o s, s.power = true → Here s m → m.typ = 2 → m.resp = false → s.target m = .vat a o → (s.partOfTile a).any s.flipWaits = false →
      exec (.wr m) s = .next (((s.takeIn m).modTile a fun x => { x with vat := memWrite x.vat o m.data }).send (transReply m 0 [])))
  ∧ (∀ m s, s.power = true → Here s m → m.typ = 2 → m.resp = false → s.target m = .refused → exec (.wr m) s = .next ((s.takeIn m).send (transReply m 1 [])))
  ∧ (∀ m u s, s.power = true → Here s m → m.typ = 2 → m.resp = true → Awaits s m u → exec (.wrResponse m) s = .next (((s.takeIn m).answered m).modUnit u.id fun v => { v with
      waitWr := v.waitWr.filter (· != m.tid.toNat), status := if m.status = 0 then v.status else 3, code := if m.status = 0 then v.code else cACCESS }))
  ∧ (∀ m a s, s.power = true → Here s m → m.typ = 3 → s.target m = .hbm a → isFabric m = false → s.hbmWaits a m.len = false → exec (.wrp m) s = .next ((s.takeIn m).hbmWrite a m.data))
  ∧ (∀ m s, s.power = true → Here s m → m.typ = 3 → s.target m = .refused → isFabric m = false → exec (.wrp m) s = .next (s.takeIn m))
  ∧ (∀ m u d s, s.power = true → Here s m → m.typ = 3 → s.target m = .refused → isFabric m = true → s.fabricUnit m = some u → u.first = 0 → u.tiles = [d] → leVal ((m.data.drop 12).take 4) = 0 → leVal ((m.data.drop 32).take 1) = 2 →
      exec (.wrp m) s = .next { s.takeIn m with fabric := (s.takeIn m).fabric ++ [{ src := d, dst := d, unit := u.id, acc := leVal ((m.data.drop 16).take 4), row := leVal ((m.data.drop 24).take 8), body := .result (leVal (((m.data.drop 32).drop 4).take 4)), sent := s.now }] })

/-- R436, R437, R448: a forwarded descriptor for a partition that this wafer lends becomes a unit here, a forwarded member is placed on a tile of it, and any other is refused; the end of forwarded work is awaited no more, and a failure ends the unit. -/
def Obligations.forwardedUnits : Prop :=
  (∀ m s, s.power = true → Here s m → m.typ = 4 → m.resp = false → s.lentPart m.src (leVal (((m.data.drop 64).drop 8).take 1) % 64) = none →
      exec (.descFwd m) s = .next ((s.takeIn m).send (transReply m 1 [])))
  ∧ (∀ m p a s, s.power = true → Here s m → m.typ = 4 → m.resp = false → s.lentPart m.src (leVal (((m.data.drop 64).drop 8).take 1) % 64) = some p → m.data.length = 96 →
      s.startCodes m.client [BitVec.ofNat 512 (leVal (m.data.take 64))] = [] → bit (leVal (((m.data.drop 64).drop 12).take 4)) 31 = true → s.tilesOf p = [a] →
      Answers (.descFwd m) s fun t => (t.tile a).queue = (s.tile a).queue ++ [s.nextUnit] ∧ t.nextUnit = s.nextUnit + 1
        ∧ ∃ u, t.units = s.units ++ [u] ∧ u.id = s.nextUnit ∧ u.phase = .placed ∧ u.tiles = [a] ∧ u.part = p ∧ u.home = some (m.src, m.tid.toNat) ∧ u.client = m.client
            ∧ u.entry = farEntry (leVal (((m.data.drop 64).drop 12).take 4) % 2 ^ 21))
  ∧ (∀ m p s, s.power = true → Here s m → m.typ = 4 → m.resp = false → s.lentPart m.src (leVal (((m.data.drop 64).drop 8).take 1) % 64) = some p → m.data.length = 96 →
      s.startCodes m.client [BitVec.ofNat 512 (leVal (m.data.take 64))] = [] → bit (leVal (((m.data.drop 64).drop 12).take 4)) 31 = false → (s.part p).rebuilding = true → s.unit? s.nextUnit = none →
      Answers (.descFwd m) s fun t => t.nextUnit = s.nextUnit + 1
        ∧ ∃ u, t.units = s.units ++ [u] ∧ u.id = s.nextUnit ∧ u.phase = .killed ∧ u.part = p ∧ u.tiles = s.tilesOf p ∧ u.home = some (m.src, m.tid.toNat) ∧ u.client = m.client)
  ∧ (∀ m u s, s.power = true → Here s m → m.typ = 4 → m.resp = true → Awaits s m u → (m.status = 0 ∨ u.phase = .committed ∨ u.phase = .killed) →
      exec (.descFwdResponse m) s = .next ((s.takeIn m).answered m))
  ∧ (∀ m u s, s.power = true → Here s m → m.typ = 4 → m.resp = true → Awaits s m u → m.status ≠ 0 → u.phase ≠ .committed → u.phase ≠ .killed →
      Answers (.descFwdResponse m) s fun t => t.unit? u.id = none)

/-- R94, R157, R436: at home, a wafer's READY, BARRIER and MERGE are noted on the unit they name; on a contributing wafer BARRIER_GO lets the tiles go on and MERGE_RESULT begins pass 2 with everything that R22 zeroes at 0. R436, R448: COMMIT names a unit that is not ready: it is noted until it is; KILL discards the unit and is acknowledged, as is a unit that is no longer here; an acknowledgement ends the wait for a flip. -/
def Obligations.memberSignals : Prop :=
  (∀ m u s, s.power = true → Here s m → isSync m 4 = true → s.homeUnit m (some (leVal ((m.data.drop 8).take 4))) = some u → (u.phase = .running ∨ u.phase = .ready ∨ u.phase = .saved) → m.src ∈ u.waitReady →
      exec (.lotSyncReady m) s = .next ((s.takeIn m).modUnit u.id fun v => { v with
        waitReady := v.waitReady.filter (· != m.src), flags := v.flags ||| BitVec.ofNat 8 (leVal ((m.data.drop 5).take 1))
        ranges := rangesJoin v.ranges ((upTo (leVal ((m.data.drop 6).take 2))).map fun i => rangeOf ((m.data.drop (16 + 32 * i)).take 32)) }))
  ∧ (∀ m u s, s.power = true → Here s m → isSync m 5 = true → s.homeUnit m none = some u → (u.phase = .running ∨ u.phase = .saved) → (m.src, leVal ((m.data.drop 4).take 1)) ∉ u.waitBarrier →
      exec (.lotSyncBarrier m) s = .next ((s.takeIn m).modUnit u.id fun v => { v with waitBarrier := (m.src, leVal ((m.data.drop 4).take 1)) :: v.waitBarrier }))
  ∧ (∀ m u a b c (r : TileRun) s, s.power = true → Here s m → isSync m 6 = true → s.awayUnit m none = some u → u.tiles = [a] → (s.tile a).run = some r → r.unit = u.id →
      r.stall = some (.barrier (leVal ((m.data.drop 4).take 1)) b c) → Answers (.barrierGo m) s fun t => ∃ r', (t.tile a).run = some r' ∧ r'.stall = none ∧ s.cycle a ≤ r'.nextCyc)
  ∧ (∀ m u s, s.power = true → Here s m → isSync m 7 = true → s.homeUnit m none = some u → u.phase = .running → (s.sideRuns u .main).all (fun x => x.2.pass == 2) = false →
      exec (.merge m) s = .next ((s.takeIn m).modUnit u.id fun v => { v with merges := (m.src, mergeList m) :: v.merges.filter fun x => x.1 != m.src }))
  ∧ (∀ m u a (r : TileRun) s, s.power = true → Here s m → isSync m 8 = true → s.awayUnit m none = some u → s.unit? u.id = some u → u.tiles = [a] → (s.tile a).run = some r → r.unit = u.id →
      r.ready = true → r.pass = 1 → Answers (.mergeResult m) s fun t => ∃ r', (t.tile a).run = some r' ∧ r'.pass = 2 ∧ r'.ready = false ∧ r'.vreg = [] ∧ r'.mask = [] ∧ r'.acc = []
        ∧ r'.x0 = 0 ∧ r'.x1 = 0 ∧ r'.x2 = 0 ∧ r'.x3 = 0 ∧ r'.streams = [] ∧ r'.rho = 0 ∧ r'.pos = 0)
  ∧ (∀ m s, s.power = true → Here s m → isSync m 9 = true → s.awayUnit m (some (leVal ((m.data.drop 8).take 4))) = none → exec (.lotSyncCommit m) s = .next ((s.takeIn m).send (transReply m 0 [])))
  ∧ (∀ m u s, s.power = true → Here s m → isSync m 9 = true → s.awayUnit m (some (leVal ((m.data.drop 8).take 4))) = some u → u.phase ≠ .committed → u.phase ≠ .ready →
      bit (leVal ((m.data.drop 4).take 1)) 0 = true → exec (.lotSyncCommit m) s = .next ((s.takeIn m).modUnit u.id fun v => { v with waitFlip := [m.tid.toNat] }))
  ∧ (∀ m u s, s.power = true → Here s m → isSync m 9 = true → s.awayUnit m (some (leVal ((m.data.drop 8).take 4))) = some u → u.phase ≠ .committed →
      bit (leVal ((m.data.drop 4).take 1)) 0 = false → Answers (.lotSyncCommit m) s fun t => t.unit? u.id = none
        ∧ ∀ a ∈ u.allTiles, ∀ w, ((t.tile a).win w).wetOf u.id = false)
  ∧ (∀ m u s, s.power = true → Here s m → m.typ = 7 → m.resp = true → bits m.arg.toNat 7 0 = 9 → Awaits s m u →
      exec (.lotSyncCommitResponse m) s = .next (((s.takeIn m).answered m).modUnit u.id fun v => { v with waitFlip := v.waitFlip.filter (· != m.src) }))

/-- R445, R447: the lead grants an ADMIT_REQ below the stack quota, counting it, and refuses others; while it rebuilds its counts the request waits; a wafer that is not the lead refuses; RELEASE lowers a count, COUNT replaces a wafer's counts, and a rebuild ends when every COUNT is there. R235, R236, R445: a waiting ADMIT commits when the lead grants it, and is refused with LEAD when the lead refuses it or does not answer within LEAD_LOSS_TIMEOUT + 20 ms; where a build of the context is in progress the answer is kept for the build's end. -/
def Obligations.stackAdmissions : Prop :=
  (∀ m n s, s.power = true → Here s m → isSync m 1 = true → s.frm.role = 1 → m.src < 16 → s.stk.rebuilding = none → leVal ((m.data.drop 4).take 1) % 128 = n →
      s.stackCount n < (s.client n).stackQuota →
      exec (.admitReq m) s = .next (((s.takeIn m).modStk fun k => { k with counts := tabMod 0 k.counts (128 * m.src + n) (· + 1) }).send (transReply m 0 [])))
  ∧ (∀ m n s, s.power = true → Here s m → isSync m 1 = true → s.frm.role = 1 → m.src < 16 → s.stk.rebuilding = none → leVal ((m.data.drop 4).take 1) % 128 = n →
      (s.client n).stackQuota ≤ s.stackCount n → exec (.admitReq m) s = .next ((s.takeIn m).send (transReply m 1 [])))
  ∧ (∀ m s, s.power = true → Here s m → isSync m 1 = true → s.frm.role = 1 → m.src < 16 → s.stk.rebuilding ≠ none →
      exec (.admitReq m) s = .next ((s.takeIn m).modStk fun k => { k with waitingReqs := k.waitingReqs ++ [m] }))
  ∧ (∀ m s, s.power = true → Here s m → isSync m 1 = true → (s.frm.role ≠ 1 ∨ 16 ≤ m.src) → exec (.admitReq m) s = .next ((s.takeIn m).send (transReply m 1 [])))
  ∧ (∀ m n s, s.power = true → Here s m → isSync m 2 = true → s.frm.role = 1 → m.src < 16 → leVal ((m.data.drop 4).take 1) % 128 = n →
      exec (.lotSyncRelease m) s = .next ((s.takeIn m).modStk fun k => { k with counts := tabMod 0 k.counts (128 * m.src + n) (· - 1) }))
  ∧ (∀ m s, s.power = true → Here s m → isSync m 3 = true → s.frm.role = 1 → m.src < 16 → Answers (.lotSyncCount m) s fun t =>
      (∀ n, n < 128 → tabGet 0 t.stk.counts (128 * m.src + n) = leVal ((m.data.drop (4 * n)).take 4)) ∧ (∀ k, k / 128 ≠ m.src → tabGet 0 t.stk.counts k = tabGet 0 s.stk.counts k)
        ∧ t.stk.rebuilding = s.stk.rebuilding.map fun x => (x.1.filter (· != m.src), x.2))
  ∧ (∀ t0 s, s.power = true → s.stk.rebuilding = some ([], t0) → s.stk.waitingReqs = [] → (∀ n, n < 128 → (s.client n).admits = []) →
      exec .countRebuildEnd s = .next { s with stk := { s.stk with rebuilding := none, waitingReqs := [] } })
  ∧ (∀ m (w : AdmitWait) d s, s.power = true → Here s m → m.typ = 7 → m.resp = true → bits m.arg.toNat 7 0 = 1 → m.status = 0 → s.awaited m = some 0 → (s.client m.client).admits = [w] → w.tid = m.tid.toNat → w.answer = none →
      s.admitDesc m.client w.q w.tag = some d → dTag d.desc = w.tag → s.refusal m.client d = 0 → (s.client m.client).build = none → s.recordsDone m.client w.q = true → (s.client m.client).dbg.stepDesc = none →
      Answers (.admitReqResponse m) s fun t => (t.client m.client).admits = [] ∧ (t.entry (seqIdOf d.desc % 2 ^ 17)).state = .admitted ∧ (t.entry (seqIdOf d.desc % 2 ^ 17)).client = m.client
        ∧ (t.entry (seqIdOf d.desc % 2 ^ 17)).period = seqArg d.desc ∧ (t.entry (seqIdOf d.desc % 2 ^ 17)).deadline = firstDeadline d)
  ∧ (∀ m (w : AdmitWait) d s, s.power = true → Here s m → m.typ = 7 → m.resp = true → bits m.arg.toNat 7 0 = 1 → m.status ≠ 0 → s.awaited m = some 0 → (s.client m.client).admits = [w] → w.tid = m.tid.toNat → w.answer = none →
      s.admitDesc m.client w.q w.tag = some d → dTag d.desc = w.tag → (s.client m.client).build = none → s.recordsDone m.client w.q = true →
      Answers (.admitReqResponse m) s fun t => (t.client m.client).admits = [] ∧ (t.client m.client).refuse = 7 + 256 * (seqIdOf d.desc % 2 ^ 17) ∧ t.north = s.north ∧ t.south = s.south)
  ∧ (∀ m (w : AdmitWait) s, s.power = true → Here s m → m.typ = 7 → m.resp = true → bits m.arg.toNat 7 0 = 1 → s.awaited m = some 0 → (s.client m.client).admits = [w] → w.tid = m.tid.toNat → w.answer = none → (s.client m.client).build ≠ none →
      exec (.admitReqResponse m) s = .next (((s.takeIn m).answered m).modClient m.client fun c => { c with admits := [{ w with answer := some (if m.status = 0 then 0 else 7) }] }))
  ∧ (∀ n (w : AdmitWait) d s, s.power = true → (s.client n).admits = [w] → w.answer = none → w.since + 1000 * s.frm.leadLoss + 20000000 ≤ s.now → s.admitDesc n w.q w.tag = some d → dTag d.desc = w.tag →
      (s.client n).build = none → s.recordsDone n w.q = true →
      Answers (.admitReqTimeout n w.q w.tag) s fun t => (t.client n).admits = [] ∧ (t.client n).refuse = 7 + 256 * (seqIdOf d.desc % 2 ^ 17) ∧ t.north = s.north ∧ t.south = s.south)

/-- R446: a follower that has heard no beacon for LEAD_LOSS_TIMEOUT has lost its lead and computes the deputy; a deputy that has not claimed by then again leaves the map and the next is computed. R441, R446, R447, R453: an ID is taken in and answered with this wafer's own; a CLAIM of the computed deputy is accepted, and the follower reports its counts; one of another wafer is ignored. -/
def Obligations.leadership : Prop :=
  (∀ w s, s.power = true → s.frm.role = 2 → s.stk.lost = false → s.stk.lastBeacon + 1000 * s.frm.leadLoss ≤ s.now → s.deputyOf = some w → w ≠ s.frm.waferId →
      exec .leadLossTimeout s = .next { s with frm := { s.frm with deputy := w }, stk := { s.stk with lost := true, claimSince := s.now } })
  ∧ (∀ s, s.power = true → s.frm.role = 2 → s.stk.lost = false → s.stk.lastBeacon + 1000 * s.frm.leadLoss ≤ s.now → s.deputyOf = some s.frm.waferId →
      s.mapWafers.length < 2 * (s.mapWafers.filter s.reach).length →
      Answers .leadLossTimeout s fun t => t.frm.role = 1 ∧ t.frm.leadId = s.frm.waferId ∧ t.stk.lost = false ∧ t.stk.beacons = 0 ∧ t.stk.counts = [] ∧ t.stk.rebuilding ≠ none)
  ∧ (∀ w s, s.power = true → s.frm.role = 2 → s.stk.lost = true → s.stk.claimSince + 1000 * s.frm.leadLoss ≤ s.now → s.frm.deputy ≠ s.frm.waferId → (s.leaveMap s.frm.deputy).deputyOf = some w →
      w ≠ s.frm.waferId → Answers .claimTimeout s fun t => t.frm.deputy = w ∧ t.frm.members = s.frm.members &&& ~~~(BitVec.twoPow 16 s.frm.deputy) ∧ t.frm.role = 2 ∧ t.stk.lost = true ∧ t.stk.claimSince = s.now)
  ∧ (∀ m s, s.power = true → Here s m → m.typ = 10 → m.resp = false → m.data.length = 64 → leVal (m.data.take 2) = 1 → (peerOf m.data).lead = false →
      (bit (leVal ((m.data.drop 8).take 1)) 0 = false ∨ s.frm.role ≠ 2 ∨ s.stk.lost = false ∨ m.src ≠ s.frm.deputy) →
      exec (.id m) s = .next (((s.takeIn m).modStk fun k => { k with peers := tabPut k.peers (leVal ((m.data.drop 3).take 1)) (peerOf m.data) }).send (transReply m 0 (s.identity false))))
  ∧ (∀ m s, s.power = true → Here s m → m.typ = 10 → m.resp = false → bit (leVal ((m.data.drop 8).take 1)) 0 = true → s.frm.role = 2 → s.stk.lost = true → m.src = s.frm.deputy →
      Answers (.id m) s fun t => t.frm.leadId = m.src ∧ t.stk.lost = false ∧ t.frm.role = 2 ∧ t.stk.lastBeacon = s.now ∧ t.frm.members = s.frm.members &&& ~~~(BitVec.twoPow 16 s.frm.leadId))
  ∧ (∀ m s, s.power = true → Here s m → m.typ = 10 → m.resp = true → s.awaited m ≠ none → m.data.length = 64 → leVal (m.data.take 2) = 1 → (peerOf m.data).lead = false →
      exec (.idResponse m) s = .next (((s.takeIn m).answered m).modStk fun k => { k with peers := tabPut k.peers (leVal ((m.data.drop 3).take 1)) (peerOf m.data) }))
  ∧ (∀ m s, s.power = true → Here s m → m.typ = 10 → m.resp = true → s.awaited m ≠ none → m.data.length = 64 → leVal (m.data.take 2) = 1 → (peerOf m.data).lead = true → (peerOf m.data).kindEp = 0 →
      s.leading = false → Answers (.idResponse m) s fun t => t.frm.stack.crc = (peerOf m.data).cfgCrc)

/-- R453: only the computed deputy may claim: another follower that loses its lead sends nothing and stays a follower; a CLAIM of any other wafer leaves a follower's lead, role and loss as they are. -/
def Obligations.claimOnlyByDeputy : Prop :=
  (∀ w s, s.power = true → s.frm.role = 2 → s.deputyOf = some w → w ≠ s.frm.waferId →
    Answers .leadLossTimeout s fun t => t.frm.role = 2 ∧ t.frm.leadId = s.frm.leadId ∧ t.ports = s.ports ∧ t.inbox = s.inbox)
  ∧ (∀ m s, s.power = true → s.frm.role = 2 → s.stk.lost = true → Here s m → m.typ = 10 → m.resp = false → bit (leVal ((m.data.drop 8).take 1)) 0 = true → m.src ≠ s.frm.deputy →
    Answers (.id m) s fun t => t.frm.leadId = s.frm.leadId ∧ t.frm.role = 2 ∧ t.stk.lost = true)

/-- R438, R442, R443: the lead's beacon every 100 µs carries its device time and its membership map; a follower takes in its lead's beacons, a wafer in STACK_FORM joins the first lead that it hears; a follower asks a neighbour nearer the lead, a request is answered with t2 and t3, and the reply gives the offset ((t2 − t1) + (t3 − t4)) / 2. That a division leaves no sign of a half (toward zero) and that an offset of at most 3 ns is not slewed are the model's (log 81). R462: the lead logs a forwarded notice as FORWARDED and signals it on vector 4; a follower sends its oldest unsent notice to its lead, and waits while the lead is lost. -/
def Obligations.stackTimeAndNotices : Prop :=
  (∀ s, s.power = true → s.leading = true → (s.stk.lastBeacon = 0 ∨ s.stk.lastBeacon + 100000 ≤ s.now) →
      Answers .leadBeaconSend s fun t => t.stk.lastBeacon = s.now ∧ t.stk.beacons = (s.stk.beacons + 1) % 2 ^ 32 ∧ t.frm.members = s.frm.members ||| s.memberMap)
  ∧ (∀ e p s, s.power = true → s.leading = true → (s.stk.lastBeacon = 0 ∨ s.stk.lastBeacon + 100000 ≤ s.now) → s.beaconTo = [e] → s.route e = some p →
      Answers .leadBeaconSend s fun t => (t.port p).vcQ.getD 3 [] = (s.port p).vcQ.getD 3 [] ++
        (if 3 < (s.port p).vcQ.length then transChunks { typ := 8, src := s.frm.waferId, dst := e, len := 16, arg := BitVec.ofNat 64 s.now, data := (leBytes (s.frm.members ||| s.memberMap).toNat 2) ++ leBytes s.frm.waferId 1 ++ leBytes 0 1 ++ leBytes ((s.stk.beacons + 1) % 2 ^ 32) 4 ++ leBytes 0 8 } else []))
  ∧ (∀ m s, s.power = true → Here s m → m.typ = 8 → m.resp = false → m.len = 16 → m.src < 16 → s.frm.role = 2 → m.src = s.frm.leadId →
      Answers (.timeBeaconReceive m) s fun t => t.frm.members = BitVec.ofNat 16 (leVal (m.data.take 2)) ∧ t.frm.leadId = m.src ∧ t.stk.lastBeacon = s.now ∧ t.stk.lost = false
        ∧ t.stk.leadTime = some (m.arg.toNat, s.now) ∧ t.now = s.now)
  ∧ (∀ m s, s.power = true → Here s m → m.typ = 8 → m.resp = false → m.len = 16 → m.src < 16 → s.frm.state = .stackForm → s.frm.role = 0 → s.stk.leadTime = none →
      Answers (.timeBeaconReceive m) s fun t => t.frm.leadId = m.src ∧ t.stk.leadTime = some (m.arg.toNat, s.now) ∧ (s.stk.nextTid, m.src, 0) ∈ t.stk.requests.map fun r => (r.1, r.2.1, r.2.2.1))
  ∧ (∀ e p s, s.power = true → s.frm.role = 2 → s.stk.lastSync + 100000 ≤ s.now → s.nearer = some e → s.route e = some p →
      exec .timeSyncSend s = .next (((s.modStk fun k => { k with nextTid := (k.nextTid + 1) % 2 ^ 32, requests := k.requests ++ [(k.nextTid, e, 0, some p)], lastSync := s.now, syncT1 := some s.now }).sendOn p
        { typ := 8, src := s.frm.waferId, dst := e, tid := BitVec.ofNat 32 s.stk.nextTid, arg := BitVec.ofNat 64 s.now })))
  ∧ (∀ m s, s.power = true → Here s m → m.typ = 8 → m.resp = false → m.len = 0 → m.src < 16 →
      exec (.timeSyncRequest m) s = .next ((s.takeIn m).send (transReply m 0 (leBytes s.now 8 ++ leBytes s.now 8))))
  ∧ (∀ m s, s.power = true → Here s m → m.typ = 8 → m.resp = true → m.status = 0 → s.awaited m ≠ none → s.stk.syncT1 = some m.arg.toNat →
      Answers (.timeSyncReply m) s fun t => t.now = s.now
        ∧ t.frm.timeOffset = ((leVal (m.data.take 8) - m.arg.toNat : Int) + (leVal ((m.data.drop 8).take 8) - s.now : Int)).tdiv 2
        ∧ t.stk.slew = (if t.frm.timeOffset.natAbs ≤ 3 then 0 else t.frm.timeOffset) ∧ t.stk.syncT1 = none)
  ∧ (∀ m s, s.power = true → Here s m → m.typ = 9 → m.resp = false → s.frm.role ≠ 2 → s.ntc.route = 0 →
      exec (.notice m) s = .next { s.takeIn m with ntc := { s.ntc with
        log := tabPut s.ntc.log (s.ntc.head.toNat % 64) { time := leVal ((m.data.drop 0).take 8), code := m.arg.toNat % 256, wafer := leVal ((m.data.drop 9).take 1) % 16, forwarded := true, index := leVal ((m.data.drop 10).take 2), value := leVal ((m.data.drop 12).take 4) }, head := s.ntc.head + 1 } })
  ∧ (∀ m s, s.power = true → Here s m → m.typ = 9 → m.resp = false → s.frm.role ≠ 2 → s.ntc.route = 1 → 4 ∉ (s.client 0).func.masked → (s.client 0).func.funcMask = false → s.canDma 0 = true →
      Answers (.notice m) s fun t => t.ntc.head = s.ntc.head + 1 ∧ t.out = .msix 0 4 :: s.out)
  ∧ (∀ e r s, s.power = true → s.ntc.toForward = e :: r → s.frm.role = 2 → s.stk.lost = false →
      exec .noticeForward s = .next ({ s with ntc := { s.ntc with toForward := r } }.send { typ := 9, dst := s.frm.leadId, len := 16, arg := BitVec.ofNat 64 e.code, data := e.bytes }))
  ∧ (∀ s, s.power = true → s.stk.lost = true → exec .noticeForward s = .next s)

/-- R193, R449, R451: a HANDOFF starts, reads its operands and is sent under a fresh TID; a stage of a chain hands off once its tiles have reached it; a HANDOFF that waited for room is sent when there is room, one that was answered BUSY 10 µs later; a format that the partner lacks ends the unit. R449 to R452, R468: an answer OK of the right size is written and the unit of a HANDOFF descriptor is ready; one of another size and every refusal ends the unit; BUSY is noted with its time; a halted client's answer is held; an answer that no HANDOFF waits for is discarded. -/
def Obligations.handoffs : Prop :=
  (∀ n q tag d p s, CanStart s n q tag kHANDOFF d → s.roomForUnit n = true → s.unit? s.nextUnit = none → Fits s (unitOf s n q d) → (unitOf s n q d).others = [] →
      ((unitOf s n q d).stageAt 0).handles.all (fun o => match o with | some h => (h.cls != 2 && h.cls != 3) || h.wafer == s.frm.waferId | none => true) = true → s.fmtsOk (unitOf s n q d) 0 = true → s.handoffsTo (handoffPartner d.desc) < s.maxOut (handoffPartner d.desc) →
      s.route (handoffPartner d.desc) = some p →
      Answers (.handoff (.descriptor n q tag)) s fun t => ∃ u, t.unit? s.nextUnit = some u ∧ u.phase = .running ∧ u.client = n ∧ u.tag = dTag d.desc
        ∧ u.handoff = some { partner := handoffPartner d.desc, tid := s.stk.nextTid, firstSend := s.now, outstanding := true } ∧ t.stk.nextTid = (s.stk.nextTid + 1) % 2 ^ 32)
  ∧ (∀ uid u k s, s.power = true → s.unit? uid = some u → u.kind = kLOT → s.handoffStage u = k → dKind (u.stageAt k).desc = kHANDOFF → u.phase = .running → s.atStage u k = true →
      u.handoff.any (fun h => h.stage == k) = false → (s.sideRuns u .main).any (fun x => x.2.stopped) = false → s.fmtsOk u k = true →
      Answers (.handoff (.stage uid)) s fun t => ∃ v h, t.unit? uid = some v ∧ v.phase = .running ∧ v.handoff = some h ∧ h.stage = k ∧ h.partner = handoffPartner (u.stageAt k).desc ∧ h.answered = false)
  ∧ (∀ uid u h p s, s.power = true → s.unit? uid = some u → u.handoff = some h → h.outstanding = false → h.answered = false → h.busyAt = none → u.waitRd = [] → u.phase = .running →
      ((s.client u.client).dbg.halted = false ∨ (s.client u.client).dbg.stepping = true) → s.fmtsOk u h.stage = true → s.handoffsTo h.partner < s.maxOut h.partner → s.route h.partner = some p →
      Answers (.handoffQueuedSend uid) s fun t => ∃ v, t.unit? uid = some v ∧ t.stk.nextTid = (s.stk.nextTid + 1) % 2 ^ 32
        ∧ v.handoff = some { h with tid := s.stk.nextTid, outstanding := true, firstSend := if h.firstSend = 0 then s.now else h.firstSend })
  ∧ (∀ uid u h b s, s.power = true → s.unit? uid = some u → u.handoff = some h → h.outstanding = false → h.answered = false → h.busyAt = some b → b + 10000 ≤ s.now → u.waitRd = [] → u.phase = .running →
      ((s.client u.client).dbg.halted = false ∨ (s.client u.client).dbg.stepping = true) → s.fmtsOk u h.stage = true → s.handoffsTo h.partner < s.maxOut h.partner →
      Answers (.busyResend uid) s fun t => ∃ v h', t.unit? uid = some v ∧ v.handoff = some h' ∧ h'.busyAt = none ∧ h'.outstanding = true ∧ h'.tid = s.stk.nextTid)
  ∧ (∀ uid u h s, s.power = true → s.unit? uid = some u → u.handoff = some h → h.outstanding = false → h.answered = false → h.busyAt = none → u.waitRd = [] → u.phase = .running →
      (s.client u.client).dbg.halted = false → s.fmtsOk u h.stage = false → Answers (.handoffQueuedSend uid) s fun t => Ended s t u)
  ∧ (∀ m u h s, s.power = true → Here s m → m.typ = 6 → s.handedTo m = some (u, h) → s.unit? u.id = some u → ((s.client u.client).dbg.halted = false ∨ (s.client u.client).dbg.stepping = true) →
      m.status = 0 → u.kind = kHANDOFF → m.data.length = (match (u.stageAt h.stage).handles.getD 3 none with | some d => d.bytes | none => 0) →
      Answers (.handback m) s fun t => ∃ v, t.unit? u.id = some v ∧ v.phase = .ready ∧ v.handoff = some { h with outstanding := false, answered := true, held := none })
  ∧ (∀ m u h s, s.power = true → Here s m → m.typ = 6 → s.handedTo m = some (u, h) → s.unit? u.id = some u → ((s.client u.client).dbg.halted = false ∨ (s.client u.client).dbg.stepping = true) →
      m.status ≠ 2 → (m.status = 0 → m.data.length ≠ (match (u.stageAt h.stage).handles.getD 3 none with | some d => d.bytes | none => 0)) → Answers (.handback m) s fun t => Ended s t u)
  ∧ (∀ m u h s, s.power = true → Here s m → m.typ = 6 → s.handedTo m = some (u, h) → ((s.client u.client).dbg.halted = false ∨ (s.client u.client).dbg.stepping = true) → m.status = 2 →
      exec (.handback m) s = .next (((s.takeIn m).answered m).modUnit u.id fun v => { v with handoff := some { h with outstanding := false, busyAt := some s.now, held := none } }))
  ∧ (∀ m u h s, s.power = true → Here s m → m.typ = 6 → s.handedTo m = some (u, h) → (s.client u.client).dbg.halted = true → (s.client u.client).dbg.stepping = false →
      exec (.handback m) s = .next (((s.takeIn m).answered m).modUnit u.id fun v => { v with handoff := some { h with held := some m } }))
  ∧ (∀ m s, s.power = true → Here s m → m.typ = 6 → s.handedTo m = none → exec (.handback m) s = .next ((s.takeIn m).answered m))
  ∧ (∀ uid u h s, s.power = true → s.unit? uid = some u → u.handoff = some h → h.answered = false → h.firstSend ≠ 0 → h.held = none → (s.client u.client).dbg.halted = false →
      h.firstSend + s.handoffLimit h.partner ≤ s.now → Answers (.handoffTimeout uid) s fun t => Ended s t u)
  ∧ (∀ uid u a m s, s.power = true → s.unit? uid = some u → u.phase ≠ .committed → (a, uid, m) ∈ s.stk.unsent → a + 1000000 * s.frm.routeTimeout ≤ s.now → s.route m.dst = none →
      Answers (.routeTimeout uid) s fun t => Ended s t u)

/-- R449, R450: a HANDOFF for an enabled stage slot whose template takes its operands becomes a unit that waits for its tiles and will answer; a disabled slot answers BAD_POP, operands that do not fit the template BAD_OPERAND, and a request of a partner is refused. -/
def Obligations.handoffsReceived : Prop :=
  (∀ m s, s.power = true → Here s m → m.typ = 5 → 16 ≤ m.src →
      exec (.handoffTransaction m) s = .next ((s.takeIn m).send { typ := 6, dst := m.src, tid := m.tid, client := m.client, status := 1 }))
  ∧ (∀ m s, s.power = true → Here s m → m.typ = 5 → m.src < 16 → (s.stageSlot (bits m.addr.toNat 5 0)).en = false →
      exec (.handoffTransaction m) s = .next ((s.takeIn m).send { typ := 6, dst := m.src, tid := m.tid, client := m.client, status := 3 }))
  ∧ (∀ m x s, s.power = true → Here s m → m.typ = 5 → m.src < 16 → s.stageSlot (bits m.addr.toNat 5 0) = x → x.en = true →
      (dKind x.template ≠ kOP ∨ s.stageMatch x.client (dHandle x.template 0) (m.data.take 64) = false ∨ s.stageMatch x.client (dHandle x.template 1) ((m.data.drop 64).take 64) = false) →
      exec (.handoffTransaction m) s = .next ((s.takeIn m).send { typ := 6, dst := m.src, tid := m.tid, client := m.client, status := 4 }))
  ∧ (∀ m x s, s.power = true → Here s m → m.typ = 5 → m.src < 16 → s.stageSlot (bits m.addr.toNat 5 0) = x → x.en = true → dKind x.template = kOP →
      s.stageMatch x.client (dHandle x.template 0) (m.data.take 64) = true → s.stageMatch x.client (dHandle x.template 1) ((m.data.drop 64).take 64) = true →
      m.data.length = 192 + (if dHandle x.template 0 = 0 then 0 else (parseRec (leVal (m.data.take 64))).bytes)
        + (if dHandle x.template 1 = 0 then 0 else (parseRec (leVal ((m.data.drop 64).take 64))).bytes) → s.templateCodes x.client x.template = [] →
      Answers (.handoffTransaction m) s fun t => t.nextUnit = s.nextUnit + 1 ∧ ∃ u, t.units = s.units ++ [u] ∧ u.id = s.nextUnit ∧ u.phase = .killed ∧ u.kind = kOP ∧ u.client = x.client
        ∧ u.answers = some (m.src, m.tid.toNat))

/-- R42, R135: an OP starts on every tile of its client's partition, with every register, mask, accumulator entry, counter and stream at 0 (R22, R161). R188, R128, R163: a MOVE, PALETTE or TABLE reads its source whole, at once where this wafer serves it; a MOVE's destination is staged, a bank image stands in the inactive bank and is not eligible before its commit. -/
def Obligations.tileDescriptors : Prop :=
  (∀ n q tag d s, CanStart s n q tag kOP d → s.roomForUnit n = true → s.allIdle (s.seatTiles n) = true →
      (∀ a ∈ s.seatTiles n, (s.tile a).pal.pending = false ∧ (s.tile a).tbl.pending = false ∧ (s.tile a).queue = []) → s.unit? s.nextUnit = none → Fits s (unitOf s n q d) →
      Answers (.op n q tag) s fun t => ∃ u, Begun s t n q d u ∧ u.phase = .running ∧ u.kind = kOP ∧ u.tiles = s.tilesOf (s.client n).bindPart
        ∧ ∀ a ∈ u.tiles ++ u.pairTiles, ∃ r, (t.tile a).run = some r ∧ r.unit = s.nextUnit ∧ r.vreg = [] ∧ r.mask = [] ∧ r.acc = [] ∧ r.x0 = 0 ∧ r.x1 = 0 ∧ r.x2 = 0 ∧ r.x3 = 0 ∧ r.streams = [])
  ∧ (∀ n q tag d s, CanStart s n q tag kMOVE d → s.roomForUnit n = true → s.unit? s.nextUnit = none → Fits s (unitOf s n q d) →
      Answers (.move n q tag) s fun t => ∃ u, Begun s t n q d u ∧ u.kind = kMOVE ∧ ((u.phase = .ready ∧ u.waitRd = []) ∨ (u.phase = .running ∧ u.waitRd ≠ [])))
  ∧ (∀ n q tag d a b s, CanStart s n q tag kMOVE d → s.roomForUnit n = true → s.unit? s.nextUnit = none → Fits s (unitOf s n q d) → s.trace.en = false → (unitOf s n q d).others = [] →
      ((unitOf s n q d).stageAt 0).handles.getD 0 none = some a → ((unitOf s n q d).stageAt 0).handles.getD 1 none = some b → a.cls = 1 → b.cls = 1 → b.dense = true →
      Answers (.move n q tag) s fun t => ∃ u, t.unit? s.nextUnit = some u ∧ u.phase = .ready ∧ u.staged = (upTo b.bytes).foldl (fun x i => tabPut x (stageKey s.frm.waferId b i)
        (memGet (s.operand { unitOf s n q d with image := memPutAll [] ((s.tensorOf n a (moveSeq d.desc)).map fun x => (2 ^ 48 * 0 + x.1, x.2)) } 0 a) i)) [])
  ∧ (∀ n q tag d h s, CanStart s n q tag kPALETTE d → s.roomForUnit n = true → s.storeBusy n true = false → s.unit? s.nextUnit = none → s.trace.en = false →
      ((unitOf s n q d).stageAt 0).handles.getD 0 none = some h → (h.cls = 2 ∨ h.cls = 3 → h.wafer = s.frm.waferId) →
      palImageOk (s.operand { unitOf s n q d with image := memPutAll [] ((s.tensorOf n h (moveSeq d.desc)).map fun x => (2 ^ 48 * 0 + x.1, x.2)) } 0 h) = true →
      Answers (.palette n q tag) s fun t => ∃ u, Begun s t n q d u ∧ u.kind = kPALETTE ∧ u.phase = .ready ∧ ∀ a ∈ u.tiles ++ u.pairTiles, (t.tile a).pal.pending = false
        ∧ (t.tile a).pal.bank = (s.tile a).pal.bank
        ∧ (t.tile a).pal.other = s.operand { unitOf s n q d with image := memPutAll [] ((s.tensorOf n h (moveSeq d.desc)).map fun x => (2 ^ 48 * 0 + x.1, x.2)) } 0 h)
  ∧ (∀ n q tag d h s, CanStart s n q tag kTABLE d → s.roomForUnit n = true → s.storeBusy n false = false → s.unit? s.nextUnit = none → s.trace.en = false →
      ((unitOf s n q d).stageAt 0).handles.getD 0 none = some h → (h.cls = 2 ∨ h.cls = 3 → h.wafer = s.frm.waferId) →
      Answers (.table n q tag) s fun t => ∃ u, Begun s t n q d u ∧ u.kind = kTABLE ∧ u.phase = .ready ∧ ∀ a ∈ u.tiles ++ u.pairTiles, (t.tile a).tbl.pending = false
        ∧ (t.tile a).tbl.bank = (s.tile a).tbl.bank
        ∧ (t.tile a).tbl.other = s.operand { unitOf s n q d with image := memPutAll [] ((s.tensorOf n h (moveSeq d.desc)).map fun x => (2 ^ 48 * 0 + x.1, x.2)) } 0 h)
  ∧ (∀ n q tag d h s, (CanStart s n q tag kPALETTE d ∧ s.storeBusy n true = false) → s.roomForUnit n = true → s.unit? s.nextUnit = none →
      ((unitOf s n q d).stageAt 0).handles.getD 0 none = some h → h.cls = 3 → h.wafer ≠ s.frm.waferId → 0 < h.extent →
      Answers (.palette n q tag) s fun t => ∃ u, Begun s t n q d u ∧ u.phase = .running ∧ u.waitRd.map (fun x => x.2.2) = (readPieces h.extent 4096).map Prod.snd)

/-- R238, R242: a LOT starts, and its build begins at t_b = now; a candidate that the build places stands in the build's list with the deadline under which it was placed; the build's end makes every placed member RUNNING and queues it on its tile. -/
def Obligations.lotBuilds : Prop :=
  (∀ n q tag d s, CanStart s n q tag kLOT d → (s.client n).build = none → (∀ x, (s.client n).lastBuild = some x → x + 1000 * (s.client n).lotInterval ≤ s.now) → s.lot? n q d.ordinal = none →
      Answers (.lot n q tag) s fun t => ∃ b l, (t.client n).build = some b ∧ b.tb = s.now ∧ b.q = q ∧ b.tag = tag ∧ b.ordinal = d.ordinal ∧ (t.client n).lastBuild = some s.now
        ∧ t.lot? n q d.ordinal = some l ∧ l.building = true ∧ l.start = s.now ∧ l.placed = b.placed.length)
  ∧ (∀ n q tag d i e a w s, CanStart s n q tag kLOT d → (s.client n).build = none → (∀ x, (s.client n).lastBuild = some x → x + 1000 * (s.client n).lotInterval ≤ s.now) → s.lot? n q d.ordinal = none →
      (s.client n).out.enable = false → s.candidates n = [(i, e)] →
      s.decide1 n (s.tilesOf (s.client n).bindPart) (s.farTiles (s.client n).bindPart) s.now { load := (s.tilesOf (s.client n).bindPart ++ s.farTiles (s.client n).bindPart).map fun t => (t, s.load t) } e = .place a w →
      Answers (.lot n q tag) s fun t => ∃ b, (t.client n).build = some b ∧ b.placed = [(i, a, e.deadline)])
  ∧ (∀ n b l i a dl s, s.power = true → (s.client n).build = some b → s.lot? n b.q b.ordinal = some l → b.placed = [(i, a, dl)] → a < 8192 → s.pairTile n i a = [] →
      Answers (.buildEnd n) s fun t => (t.client n).build = none ∧ (t.entry i).state = .running ∧ (t.tile a).queue = (s.tile a).queue ++ [s.nextUnit] ∧ t.nextUnit = s.nextUnit + 1
        ∧ ∃ u m, t.units = s.units ++ [u] ∧ u.id = s.nextUnit ∧ u.phase = .placed ∧ u.tiles = [a] ∧ u.stages = l.stages ∧ u.member = some m ∧ m.entry = i ∧ m.deadline = dl)
  ∧ (∀ n b l s, s.power = true → (s.client n).build = some b → s.lot? n b.q b.ordinal = some l → b.placed = [] → l.members = [] → l.awaitSave = false → Unheld s n →
      Answers (.buildEnd n) s fun t => (t.client n).build = none ∧ t.lot? n b.q b.ordinal = none ∧ (t.queue n b.q).ccount = (s.queue n b.q).ccount + 1 ∧ (t.client n).acct.lots = (s.client n).acct.lots + 1)

/-- R44, R190, R191, R192: FENCE, MARK and RECORD commit at once and their records follow; MARK's VALUE stands in CLI_LAST_MARK; RECORD writes every record image with the generation of the record it replaces plus 1, and the windows that those records had and that no live unit uses are FREE. -/
def Obligations.rimDescriptors : Prop :=
  (∀ n q tag d s, CanStart s n q tag kFENCE d → s.recordsDone n q = true → Unheld s n → Answers (.fence n q tag) s fun t => RimDone s t n q d ∧ t.north = s.north ∧ t.units = s.units)
  ∧ (∀ n q tag d s, CanStart s n q tag kMARK d → s.recordsDone n q = true → Unheld s n →
      Answers (.mark n q tag) s fun t => RimDone s t n q d ∧ (t.client n).lastMark = BitVec.ofNat 64 (dParam d.desc))
  ∧ (∀ n q tag d s, CanStart s n q tag kRECORD d → s.recordsDone n q = true → Unheld s n → s.trace.en = false → (s.queue n q).cbaseLoc = 0 →
      Answers (.record n q tag) s fun t => RimDone s t n q d ∧ ∀ a w i j, ((t.tile a).win w).state = .dry → ((t.tile a).win w).owner = .record n i j →
        bits (dHandle d.desc 0) 15 0 ≤ i % 2 ^ 16 → i % 2 ^ 16 < bits (dHandle d.desc 0) 15 0 + dTableLen d.desc → t.staleRec (.record n i j) = false)
  ∧ (∀ n q tag d s, CanStart s n q tag kRECORD d → s.recordsDone n q = true → Unheld s n → s.trace.en = false → (s.queue n q).cbaseLoc = 0 → s.frm.unmapped = [] →
      (s.client n).areas.recs + 64 * (bits (dHandle d.desc 0) 15 0 + dTableLen d.desc) ≤ s.hbmTop →
      Answers (.record n q tag) s fun t => ∀ i, i < dTableLen d.desc →
        t.hbmRead ((s.client n).areas.recs + 64 * (bits (dHandle d.desc 0) 15 0 + i)) 64 = (s.hbmRead (dTableAddr d.desc + 64 * i) 64).take 2
          ++ leBytes ((s.hbmVal ((s.client n).areas.recs + 64 * (bits (dHandle d.desc 0) 15 0 + i) + 2) 1 + 1) % 256) 1 ++ (s.hbmRead (dTableAddr d.desc + 64 * i) 64).drop 3)

/-- R234: the effect of RETIRE, KICK, SET_DEADLINE, SET_PERIOD and SET_COUNTS on an entry, by its state: a RUNNING entry keeps its state and notes RETIRE_PEND, KICKED or DL_SET; a RETIRING one is left as it is. -/
def Obligations.sequenceCommands : Prop :=
  (∀ n q tag d i s, CanStart s n q tag kSEQ d → seqSub d.desc = 2 → s.recordsDone n q = true → (s.client n).build = none → ((s.client n).out.enable = false ∨ (s.client n).out.free ≠ 0) → Unheld s n →
      seqIdOf d.desc % 2 ^ 17 = i → (s.entry i).state ≠ .retiring → Answers (.seqRetire n q tag) s fun t => RimDone s t n q d
        ∧ t.entry i = (if (s.entry i).state = .running then { s.entry i with retirePend := true } else { s.entry i with state := .retiring }))
  ∧ (∀ n q tag d i s, CanStart s n q tag kSEQ d → seqSub d.desc = 3 → s.recordsDone n q = true → (s.client n).build = none → Unheld s n → seqIdOf d.desc % 2 ^ 17 = i → (s.entry i).state ≠ .retiring →
      Answers (.seqKick n q tag) s fun t => RimDone s t n q d ∧ t.entry i = (if (s.entry i).state = .running
        then { s.entry i with kicked := true, deadline := if dDeadline d.desc = 0 then (s.entry i).deadline else dDeadline d.desc, dlSet := (s.entry i).dlSet || dDeadline d.desc != 0 }
        else { s.entry i with state := .ready, kicked := false, deadline := if dDeadline d.desc = 0 then (s.entry i).deadline else dDeadline d.desc }))
  ∧ (∀ n q tag d i s, CanStart s n q tag kSEQ d → seqSub d.desc = 4 → s.recordsDone n q = true → (s.client n).build = none → Unheld s n → seqIdOf d.desc % 2 ^ 17 = i → (s.entry i).state ≠ .retiring →
      Answers (.seqSetDeadline n q tag) s fun t => RimDone s t n q d ∧ t.entry i = { s.entry i with deadline := dDeadline d.desc, dlSet := (s.entry i).dlSet || (s.entry i).state == .running })
  ∧ (∀ n q tag d i s, CanStart s n q tag kSEQ d → seqSub d.desc = 5 → s.recordsDone n q = true → (s.client n).build = none → Unheld s n → seqIdOf d.desc % 2 ^ 17 = i → (s.entry i).state ≠ .retiring →
      Answers (.seqSetPeriod n q tag) s fun t => RimDone s t n q d ∧ t.entry i = { s.entry i with period := seqArg d.desc })
  ∧ (∀ n q tag d i s, CanStart s n q tag kSEQ d → seqSub d.desc = 6 → s.recordsDone n q = true → (s.client n).build = none → Unheld s n → seqIdOf d.desc % 2 ^ 17 = i → (s.entry i).state ≠ .retiring →
      Answers (.seqSetCounts n q tag) s fun t => RimDone s t n q d ∧ t.entry i = { s.entry i with m0 := bits (seqArg d.desc) 15 0, m1 := bits (seqArg d.desc) 31 16 })

/-- R236, R237, R445: an ADMIT that no condition refuses makes its entry ADMITTED with the client's lowest free spill area; one refused commits too, with its reason in CLI_ADMIT_REFUSE, and leaves the Lot Table alone; a follower's asks the lead and waits. -/
def Obligations.admissions : Prop :=
  (∀ n q tag d a s, CanStart s n q tag kSEQ d → seqSub d.desc = 1 → s.recordsDone n q = true → (s.client n).admits = [] → (s.client n).build = none → ((s.client n).out.enable = false ∨ (s.client n).out.free ≠ 0) →
      s.stk.rebuilding = none → Unheld s n → s.refusal n d = 0 → s.spillArea n = some a → s.frm.role ≠ 2 → s.stackCount n < (s.client n).stackQuota →
      Answers (.seqAdmit n q tag) s fun t => RimDone s t n q d
        ∧ t.entry (seqIdOf d.desc % 2 ^ 17) = { client := n, state := .admitted, period := seqArg d.desc, deadline := firstDeadline d, spillAddr := a })
  ∧ (∀ n q tag d why s, CanStart s n q tag kSEQ d → seqSub d.desc = 1 → s.recordsDone n q = true → (s.client n).admits = [] → (s.client n).build = none → ((s.client n).out.enable = false ∨ (s.client n).out.free ≠ 0) →
      s.stk.rebuilding = none → Unheld s n → (s.refusal n d = why ∧ why ≠ 0 ∨ s.refusal n d = 0 ∧ s.frm.role ≠ 2 ∧ (s.client n).stackQuota ≤ s.stackCount n ∧ why = 7) →
      Answers (.seqAdmit n q tag) s fun t => RimDone s t n q d ∧ t.north = s.north ∧ t.south = s.south ∧ (t.client n).refuse = why + 256 * (seqIdOf d.desc % 2 ^ 17)
        ∧ (t.client n).refusals = (s.client n).refusals + 1 ∧ (t.client n).acct.refused = (s.client n).acct.refused + 1)
  ∧ (∀ n q tag d s, CanStart s n q tag kSEQ d → seqSub d.desc = 1 → s.recordsDone n q = true → (s.client n).admits = [] → (s.client n).build = none → ((s.client n).out.enable = false ∨ (s.client n).out.free ≠ 0) →
      s.stk.rebuilding = none → s.refusal n d = 0 → s.frm.role = 2 →
      Answers (.seqAdmit n q tag) s fun t => (t.client n).admits = [{ q := q, tag := tag, since := s.now, tid := s.stk.nextTid, ring := (s.client n).out.token }] ∧ t.stk.nextTid = (s.stk.nextTid + 1) % 2 ^ 32 ∧ t.north = s.north
        ∧ (t.queue n q).ccount = (s.queue n q).ccount)

/-- R229, R231, R312, R313: a RETIRING sequence's windows and entry become FREE; a scrub repairs a copy with a failing word from the other and charges the failing bank, or, where only unused fields fail, logs LATENT if the copies agree in the fields in use and charges the failing bank if they do not, and does nothing where both copies agree; CLI_LT_SEL takes a snapshot of a client's own entry, and 0 of any other. -/
def Obligations.lotTableUpkeep : Prop :=
  (∀ i s, s.power = true → (s.entry i).state = .retiring → s.inSpill i = false → Answers (.retiringFreed i) s fun t => t.entry i = {} ∧ (∀ j, j ≠ i → t.entry j = s.entry j)
      ∧ ∀ a w, ((t.tile a).win w).ofSeq (s.entry i).client i = false)
  ∧ (∀ i e s, s.power = true → s.flt.rimBad.contains (ltBank i) = false → s.flt.rimBad.contains (16 + ltBank i) = false → tabGet {} s.north i = e → tabGet {} s.south i = e →
      exec (.ltScrubCompare i .clean .clean) s = .next s)
  ∧ (∀ i e s, s.power = true → s.flt.rimBad.contains (ltBank i) = false → s.flt.rimBad.contains (16 + ltBank i) = false → tabGet {} s.south i = e → Steady s 3 (ltBank i) →
      Answers (.ltScrubCompare i .failUsed .clean) s fun t => t.entry i = e ∧ tabGet {} t.south i = e ∧ t.flt = upsetFlt s 0x0D 3 (ltBank i) none)
  ∧ (∀ i e s, s.power = true → s.flt.rimBad.contains (ltBank i) = false → s.flt.rimBad.contains (16 + ltBank i) = false → tabGet {} s.north i = e → Steady s 3 (16 + ltBank i) →
      Answers (.ltScrubCompare i .clean .failUsed) s fun t => t.entry i = e ∧ tabGet {} t.south i = e ∧ t.flt = upsetFlt s 0x0D 3 (16 + ltBank i) none)
  ∧ (∀ i (x : Entry) e s, s.power = true → s.flt.rimBad.contains (ltBank i) = false → s.flt.rimBad.contains (16 + ltBank i) = false → tabGet {} s.north i = x → tabGet {} s.south i = e →
      x.used (s.client x.client).winSeq = e.used (s.client e.client).winSeq →
      Answers (.ltScrubCompare i .failUnused .clean) s fun t => t.entry i = e ∧ tabGet {} t.south i = e ∧ t.flt.latent = s.flt.latent + 1 ∧ t.flt.head = s.flt.head + 1 ∧ t.flt.upsets = s.flt.upsets)
  ∧ (∀ i (x : Entry) e s, s.power = true → s.flt.rimBad.contains (ltBank i) = false → s.flt.rimBad.contains (16 + ltBank i) = false → tabGet {} s.north i = x → tabGet {} s.south i = e →
      x.used (s.client x.client).winSeq ≠ e.used (s.client e.client).winSeq → Steady s 3 (ltBank i) →
      Answers (.ltScrubCompare i .failUnused .clean) s fun t => t.entry i = e ∧ tabGet {} t.south i = e ∧ t.flt = upsetFlt s 0x0D 3 (ltBank i) none)
  ∧ (∀ n v s, Live s → (s.entry (bits v.toNat 16 0)).state ≠ .free → (s.entry (bits v.toNat 16 0)).client = n → exec (.cliLtSel n v) s = .next (s.modClient n fun c => { c with
      ltSel := bits v.toNat 16 0, ltData := BitVec.ofNat 512 (leVal (entryBytes (s.entry (bits v.toNat 16 0)))) }))
  ∧ (∀ n v s, Live s → ((s.entry (bits v.toNat 16 0)).state = .free ∨ (s.entry (bits v.toNat 16 0)).client ≠ n) →
      exec (.cliLtSel n v) s = .next (s.modClient n fun c => { c with ltSel := bits v.toNat 16 0, ltData := 0 }))

/-- R257 to R260: at an evaluation, a partition with no resident context takes the first contender at once; one whose resident is idle switches to it; otherwise the contender is switched in only where its ERD is near, earlier than the resident's with slack, and the resident has had its quantum, and is else denied; a paired contender waits until both its partitions have chosen it. -/
def Obligations.scheduling : Prop :=
  (∀ p e c r s, Due s p → s.contenders p = (e, c) :: r → (s.part p).resident = none → (s.client c).pairEn = false →
      Answers (.schedEvaluate p) s fun t => (t.part p).switch = some { out := none, incoming := some c, phase := .restoring, since := s.now, idle := true } ∧ (t.part p).lastEval = some s.now)
  ∧ (∀ p e c o r s, Due s p → s.contenders p = (e, c) :: r → (s.part p).resident = some o → (s.client o).dbg.halted = false → s.isIdle o = true → (s.client c).pairEn = false →
      Answers (.schedEvaluate p) s fun t => (∃ w, (t.part p).switch = some w ∧ w.out = some o ∧ w.incoming = some c ∧ w.phase = .stopping ∧ w.since = s.now ∧ w.idle = true)
        ∧ (t.part p).idleSwitches = satTo 0xFFFF ((s.part p).idleSwitches + 1) ∧ (t.part p).preempts = (s.part p).preempts)
  ∧ (∀ p e c o d r s, Due s p → s.contenders p = (e, c) :: r → (s.part p).resident = some o → (s.client o).dbg.halted = false → s.isIdle o = false → (s.client c).pairEn = false → s.erdOf o = some d →
      e ≤ s.switchEstOf p + s.dOf c + (s.part p).horizon + s.now → (s.part p).since + 1000 * (s.part p).minQuantum ≤ s.now → e < d → s.now + 2 * s.switchEstOf p + s.dOf c + s.dOf o ≤ d →
      Answers (.schedEvaluate p) s fun t => (∃ w, (t.part p).switch = some w ∧ w.out = some o ∧ w.incoming = some c ∧ w.phase = .stopping ∧ w.since = s.now ∧ w.idle = false)
        ∧ (t.part p).preempts = satTo 0xFFFF ((s.part p).preempts + 1) ∧ (t.client o).acct.preempts = (s.client o).acct.preempts + 1)
  ∧ (∀ p e c o d r s, Due s p → s.contenders p = (e, c) :: r → (s.part p).resident = some o → (s.client o).dbg.halted = false → s.isIdle o = false → s.erdOf o = some d →
      e ≤ s.switchEstOf p + s.dOf c + (s.part p).horizon + s.now → (s.now < (s.part p).since + 1000 * (s.part p).minQuantum ∨ d ≤ e ∨ d < s.now + 2 * s.switchEstOf p + s.dOf c + s.dOf o) →
      Answers (.schedEvaluate p) s fun t => (t.part p).switch = none ∧ (t.part p).denied = satTo 0xFFFF ((s.part p).denied + 1) ∧ t.units = s.units)
  ∧ (∀ p e c o r s, Due s p → s.contenders p = (e, c) :: r → (s.part p).resident = some o → (s.client o).dbg.halted = false → s.isIdle o = false →
      s.switchEstOf p + s.dOf c + (s.part p).horizon + s.now < e → Answers (.schedEvaluate p) s fun t => (t.part p).switch = none ∧ (t.part p).denied = (s.part p).denied ∧ t.units = s.units)
  ∧ (∀ p e c r s, Due s p → s.contenders p = (e, c) :: r → (s.part p).resident = none → (s.client c).pairEn = true → (∃ x ∈ s.seats c, x ≠ p ∧ ∀ i, (s.part x).pairChoice ≠ some (s.now, c, i)) →
      Answers (.schedEvaluate p) s fun t => (t.part p).switch = none ∧ (t.part p).pairChoice = some (s.now, c, true))

/-- R258, R273, R280, R281: once every unit of the outgoing context has stopped, it is parked and its save begins; when its bytes have moved, its tiles are empty and the incoming context's restore begins; when that is done the context is resident and the switch is over. -/
def Obligations.switching : Prop :=
  (∀ p w n k s, s.power = true → (s.part p).switch = some w → w.phase = .stopping → w.out = some n → w.stopAt = some k → s.stopped n = true →
      Answers (.stopComplete p) s fun t => (t.client n).resident = false ∧ (t.client n).parkedSince = s.now
        ∧ ∀ r ∈ s.seats n, (t.part r).resident = none ∧ (t.part r).switch = (s.part r).switch.map fun w => { w with phase := .saving, since := s.now })
  ∧ (∀ p w n c s, s.power = true → (s.part p).switch = some w → w.phase = .saving → w.out = some n → w.incoming = some c → p ∈ s.seats n → s.transferDone (s.client n).bindPart (s.saveSize n) w.since = true →
      Answers (.saveComplete p) s fun t => (t.client n).parked.complete = true ∧ (t.client n).parked.layout = s.tilesOf (s.client n).bindPart
        ∧ (t.part p).switch = some { w with out := none, phase := .restoring, since := s.now } ∧ (t.part p).saveNs = (s.now - w.since) % 2 ^ 32
        ∧ ∀ a ∈ s.tilesOf (s.client n).bindPart, (t.tile a).windows = [] ∧ (t.tile a).run = none)
  ∧ (∀ p w n s, s.power = true → (s.part p).switch = some w → w.phase = .restoring → w.incoming = some n →
      (∀ r ∈ s.seats n, ∃ x, (s.part r).switch = some x ∧ x.incoming = some n ∧ x.phase = .restoring ∧ x.since = w.since) → p ∈ s.seats n →
      s.transferDone (s.client n).bindPart (if (s.client n).parked.complete then s.hbmVal ((s.client n).areas.park + 24) 8 else 53248) w.since = true →
      Answers (.restoreComplete p) s fun t => (t.client n).resident = true ∧ ∀ r ∈ s.seats n, (t.part r).resident = some n ∧ (t.part r).switch = none ∧ (t.part r).since = s.now)

/-- R252, R321, R344, R404: a write of PRT_STRIPS that takes strips away takes effect while no context is bound, and is ignored while one is; one that only adds strips waits for the next rebuild, where the park areas of the bound contexts are large enough; each is ignored where a strip belongs to another partition. R261 to R264: a requested rebuild is pending; it begins once no started unit of its partition remains; at its end the partition holds its strips without the retired ones and with those added, and has no resident context where no working tile is left. -/
def Obligations.strips : Prop :=
  (∀ p w v s, Live s → p < Config.partitions → w < 16 → s.bound p = [] → (∀ r, r < Config.partitions → r ≠ p → ((s.part r).strips ||| (s.part r).adding) &&& stripsWrite (s.part p).strips w v = 0) →
      (∀ i, i < 32 → (stripsWrite (s.part p).strips w v).getLsbD (32 * w + i) = true →
        (s.colmap (32 * w + i)).retired = false ∧ (s.dom (domOfStrip (32 * w + i))).state ≠ .off ∧ (s.dom (domOfStrip (32 * w + i))).target ≠ 0) →
      (s.part p).strips &&& ~~~(stripsWrite (s.part p).strips w v) ≠ 0 → s.frm.rowChanges = [] →
      Answers (.prtStripsWrite p w v) s fun t => t.part p = { s.part p with strips := stripsWrite (s.part p).strips w v, adding := (s.part p).adding &&& ~~~(stripsWrite (s.part p).strips w v) }
        ∧ ∀ r, r ≠ p → t.part r = s.part r)
  ∧ (∀ p w v s, Live s → p < Config.partitions → w < 16 → (∀ r, r < Config.partitions → r ≠ p → ((s.part r).strips ||| (s.part r).adding) &&& stripsWrite (s.part p).strips w v = 0) →
      (∀ i, i < 32 → (stripsWrite (s.part p).strips w v).getLsbD (32 * w + i) = true →
        (s.colmap (32 * w + i)).retired = false ∧ (s.dom (domOfStrip (32 * w + i))).state ≠ .off ∧ (s.dom (domOfStrip (32 * w + i))).target ≠ 0) →
      (s.part p).strips &&& ~~~(stripsWrite (s.part p).strips w v) = 0 → stripsWrite (s.part p).strips w v &&& ~~~(s.part p).strips ≠ 0 →
      (∀ n ∈ s.bound p, parkNeed (stripCount (stripsWrite (s.part p).strips w v ||| (s.part p).adding)) ≤ (s.client n).areas.parkSize) →
      exec (.prtStripsWrite p w v) s = .next (s.modPart p fun x => { x with adding := x.adding ||| (stripsWrite x.strips w v &&& ~~~x.strips), changePend := true }))
  ∧ (∀ p w v s, Live s → s.bound p ≠ [] → (s.part p).strips &&& ~~~(stripsWrite (s.part p).strips w v) ≠ 0 → exec (.prtStripsWrite p w v) s = .next s)
  ∧ (∀ p w v r s, Live s → r < Config.partitions → r ≠ p → ((s.part r).strips ||| (s.part r).adding) &&& stripsWrite (s.part p).strips w v ≠ 0 → exec (.prtStripsWrite p w v) s = .next s)
  ∧ (∀ p s, Live s → p < Config.partitions → exec (.rebuild p) s = .next (s.modPart p fun x => { x with rebuildPend := true }))
  ∧ (∀ p s, s.power = true → (s.part p).rebuildPend = true → (s.part p).rebuilding = false → (s.part p).switch = none → s.unitsIn p = false →
      Answers (.rebuildBegin p []) s fun t => (t.part p).rebuilding = true ∧ (t.part p).rebuildPend = false ∧ (t.part p).rebuildSince = s.now ∧ (t.part p).strips = (s.part p).strips
        ∧ ∀ y ∈ t.frm.rowChanges, (s.part p).strips.getLsbD (y.2 / 17) = false)
  ∧ (∀ p s, s.power = true → (s.part p).rebuilding = true → (∀ n, (s.part p).resident = some n → p ∈ s.seats n) →
      Answers (.rebuildEnd p) s fun t => (t.part p).rebuilding = false ∧ (t.part p).adding = 0 ∧ (t.part p).rebuilds = satTo 0xFFFF ((s.part p).rebuilds + 1)
        ∧ (t.part p).rebuildNs = (s.now - (s.part p).rebuildSince) % 2 ^ 32 ∧ (t.tilesOf p ≠ [] → (t.part p).laidOut = t.tilesOf p)
        ∧ (∀ i, i < 512 → (t.part p).strips.getLsbD i = (((s.part p).strips.getLsbD i || (s.part p).adding.getLsbD i) && !(s.colmap i).retired))
        ∧ (t.tilesOf p = [] → (t.part p).resident = none) ∧ (t.tilesOf p ≠ [] → (t.part p).resident = (s.part p).resident))

/-- R225, R250, R253, R403: SCH_BIND with EN = 1 creates a context, parked, with every record zero, where the checks of its areas pass, and says in CLI_HBM_STATUS which fails; EN = 0 tears it down: no unit, window or build of it remains, its queues are TORN_DOWN and its entries RETIRING. -/
def Obligations.contexts : Prop :=
  (∀ n v s, Live s → n < Config.clients → (s.client n).en = false → bit v.toNat 31 = true → (s.bindFields n v.toNat).functionExists n = true → (s.bindFields n v.toNat).hbmCheck n = 0 →
      Answers (.contextCreate n v) s fun t => (t.client n).en = true ∧ (t.client n).resident = false ∧ (t.client n).parked.complete = false ∧ (t.client n).hbmStatus = 0 ∧ (t.client n).lots = []
        ∧ ∀ a, (s.client n).areas.recs ≤ a → a < (s.client n).areas.recs + 0x400000 → memGet t.hbm a = 0)
  ∧ (∀ n v e s, Live s → n < Config.clients → (s.client n).en = false → bit v.toNat 31 = true → (s.bindFields n v.toNat).functionExists n = true → (s.bindFields n v.toNat).hbmCheck n = e → e ≠ 0 →
      Answers (.contextCreate n v) s fun t => (t.client n).en = false ∧ (t.client n).hbmStatus = e ∧ t.hbm = s.hbm)
  ∧ (∀ n v s, Live s → (s.client n).en = true → bit v.toNat 31 = false →
      Answers (.contextTeardown n v) s fun t => (t.client n).en = false ∧ (t.client n).resident = false ∧ (t.client n).build = none ∧ (t.client n).lots = [] ∧ (t.client n).dbg.halted = false
        ∧ (t.queue n 0).state = .tornDown ∧ (t.queue n 1).state = .tornDown ∧ (∀ u ∈ t.unitsOf n, u.phase = .committed) ∧ ∀ a w, ((t.tile a).win w).ofClient n = false)
  ∧ (∀ n v s, Live s → (s.client n).en = true → bit v.toNat 31 = false → s.unitsOf n = [] → s.flt.rimBad = [] → Answers (.contextTeardown n v) s fun t => ∀ i ∈ s.entriesOf n, (t.entry i).state = .retiring)

/-- R29, R30, R33, R138, R139: a long word issues in its cycle and the next may not issue before the cycle after; a repetition that is not the last leaves the position, the last moves it on; the results of an ARI or an ST slot are in flight; an LD from the tile's own vat is due 3 cycles later, one from HBM stalls the tile; a SYN BARRIER stalls it at its number; a word that a decode check refuses ends its unit. -/
def Obligations.longWords : Prop :=
  (∀ a r u l s, MayIssue s a r u l → l = bare l → Answers (.longWordIssue a) s fun t => ∃ r', (t.tile a).run = some r' ∧ r'.nextCyc = r.nextCyc + 1 ∧ r'.inflight = [] ∧ r'.flags = r.flags ∧ r'.vreg = r.vreg
      ∧ (r.rho < l.rep → r'.rho = r.rho + 1 ∧ r'.pos = r.pos ∧ r'.off = r.off) ∧ (l.rep ≤ r.rho → r.loops = [] → r'.rho = 0 ∧ r'.pos = r.pos + 1 ∧ r'.off = r.off + l.size
        ∧ r'.ended = decide ((s.ctx a r u).len ≤ r.pos + 1)) ∧ (t.tile a).busy = (s.tile a).busy + (r.nextCyc + 1 - r.counted))
  ∧ (∀ a r u l w s, MayIssue s a r u l → l = { bare l with ari := some w } → (ariOut (s.ctx a r u) r (r.issueAt l) w).decode = [] → (ariOut (s.ctx a r u) r (r.issueAt l) w).codes = [] →
      clashes r [] (ariOut (s.ctx a r u) r (r.issueAt l) w).flights = false →
      Answers (.longWordIssue a) s fun t => ∃ r', (t.tile a).run = some r' ∧ r'.inflight = (ariOut (s.ctx a r u) r (r.issueAt l) w).flights ∧ r'.flags = r.flags ||| (ariOut (s.ctx a r u) r (r.issueAt l) w).fl
        ∧ r'.ariFree = r.issueAt l + ariBusy (s.ctx a r u) r w ∧ r'.nextCyc = r.issueAt l + 1 ∧ r'.vreg = r.vreg)
  ∧ (∀ a r u l w s, MayIssue s a r u l → l = { bare l with st := some w } → (stOut (s.ctx a r u) r r.nextCyc r.rho w).codes = [] → clashes r [] (stOut (s.ctx a r u) r r.nextCyc r.rho w).flights = false →
      Answers (.longWordIssue a) s fun t => ∃ r', (t.tile a).run = some r' ∧ r'.inflight = (stOut (s.ctx a r u) r r.nextCyc r.rho w).flights ∧ (t.tile a).vat = (s.tile a).vat)
  ∧ (∀ a r u l w h x b s, MayIssue s a r u l → l = { bare l with ld := some w } → (s.ctx a r u).handle (ldHnd w) = some h → ldStBlock (s.ctx a r u) r w r.rho h = (b, true) →
      s.ldFrom (s.ctx a r u) r u h (ldHnd w) b (ldStBytes w) = .data x →
      Answers (.longWordIssue a) s fun t => ∃ r', (t.tile a).run = some r' ∧ r'.stall = none
        ∧ r'.inflight = [{ due := r.nextCyc + 3, slot := .ld, w := .vreg (bits w 4 0) (BitVec.allOnes 2048) (vLoad h.width (clipTail (s.ctx a r u) h b x)) h.fmt }])
  ∧ (∀ a r u l w h x b s, MayIssue s a r u l → l = { bare l with ld := some w } → (s.ctx a r u).handle (ldHnd w) = some h → ldStBlock (s.ctx a r u) r w r.rho h = (b, true) →
      s.ldFrom (s.ctx a r u) r u h (ldHnd w) b (ldStBytes w) = .remote (.hbm x) →
      Answers (.longWordIssue a) s fun t => ∃ r', (t.tile a).run = some r' ∧ r'.stall = some (.remote (.hbm x) (ldStBytes w) none r.nextCyc) ∧ r'.inflight = [] ∧ r'.pos = r.pos ∧ r'.rho = r.rho)
  ∧ (∀ a r u l w s, MayIssue s a r u l → l = { bare l with syn := some w } → synOp w = 4 →
      Answers (.longWordIssue a) s fun t => ∃ r', (t.tile a).run = some r' ∧ r'.stall = some (.barrier (bits w 11 4) r.nextCyc s.now) ∧ r'.inflight = [])
  ∧ (∀ a r u l c s, s.power = true → (s.tile a).run = some r → s.unit? r.unit = some u → s.canIssue a r u = true → longWord (s.tile a).tbl.bank r.off = l → r.issueAt l ≤ s.cycle a → r.inflight = [] →
      (s.tile a).bankHits = [] → u.phase ≠ .committed → c ∈ l.decodeCodes (fun i => ((s.ctx a r u).handle i).isSome) r.loops (s.ctx a r u).len r.pos →
      Answers (.longWordIssue a) s fun t => Ended s t u ∧ ∀ w, ((t.tile a).win w).wetOf u.id = false ∨ a ∉ u.allTiles)

/-- R29: a result whose latency has passed lands, whole or, for a store, the selected bits of each byte of a WET window of the unit. R44, R94, R115, R137, R157, R194: a waiting A2V or BCAST issues once its streams are done; a barrier that every tile of a unit has reached is released; a tile whose table has ended is ready, or goes on to the next stage of its chain with its registers as they are; when every tile is ready the unit is. -/
def Obligations.tileResults : Prop :=
  (∀ a r u v sel b tag f s, s.power = true → (s.tile a).run = some r → s.unit? r.unit = some u → r.inflight = [f] → f.due ≤ s.cycle a → f.w = .vreg v sel b tag →
      Answers (.slotComplete a) s fun t => ∃ r', (t.tile a).run = some r' ∧ r'.inflight = [] ∧ r'.v v = (r.v v &&& ~~~sel) ||| (b &&& sel) ∧ r'.tag v = tag ∧ (∀ x, x ≠ v → r'.v x = r.v x) ∧ r'.acc = r.acc ∧ r'.mask = r.mask)
  ∧ (∀ a r u m sel b f s, s.power = true → (s.tile a).run = some r → s.unit? r.unit = some u → r.inflight = [f] → f.due ≤ s.cycle a → f.w = .mreg m sel b → m ≠ 0 →
      Answers (.slotComplete a) s fun t => ∃ r', (t.tile a).run = some r' ∧ r'.m m = (r.m m &&& ~~~sel) ||| (b &&& sel) ∧ (∀ x, x ≠ m → r'.m x = r.m x) ∧ r'.vreg = r.vreg)
  ∧ (∀ a r u e x fmt f s, s.power = true → (s.tile a).run = some r → s.unit? r.unit = some u → r.inflight = [f] → f.due ≤ s.cycle a → f.w = .acc e [x] fmt →
      Answers (.slotComplete a) s fun t => ∃ r', (t.tile a).run = some r' ∧ tabGet 0 r'.acc e = x ∧ r'.vreg = r.vreg)
  ∧ (∀ a r u h i o sel v f w s, s.power = true → (s.tile a).run = some r → s.unit? r.unit = some u → r.inflight = [f] → f.due ≤ s.cycle a → f.w = .store i [(o, sel, v)] → (s.ctx a r u).handle i = some h →
      (s.tile a).findWet u.id ((s.ctx a r u).slotOf u h i o).1 = some w →
      Answers (.slotComplete a) s fun t => memGet (t.tile a).vat (65536 * w + ((s.ctx a r u).slotOf u h i o).2)
          = (memGet (s.tile a).vat (65536 * w + ((s.ctx a r u).slotOf u h i o).2) &&& ~~~sel) ||| (v &&& sel)
        ∧ ∀ p, p ≠ 65536 * w + ((s.ctx a r u).slotOf u h i o).2 → memGet (t.tile a).vat p = memGet (s.tile a).vat p)
  ∧ (∀ a r f s, s.power = true → (s.tile a).run = some r → r.inflight = [f] → s.cycle a < f.due → Answers (.slotComplete a) s fun t => ∃ r', (t.tile a).run = some r' ∧ r'.inflight = [f] ∧ r'.vreg = r.vreg)
  ∧ (∀ a r u w rho b e s, s.power = true → (s.tile a).run = some r → s.unit? r.unit = some u → r.inflight = [] → r.stall = some (.syn w rho b e) → r.synWaits w.toNat rho = false → r.nextCyc ≤ s.cycle a → r.lastRed ≤ r.nextCyc → (s.tile a).bankHits = [] →
      s.slotMay a r u = true → clashes r [] (r.synFlight r.nextCyc w.toNat rho) = false →
      Answers (.synDeferredIssue a) s fun t => ∃ r', (t.tile a).run = some r' ∧ r'.stall = none ∧ r'.inflight = r.synFlight r.nextCyc w.toNat rho ∧ r'.nextCyc = r.nextCyc + 1)
  ∧ (∀ uid u n s, s.power = true → s.unit? uid = some u → u.home = none → u.others = [] → u.pairTiles = [] → u.thirdTiles = [] → u.tiles ≠ [] → (∀ a ∈ u.tiles, (s.tile a).barrier? uid = some n) →
      Answers (.barrierRelease uid) s fun t => ∀ a ∈ u.tiles, ∃ r, (t.tile a).run = some r ∧ r.unit = uid ∧ r.stall = none)
  ∧ (∀ uid u a s, s.power = true → s.unit? uid = some u → u.pairTiles = [] → u.thirdTiles = [] → a ∈ u.tiles → (s.tile a).barrier? uid = none → exec (.barrierRelease uid) s = .next s)
  ∧ (∀ a r u s, s.power = true → (s.tile a).run = some r → s.unit? r.unit = some u → r.inflight = [] → r.ended = true → r.ready = false → r.stall = none → r.stopped = false →
      dKind (u.stageAt r.stage).desc ≠ kHANDOFF → u.stages.length ≤ r.stage + 1 → r.pass ≠ 1 → u.phase = .running → u.tiles = [a] → u.pairTiles = [] → u.home = none →
      Answers (.tileReady a) s fun t => ∃ r' v, (t.tile a).run = some r' ∧ r'.ready = true ∧ r'.vreg = r.vreg ∧ t.unit? r.unit = some v ∧ v.phase = .ready)
  ∧ (∀ a b r u s, s.power = true → (s.tile a).run = some r → s.unit? r.unit = some u → r.inflight = [] → r.ended = true → r.ready = false → r.stall = none → r.stopped = false →
      dKind (u.stageAt r.stage).desc ≠ kHANDOFF → (u.stages.length ≤ r.stage + 1 ∨ r.pass = 1) → b ∈ u.tiles → b ≠ a → (∀ x, (s.tile b).run = some x → x.ready = false) →
      Answers (.tileReady a) s fun t => ∃ r', (t.tile a).run = some r' ∧ r'.ready = true ∧ t.units = s.units)
  ∧ (∀ a r u s, s.power = true → (s.tile a).run = some r → s.unit? r.unit = some u → r.inflight = [] → r.ended = true → r.ready = false → r.stall = none → r.stopped = false →
      dKind (u.stageAt r.stage).desc ≠ kHANDOFF → r.stage + 1 < u.stages.length → r.pass ≠ 1 → dKind (u.stageAt (r.stage + 1)).desc ≠ kHANDOFF →
      Answers (.tileReady a) s fun t => ∃ r', (t.tile a).run = some r' ∧ r'.stage = r.stage + 1 ∧ r'.pos = 0 ∧ r'.rho = 0 ∧ r'.ended = false ∧ r'.off = dTableAddr (u.stageAt (r.stage + 1)).desc ∧ r'.vreg = r.vreg ∧ r'.acc = r.acc)

/-- R27, R33, R41, R178, R179: the owning tile reads its vat as a remote read's request arrives, or the read is an ACCESS fault; when the data is there the stalled LD issues; a fabric write lands in its stream on the receiving tile, and what that completes is sent on. -/
def Obligations.fabricTraffic : Prop :=
  (∀ a r u x cl k b n since o w off s, s.power = true → (s.tile a).run = some r → s.unit? r.unit = some u → r.stall = some (.remote (.tile x cl k b) n none since) → s.locateVat cl k b = some (o, w, off) → s.readFirst a = true →
      (s.partOfTile o).any s.flipWaits = false →
      Answers (.remoteReadRequest a) s fun t => ∃ r', (t.tile a).run = some r' ∧ r'.stall = some (.remote (.tile o cl k b) n (some (memRead (s.tile o).vat (65536 * w + off) n)) since))
  ∧ (∀ a r u x cl k b n since s, s.power = true → (s.tile a).run = some r → s.unit? r.unit = some u → r.stall = some (.remote (.tile x cl k b) n none since) → s.locateVat cl k b = none → s.readFirst a = true → u.phase ≠ .committed →
      Answers (.remoteReadRequest a) s fun t => Ended s t u)
  ∧ (∀ a r u x n since l w h b s, s.power = true → (s.tile a).run = some r → s.unit? r.unit = some u → r.stall = some (.remote (.hbm x) n none since) → s.flt.reissues = [] → s.hbmWaits x n = false → s.slotMay a r u = true →
      r.inflight = [] → (s.tile a).bankHits = [] → since ≤ s.cycle a → r.nextCyc ≤ s.cycle a → longWord (s.tile a).tbl.bank r.off = l → l = { bare l with ld := some w } →
      l.decodeCodes (fun i => ((s.ctx a r u).handle i).isSome) r.loops (s.ctx a r u).len r.pos = [] → (s.ctx a r u).handle (ldHnd w) = some h → ldStBlock (s.ctx a r u) r w r.rho h = (b, true) →
      s.ldFrom (s.ctx a r u) r u h (ldHnd w) b (ldStBytes w) = .remote (.hbm x) →
      Answers (.remoteReadData a) s fun t => ∃ r', (t.tile a).run = some r' ∧ r'.stall = none ∧ r'.nextCyc = s.cycle a + 1
        ∧ r'.inflight = [{ due := s.cycle a + 3, slot := .ld, w := .vreg (bits w 4 0) (BitVec.allOnes 2048) (vLoad h.width (clipTail (s.ctx a r u) h b (s.hbmRead x n))) h.fmt }])
  ∧ (∀ a r u src n since s, s.power = true → (s.tile a).run = some r → s.unit? r.unit = some u → r.stall = some (.remote src n none since) → (∀ x, src ≠ .hbm x) → exec (.remoteReadData a) s = .next s)
  ∧ (∀ src dst m rest r u st s, s.power = true → takeMsg src dst s.fabric = some (m, rest) → (s.tile dst).run = some r → s.unit? r.unit = some u → r.unit = m.unit → r.stream? m.acc = some st → m.body ≠ .read → (s.tile dst).bankGrant = none → r.stall = none →
      Answers (.fabricAccWrite src dst) s fun t => (∃ r', (t.tile dst).run = some r' ∧ r'.acc = (r.takeLanding (landFabric (s.ctx dst r u) st m.row m.body)).acc
          ∧ r'.streams = (r.takeLanding (landFabric (s.ctx dst r u) st m.row m.body)).streams ∧ r'.lastRed = s.cycle dst)
        ∧ t.fabric.take rest.length = rest ∧ ((landFabric (s.ctx dst r u) st m.row m.body).sends = [] → t.fabric = rest))

/-- R34 to R37, R243 to R245: the first placed member of an idle tile starts with one WET window for each slot of its window list; where FREE windows are too few but others' DRY windows suffice it waits for the overflow trap, whose copy of the victim's first window begins; where those do not suffice it returns to READY, deferred. R34, R35, R231: 256 cycles after it began, the trap's copy stands in window 47, the victim's window is FREE and its list slot reads SPILLED, and the drain begins; the drain's end puts the copy into the victim's spill area and frees window 47; a start that waited goes on with the window it gained. -/
def Obligations.membersAndTrap : Prop :=
  (∀ a uid q u s, s.power = true → (s.tile a).queue = uid :: q → (s.tile a).run = none → (s.tile a).trapFor = none → s.unit? uid = some u → u.phase = .placed → u.home = none → u.tiles = [a] → u.member ≠ none →
      (s.tile a).bankOk (s.descOrder u) = true → s.awaited? a = false → s.gateAll u.client = true → s.frm.state = .ready → (s.dom (domOfTile a)).state = .active → s.inSpill u.entry = false →
      ((s.tile a).lacking u (s.client u.client).winSeq).length ≤ (s.tile a).freeList.length →
      Answers (.memberStart a) s fun t => ∃ r v, (t.tile a).run = some r ∧ r.unit = uid ∧ r.side = .main ∧ r.vreg = [] ∧ (t.tile a).queue = q.filter (· != uid) ∧ t.unit? uid = some v ∧ v.phase = .running ∧ v.runStart = s.now
        ∧ ∀ i, i < (s.client u.client).winSeq → ((t.tile a).findWet uid (.seq u.client u.entry i)).isSome = true)
  ∧ (∀ a uid q u c i k w l s, s.power = true → (s.tile a).queue = uid :: q → (s.tile a).run = none → (s.tile a).trapFor = none → s.unit? uid = some u → u.phase = .placed → u.home = none →
      (s.tile a).bankOk (s.descOrder u) = true → s.awaited? a = false → s.gateAll u.client = true → s.frm.state = .ready → (s.dom (domOfTile a)).state = .active → s.inSpill u.entry = false →
      (s.tile a).freeList.length < ((s.tile a).lacking u (s.client u.client).winSeq).length →
      ((s.tile a).lacking u (s.client u.client).winSeq).length ≤ (s.tile a).freeList.length + total ((s.victims a u.client u.entry).map fun v => ((s.tile a).seqWins v.1 v.2).length) →
      (s.tile a).spill = .idle → s.victim a u.client u.entry = some (c, i) → (s.tile a).seqWins c i = (k, w) :: l →
      Answers (.memberStart a) s fun t => (t.tile a).spill = .copying w i k (s.cycle a) ∧ (t.tile a).traps = satTo 0xFFFF ((s.tile a).traps + 1) ∧ (t.tile a).run = none
        ∧ (t.tile a).trapFor = some (uid, ((s.tile a).lacking u (s.client u.client).winSeq).length - (s.tile a).freeList.length))
  ∧ (∀ a uid q u s, s.power = true → (s.tile a).queue = uid :: q → (s.tile a).run = none → (s.tile a).trapFor = none → s.unit? uid = some u → u.phase = .placed → u.home = none →
      (s.tile a).bankOk (s.descOrder u) = true → s.awaited? a = false → s.gateAll u.client = true → s.frm.state = .ready → (s.dom (domOfTile a)).state = .active → s.inSpill u.entry = false →
      (s.tile a).freeList.length + total ((s.victims a u.client u.entry).map fun v => ((s.tile a).seqWins v.1 v.2).length) < ((s.tile a).lacking u (s.client u.client).winSeq).length →
      Answers (.memberStart a) s fun t => t.unit? uid = none ∧ (t.entry u.entry).state = .ready ∧ (t.entry u.entry).deferCount = satTo 255 ((s.entry u.entry).deferCount + 1)
        ∧ (t.client u.client).acct.deferred = (s.client u.client).acct.deferred + 1)
  ∧ (∀ a w e k b s, s.power = true → (s.tile a).spill = .copying w e k b → b + 256 ≤ s.cycle a → (s.tile a).trapFor = none → memWf (s.tile a).vat = true → w < 47 → k < (s.entry e).win.length →
      Answers (.spillCopyDone a) s fun t => (t.tile a).spill = .draining e k (s.cycle a) ∧ ((t.tile a).win w).state = .free ∧ (t.entry e).spilled = true ∧ (t.entry e).win.getD k 0 = 0x3F
        ∧ ∀ i, i < 65536 → memGet (t.tile a).vat (65536 * 47 + i) = memGet (s.tile a).vat (65536 * w + i))
  ∧ (∀ a w e k b uid n u j l s, s.power = true → (s.tile a).spill = .copying w e k b → b + 256 ≤ s.cycle a → (s.tile a).trapFor = some (uid, n + 2) → s.unit? uid = some u →
      ((s.tile a).freeWin w).lacking u (s.client u.client).winSeq = j :: l → w < 47 →
      Answers (.spillCopyDone a) s fun t => (t.tile a).trapFor = some (uid, n + 1) ∧ (t.tile a).win w = { state := .wet, owner := .seq u.client u.entry j, unit := uid } ∧ (t.tile a).spill = .draining e k (s.cycle a))
  ∧ (∀ a e k b s, s.power = true → (s.tile a).spill = .draining e k b → (s.tile a).trapFor = none → memWf (s.tile a).vat = true → memWf s.hbm = true →
      Answers (.spillDrainDone a) s fun t => (t.tile a).spill = .idle ∧ (∀ i, i < 65536 → memGet t.hbm ((s.entry e).spillAddr + 65536 * k + i) = memGet (s.tile a).vat (65536 * 47 + i))
        ∧ (∀ x, x < (s.entry e).spillAddr + 65536 * k ∨ (s.entry e).spillAddr + 65536 * k + 65536 ≤ x → memGet t.hbm x = memGet s.hbm x)
        ∧ ∀ i, i < 65536 → memGet (t.tile a).vat (65536 * 47 + i) = 0)

/-- R24, R43, R44, R48, R91: at its commit instant a unit's WET windows become DRY and its run is over on every tile; its staged bytes wait for the drain, its partition counts a commit, and a member's sequence advances; the record follows at the end of the drain. -/
def Obligations.commits : Prop :=
  (∀ uid u s, s.power = true → s.unit? uid = some u → u.phase = .ready → u.waitReady = [] → u.home = none → u.pairTiles = [] → u.thirdTiles = [] → u.kind ≠ kMOVE →
      Answers (.commitInstant uid) s fun t => (∃ v, t.unit? uid = some v ∧ v.phase = .committed ∧ v.commitT = s.now ∧ v.flags = s.sideFlags u .main) ∧ (t.part u.part).commits = (s.part u.part).commits + 1
        ∧ (∀ a ∈ u.tiles, (∀ r, (t.tile a).run = some r → r.unit ≠ uid) ∧ ∀ w, ((t.tile a).win w).wetOf uid = true → ∃ c i n, ((t.tile a).win w).owner = .staged c i n)
        ∧ (∀ a ∈ u.tiles, ∀ w n i j, (s.tile a).windows = [(w, { state := .wet, owner := .record n i j, unit := uid })] → (t.tile a).win w = { state := .dry, owner := .record n i j, unit := 0 }))
  ∧ (∀ uid u m a s, s.power = true → s.unit? uid = some u → u.phase = .ready → u.waitReady = [] → u.home = none → u.pairTiles = [] → u.thirdTiles = [] → u.kind = kLOT → u.member = some m → u.tiles = [a] →
      s.sideEos u .main = false → (s.entry m.entry).retirePend = false →
      Answers (.commitInstant uid) s fun t => (t.entry m.entry).step = (s.entry m.entry).step + 1 ∧ (t.entry m.entry).lastCommit = s.now ∧ (t.entry m.entry).deferCount = 0
        ∧ (t.entry m.entry).lateCount = (if m.deadline < s.now then satTo 0xFFFF ((s.entry m.entry).lateCount + 1) else (s.entry m.entry).lateCount) ∧ (t.entry m.entry).res = a)
  ∧ (∀ uid u s, s.power = true → s.unit? uid = some u → u.phase = .committed → u.waitWr = [] → u.waitFlip = [] → u.others = [] → s.earlierCommit u = false → u.waitMerge = [] → u.staged = [] → u.member = none → u.home = none → Unheld s u.client → (s.client u.client).lots = [] → (s.queue u.client u.q).late = [] →
      (s.client u.client).admits = [] → (s.part (s.client u.client).bindPart).switch = none →
      Answers (.postCommitDrainDone uid) s fun t => Ended s t u ∧ ∀ r ∈ (t.queue u.client u.q).tags, (∃ d ∈ (s.queue u.client u.q).accepted, d.ofHead u.ordinal = true ∧ d.ordinal = r.ordinal) →
        r.status = some (if u.status = 0 then 1 else u.status))
  ∧ (∀ uid u k v s, s.power = true → s.unit? uid = some u → u.phase = .committed → u.waitWr = [] → u.waitFlip = [] → u.others = [] → s.earlierCommit u = false → u.waitMerge = [] → u.staged = [(k, v)] → u.halves = [] → (s.client u.client).lots = [] → (s.queue u.client u.q).late = [] → (s.client u.client).admits = [] →
      (s.part (s.client u.client).bindPart).switch = none → u.member = none → u.home = none →
      keySpace k = 1 → keyWafer k = s.frm.waferId → s.hbmWaits (bits k 51 0) 1 = false → bits k 51 0 < s.hbmTop → s.frm.unmapped = [] → s.trace.en = false → (s.queue u.client u.q).cbaseLoc = 0 →
      Answers (.postCommitDrainDone uid) s fun t => t.hbm = memPut s.hbm (bits k 51 0) v)

/-- R307 to R311, R49: a paired unit whose digests agree commits, one whose digests differ counts a mismatch and waits for a third run, or ends with PAIR_FAIL where no arbiter stands by; a third run starts on the arbiter's tiles; where it confirms neither side the unit ends with PAIR_FAIL. -/
def Obligations.pairedUnits : Prop :=
  (∀ uid u s, s.power = true → s.unit? uid = some u → u.phase = .ready → u.waitReady = [] → u.home = none → u.pairTiles ≠ [] → s.digestOf u .main ≠ s.digestOf u .pair → s.flt.arbEn = true →
      exec (.commitInstant uid) s = .next ((s.modFlt fun f => { f with mismatch := f.mismatch + 1, thirds := f.thirds ++ [uid] }).modUnit uid fun v => { v with
        phase := .third, digest := some (s.digestOf u .main), pairDigest := some (s.digestOf u .pair) }))
  ∧ (∀ uid u s, s.power = true → s.unit? uid = some u → u.phase = .ready → u.waitReady = [] → u.home = none → u.pairTiles ≠ [] → s.digestOf u .main ≠ s.digestOf u .pair → s.flt.arbEn = false →
      Answers (.commitInstant uid) s fun t => Ended s t u ∧ t.flt.mismatch = s.flt.mismatch + 1 ∧ t.flt.pairFail = s.flt.pairFail + 1)
  ∧ (∀ uid u s, s.power = true → s.unit? uid = some u → u.phase = .third → s.flt.thirds.head? = some uid → u.thirdTiles = [] → s.flt.arbEn = true → (s.tilesOf s.flt.arbPart).all (fun a => (s.tile a).run.isNone) = true →
      s.tilesOf s.flt.arbPart ≠ [] → s.awake (s.tilesOf s.flt.arbPart) = true → (∀ i ∈ s.flt.thirds, ∀ v, s.unit? i = some v → v.thirdTiles = []) → u.member = none → ThirdFits s u →
      Answers (.thirdRunStart uid) s fun t => ∃ v, t.unit? uid = some v ∧ v.thirdTiles = s.tilesOf s.flt.arbPart ∧ v.phase = .third
        ∧ ∀ a ∈ s.tilesOf s.flt.arbPart, ∃ r, (t.tile a).run = some r ∧ r.unit = uid ∧ r.side = .third)
  ∧ (∀ uid u s, s.power = true → s.unit? uid = some u → u.phase = .third → u.thirdTiles ≠ [] → s.sideReady uid u.thirdTiles = true → some (s.digestOf u .third) ≠ u.digest → some (s.digestOf u .third) ≠ u.pairDigest →
      Answers (.thirdRunDone uid) s fun t => Ended s t u ∧ t.flt.pairFail = s.flt.pairFail + 1 ∧ uid ∉ t.flt.thirds)
  ∧ (∀ uid u s, s.power = true → s.unit? uid = some u → u.phase = .third → u.thirdTiles ≠ [] → s.sideReady uid u.thirdTiles = true → some (s.digestOf u .third) = u.digest →
      u.home = none → (∀ pt ∈ s.guilty u .pair, Steady s 0 pt) → (s.guilty u .pair).Nodup → Answers (.thirdRunDone uid) s fun t => ∃ v, t.unit? uid = some v ∧ v.phase = .committed ∧ v.commitT = s.now ∧ v.retries = u.retries + 1)

/-- R49, R94, R130, R131, R163, R274: a killed unit starts again from its beginning; pass 2 of a CURRENT unit begins once every tile has ended pass 1, with everything that R22 zeroes at 0; an eligible bank becomes active once nothing that started before it became so runs, and waits until then. -/
def Obligations.rerunsAndSwaps : Prop :=
  (∀ uid u s, s.power = true → s.unit? uid = some u → u.phase = .killed → u.member = none → u.home = none → u.waitFlip = [] → s.gateAll u.client = true → s.frm.state = .ready → u.kind = kOP → u.pairTiles = [] → s.rerunLater u = false → s.banksReady u (s.tilesOf u.part) = true →
      s.allIdle (s.tilesOf u.part) = true → s.awake (s.tilesOf u.part) = true → Fits s { u with tiles := s.tilesOf u.part, pairTiles := [], first := spreadFirst (s.spread u.part) s.frm.waferId, total := spreadTotal (s.spread u.part), stages := s.resampleStages u.client u.stages } →
      Answers (.unitRerunStart uid) s fun t => ∃ v, t.unit? uid = some v ∧ v.phase = .running ∧ v.runStart = s.now ∧ v.retries = u.retries ∧ v.tiles = s.tilesOf u.part
        ∧ ∀ a ∈ s.tilesOf u.part, ∃ r, (t.tile a).run = some r ∧ r.unit = uid ∧ r.vreg = [] ∧ r.acc = [])
  ∧ (∀ uid u a (r : TileRun) s, s.power = true → s.unit? uid = some u → u.tiles = [a] → u.pairTiles = [] → u.thirdTiles = [] → u.home = none → u.others = [] → u.merges = [] → (s.tile a).run = some r → r.unit = uid → r.ready = true → r.pass = 1 →
      (s.modUnit uid fun x => { x with merges := [], merged := (x.merged.filter fun y => y.1 / 1024 != 0) ++ (s.passOne u .main).map fun y => (1024 * 0 + y.1, y.2) }).twoCodes (a, r)
        { u with merges := [], merged := (u.merged.filter fun y => y.1 / 1024 != 0) ++ (s.passOne u .main).map fun y => (1024 * 0 + y.1, y.2) } = [] →
      Answers (.currentMergeDone uid) s fun t => ∃ r' v, (t.tile a).run = some r' ∧ r'.pass = 2 ∧ r'.ready = false ∧ r'.vreg = [] ∧ r'.mask = [] ∧ r'.acc = [] ∧ r'.pos = 0 ∧ r'.flags = r.preFlags
        ∧ t.unit? uid = some v ∧ v.merged = (u.merged.filter fun x => x.1 / 1024 != 0) ++ (s.passOne u .main).map fun x => (x.1, x.2))
  ∧ (∀ a s, s.power = true → (s.tile a).pal.pending = true → s.bankInUse a (s.tile a).pal.since = false →
      exec (.paletteBankSwap a) s = .next (s.modTile a fun t => { t with pal := { t.pal with active := 1 - t.pal.active, pending := false, swaps := satTo 0xFFFF (t.pal.swaps + 1) } }))
  ∧ (∀ a s, s.power = true → (s.tile a).tbl.pending = true → s.bankInUse a (s.tile a).tbl.since = false →
      exec (.tableBankSwap a) s = .next (s.modTile a fun t => { t with tbl := { t.tbl with active := 1 - t.tbl.active, pending := false, swaps := satTo 0xFFFF (t.tbl.swaps + 1) } }))
  ∧ (∀ a s, s.power = true → s.bankInUse a (s.tile a).pal.since = true → exec (.paletteBankSwap a) s = .next s)
  ∧ (∀ a s, s.power = true → s.bankInUse a (s.tile a).tbl.since = true → exec (.tableBankSwap a) s = .next s)

set_option maxRecDepth 4096 in
-- A clause in (… :) is elaborated by itself, not with all the others.
/-- For each of the 226 commands of the table, in the order of the table, one clause: under conditions on the state and the operands alone, those under which the spec has the command act, exec answers a next state, and the clause names what of the command's own effect that state holds. The statements on the single families say the rest of the effect, and where a command has none. -/
def Obligations.everyCommandCompletes : Prop :=
  (∀ a r u l s, MayIssue s a r u l → l = bare l →
      ∃ t, exec (.longWordIssue a) s = .next t ∧ ∃ r', (t.tile a).run = some r' ∧ r'.nextCyc = r.nextCyc + 1 ∧ r'.inflight = [] ∧ r'.flags = r.flags ∧ r'.vreg = r.vreg ∧ (r.rho < l.rep → r'.rho = r.rho + 1 ∧ r'.pos = r.pos ∧ r'.off = r.off) :)
  ∧ (∀ a r u w rho b e s, s.power = true → (s.tile a).run = some r → s.unit? r.unit = some u → r.inflight = [] → r.stall = some (.syn w rho b e) → r.synWaits w.toNat rho = false → r.nextCyc ≤ s.cycle a → r.lastRed ≤ r.nextCyc → (s.tile a).bankHits = [] →
      s.slotMay a r u = true → clashes r [] (r.synFlight r.nextCyc w.toNat rho) = false →
      ∃ t, exec (.synDeferredIssue a) s = .next t ∧ ∃ r', (t.tile a).run = some r' ∧ r'.stall = none ∧ r'.inflight = r.synFlight r.nextCyc w.toNat rho ∧ r'.nextCyc = r.nextCyc + 1 :)
  ∧ (∀ uid u n s, s.power = true → s.unit? uid = some u → u.home = none → u.others = [] → u.pairTiles = [] → u.thirdTiles = [] → u.tiles ≠ [] → (∀ a ∈ u.tiles, (s.tile a).barrier? uid = some n) →
      ∃ t, exec (.barrierRelease uid) s = .next t ∧ ∀ a ∈ u.tiles, ∃ r, (t.tile a).run = some r ∧ r.unit = uid ∧ r.stall = none :)
  ∧ (∀ a r u v sel b tag f s, s.power = true → (s.tile a).run = some r → s.unit? r.unit = some u → r.inflight = [f] → f.due ≤ s.cycle a → f.w = .vreg v sel b tag →
      ∃ t, exec (.slotComplete a) s = .next t ∧ ∃ r', (t.tile a).run = some r' ∧ r'.inflight = [] ∧ r'.v v = (r.v v &&& ~~~sel) ||| (b &&& sel) ∧ r'.tag v = tag ∧ (∀ x, x ≠ v → r'.v x = r.v x) ∧ r'.acc = r.acc ∧ r'.mask = r.mask :)
  ∧ (∀ a r u s, s.power = true → (s.tile a).run = some r → s.unit? r.unit = some u → r.inflight = [] → r.ended = true → r.ready = false → r.stall = none → r.stopped = false →
      dKind (u.stageAt r.stage).desc ≠ kHANDOFF → u.stages.length ≤ r.stage + 1 → r.pass ≠ 1 → u.phase = .running → u.tiles = [a] → u.pairTiles = [] → u.home = none →
      ∃ t, exec (.tileReady a) s = .next t ∧ ∃ r' v, (t.tile a).run = some r' ∧ r'.ready = true ∧ r'.vreg = r.vreg ∧ t.unit? r.unit = some v ∧ v.phase = .ready :)
  ∧ (∀ a r u x cl k b n since o w off s, s.power = true → (s.tile a).run = some r → s.unit? r.unit = some u → r.stall = some (.remote (.tile x cl k b) n none since) → s.locateVat cl k b = some (o, w, off) → s.readFirst a = true →
      (s.partOfTile o).any s.flipWaits = false →
      ∃ t, exec (.remoteReadRequest a) s = .next t ∧ ∃ r', (t.tile a).run = some r' ∧ r'.stall = some (.remote (.tile o cl k b) n (some (memRead (s.tile o).vat (65536 * w + off) n)) since) :)
  ∧ (∀ a r u x n since l w h b s, s.power = true → (s.tile a).run = some r → s.unit? r.unit = some u → r.stall = some (.remote (.hbm x) n none since) → s.flt.reissues = [] → s.hbmWaits x n = false → s.slotMay a r u = true →
      r.inflight = [] → (s.tile a).bankHits = [] → since ≤ s.cycle a → r.nextCyc ≤ s.cycle a → longWord (s.tile a).tbl.bank r.off = l → l = { bare l with ld := some w } →
      l.decodeCodes (fun i => ((s.ctx a r u).handle i).isSome) r.loops (s.ctx a r u).len r.pos = [] → (s.ctx a r u).handle (ldHnd w) = some h → ldStBlock (s.ctx a r u) r w r.rho h = (b, true) →
      s.ldFrom (s.ctx a r u) r u h (ldHnd w) b (ldStBytes w) = .remote (.hbm x) →
      ∃ t, exec (.remoteReadData a) s = .next t ∧ ∃ r', (t.tile a).run = some r' ∧ r'.stall = none ∧ r'.nextCyc = s.cycle a + 1 ∧ r'.inflight = [{ due := s.cycle a + 3, slot := .ld, w := .vreg (bits w 4 0) (BitVec.allOnes 2048) (vLoad h.width (clipTail (s.ctx a r u) h b (s.hbmRead x n))) h.fmt }] :)
  ∧ (∀ src dst m rest r u st s, s.power = true → takeMsg src dst s.fabric = some (m, rest) → (s.tile dst).run = some r → s.unit? r.unit = some u → r.unit = m.unit → r.stream? m.acc = some st → m.body ≠ .read → (s.tile dst).bankGrant = none → r.stall = none →
      ∃ t, exec (.fabricAccWrite src dst) s = .next t ∧ (∃ r', (t.tile dst).run = some r' ∧ r'.acc = (r.takeLanding (landFabric (s.ctx dst r u) st m.row m.body)).acc ∧ r'.streams = (r.takeLanding (landFabric (s.ctx dst r u) st m.row m.body)).streams ∧ r'.lastRed = s.cycle dst) :)
  ∧ (∀ a uid q u s, s.power = true → (s.tile a).queue = uid :: q → (s.tile a).run = none → (s.tile a).trapFor = none → s.unit? uid = some u → u.phase = .placed → u.home = none → u.tiles = [a] → u.member ≠ none →
      (s.tile a).bankOk (s.descOrder u) = true → s.awaited? a = false → s.gateAll u.client = true → s.frm.state = .ready → (s.dom (domOfTile a)).state = .active → s.inSpill u.entry = false →
      ((s.tile a).lacking u (s.client u.client).winSeq).length ≤ (s.tile a).freeList.length →
      ∃ t, exec (.memberStart a) s = .next t ∧ ∃ r v, (t.tile a).run = some r ∧ r.unit = uid ∧ r.side = .main ∧ r.vreg = [] ∧ (t.tile a).queue = q.filter (· != uid) ∧ t.unit? uid = some v ∧ v.phase = .running ∧ v.runStart = s.now :)
  ∧ (∀ a w e k b s, s.power = true → (s.tile a).spill = .copying w e k b → b + 256 ≤ s.cycle a → (s.tile a).trapFor = none → memWf (s.tile a).vat = true → w < 47 → k < (s.entry e).win.length →
      ∃ t, exec (.spillCopyDone a) s = .next t ∧ (t.tile a).spill = .draining e k (s.cycle a) ∧ ((t.tile a).win w).state = .free ∧ (t.entry e).spilled = true ∧ (t.entry e).win.getD k 0 = 0x3F ∧ ∀ i, i < 65536 → memGet (t.tile a).vat (65536 * 47 + i) = memGet (s.tile a).vat (65536 * w + i) :)
  ∧ (∀ a e k b s, s.power = true → (s.tile a).spill = .draining e k b → (s.tile a).trapFor = none → memWf (s.tile a).vat = true → memWf s.hbm = true →
      ∃ t, exec (.spillDrainDone a) s = .next t ∧ (t.tile a).spill = .idle ∧ (∀ i, i < 65536 → memGet t.hbm ((s.entry e).spillAddr + 65536 * k + i) = memGet (s.tile a).vat (65536 * 47 + i)) :)
  ∧ (∀ uid u s, s.power = true → s.unit? uid = some u → u.phase = .ready → u.waitReady = [] → u.home = none → u.pairTiles = [] → u.thirdTiles = [] → u.kind ≠ kMOVE →
      ∃ t, exec (.commitInstant uid) s = .next t ∧ (∃ v, t.unit? uid = some v ∧ v.phase = .committed ∧ v.commitT = s.now ∧ v.flags = s.sideFlags u .main) ∧ (t.part u.part).commits = (s.part u.part).commits + 1 :)
  ∧ (∀ uid u s, s.power = true → s.unit? uid = some u → u.phase = .third → s.flt.thirds.head? = some uid → u.thirdTiles = [] → s.flt.arbEn = true → (s.tilesOf s.flt.arbPart).all (fun a => (s.tile a).run.isNone) = true →
      s.tilesOf s.flt.arbPart ≠ [] → s.awake (s.tilesOf s.flt.arbPart) = true → (∀ i ∈ s.flt.thirds, ∀ v, s.unit? i = some v → v.thirdTiles = []) → u.member = none → ThirdFits s u →
      ∃ t, exec (.thirdRunStart uid) s = .next t ∧ ∃ v, t.unit? uid = some v ∧ v.thirdTiles = s.tilesOf s.flt.arbPart ∧ v.phase = .third ∧ ∀ a ∈ s.tilesOf s.flt.arbPart, ∃ r, (t.tile a).run = some r ∧ r.unit = uid ∧ r.side = .third :)
  ∧ (∀ uid u s, s.power = true → s.unit? uid = some u → u.phase = .third → u.thirdTiles ≠ [] → s.sideReady uid u.thirdTiles = true → some (s.digestOf u .third) = u.digest →
      u.home = none → (∀ pt ∈ s.guilty u .pair, Steady s 0 pt) → (s.guilty u .pair).Nodup →
      ∃ t, exec (.thirdRunDone uid) s = .next t ∧ ∃ v, t.unit? uid = some v ∧ v.phase = .committed ∧ v.commitT = s.now ∧ v.retries = u.retries + 1 :)
  ∧ (∀ uid u s, s.power = true → s.unit? uid = some u → u.phase = .committed → u.waitWr = [] → u.waitFlip = [] → u.others = [] → s.earlierCommit u = false → u.waitMerge = [] → u.staged = [] → u.member = none → u.home = none → Unheld s u.client → (s.client u.client).lots = [] → (s.queue u.client u.q).late = [] →
      (s.client u.client).admits = [] → (s.part (s.client u.client).bindPart).switch = none →
      ∃ t, exec (.postCommitDrainDone uid) s = .next t ∧ Ended s t u ∧ ∀ r ∈ (t.queue u.client u.q).tags, (∃ d ∈ (s.queue u.client u.q).accepted, d.ofHead u.ordinal = true ∧ d.ordinal = r.ordinal) → r.status = some (if u.status = 0 then 1 else u.status) :)
  ∧ (∀ n q s, s.power = true → q < 2 → (s.queue n q).pend ≠ 0 → (s.queue n q).coalTime ≠ 0 → (s.queue n q).oldest + 1000 * (s.queue n q).coalTime ≤ s.now →
      (s.client n).func.funcMask = false → q ∉ (s.client n).func.masked → s.canDma n = true →
      exec (.coalesceTimer n q) s = .next { (s.modQueue n q fun x => { x with pend := 0 }) with out := .msix n q :: s.out } :)
  ∧ (∀ uid u s, s.power = true → s.unit? uid = some u → u.phase = .killed → u.member = none → u.home = none → u.waitFlip = [] → s.gateAll u.client = true → s.frm.state = .ready → u.kind = kOP → u.pairTiles = [] → s.rerunLater u = false → s.banksReady u (s.tilesOf u.part) = true →
      s.allIdle (s.tilesOf u.part) = true → s.awake (s.tilesOf u.part) = true → Fits s { u with tiles := s.tilesOf u.part, pairTiles := [], first := spreadFirst (s.spread u.part) s.frm.waferId, total := spreadTotal (s.spread u.part), stages := s.resampleStages u.client u.stages } →
      ∃ t, exec (.unitRerunStart uid) s = .next t ∧ ∃ v, t.unit? uid = some v ∧ v.phase = .running ∧ v.runStart = s.now ∧ v.retries = u.retries ∧ v.tiles = s.tilesOf u.part ∧ ∀ a ∈ s.tilesOf u.part, ∃ r, (t.tile a).run = some r ∧ r.unit = uid ∧ r.vreg = [] ∧ r.acc = [] :)
  ∧ (∀ uid u a (r : TileRun) s, s.power = true → s.unit? uid = some u → u.tiles = [a] → u.pairTiles = [] → u.thirdTiles = [] → u.home = none → u.others = [] → u.merges = [] → (s.tile a).run = some r → r.unit = uid → r.ready = true → r.pass = 1 →
      (s.modUnit uid fun x => { x with merges := [], merged := (x.merged.filter fun y => y.1 / 1024 != 0) ++ (s.passOne u .main).map fun y => (1024 * 0 + y.1, y.2) }).twoCodes (a, r)
      { u with merges := [], merged := (u.merged.filter fun y => y.1 / 1024 != 0) ++ (s.passOne u .main).map fun y => (1024 * 0 + y.1, y.2) } = [] →
      ∃ t, exec (.currentMergeDone uid) s = .next t ∧ ∃ r' v, (t.tile a).run = some r' ∧ r'.pass = 2 ∧ r'.ready = false ∧ r'.vreg = [] ∧ r'.mask = [] ∧ r'.acc = [] ∧ r'.pos = 0 ∧ r'.flags = r.preFlags ∧ t.unit? uid = some v :)
  ∧ (∀ a s, s.power = true → (s.tile a).pal.pending = true → s.bankInUse a (s.tile a).pal.since = false →
      exec (.paletteBankSwap a) s = .next (s.modTile a fun t => { t with pal := { t.pal with active := 1 - t.pal.active, pending := false, swaps := satTo 0xFFFF (t.pal.swaps + 1) } }) :)
  ∧ (∀ a s, s.power = true → (s.tile a).tbl.pending = true → s.bankInUse a (s.tile a).tbl.since = false →
      exec (.tableBankSwap a) s = .next (s.modTile a fun t => { t with tbl := { t.tbl with active := 1 - t.tbl.active, pending := false, swaps := satTo 0xFFFF (t.tbl.swaps + 1) } }) :)
  ∧ (∀ n q l s, s.power = true → s.canFetch n q = true → (s.queue n q).fetchFail = none → (s.queue n q).baseLoc = 0 →
      exec (.descriptorFetch n q (.data l)) s = .next { (s.modQueue n q fun x => { x with fetched := x.fetched ++ l.take x.fetchCount }) with
        out := .hostRead n (s.queue n q).fetchAddr (64 * (s.queue n q).fetchCount) :: s.out } :)
  ∧ (∀ n q c t0 l s, s.power = true → s.canFetch n q = true → (s.queue n q).fetchFail = some { cause := c, at_ := t0 } → t0 + 1000000 ≤ s.now → (s.queue n q).baseLoc = 0 →
      exec (.fetchRetry n q (.data l)) s = .next { (s.modQueue n q fun x => { x with fetched := x.fetched ++ l.take x.fetchCount, fetchFail := none }) with
        out := .hostRead n (s.queue n q).fetchAddr (64 * (s.queue n q).fetchCount) :: s.out } :)
  ∧ (∀ n q d r s, s.power = true → s.canAccept n q = true → (s.queue n q).fetched = d :: r → (∀ a ∈ (s.queue n q).accepted, a.fault = 0 ∧ a.chainOpen = false) →
      acceptCodes (s.queue n q) d 0 = [] → dChain d = false →
      ∃ t, exec (.descriptorAccept n q) s = .next t ∧ (t.queue n q).cc = (s.queue n q).cc + 1 ∧ (t.queue n q).fetched = r ∧ (t.queue n q).acceptedCount = ((s.queue n q).acceptedCount + 1) % 2 ^ 64 :)
  ∧ (∀ n q tag (d : ADesc) k s, s.power = true → s.waiting? n q tag = some d → d.timer + 1000 * (s.client n).depTimeout ≤ s.now → k < 3 → s.depState n q d.desc k = .unseen →
      (s.client n).dbg.halted = false → ((s.queue n q).cbaseLoc = 1 ∨ s.canDma n = true) → (s.client n).func.held = [] →
      ∃ t, exec (.depTimeout n q tag) s = .next t ∧ (t.queue n q).accepted = (s.queue n q).accepted.filter (fun x => !x.ofHead d.ordinal) ∧ (t.queue n q).ccount = (s.queue n q).ccount + 1 :)
  ∧ (∀ n q tag d s, CanStart s n q tag kOP d → s.roomForUnit n = true → s.allIdle (s.seatTiles n) = true →
      (∀ a ∈ s.seatTiles n, (s.tile a).pal.pending = false ∧ (s.tile a).tbl.pending = false ∧ (s.tile a).queue = []) → s.unit? s.nextUnit = none → Fits s (unitOf s n q d) →
      ∃ t, exec (.op n q tag) s = .next t ∧ ∃ u, Begun s t n q d u ∧ u.phase = .running ∧ u.kind = kOP ∧ u.tiles = s.tilesOf (s.client n).bindPart :)
  ∧ (∀ n q tag d s, CanStart s n q tag kMOVE d → s.roomForUnit n = true → s.unit? s.nextUnit = none → Fits s (unitOf s n q d) →
      ∃ t, exec (.move n q tag) s = .next t ∧ ∃ u, Begun s t n q d u ∧ u.kind = kMOVE ∧ ((u.phase = .ready ∧ u.waitRd = []) ∨ (u.phase = .running ∧ u.waitRd ≠ [])) :)
  ∧ (∀ n q tag d s, CanStart s n q tag kLOT d → (s.client n).build = none → (∀ x, (s.client n).lastBuild = some x → x + 1000 * (s.client n).lotInterval ≤ s.now) → s.lot? n q d.ordinal = none →
      ∃ t, exec (.lot n q tag) s = .next t ∧ ∃ b l, (t.client n).build = some b ∧ b.tb = s.now ∧ b.q = q ∧ b.tag = tag ∧ b.ordinal = d.ordinal ∧ (t.client n).lastBuild = some s.now ∧ t.lot? n q d.ordinal = some l ∧ l.building = true ∧ l.start = s.now ∧ l.placed = b.placed.length :)
  ∧ (∀ n q tag d a s, CanStart s n q tag kSEQ d → seqSub d.desc = 1 → s.recordsDone n q = true → (s.client n).admits = [] → (s.client n).build = none → ((s.client n).out.enable = false ∨ (s.client n).out.free ≠ 0) →
      s.stk.rebuilding = none → Unheld s n → s.refusal n d = 0 → s.spillArea n = some a → s.frm.role ≠ 2 → s.stackCount n < (s.client n).stackQuota →
      ∃ t, exec (.seqAdmit n q tag) s = .next t ∧ RimDone s t n q d ∧ t.entry (seqIdOf d.desc % 2 ^ 17) = { client := n, state := .admitted, period := seqArg d.desc, deadline := firstDeadline d, spillAddr := a } :)
  ∧ (∀ n q tag d i s, CanStart s n q tag kSEQ d → seqSub d.desc = 2 → s.recordsDone n q = true → (s.client n).build = none → ((s.client n).out.enable = false ∨ (s.client n).out.free ≠ 0) → Unheld s n →
      seqIdOf d.desc % 2 ^ 17 = i → (s.entry i).state ≠ .retiring →
      ∃ t, exec (.seqRetire n q tag) s = .next t ∧ RimDone s t n q d ∧ t.entry i = (if (s.entry i).state = .running then { s.entry i with retirePend := true } else { s.entry i with state := .retiring }) :)
  ∧ (∀ n q tag d i s, CanStart s n q tag kSEQ d → seqSub d.desc = 3 → s.recordsDone n q = true → (s.client n).build = none → Unheld s n → seqIdOf d.desc % 2 ^ 17 = i → (s.entry i).state ≠ .retiring →
      ∃ t, exec (.seqKick n q tag) s = .next t ∧ RimDone s t n q d ∧ t.entry i = (if (s.entry i).state = .running
        then { s.entry i with kicked := true, deadline := if dDeadline d.desc = 0 then (s.entry i).deadline else dDeadline d.desc, dlSet := (s.entry i).dlSet || dDeadline d.desc != 0 }
        else { s.entry i with state := .ready, kicked := false, deadline := if dDeadline d.desc = 0 then (s.entry i).deadline else dDeadline d.desc }) :)
  ∧ (∀ n q tag d i s, CanStart s n q tag kSEQ d → seqSub d.desc = 4 → s.recordsDone n q = true → (s.client n).build = none → Unheld s n → seqIdOf d.desc % 2 ^ 17 = i → (s.entry i).state ≠ .retiring →
      ∃ t, exec (.seqSetDeadline n q tag) s = .next t ∧ RimDone s t n q d ∧ t.entry i = { s.entry i with deadline := dDeadline d.desc, dlSet := (s.entry i).dlSet || (s.entry i).state == .running } :)
  ∧ (∀ n q tag d i s, CanStart s n q tag kSEQ d → seqSub d.desc = 5 → s.recordsDone n q = true → (s.client n).build = none → Unheld s n → seqIdOf d.desc % 2 ^ 17 = i → (s.entry i).state ≠ .retiring →
      ∃ t, exec (.seqSetPeriod n q tag) s = .next t ∧ RimDone s t n q d ∧ t.entry i = { s.entry i with period := seqArg d.desc } :)
  ∧ (∀ n q tag d i s, CanStart s n q tag kSEQ d → seqSub d.desc = 6 → s.recordsDone n q = true → (s.client n).build = none → Unheld s n → seqIdOf d.desc % 2 ^ 17 = i → (s.entry i).state ≠ .retiring →
      ∃ t, exec (.seqSetCounts n q tag) s = .next t ∧ RimDone s t n q d ∧ t.entry i = { s.entry i with m0 := bits (seqArg d.desc) 15 0, m1 := bits (seqArg d.desc) 31 16 } :)
  ∧ (∀ n q tag d h s, CanStart s n q tag kPALETTE d → s.roomForUnit n = true → s.storeBusy n true = false → s.unit? s.nextUnit = none → s.trace.en = false →
      ((unitOf s n q d).stageAt 0).handles.getD 0 none = some h → (h.cls = 2 ∨ h.cls = 3 → h.wafer = s.frm.waferId) →
      palImageOk (s.operand { unitOf s n q d with image := memPutAll [] ((s.tensorOf n h (moveSeq d.desc)).map fun x => (2 ^ 48 * 0 + x.1, x.2)) } 0 h) = true →
      ∃ t, exec (.palette n q tag) s = .next t ∧ ∃ u, Begun s t n q d u ∧ u.kind = kPALETTE ∧ u.phase = .ready :)
  ∧ (∀ n q tag d h s, CanStart s n q tag kTABLE d → s.roomForUnit n = true → s.storeBusy n false = false → s.unit? s.nextUnit = none → s.trace.en = false →
      ((unitOf s n q d).stageAt 0).handles.getD 0 none = some h → (h.cls = 2 ∨ h.cls = 3 → h.wafer = s.frm.waferId) →
      ∃ t, exec (.table n q tag) s = .next t ∧ ∃ u, Begun s t n q d u ∧ u.kind = kTABLE ∧ u.phase = .ready :)
  ∧ (∀ n q tag d s, CanStart s n q tag kFENCE d → s.recordsDone n q = true → Unheld s n →
      ∃ t, exec (.fence n q tag) s = .next t ∧ RimDone s t n q d ∧ t.north = s.north ∧ t.units = s.units :)
  ∧ (∀ n q tag d s, CanStart s n q tag kMARK d → s.recordsDone n q = true → Unheld s n →
      ∃ t, exec (.mark n q tag) s = .next t ∧ RimDone s t n q d ∧ (t.client n).lastMark = BitVec.ofNat 64 (dParam d.desc) :)
  ∧ (∀ n q tag d s, CanStart s n q tag kRECORD d → s.recordsDone n q = true → Unheld s n → s.trace.en = false → (s.queue n q).cbaseLoc = 0 →
      ∃ t, exec (.record n q tag) s = .next t ∧ RimDone s t n q d ∧ ∀ a w i j, ((t.tile a).win w).state = .dry → ((t.tile a).win w).owner = .record n i j → bits (dHandle d.desc 0) 15 0 ≤ i % 2 ^ 16 → i % 2 ^ 16 < bits (dHandle d.desc 0) 15 0 + dTableLen d.desc → t.staleRec (.record n i j) = false :)
  ∧ (∀ n q tag d p s, CanStart s n q tag kHANDOFF d → s.roomForUnit n = true → s.unit? s.nextUnit = none → Fits s (unitOf s n q d) → (unitOf s n q d).others = [] →
      ((unitOf s n q d).stageAt 0).handles.all (fun o => match o with | some h => (h.cls != 2 && h.cls != 3) || h.wafer == s.frm.waferId | none => true) = true → s.fmtsOk (unitOf s n q d) 0 = true → s.handoffsTo (handoffPartner d.desc) < s.maxOut (handoffPartner d.desc) →
      s.route (handoffPartner d.desc) = some p →
      ∃ t, exec (.handoff (.descriptor n q tag)) s = .next t ∧ ∃ u, t.unit? s.nextUnit = some u ∧ u.phase = .running ∧ u.client = n ∧ u.tag = dTag d.desc ∧ u.handoff = some { partner := handoffPartner d.desc, tid := s.stk.nextTid, firstSend := s.now, outstanding := true } :)
  ∧ (∀ n q pc s, Live s → ((s.queue n q).state = .running ∨ (s.queue n q).state = .stopped) →
      (pc - (s.queue n q).cc).toNat ≤ 2 ^ (s.queue n q).log2 → (pc - (s.queue n q).pc).toNat ≤ 2 ^ (s.queue n q).log2 →
      ∃ t, exec (.cliDbQ n q pc) s = .next t ∧ t.queue n q = { s.queue n q with
        pc := pc, doorbells := if pc = (s.queue n q).pc then (s.queue n q).doorbells else (s.queue n q).doorbells ++ [(pc, s.now)] } :)
  ∧ (∀ n q c s, Live s → ((s.queue n q).state = .running ∨ (s.queue n q).state = .stopped) →
      (c - (s.queue n q).consumed).toNat ≤ ((s.queue n q).ccount - (s.queue n q).consumed).toNat →
      exec (.cliDbC n q c) s = .next (s.modQueue n q fun x => { x with consumed := c }) :)
  ∧ (∀ n c s, Live s → (s.client n).out.enable = true → (c - (s.client n).out.consumed).toNat ≤ ((s.client n).out.count - (s.client n).out.consumed).toNat → (s.client n).lostSeqs = [] →
      exec (.cliDbOut n c) s = .next { s with clients := tabMod {} s.clients n fun x => { x with out := { x.out with consumed := c } } } :)
  ∧ (∀ n q cfg s, Live s → (s.queue n q).state = .disabled → 6 ≤ bits cfg.toNat 4 0 → bits cfg.toNat 4 0 ≤ 16 → 6 ≤ bits cfg.toNat 12 8 → bits cfg.toNat 12 8 ≤ 16 →
      ∃ t, exec (.queueEnable n q cfg) s = .next t ∧ t.queue n q = { s.queue n q with
        log2 := bits cfg.toNat 4 0, clog2 := bits cfg.toNat 12 8, state := .running, closing := false, cc := 0, pc := 0, ccount := 0, skipped := 0, consumed := 0
        doorbells := [], fetched := [], fetchFail := none, pend := 0 } :)
  ∧ (∀ n q cfg s, Live s → ((s.queue n q).state = .running ∨ (s.queue n q).state = .stopped) → (s.queue n q).accepted = [] →
      ∃ t, exec (.queueDisable n q cfg) s = .next t ∧ t.queue n q = { s.queue n q with state := .disabled, closing := false, fetched := [], fetchFail := none } :)
  ∧ (∀ n cfg s, Live s → (s.client n).out.enable = false → 10 ≤ bits cfg.toNat 4 0 → bits cfg.toNat 4 0 ≤ 20 →
      exec (.outcomeRingEnable n cfg) s = .next { s with clients := tabMod {} s.clients n fun c => { c with out := { c.out with
        log2 := bits cfg.toNat 4 0, enable := true, count := 0, consumed := 0, pend := 0, reserved := 0, epoch := c.out.epoch + 1 } } } :)
  ∧ (∀ n q s, s.power = true → (s.queue n q).state = .stopped →
      exec (.resume n q) s = .next (s.modQueue n q fun x => { x with state := .running, fetched := [] }) :)
  ∧ (∀ n q s, s.power = true → (s.queue n q).state = .stopped → (∀ a ∈ (s.queue n q).accepted, a.state ≠ .waiting) →
      ∃ t, exec (.flush n q) s = .next t ∧ t.queue n q = { s.queue n q with
        state := .running, skipped := (s.queue n q).skipped + ((s.queue n q).pc - (s.queue n q).cc), cc := (s.queue n q).pc, fetched := [], doorbells := [] } :)
  ∧ (∀ n b l i a dl s, s.power = true → (s.client n).build = some b → s.lot? n b.q b.ordinal = some l → b.placed = [(i, a, dl)] → a < 8192 → s.pairTile n i a = [] →
      ∃ t, exec (.buildEnd n) s = .next t ∧ (t.client n).build = none ∧ (t.entry i).state = .running ∧ (t.tile a).queue = (s.tile a).queue ++ [s.nextUnit] ∧ t.nextUnit = s.nextUnit + 1 :)
  ∧ (∀ i s, s.power = true → (s.entry i).state = .retiring → s.inSpill i = false →
      ∃ t, exec (.retiringFreed i) s = .next t ∧ t.entry i = {} ∧ (∀ j, j ≠ i → t.entry j = s.entry j) ∧ ∀ a w, ((t.tile a).win w).ofSeq (s.entry i).client i = false :)
  ∧ (∀ i e s, s.power = true → s.flt.rimBad.contains (ltBank i) = false → s.flt.rimBad.contains (16 + ltBank i) = false → tabGet {} s.south i = e → Steady s 3 (ltBank i) →
      ∃ t, exec (.ltScrubCompare i .failUsed .clean) s = .next t ∧ t.entry i = e ∧ tabGet {} t.south i = e ∧ t.flt = upsetFlt s 0x0D 3 (ltBank i) none :)
  ∧ (∀ n v s, Live s → (s.entry (bits v.toNat 16 0)).state ≠ .free → (s.entry (bits v.toNat 16 0)).client = n →
      exec (.cliLtSel n v) s = .next (s.modClient n fun c => { c with
      ltSel := bits v.toNat 16 0, ltData := BitVec.ofNat 512 (leVal (entryBytes (s.entry (bits v.toNat 16 0)))) }) :)
  ∧ (∀ p e c r s, Due s p → s.contenders p = (e, c) :: r → (s.part p).resident = none → (s.client c).pairEn = false →
      ∃ t, exec (.schedEvaluate p) s = .next t ∧ (t.part p).switch = some { out := none, incoming := some c, phase := .restoring, since := s.now, idle := true } ∧ (t.part p).lastEval = some s.now :)
  ∧ (∀ p w n k s, s.power = true → (s.part p).switch = some w → w.phase = .stopping → w.out = some n → w.stopAt = some k → s.stopped n = true →
      ∃ t, exec (.stopComplete p) s = .next t ∧ (t.client n).resident = false ∧ (t.client n).parkedSince = s.now ∧ ∀ r ∈ s.seats n, (t.part r).resident = none ∧ (t.part r).switch = (s.part r).switch.map fun w => { w with phase := .saving, since := s.now } :)
  ∧ (∀ p w n c s, s.power = true → (s.part p).switch = some w → w.phase = .saving → w.out = some n → w.incoming = some c → p ∈ s.seats n → s.transferDone (s.client n).bindPart (s.saveSize n) w.since = true →
      ∃ t, exec (.saveComplete p) s = .next t ∧ (t.client n).parked.complete = true ∧ (t.client n).parked.layout = s.tilesOf (s.client n).bindPart ∧ (t.part p).switch = some { w with out := none, phase := .restoring, since := s.now } ∧ (t.part p).saveNs = (s.now - w.since) % 2 ^ 32 :)
  ∧ (∀ p w n s, s.power = true → (s.part p).switch = some w → w.phase = .restoring → w.incoming = some n →
      (∀ r ∈ s.seats n, ∃ x, (s.part r).switch = some x ∧ x.incoming = some n ∧ x.phase = .restoring ∧ x.since = w.since) → p ∈ s.seats n →
      s.transferDone (s.client n).bindPart (if (s.client n).parked.complete then s.hbmVal ((s.client n).areas.park + 24) 8 else 53248) w.since = true →
      ∃ t, exec (.restoreComplete p) s = .next t ∧ (t.client n).resident = true ∧ ∀ r ∈ s.seats n, (t.part r).resident = some n ∧ (t.part r).switch = none ∧ (t.part r).since = s.now :)
  ∧ (∀ p s, Live s → p < Config.partitions →
      exec (.rebuild p) s = .next (s.modPart p fun x => { x with rebuildPend := true }) :)
  ∧ (∀ p s, s.power = true → (s.part p).rebuildPend = true → (s.part p).rebuilding = false → (s.part p).switch = none → s.unitsIn p = false →
      ∃ t, exec (.rebuildBegin p []) s = .next t ∧ (t.part p).rebuilding = true ∧ (t.part p).rebuildPend = false ∧ (t.part p).rebuildSince = s.now ∧ (t.part p).strips = (s.part p).strips ∧ ∀ y ∈ t.frm.rowChanges, (s.part p).strips.getLsbD (y.2 / 17) = false :)
  ∧ (∀ p s, s.power = true → (s.part p).rebuilding = true → (∀ n, (s.part p).resident = some n → p ∈ s.seats n) →
      ∃ t, exec (.rebuildEnd p) s = .next t ∧ (t.part p).rebuilding = false ∧ (t.part p).adding = 0 ∧ (t.part p).rebuilds = satTo 0xFFFF ((s.part p).rebuilds + 1) ∧ (t.part p).rebuildNs = (s.now - (s.part p).rebuildSince) % 2 ^ 32 ∧ (t.tilesOf p ≠ [] → (t.part p).laidOut = t.tilesOf p) :)
  ∧ (∀ p w v s, Live s → p < Config.partitions → w < 16 → (∀ r, r < Config.partitions → r ≠ p → ((s.part r).strips ||| (s.part r).adding) &&& stripsWrite (s.part p).strips w v = 0) →
      (∀ i, i < 32 → (stripsWrite (s.part p).strips w v).getLsbD (32 * w + i) = true →
      (s.colmap (32 * w + i)).retired = false ∧ (s.dom (domOfStrip (32 * w + i))).state ≠ .off ∧ (s.dom (domOfStrip (32 * w + i))).target ≠ 0) →
      (s.part p).strips &&& ~~~(stripsWrite (s.part p).strips w v) = 0 → stripsWrite (s.part p).strips w v &&& ~~~(s.part p).strips ≠ 0 →
      (∀ n ∈ s.bound p, parkNeed (stripCount (stripsWrite (s.part p).strips w v ||| (s.part p).adding)) ≤ (s.client n).areas.parkSize) →
      exec (.prtStripsWrite p w v) s = .next (s.modPart p fun x => { x with adding := x.adding ||| (stripsWrite x.strips w v &&& ~~~x.strips), changePend := true }) :)
  ∧ (∀ n v s, Live s → n < Config.clients → (s.client n).en = false → bit v.toNat 31 = true → (s.bindFields n v.toNat).functionExists n = true → (s.bindFields n v.toNat).hbmCheck n = 0 →
      ∃ t, exec (.contextCreate n v) s = .next t ∧ (t.client n).en = true ∧ (t.client n).resident = false ∧ (t.client n).parked.complete = false ∧ (t.client n).hbmStatus = 0 ∧ (t.client n).lots = [] :)
  ∧ (∀ n v s, Live s → (s.client n).en = true → bit v.toNat 31 = false →
      ∃ t, exec (.contextTeardown n v) s = .next t ∧ (t.client n).en = false ∧ (t.client n).resident = false ∧ (t.client n).build = none ∧ (t.client n).lots = [] ∧ (t.client n).dbg.halted = false ∧ (t.queue n 0).state = .tornDown ∧ (t.queue n 1).state = .tornDown :)
  ∧ (∀ p n v s, Live s → n < 128 → bit v.toNat 0 = true →
      exec (.accClr (.pf p) n v) s = .next { s with
      clients := tabMod {} s.clients n fun c => { c with acct := { cleared := BitVec.ofNat 64 s.now }, parkedSince := if c.en && !c.resident then s.now else c.parkedSince } } :)
  ∧ (∀ via a s, s.power = true → a < viaSize via → a % 4 = 0 → s.viaOk via = true → (∀ l ∈ s.latches, l.via = via → l.addr ≠ a) → (viaPlace via a).wide = true →
      exec (.counterLowHalfRead via ⟨a, 4⟩) s = .next { s with
        out := .readData (BitVec.ofNat 64 (s.regWord via a)) :: s.out
        latches := { via := via, addr := a + 4, value := BitVec.ofNat 32 (s.regWord via (a + 4)) } :: s.latches.filter fun l => !(l.via == via && l.addr == a + 4) } :)
  ∧ (∀ p w s, Live s → p < 64 → s.now % 10000000 = 0 → (s.part p).sdEnd ≠ s.now →
      ∃ t, exec (.sdWindowEnd p w) s = .next t ∧ (t.part p).sdEnd = s.now :)
  ∧ (∀ p tot f hbm tx fab lt s, s.power = true → (s.part p).sdClosed = some (tot, f, hbm, tx, fab, lt) → tot < 2 ^ 64 → f < 2 ^ 64 →
      ∃ t, exec (.sdPublish p) s = .next t ∧ (t.part p).sdClosed = none ∧ (t.part p).sdTotal = tot ∧ (t.part p).sdForeign = f ∧ (t.part p).sd.level = (if tot = 0 then 0x100 else if tot ≤ f then 0xFFFF else min 0xFFFF (256 * tot / (tot - f))) :)
  ∧ (∀ n i v s, Live s → n < 128 → i < 1024 →
      exec (.rsClr n i v) s = .next { s with
      clients := tabMod {} s.clients n fun c => { c with rslots := tabMod {} c.rslots i fun x => if bit v.toNat 31 then { gen := x.gen, margin := bits v.toNat 2 0, bind := bit v.toNat 3 } else { x with margin := bits v.toNat 2 0, bind := bit v.toNat 3 } } } :)
  ∧ (∀ pt s, s.power = true →
      exec (.vatCorrectedError pt) s = .next { s with flt := { s.flt with
      corrected := s.flt.corrected + 1, readbacks := s.flt.readbacks ++ [(0x01, pt)] } } :)
  ∧ (∀ cls n x s, s.power = true → (s.flt.readbacks.find? fun y => sourceClass y.1 == cls && y.2 == n) = some x →
      exec (.correctedReadback cls n false) s = .next { s with flt := { s.flt with readbacks := s.flt.readbacks.erase x } } :)
  ∧ (∀ pt w s, s.power = true → pt < 8704 → w < 48 → s.activeOf pt = none → Steady s 0 pt →
      exec (.vatUncorrectable pt w) s = .next { s with flt := upsetFlt s 0x02 0 pt none } :)
  ∧ (∀ pt a (r : TileRun) (u : CUnit) s, s.power = true → s.activeOf pt = some a → (s.tile a).run = some r → s.unit? r.unit = some u → u.pairTiles = [] →
      u.phase = .running → (s.client u.client).dbg.halted = false → ((s.partOfTile a).bind fun p => (s.part p).switch) = none → Steady s 0 pt →
      ∃ t, exec (.laneParityError pt) s = .next t ∧ ∃ v, t.unit? r.unit = some v ∧ v.phase = .killed ∧ v.retries = u.retries + 1 ∧ v.ranges = [] ∧ v.flags = 0 :)
  ∧ (∀ pt a (r : TileRun) (u : CUnit) s, s.power = true → s.activeOf pt = some a → (s.tile a).run = some r → s.unit? r.unit = some u → u.pairTiles = [] →
      u.phase = .running → (s.client u.client).dbg.halted = false → ((s.partOfTile a).bind fun p => (s.part p).switch) = none → Steady s 0 pt →
      ∃ t, exec (.residueError pt) s = .next t ∧ ∃ v, t.unit? r.unit = some v ∧ v.phase = .killed ∧ v.retries = u.retries + 1 ∧ v.ranges = [] ∧ v.flags = 0 :)
  ∧ (∀ pt s, s.power = true →
      exec (.storeCorrectedError pt) s = .next { s with flt := { s.flt with
      corrected := s.flt.corrected + 1, readbacks := s.flt.readbacks ++ [(0x05, pt)] } } :)
  ∧ (∀ a b bank s, s.power = true → s.working a = true → s.working b = true → s.partOfTile b = s.partOfTile a → s.activeOf (s.physTile a) = some a → (s.tile a).run = none →
      Steady s 0 (s.physTile a) →
      ∃ t, exec (.storeUncorrectable a true bank (some b)) s = .next t ∧ t.flt = upsetFlt s 0x06 0 (s.physTile a) none ∧ (t.tile a).pal.atBank bank = (s.tile b).pal.atBank bank ∧ (∀ k, k ≠ a → t.tile k = s.tile k) ∧ t = { s with flt := t.flt, tiles := t.tiles } :)
  ∧ (∀ pt s, s.power = true → pt < 8704 → Steady s 0 pt →
      exec (.linkTimeout pt []) s = .next { s with flt := upsetFlt s 0x07 0 pt none } :)
  ∧ (∀ a s, s.power = true →
      exec (.hbmCorrectedError a) s = .next { s with
      flt := { s.flt with corrected := s.flt.corrected + 1 }
      hbmCtl := tabMod {} s.hbmCtl (pcOf a / 32) fun m => { m with corrected := m.corrected + 1 } } :)
  ∧ (∀ a s, s.power = true → a < s.hbmTop → s.frm.unmapped = [] → Steady s 2 (pcOf a) →
      exec (.hbmUncorrectable a) s = .next { s with
        flt := { upsetFlt s 0x0B 2 (pcOf a) (s.ownerAt a) with reissues := insertUp a s.flt.reissues }
        hbmCtl := tabMod {} s.hbmCtl (pcOf a / 32) fun m => { m with uncorrected := m.uncorrected + 1 } } :)
  ∧ (∀ a s, s.power = true → s.flt.reissues.contains a = true →
      exec (.hbmReissueResult a true) s = .next { s with flt := { s.flt with reissues := s.flt.reissues.filter (· != a) } } :)
  ∧ (∀ copy i s, s.power = true →
      exec (.rimStoreCorrectedError copy i) s = .next { s with flt := { s.flt with
      corrected := s.flt.corrected + 1, readbacks := s.flt.readbacks ++ [(0x0C, 16 * copy + i / 8192)] } } :)
  ∧ (∀ i s, s.power = true → i < 131072 → s.flt.rimBad = [] → Steady s 3 (i / 8192) →
      exec (.rimStoreUncorrectable 0 i .clean) s = .next { s with
        flt := upsetFlt s 0x0D 3 (i / 8192) none, north := tabPut s.north i (tabGet {} s.south i), south := tabPut s.south i (tabGet {} s.south i) } :)
  ∧ (∀ p s, s.power = true → (s.part p).bist = true →
      exec (.partitionBistDone p []) s = .next (s.modPart p fun x => { x with bist := false }) :)
  ∧ (∀ a (r : TileRun) (u : CUnit) t0 s, s.power = true → (s.tile a).run = some r → r.waitSince = some t0 → s.unit? r.unit = some u → u.phase ≠ .committed →
      (s.client u.client).dbg.halted = false → tabHas s.flt.retrims (a / 16) = false → t0 + 1000 * s.flt.syncTimeout ≤ s.now →
      ∃ t, exec (.syncTimeout a) s = .next t ∧ t.unit? u.id = none :)
  ∧ (∀ pt w s, Live s → pt < 8704 → w < 48 → (s.dom (domOfStrip (pt / 17))).state ≠ .off → ((pt, w) = s.scrubbing (pt / 136) ∨ (pt, w) = scrubNext (s.scrubbing (pt / 136))) →
      exec (.vatScrubCheck pt w .clean) s = .next { s with flt := { s.flt with scrubAt := tabPut s.flt.scrubAt (pt / 136) (pt, w) } } :)
  ∧ (∀ k s, Live s → k < 512 → tabHas s.flt.retrims k = false → (tilesOfStrip k).any s.tileBusy = false →
      exec (.retrim k) s = .next { s with flt := { s.flt with retrims := tabPut s.flt.retrims k s.now } } :)
  ∧ (∀ k s, Live s → k < 512 → tabHas s.flt.retrims k = false → tabGet s.frm.stateTime s.flt.lastRetrim k + 1000000 * s.flt.retrimMax ≤ s.now →
      ∃ t, exec (.retrimForced k) s = .next t ∧ t.flt = { s.flt with retrims := tabPut s.flt.retrims k s.now, retrimForced := insertUp k s.flt.retrimForced } ∧ t.ntc.head = s.ntc.head + 1 :)
  ∧ (∀ k t0 s, s.power = true → s.flt.retrims = [(k, t0)] → t0 + 2000 ≤ s.now →
      ∃ t, exec (.retrimDone k) s = .next t ∧ t.flt = { s.flt with retrims := [], lastRetrim := tabPut s.flt.lastRetrim k s.now, retrimForced := s.flt.retrimForced.filter (· != k) } ∧ t = { s with flt := t.flt, tiles := t.tiles } :)
  ∧ (∀ via (v : W32) s, s.power = true → s.frmOpen via = true → s.frm.state = .ready → bit v.toNat 0 = true → bits v.toNat 31 16 = 0x4C47 →
      reasonOk (bits v.toNat 15 8) = true → s.frm.ledgerOp = none →
      exec (.ledgerCommit via v) s = .next { s with frm := { s.frm with ledgerOp := some {
        reason := bits v.toNat 15 8, force := bit v.toNat 1, time := s.now, tiles := s.frm.rTiles, lanes := s.frm.rLanes, pch := s.frm.rPch } } } :)
  ∧ (∀ (o : LedgerOp) k r s, s.power = true → s.frm.ledgerOp = some o → s.frm.emptySlots = k :: r → s.frm.newest = none → o.again = false →
      ∃ t, exec (.ledgerCommitDone true) s = .next t ∧ t.frm = { s.frm with ledger := tabPut s.frm.ledger k (s.frm.slot k ||| slotImage k o), ledgerOp := none, ledgerResult := 1 } ∧ t.ntc.head = s.ntc.head + 1 ∧ t = { s with frm := t.frm, ntc := t.ntc, clients := t.clients, out := t.out } :)
  ∧ (∀ (v : W32) k s, s.power = true → s.frm.state ≠ .frameBoot → bit v.toNat 31 = true → bits v.toNat 17 16 ≠ 1 → bits v.toNat 13 0 < classSize (bits v.toNat 17 16) →
      s.isRetired (bits v.toNat 17 16) (bits v.toNat 13 0) = true → s.probeOf (bits v.toNat 17 16) (bits v.toNat 13 0) = none →
      ((upTo 16).find? fun k => (tabGet ({} : Probe) s.frm.probes k).state != 1) = some k →
      exec (.probationRequest v) s = .next { s with frm := { s.frm with
        probes := tabPut s.frm.probes k { unit := bits v.toNat 13 0, cls := bits v.toNat 17 16, state := 1, steps := 0, next := s.order } } } :)
  ∧ (∀ k p s, s.power = true → k < 16 → tabGet ({} : Probe) s.frm.probes k = p → p.state = 1 → p.cls ≠ 0 → s.probeReady p = true → p.steps + 1 < s.frm.probeSteps →
      exec (.probationStep k .equal) s = .next { s with frm := { s.frm with probes := tabPut s.frm.probes k { p with steps := p.steps + 1 } } } :)
  ∧ (∀ d c s, s.power = true → s.pwrOpen = true → d < 16 → c ≤ 18 →
      exec (.freqSetpointWrite d c) s = .next (s.modDom d fun x => { x with freq := c }.restep) :)
  ∧ (∀ d c s, s.power = true → (s.dom d).step = .rising c → c ≤ (s.dom d).eff → c ≠ (s.dom d).code →
      ∃ t, exec (.voltageRiseDone d) s = .next t ∧ t.dom d = { s.dom d with step := .changing c } ∧ (∀ k, k ≠ d → t.dom k = s.dom k) ∧ t = { s with pwr := { s.pwr with doms := t.pwr.doms } } :)
  ∧ (∀ d c s, s.power = true → (s.dom d).step = .changing c → (s.dom d).eff = c →
      ∃ t, exec (.frequencyStepDone d) s = .next t ∧ t.dom d = { s.dom d with step := .none, code := c } ∧ (∀ k, k ≠ d → t.dom k = s.dom k) ∧ t = { s with pwr := { s.pwr with doms := t.pwr.doms }, tiles := t.tiles, parts := t.parts } :)
  ∧ (∀ s, s.power = true → s.now % 1000 = 0 → ¬ s.out.contains (.timeBeacon s.now) →
      exec .timeBeacon s = .next { s with out := .timeBeacon s.now :: s.out } :)
  ∧ (∀ d x s, s.power = true → s.frm.state = .ready → d < 16 → 0 < x → x < 4 → (s.dom d).trans = none → (s.dom d).bist = false → (s.dom d).state = .active →
      ∃ t, exec (.domainTargetWrite d x) s = .next t ∧ t = s.modDom d fun y => { y with target := x } :)
  ∧ (∀ d s, Live s → (s.dom d).state = .active → (s.dom d).trans = none → s.hasDemand d = false → (s.dom d).quiet + 1000 * s.pwr.retainDelay ≤ s.now → (s.dom d).target = 1 →
      exec (.retainDelayExpiry d) s = .next (s.modDom d fun x => { x with trans := some (.retain, s.now) }) :)
  ∧ (∀ d s, s.power = true → ((s.dom d).state = .idle ∨ (s.dom d).state = .retain) → (s.dom d).trans = none → s.hasDemand d = true →
      exec (.domainWake d) s = .next (s.modDom d fun x => { x with trans := some (.active, s.now), step := .none, code := x.eff }) :)
  ∧ (∀ d t0 s, s.power = true → (s.dom d).state = .active → (s.dom d).trans = some (.retain, t0) → (s.dom d).target = 1 → s.frm.state = .ready → (s.dom d).bist = false →
      exec (.domainTransitionDone d) s = .next (s.modDom d fun x => { x with state := .retain, trans := none, step := .none }) :)
  ∧ (∀ d t0 s, Live s → d < 16 → (s.dom d).state = .off → (s.dom d).trans = some (.active, t0) → (s.dom d).bist = false → t0 + 2000000 ≤ s.now →
      ∃ t, exec (.domainPowerUpDone d) s = .next t ∧ (t.dom d).bist = true ∧ (t.dom d).ticks = 0 ∧ (t.dom d).state = .off ∧ (∀ k, k ≠ d → t.dom k = s.dom k) ∧ t = { s with pwr := { s.pwr with doms := t.pwr.doms }, tiles := t.tiles } :)
  ∧ (∀ d s, Live s → (s.dom d).bist = true → (s.dom d).target ≠ 0 → (s.dom d).step = .none → (s.dom d).eff = (s.dom d).code →
      ∃ t, exec (.domainBistLiteDone d []) s = .next t ∧ t.dom d = { s.dom d with state := .active, trans := none, bist := false, quiet := s.now } ∧ (∀ k, k ≠ d → t.dom k = s.dom k) ∧ t = { s with pwr := { s.pwr with doms := t.pwr.doms }, frm := { s.frm with probes := t.frm.probes } } :)
  ∧ (∀ w l s, s.power = true → s.now % 100000 = 0 → s.pwr.lastWindow ≠ some s.now →
      ∃ t, exec (.powerWindowEnd w l) s = .next t ∧ t.pwr.lastWindow = some s.now ∧ t.pwr.watts = satTo 0xFFFF w ∧ t.pwr.wmPower = (wmUpdate s.pwr.wmPower w).1 ∧ t.pwr.cap = s.pwr.cap ∧ t.pwr.fuses = s.pwr.fuses ∧ t.now = s.now :)
  ∧ (∀ k r s, s.power = true → k < 68 → 392 ≤ r → r < 1024 → s.frm.resetReq = none →
      exec (.thermalTrip k r) s = .next { s with
        pwr := { s.pwr with temps := tabPut s.pwr.temps k r }, frm := { s.frm with resetReq := some 3 } } :)
  ∧ (∀ via (v : W32) s, s.power = true → s.frmOpen via = true → bits v.toNat 31 16 = 0x4345 → 4000 ≤ bits v.toNat 15 0 → bits v.toNat 15 0 < s.pwr.ceiling →
      s.pwr.lowerings ≠ 0 → s.pwr.lowering = none →
      exec (.ceilingLower via v) s = .next { s with pwr := { s.pwr with lowering := some (bits v.toNat 15 0) } } :)
  ∧ (∀ v s, s.power = true → s.pwr.lowering = some v → 4000 ≤ v → v < s.pwr.ceiling → s.pwr.lowerings ≠ 0 →
      ∃ t, exec .ceilingProgrammed s = .next t ∧ t.pwr.fuses = s.pwr.fuses ++ [v] ∧ t.pwr.ceiling = v ∧ t.pwr.cap ≤ v ∧ t.pwr.lowering = none ∧ t.pwr.lowerings + 1 = s.pwr.lowerings ∧ t = { s with pwr := { s.pwr with fuses := t.pwr.fuses, lowering := none, cap := t.pwr.cap } } :)
  ∧ (∀ x s, s.power = false →
      ∃ t, exec (.powerGood x) s = .next t ∧ t.power = true ∧ t.now = 0 ∧ t.frm.state = .frameBoot ∧ t.frm.waferId = x.waferId % 16 ∧ t.frm.lead = x.leadLow ∧ t.frm.serial = x.serial ∧ t.frm.ledger = s.frm.ledger ∧ t.pwr.fuses = s.pwr.fuses ∧ t.pwr.cap = s.pwr.ceiling :)
  ∧ (∀ s, s.power = true → s.frm.ledgerOp = none →
      ∃ t, exec .powerGoodLoss s = .next t ∧ t.power = false ∧ t.frm.ledger = s.frm.ledger ∧ t.pwr.fuses = s.pwr.fuses ∧ t.clients = [] ∧ t.tiles = [] ∧ t.units = [] ∧ t.hbm = [] ∧ t.north = [] ∧ t.pending = s.pending :)
  ∧ (∀ a b s, s.power = true → s.frm.state = .frameBoot → imageValid a = true →
      ∃ t, exec (.frameBootDone a b) s = .next t ∧ t.frm.state = .domainUp ∧ t.frm.stateTime = s.now ∧ t.frm.image = 0 ∧ t.frm.bootVersion = a.version ∧ t.frm.subsystem = a.subsystem ∧ t.frm.stack = a.cfg ∧ t.frm.aValid = true ∧ t.frm.bValid = imageValid b :)
  ∧ (∀ d s, s.power = true → s.frm.state = .domainUp → d = s.frm.switched → d < 16 → s.frm.stateTime + 50000000 * d ≤ s.now →
      ∃ t, exec (.domainSwitchOn d) s = .next t ∧ t.frm = { s.frm with switched := d + 1 } ∧ (t.dom d).trans = some (.active, s.now) ∧ ∀ k, k ≠ d → t.dom k = s.dom k :)
  ∧ (∀ r l s, s.power = true → s.frm.state = .tileBist → r = s.frm.rounds → r < 3 → (∀ pt ∈ l, pt < 8704 ∧ domOfStrip (pt / 17) / 4 = r) →
      ∃ t, exec (.tileBistRoundDone r l) s = .next t ∧ t.frm = { s.frm with bistFailed := s.frm.bistFailed ++ l, rounds := r + 1, badRouters := t.frm.badRouters } ∧ (∀ pt ∈ t.frm.badRouters, pt ∈ s.frm.badRouters ∨ pt ∈ l) ∧ t = { s with frm := t.frm, freeCtr := s.freeCtr + l.length } :)
  ∧ (∀ k s, s.power = true → s.frm.state = .ledgerMerge → s.frm.newest = some k →
      ∃ t, exec .ledgerMerge s = .next t ∧ t.frm.state = .hbmTrain ∧ t.frm.rLanes = (slotMap (s.frm.slot k)).2.1 ∧ t.frm.rPch = (slotMap (s.frm.slot k)).2.2 ∧ ∀ pt, pt < 8704 → t.frm.rTiles.getLsbD pt = ((slotMap (s.frm.slot k)).1.getLsbD pt || decide (pt ∈ s.frm.bistFailed)) :)
  ∧ (∀ s, s.power = true → s.frm.state = .hbmTrain → s.frm.rPch = 0 →
      ∃ t, exec (.hbmTrainDone [] []) s = .next t ∧ t.frm.state = .txTrain ∧ t.frm.hbmDown = [] ∧ t.frm.withdrawn = s.frm.withdrawn ∧ (∀ m, m < 24 → (t.ctl m).up = true) ∧ ∀ p, p < 8 → (t.port p).state = .detect :)
  ∧ (∀ s, s.power = true → s.frm.state = .txTrain → (∀ p, p < 8 → (s.port p).state = .down) →
      exec .txTrainDone s = .next { s with frm := { s.frm with state := .stackForm, stateTime := s.now } } :)
  ∧ (∀ s, s.power = true → s.frm.state = .stackForm → s.leadSeen = none → s.otherWafers = [] →
      ∃ t, exec (.stackFormDone .formed) s = .next t ∧ t.frm.state = .ready ∧ t.frm.stateTime = s.now ∧ t.frm.role = s.frm.role ∧ t.frm.leadId = s.frm.waferId ∧ t.frm.members = BitVec.twoPow 16 s.frm.waferId ∧ t.frm.hbmLimit = s.hbmTop - s.frm.guard * 0x30000000 ∧ t.now = s.now :)
  ∧ (∀ m s, s.power = true → startupMax s.frm.state = some m → s.frm.stateTime + m < s.now →
      exec .startupTimeout s = .next { s with frm := { s.frm with state := .failed, reason := if s.frm.state = .domainUp then 2 else 6, stateTime := s.now } } :)
  ∧ (∀ n f s, s.power = true → n < 128 → tabGet false s.linkUp (portOf n) = true → 100000000 ≤ s.now → s.frm.state ≠ .frameBoot → s.functionExists n = true →
      exec (.configRequest n f) s = .next { s with out := .configReply f (BitVec.ofNat 64 (s.cfgValue n f)) :: s.out } :)
  ∧ (∀ p v s, s.power = true → s.frm.state ≠ .frameBoot → bits v.toNat 15 0 = 0x5752 → bit v.toNat 16 = true → s.frm.resetReq = none →
      exec (.frmReset (.pf p) v) s = .next { s with frm := { s.frm with resetReq := some 2 } } :)
  ∧ (∀ r s, s.power = true → s.frm.resetReq = some r → s.frm.ledgerOp = none → s.pwr.lowering = none →
      ∃ t, exec .warmReset s = .next t ∧ t.frm.state = .frameBoot ∧ t.frm.afterWarm = true ∧ t.frm.resetReason = r ∧ t.frm.resetTime = s.now ∧ t.frm.warms = min 0xFFFF (s.frm.warms + 1) ∧ t.frm.resetReq = none ∧ t.frm.guard = s.frm.guard ∧ t.now = s.now ∧ t.flt.log = s.flt.log :)
  ∧ (∀ p s, s.power = true → p < 4 →
      ∃ t, exec (.perstHotReset p) s = .next t ∧ tabGet false t.linkUp p = false ∧ tabGet 0 t.numVfs p = 0 ∧ ∀ f, f < 32 → (t.client (32 * p + f)).en = false ∧ (t.client (32 * p + f)).q0 = {} :)
  ∧ (∀ m s, Live s → m < 24 → s.copyingOn m = false →
      exec (.hbmRetrain m) s = .next { s with hbmCtl := tabMod {} s.hbmCtl m fun c => { c with retraining := true } } :)
  ∧ (∀ m s, s.power = true → (s.ctl m).retraining = true →
      exec (.hbmRetrainDone m []) s = .next { s with hbmCtl := tabMod {} s.hbmCtl m fun c => { c with retraining := false } } :)
  ∧ (∀ pc s, s.power = true → pc ∈ s.frm.copying → (s.ctl (pc / 32)).retrainPend = false →
      exec (.pcRetirementCopyDone pc []) s = .next { s with frm := { s.frm with copying := s.frm.copying.filter (· != pc) } } :)
  ∧ (∀ a s, Live s → a < Config.hbmBytes → (s.ctl (pcOf a / 32)).up = true → (s.ctl (pcOf a / 32)).retraining = false → s.frm.copying = [] → s.frm.unmapped = [] →
      exec (.hbmPatrolRead a .corrected) s = .next { s with
        flt := { s.flt with corrected := s.flt.corrected + 1 }
        hbmCtl := tabMod {} s.hbmCtl (pcOf a / 32) fun m => { m with corrected := m.corrected + 1 } } :)
  ∧ (∀ n s, s.power = true → funOf n ≠ 0 → n < 128 → s.functionExists n = true →
      ∃ t, exec (.vfFlr n) s = .next t ∧ (t.client n).en = (s.client n).en ∧ (t.client n).resident = false ∧ (t.client n).acct = {} ∧ (t.client n).q0 = {} ∧ (t.client n).q1 = {} ∧ (t.client n).out = {} ∧ (t.client n).wmQ0 = {} ∧ (t.client n).wmQ1 = {} ∧ (t.client n).wmDefer = {} :)
  ∧ (∀ p s, s.power = true → p < 4 →
      ∃ t, exec (.pfFlr p) s = .next t ∧ tabGet 0 t.numVfs p = 0 ∧ (t.client (32 * p)).q0 = {} ∧ (t.client (32 * p)).q1 = {} ∧ (t.client (32 * p)).acct = {} ∧ (t.client (32 * p)).func = { flr := true } ∧ ∀ n, portOf n = p → funOf n ≠ 0 → t.functionExists n = false :)
  ∧ (∀ p k s, s.power = true → p < 4 → k < 32 →
      ∃ t, exec (.vfEnableClear p k) s = .next t ∧ tabGet 0 t.numVfs p = k ∧ ∀ f, k < f → f < 32 → f ≤ tabGet 0 s.numVfs p → (t.client (32 * p + f)).en = false :)
  ∧ (∀ n on s, s.power = true → n < 128 → s.functionExists n = true → (on = false ∨ (s.client n).func.held = []) →
      exec (.busMasterEnableChange n on) s = .next { s with clients := tabMod {} s.clients n fun c => { c with func := { c.func with bme := on } } } :)
  ∧ (∀ n d3 s, s.power = true → n < 128 → s.functionExists n = true → (d3 = true ∨ (s.client n).func.held = []) →
      exec (.powerStateChange n d3) s = .next { s with clients := tabMod {} s.clients n fun c => { c with func := { c.func with d3hot := d3 } } } :)
  ∧ (∀ p o n s, Live s → p < 4 → s.memOk (32 * p) = true → o + n ≤ 2 ^ 36 → 2 ^ 30 * tabGet 0 s.frm.bar2Base p + o + n ≤ s.hbmTop →
      exec (.pfBar2Access p o (.read n)) s = .next { s with out := .readBytes (s.hbmRead (2 ^ 30 * tabGet 0 s.frm.bar2Base p + o) n) :: s.out } :)
  ∧ (∀ n o k s, Live s → funOf n ≠ 0 → n < 128 → s.memOk n = true → o + k ≤ 2 ^ 32 → (s.client n).areas.lo + o + k ≤ (s.client n).areas.hi → (s.client n).areas.lo + o + k ≤ s.hbmTop →
      exec (.vfBar2Access n o (.read k)) s = .next { s with out := .readBytes (s.hbmRead ((s.client n).areas.lo + o) k) :: s.out } :)
  ∧ (∀ n b o s, s.power = true → n < 128 → s.functionExists n = true →
      exec (.poisonedWrite n b o) s = .next { s with out := .aerPoisoned n :: s.out } :)
  ∧ (∀ p k v s, Live s → k < 4 → s.memOk (32 * k) = true → p < 64 →
      exec (.registerWrite (.pf k) (0x200000 + 0x8000 * p + 0x50) 4 v) s = .next { s with
        parts := tabMod {} s.parts p fun x => { x with minQuantum := if v.toNat % 2 ^ 32 ≤ 1000000 then v.toNat % 2 ^ 32 else x.minQuantum } } :)
  ∧ (∀ n l s, s.power = true → (s.port n).state = .detect → 16 ≤ (sortUp (l.filter (· < 68))).length →
      exec (.trainingDetectDone n l) s = .next (s.modPort n fun p => { p with state := .equalize, since := s.now }) :)
  ∧ (∀ n s, s.power = true → (s.port n).state = .equalize →
      exec (.trainingEqualizeDone n []) s = .next (s.modPort n fun p => { p with state := .fecLock, since := s.now }) :)
  ∧ (∀ n s, s.power = true → (s.port n).state = .fecLock →
      exec (.trainingFecLockDone n []) s = .next (s.modPort n fun p => { p with state := .laneTest, since := s.now }) :)
  ∧ (∀ n s, s.power = true → (s.port n).state = .laneTest → (s.port n).since + 100000000 ≤ s.now →
      exec (.trainingLaneTestDone n []) s = .next (s.modPort n fun p => { p with state := .laneMap, since := s.now }) :)
  ∧ (∀ n s, s.power = true → n < 8 → (s.port n).state = .laneMap → (∀ l, l < 68 → s.isRetired 1 (68 * n + l) = false ∧ s.probeOf 1 (68 * n + l) = none) → (s.port n).pass = BitVec.allOnes 68 →
      ∃ t, exec (.trainingLaneMapDone n (BitVec.allOnes 68)) s = .next t ∧ (t.port n).state = .deskew ∧ (t.port n).width = 64 :)
  ∧ (∀ n s, s.power = true → (s.port n).state = .deskew →
      exec (.trainingDeskewDone n) s = .next { (s.modPort n fun p => { p with state := .init, since := s.now, lastInit := s.now }) with
      out := .flit n (flitBits (initOf s.frm.waferId n (s.port n))) :: s.out } :)
  ∧ (∀ n s, s.power = true → trainMax (s.port n).state ≠ 0 → (s.port n).recSince = none → (s.port n).since + trainMax (s.port n).state < s.now →
      ∃ t, exec (.trainingTimeout n) s = .next t ∧ (t.port n).state = .down ∧ (t.port n).width = 0 ∧ (t.port n).lastTry = s.now ∧ (t.port n).held = [] :)
  ∧ (∀ n v f s, s.power = true → (s.port n).state = .init → flitOf v = (f, true, true) → initGood (f, true, true) = true → bit (leVal (f.payload.take 4) % 2 ^ 32) 25 = false →
      exec (.initFlit n v) s = .next (s.modPort n fun p => { p with
        peer := BitVec.ofNat 32 (leVal (f.payload.take 4)), peerCred := (upTo 4).map fun v => leVal ((f.payload.drop (4 + 2 * v)).take 2)
        peerNext := leVal ((f.payload.drop 12).take 2) % 4096, peerGood := true, peerSeenUs := false
        farEp := some (bits (leVal (f.payload.take 4) % 2 ^ 32) 15 8) }) :)
  ∧ (∀ n s, s.power = true → (s.port n).state = .init → (s.port n).lastInit + 1000 ≤ s.now →
      exec (.initResend n) s = .next { (s.modPort n fun p => { p with lastInit := s.now }) with out := .flit n (flitBits (initOf s.frm.waferId n (s.port n))) :: s.out } :)
  ∧ (∀ n v f s, s.power = true → (s.port n).state = .active → flitOf v = (f, true, true) → f.kind = 0 → f.len = 0 → f.nak = false → (s.port n).held = [] → (s.port n).retireWait = none →
      exec (.idleFlit n ⟨v, []⟩) s = .next (s.modPort n fun p => { p with
        sent := (upTo 4).map fun v => nth p.sent v - (nth f.cred v + 4096 - nth p.farFreed v) % 4096, farFreed := f.cred }) :)
  ∧ (∀ n v f s, s.power = true → (s.port n).state = .active → flitOf v = (f, true, true) → f.kind = 1 → 1 ≤ f.len → f.len ≤ 240 → f.vc < 4 → f.seq = (s.port n).expect → f.nak = false →
      (s.port n).held = [] → (s.port n).retireWait = none → (s.port n).rx = [none, none, none, none] → f.sot = true → f.eot = false →
      ∃ t, exec (.dataFlit n ⟨v, []⟩) s = .next t ∧ (t.port n).expect = ((s.port n).expect + 1) % 4096 ∧ (t.port n).nak = false ∧ (t.port n).episode = false ∧ (t.port n).rx.getD f.vc none = some f.payload ∧ t.inbox = s.inbox :)
  ∧ (∀ n v f l s, s.power = true → n < 8 → l < 68 → (s.port n).state = .active → flitOf v = (f, true, true) → f.kind = 2 → 1 ≤ f.len → f.len ≤ 240 → f.seq = (s.port n).expect → f.nak = false →
      (s.port n).held = [] → (s.port n).retireWait = none → f.payload = [0x10, BitVec.ofNat 8 l] → s.isRetired 1 (68 * n + l) = false → s.probeOf 1 (68 * n + l) = none →
      ∃ t, exec (.ctrlFlit n ⟨v, []⟩) s = .next t ∧ (t.port n).expect = ((s.port n).expect + 1) % 4096 ∧ ((t.port n).lane l).state = .retired ∧ t.isRetired 1 (68 * n + l) = true :)
  ∧ (∀ n v c r s, s.power = true → (s.port n).state = .active → (s.port n).replay = none → (s.port n).held.length < 512 → (s.port n).ctrlQ = [] → (s.port n).nextVc = some v → v < 4 →
      (s.port n).vcQ.getD v [] = c :: r → (s.port n).vcQ.length = 4 → (s.port n).sent.length = 4 →
      ∃ t, exec (.flitSend n) s = .next t ∧ t.out = .flit n (flitBits ((s.port n).stamp { seq := (s.port n).sendSeq, vc := v, kind := 1, len := c.len, sot := c.sot, eot := c.eot, payload := c.payload })) :: s.out ∧ (t.port n).sendSeq = ((s.port n).sendSeq + 1) % 4096 :)
  ∧ (∀ n s, s.power = true → (s.port n).episode = true → (s.port n).nak = false → (s.port n).nakAt + 1000 ≤ s.now →
      exec (.nakRepeat n) s = .next (s.modPort n fun p => { p with nak := true, nakAt := s.now }) :)
  ∧ (∀ n (h : Held) r s, s.power = true → (s.port n).state = .active → (s.port n).held = h :: r → (s.port n).replay = none → h.sentAt + (s.port n).ackTimeout ≤ s.now →
      (s.port n).replayOf ≠ h.seq → (s.port n).replayLimit ≠ 0 →
      exec (.ackTimeout n) s = .next (s.modPort n fun p => { p with replay := some h.seq, replayOf := h.seq, replays := 1, replayCount := p.replayCount + 1 }) :)
  ∧ (∀ n l s, s.power = true → n < 8 → l < 68 → (s.port n).state ≠ .active → Steady s 1 (68 * n + l) →
      exec (.uncorrectableCodeword n l) s = .next { s with
        ports := tabMod {} s.ports n fun p => { p with lanes := tabMod {} p.lanes l fun x => { x with uncorr := x.uncorr + 1 } }
        flt := upsetFlt s 0x09 1 (68 * n + l) none } :)
  ∧ (∀ n l s, s.power = true → n < 8 → l < 68 → ((s.port n).lane l).state ≠ .active → Steady s 1 (68 * n + l) →
      exec (.fecLockLoss n l) s = .next { s with flt := upsetFlt s 0x09 1 (68 * n + l) none } :)
  ∧ (∀ n t0 s, s.power = true → (s.port n).recSince = some t0 → t0 + 1000000 ≤ s.now →
      exec (.recoveryTimeout n) s = .next (s.modPort n fun p => { p with
      state := .detect, since := s.now, pass := BitVec.allOnes 68, trainings := p.trainings + 1, width := 0, recSince := none, peerGood := false, peerSeenUs := false }) :)
  ∧ (∀ n s, Live s → n < 8 → (s.port n).enable = true → (∀ r ∈ s.stk.requests, r.2.2.2 ≠ some n) →
      ∃ t, exec (.txlReset n) s = .next t ∧ (t.port n).state = .detect ∧ (t.port n).resetting = true ∧ (t.port n).held = [] ∧ (t.port n).sendSeq = 0 ∧ (t.port n).expect = 0 ∧ (t.port n).sent = [0, 0, 0, 0] ∧ (t.port n).trainings = (s.port n).trainings + 1 :)
  ∧ (∀ n s, Live s → n < 8 → (s.port n).state = .active →
      exec (.txlRetrain n) s = .next (s.modPort n fun p => { p with
      state := .recovery, since := s.now, recSince := some s.now, keeping := true, recoveries := p.recoveries + 1, retireWait := none, peerGood := false, peerSeenUs := false }) :)
  ∧ (∀ n s, Live s → n < 8 → (s.port n).enable = true →
      ∃ t, exec (.txlEnable n false) s = .next t ∧ (t.port n).enable = false ∧ (t.port n).state = .down ∧ (t.port n).width = 0 ∧ (t.port n).held = [] ∧ (t.port n).resetting = true :)
  ∧ (∀ n s, Live s → (s.port n).state = .down → (s.port n).enable = true → (s.port n).lastTry + 1000000000 ≤ s.now →
      exec (.downPortRetry n) s = .next (s.modPort n fun p => { p with
      state := .detect, since := s.now, pass := BitVec.allOnes 68, trainings := p.trainings + 1, width := 0, recSince := none, peerGood := false, peerSeenUs := false }) :)
  ∧ (∀ m a s, s.power = true → Here s m → m.typ = 1 → m.resp = false → s.target m = .hbm a → s.hbmWaits a m.len = false →
      exec (.rd m) s = .next ((s.takeIn m).send (transReply m 0 (s.hbmRead a m.len))) :)
  ∧ (∀ m a k since (r : TileRun) u s, s.power = true → Here s m → m.typ = 1 → m.resp = true → m.status = 0 → Awaits s m u → (∀ x ∈ u.waitMerge, x.1 ≠ m.tid.toNat) → (∀ x ∈ u.waitRd, x.1 ≠ m.tid.toNat) → u.allTiles = [a] →
      (s.tile a).run = some r → r.unit = u.id → r.stall = some (.remote (.wafer m.tid.toNat) k none since) →
      ∃ t, exec (.rdResponse m) s = .next t ∧ (t.tile a).run = some { r with stall := some (.remote (.wafer m.tid.toNat) k (some m.data) since) } ∧ t.stk.requests = s.stk.requests.filter (fun x => !(x.1 == m.tid.toNat && x.2.1 == m.src)) :)
  ∧ (∀ m a s, s.power = true → Here s m → m.typ = 2 → m.resp = false → s.target m = .hbm a → s.hbmWaits a m.len = false →
      exec (.wr m) s = .next (((s.takeIn m).hbmWrite a m.data).send (transReply m 0 [])) :)
  ∧ (∀ m u s, s.power = true → Here s m → m.typ = 2 → m.resp = true → Awaits s m u →
      exec (.wrResponse m) s = .next (((s.takeIn m).answered m).modUnit u.id fun v => { v with
      waitWr := v.waitWr.filter (· != m.tid.toNat), status := if m.status = 0 then v.status else 3, code := if m.status = 0 then v.code else cACCESS }) :)
  ∧ (∀ m a s, s.power = true → Here s m → m.typ = 3 → s.target m = .hbm a → isFabric m = false → s.hbmWaits a m.len = false →
      exec (.wrp m) s = .next ((s.takeIn m).hbmWrite a m.data) :)
  ∧ (∀ m p a s, s.power = true → Here s m → m.typ = 4 → m.resp = false → s.lentPart m.src (leVal (((m.data.drop 64).drop 8).take 1) % 64) = some p → m.data.length = 96 →
      s.startCodes m.client [BitVec.ofNat 512 (leVal (m.data.take 64))] = [] → bit (leVal (((m.data.drop 64).drop 12).take 4)) 31 = true → s.tilesOf p = [a] →
      ∃ t, exec (.descFwd m) s = .next t ∧ (t.tile a).queue = (s.tile a).queue ++ [s.nextUnit] ∧ t.nextUnit = s.nextUnit + 1 :)
  ∧ (∀ m u s, s.power = true → Here s m → m.typ = 4 → m.resp = true → Awaits s m u → (m.status = 0 ∨ u.phase = .committed ∨ u.phase = .killed) →
      exec (.descFwdResponse m) s = .next ((s.takeIn m).answered m) :)
  ∧ (∀ m x s, s.power = true → Here s m → m.typ = 5 → m.src < 16 → s.stageSlot (bits m.addr.toNat 5 0) = x → x.en = true → dKind x.template = kOP →
      s.stageMatch x.client (dHandle x.template 0) (m.data.take 64) = true → s.stageMatch x.client (dHandle x.template 1) ((m.data.drop 64).take 64) = true →
      m.data.length = 192 + (if dHandle x.template 0 = 0 then 0 else (parseRec (leVal (m.data.take 64))).bytes)
      + (if dHandle x.template 1 = 0 then 0 else (parseRec (leVal ((m.data.drop 64).take 64))).bytes) → s.templateCodes x.client x.template = [] →
      ∃ t, exec (.handoffTransaction m) s = .next t ∧ t.nextUnit = s.nextUnit + 1 ∧ ∃ u, t.units = s.units ++ [u] ∧ u.id = s.nextUnit ∧ u.phase = .killed ∧ u.kind = kOP ∧ u.client = x.client ∧ u.answers = some (m.src, m.tid.toNat) :)
  ∧ (∀ m u h s, s.power = true → Here s m → m.typ = 6 → s.handedTo m = some (u, h) → s.unit? u.id = some u → ((s.client u.client).dbg.halted = false ∨ (s.client u.client).dbg.stepping = true) →
      m.status = 0 → u.kind = kHANDOFF → m.data.length = (match (u.stageAt h.stage).handles.getD 3 none with | some d => d.bytes | none => 0) →
      ∃ t, exec (.handback m) s = .next t ∧ ∃ v, t.unit? u.id = some v ∧ v.phase = .ready ∧ v.handoff = some { h with outstanding := false, answered := true, held := none } :)
  ∧ (∀ uid u h p s, s.power = true → s.unit? uid = some u → u.handoff = some h → h.outstanding = false → h.answered = false → h.busyAt = none → u.waitRd = [] → u.phase = .running →
      ((s.client u.client).dbg.halted = false ∨ (s.client u.client).dbg.stepping = true) → s.fmtsOk u h.stage = true → s.handoffsTo h.partner < s.maxOut h.partner → s.route h.partner = some p →
      ∃ t, exec (.handoffQueuedSend uid) s = .next t ∧ ∃ v, t.unit? uid = some v ∧ t.stk.nextTid = (s.stk.nextTid + 1) % 2 ^ 32 ∧ v.handoff = some { h with tid := s.stk.nextTid, outstanding := true, firstSend := if h.firstSend = 0 then s.now else h.firstSend } :)
  ∧ (∀ uid u h b s, s.power = true → s.unit? uid = some u → u.handoff = some h → h.outstanding = false → h.answered = false → h.busyAt = some b → b + 10000 ≤ s.now → u.waitRd = [] → u.phase = .running →
      ((s.client u.client).dbg.halted = false ∨ (s.client u.client).dbg.stepping = true) → s.fmtsOk u h.stage = true → s.handoffsTo h.partner < s.maxOut h.partner →
      ∃ t, exec (.busyResend uid) s = .next t ∧ ∃ v h', t.unit? uid = some v ∧ v.handoff = some h' ∧ h'.busyAt = none ∧ h'.outstanding = true ∧ h'.tid = s.stk.nextTid :)
  ∧ (∀ uid u h s, s.power = true → s.unit? uid = some u → u.handoff = some h → h.answered = false → h.firstSend ≠ 0 → h.held = none → (s.client u.client).dbg.halted = false →
      h.firstSend + s.handoffLimit h.partner ≤ s.now →
      ∃ t, exec (.handoffTimeout uid) s = .next t ∧ Ended s t u :)
  ∧ (∀ uid u a m s, s.power = true → s.unit? uid = some u → u.phase ≠ .committed → (a, uid, m) ∈ s.stk.unsent → a + 1000000 * s.frm.routeTimeout ≤ s.now → s.route m.dst = none →
      ∃ t, exec (.routeTimeout uid) s = .next t ∧ Ended s t u :)
  ∧ (∀ m n s, s.power = true → Here s m → isSync m 1 = true → s.frm.role = 1 → m.src < 16 → s.stk.rebuilding = none → leVal ((m.data.drop 4).take 1) % 128 = n →
      s.stackCount n < (s.client n).stackQuota →
      exec (.admitReq m) s = .next (((s.takeIn m).modStk fun k => { k with counts := tabMod 0 k.counts (128 * m.src + n) (· + 1) }).send (transReply m 0 [])) :)
  ∧ (∀ m (w : AdmitWait) d s, s.power = true → Here s m → m.typ = 7 → m.resp = true → bits m.arg.toNat 7 0 = 1 → m.status = 0 → s.awaited m = some 0 → (s.client m.client).admits = [w] → w.tid = m.tid.toNat → w.answer = none →
      s.admitDesc m.client w.q w.tag = some d → dTag d.desc = w.tag → s.refusal m.client d = 0 → (s.client m.client).build = none → s.recordsDone m.client w.q = true → (s.client m.client).dbg.stepDesc = none →
      ∃ t, exec (.admitReqResponse m) s = .next t ∧ (t.client m.client).admits = [] ∧ (t.entry (seqIdOf d.desc % 2 ^ 17)).state = .admitted ∧ (t.entry (seqIdOf d.desc % 2 ^ 17)).client = m.client ∧ (t.entry (seqIdOf d.desc % 2 ^ 17)).period = seqArg d.desc :)
  ∧ (∀ n (w : AdmitWait) d s, s.power = true → (s.client n).admits = [w] → w.answer = none → w.since + 1000 * s.frm.leadLoss + 20000000 ≤ s.now → s.admitDesc n w.q w.tag = some d → dTag d.desc = w.tag →
      (s.client n).build = none → s.recordsDone n w.q = true →
      ∃ t, exec (.admitReqTimeout n w.q w.tag) s = .next t ∧ (t.client n).admits = [] ∧ (t.client n).refuse = 7 + 256 * (seqIdOf d.desc % 2 ^ 17) ∧ t.north = s.north ∧ t.south = s.south :)
  ∧ (∀ m n s, s.power = true → Here s m → isSync m 2 = true → s.frm.role = 1 → m.src < 16 → leVal ((m.data.drop 4).take 1) % 128 = n →
      exec (.lotSyncRelease m) s = .next ((s.takeIn m).modStk fun k => { k with counts := tabMod 0 k.counts (128 * m.src + n) (· - 1) }) :)
  ∧ (∀ m s, s.power = true → Here s m → isSync m 3 = true → s.frm.role = 1 → m.src < 16 →
      ∃ t, exec (.lotSyncCount m) s = .next t ∧ (∀ n, n < 128 → tabGet 0 t.stk.counts (128 * m.src + n) = leVal ((m.data.drop (4 * n)).take 4)) ∧ (∀ k, k / 128 ≠ m.src → tabGet 0 t.stk.counts k = tabGet 0 s.stk.counts k) :)
  ∧ (∀ t0 s, s.power = true → s.stk.rebuilding = some ([], t0) → s.stk.waitingReqs = [] → (∀ n, n < 128 → (s.client n).admits = []) →
      exec .countRebuildEnd s = .next { s with stk := { s.stk with rebuilding := none, waitingReqs := [] } } :)
  ∧ (∀ m u s, s.power = true → Here s m → isSync m 4 = true → s.homeUnit m (some (leVal ((m.data.drop 8).take 4))) = some u → (u.phase = .running ∨ u.phase = .ready ∨ u.phase = .saved) → m.src ∈ u.waitReady →
      exec (.lotSyncReady m) s = .next ((s.takeIn m).modUnit u.id fun v => { v with
        waitReady := v.waitReady.filter (· != m.src), flags := v.flags ||| BitVec.ofNat 8 (leVal ((m.data.drop 5).take 1))
        ranges := rangesJoin v.ranges ((upTo (leVal ((m.data.drop 6).take 2))).map fun i => rangeOf ((m.data.drop (16 + 32 * i)).take 32)) }) :)
  ∧ (∀ m u s, s.power = true → Here s m → isSync m 5 = true → s.homeUnit m none = some u → (u.phase = .running ∨ u.phase = .saved) → (m.src, leVal ((m.data.drop 4).take 1)) ∉ u.waitBarrier →
      exec (.lotSyncBarrier m) s = .next ((s.takeIn m).modUnit u.id fun v => { v with waitBarrier := (m.src, leVal ((m.data.drop 4).take 1)) :: v.waitBarrier }) :)
  ∧ (∀ m u a b c (r : TileRun) s, s.power = true → Here s m → isSync m 6 = true → s.awayUnit m none = some u → u.tiles = [a] → (s.tile a).run = some r → r.unit = u.id →
      r.stall = some (.barrier (leVal ((m.data.drop 4).take 1)) b c) →
      ∃ t, exec (.barrierGo m) s = .next t ∧ ∃ r', (t.tile a).run = some r' ∧ r'.stall = none ∧ s.cycle a ≤ r'.nextCyc :)
  ∧ (∀ m u s, s.power = true → Here s m → isSync m 7 = true → s.homeUnit m none = some u → u.phase = .running → (s.sideRuns u .main).all (fun x => x.2.pass == 2) = false →
      exec (.merge m) s = .next ((s.takeIn m).modUnit u.id fun v => { v with merges := (m.src, mergeList m) :: v.merges.filter fun x => x.1 != m.src }) :)
  ∧ (∀ m u a (r : TileRun) s, s.power = true → Here s m → isSync m 8 = true → s.awayUnit m none = some u → s.unit? u.id = some u → u.tiles = [a] → (s.tile a).run = some r → r.unit = u.id →
      r.ready = true → r.pass = 1 →
      ∃ t, exec (.mergeResult m) s = .next t ∧ ∃ r', (t.tile a).run = some r' ∧ r'.pass = 2 ∧ r'.ready = false ∧ r'.vreg = [] ∧ r'.mask = [] ∧ r'.acc = [] ∧ r'.x0 = 0 ∧ r'.x1 = 0 ∧ r'.x2 = 0 ∧ r'.x3 = 0 ∧ r'.streams = [] ∧ r'.rho = 0 ∧ r'.pos = 0 :)
  ∧ (∀ m u s, s.power = true → Here s m → isSync m 9 = true → s.awayUnit m (some (leVal ((m.data.drop 8).take 4))) = some u → u.phase ≠ .committed → u.phase ≠ .ready →
      bit (leVal ((m.data.drop 4).take 1)) 0 = true →
      exec (.lotSyncCommit m) s = .next ((s.takeIn m).modUnit u.id fun v => { v with waitFlip := [m.tid.toNat] }) :)
  ∧ (∀ m u s, s.power = true → Here s m → m.typ = 7 → m.resp = true → bits m.arg.toNat 7 0 = 9 → Awaits s m u →
      exec (.lotSyncCommitResponse m) s = .next (((s.takeIn m).answered m).modUnit u.id fun v => { v with waitFlip := v.waitFlip.filter (· != m.src) }) :)
  ∧ (∀ e p s, s.power = true → s.leading = true → (s.stk.lastBeacon = 0 ∨ s.stk.lastBeacon + 100000 ≤ s.now) → s.beaconTo = [e] → s.route e = some p →
      ∃ t, exec .leadBeaconSend s = .next t ∧ (t.port p).vcQ.getD 3 [] = (s.port p).vcQ.getD 3 [] ++
        (if 3 < (s.port p).vcQ.length then transChunks { typ := 8, src := s.frm.waferId, dst := e, len := 16, arg := BitVec.ofNat 64 s.now, data := (leBytes (s.frm.members ||| s.memberMap).toNat 2) ++ leBytes s.frm.waferId 1 ++ leBytes 0 1 ++ leBytes ((s.stk.beacons + 1) % 2 ^ 32) 4 ++ leBytes 0 8 } else []) :)
  ∧ (∀ m s, s.power = true → Here s m → m.typ = 8 → m.resp = false → m.len = 16 → m.src < 16 → s.frm.role = 2 → m.src = s.frm.leadId →
      ∃ t, exec (.timeBeaconReceive m) s = .next t ∧ t.frm.members = BitVec.ofNat 16 (leVal (m.data.take 2)) ∧ t.frm.leadId = m.src ∧ t.stk.lastBeacon = s.now ∧ t.stk.lost = false ∧ t.stk.leadTime = some (m.arg.toNat, s.now) ∧ t.now = s.now :)
  ∧ (∀ e p s, s.power = true → s.frm.role = 2 → s.stk.lastSync + 100000 ≤ s.now → s.nearer = some e → s.route e = some p →
      exec .timeSyncSend s = .next (((s.modStk fun k => { k with nextTid := (k.nextTid + 1) % 2 ^ 32, requests := k.requests ++ [(k.nextTid, e, 0, some p)], lastSync := s.now, syncT1 := some s.now }).sendOn p
        { typ := 8, src := s.frm.waferId, dst := e, tid := BitVec.ofNat 32 s.stk.nextTid, arg := BitVec.ofNat 64 s.now })) :)
  ∧ (∀ m s, s.power = true → Here s m → m.typ = 8 → m.resp = false → m.len = 0 → m.src < 16 →
      exec (.timeSyncRequest m) s = .next ((s.takeIn m).send (transReply m 0 (leBytes s.now 8 ++ leBytes s.now 8))) :)
  ∧ (∀ m s, s.power = true → Here s m → m.typ = 8 → m.resp = true → m.status = 0 → s.awaited m ≠ none → s.stk.syncT1 = some m.arg.toNat →
      ∃ t, exec (.timeSyncReply m) s = .next t ∧ t.now = s.now ∧ t.frm.timeOffset = ((leVal (m.data.take 8) - m.arg.toNat : Int) + (leVal ((m.data.drop 8).take 8) - s.now : Int)).tdiv 2 ∧ t.stk.slew = (if t.frm.timeOffset.natAbs ≤ 3 then 0 else t.frm.timeOffset) ∧ t.stk.syncT1 = none :)
  ∧ (∀ m s, s.power = true → Here s m → m.typ = 9 → m.resp = false → s.frm.role ≠ 2 → s.ntc.route = 0 →
      exec (.notice m) s = .next { s.takeIn m with ntc := { s.ntc with
        log := tabPut s.ntc.log (s.ntc.head.toNat % 64) { time := leVal ((m.data.drop 0).take 8), code := m.arg.toNat % 256, wafer := leVal ((m.data.drop 9).take 1) % 16, forwarded := true, index := leVal ((m.data.drop 10).take 2), value := leVal ((m.data.drop 12).take 4) }, head := s.ntc.head + 1 } } :)
  ∧ (∀ m s, s.power = true → Here s m → m.typ = 10 → m.resp = false → m.data.length = 64 → leVal (m.data.take 2) = 1 → (peerOf m.data).lead = false →
      (bit (leVal ((m.data.drop 8).take 1)) 0 = false ∨ s.frm.role ≠ 2 ∨ s.stk.lost = false ∨ m.src ≠ s.frm.deputy) →
      exec (.id m) s = .next (((s.takeIn m).modStk fun k => { k with peers := tabPut k.peers (leVal ((m.data.drop 3).take 1)) (peerOf m.data) }).send (transReply m 0 (s.identity false))) :)
  ∧ (∀ m s, s.power = true → Here s m → m.typ = 10 → m.resp = true → s.awaited m ≠ none → m.data.length = 64 → leVal (m.data.take 2) = 1 → (peerOf m.data).lead = false →
      exec (.idResponse m) s = .next (((s.takeIn m).answered m).modStk fun k => { k with peers := tabPut k.peers (leVal ((m.data.drop 3).take 1)) (peerOf m.data) }) :)
  ∧ (∀ w s, s.power = true → s.frm.role = 2 → s.stk.lost = false → s.stk.lastBeacon + 1000 * s.frm.leadLoss ≤ s.now → s.deputyOf = some w → w ≠ s.frm.waferId →
      exec .leadLossTimeout s = .next { s with frm := { s.frm with deputy := w }, stk := { s.stk with lost := true, claimSince := s.now } } :)
  ∧ (∀ w s, s.power = true → s.frm.role = 2 → s.stk.lost = true → s.stk.claimSince + 1000 * s.frm.leadLoss ≤ s.now → s.frm.deputy ≠ s.frm.waferId → (s.leaveMap s.frm.deputy).deputyOf = some w →
      w ≠ s.frm.waferId →
      ∃ t, exec .claimTimeout s = .next t ∧ t.frm.deputy = w ∧ t.frm.members = s.frm.members &&& ~~~(BitVec.twoPow 16 s.frm.deputy) ∧ t.frm.role = 2 ∧ t.stk.lost = true ∧ t.stk.claimSince = s.now :)
  ∧ (∀ e r s, s.power = true → s.ntc.toForward = e :: r → s.frm.role = 2 → s.stk.lost = false →
      exec .noticeForward s = .next ({ s with ntc := { s.ntc with toForward := r } }.send { typ := 9, dst := s.frm.leadId, len := 16, arg := BitVec.ofNat 64 e.code, data := e.bytes }) :)
  ∧ (∀ w s, s.power = true → s.wmOpen w = true → ((s.wmGet w).mark = 0 ∨ (s.wmGet w).level ≤ (s.wmGet w).mark) →
      exec (.wmCrossedClear w) s = .next (s.wmPut w { s.wmGet w with crossed := false, count := 0, peak := (s.wmGet w).level }) :)
  ∧ (∀ w m s, s.power = true → s.wmOpen w = true → (wmMark w m = 0 ∨ (s.wmGet w).level ≤ wmMark w m) →
      exec (.wmMarkWrite w m) s = .next (s.wmPut w { s.wmGet w with mark := wmMark w m }) :)
  ∧ (∀ n s, Live s → n < 128 → s.now % 10000000 = 0 → (s.client n).deferEnd ≠ s.now →
      ∃ t, exec (.deferWindowEnd n) s = .next t ∧ (t.client n).wmDefer = (wmUpdate (s.client n).wmDefer (s.client n).deferNow).1 ∧ (t.client n).deferNow = 0 ∧ (t.client n).deferEnd = s.now :)
  ∧ (∀ s, Live s → s.now % 1000000000 = 0 → s.flt.upsetEnd ≠ s.now →
      ∃ t, exec .upsetWindowEnd s = .next t ∧ t.flt = { s.flt with wm := (wmUpdate s.flt.wm s.flt.upsetNow).1, upsetNow := 0, upsetEnd := s.now } :)
  ∧ (∀ eid s, s.power = true →
      exec (.setEndpointId eid) s = .next { s with smbusEid := eid % 256, out := .smbus 0 [] :: s.out } :)
  ∧ (∀ s, s.power = true →
      exec .getTid s = .next { s with out := .smbus 0 [(Config.pldmTid 0).setWidth 32] :: s.out } :)
  ∧ (∀ typ s, s.power = true → (typ = 0 ∨ typ = 2) →
      exec (.getPldmVersion typ) s = .next { s with out := .smbus 0 [Config.pldmVersion typ] :: s.out } :)
  ∧ (∀ s, s.power = true →
      exec .getPldmTypes s = .next { s with out := .smbus 0 [0b101] :: s.out } :)
  ∧ (∀ typ s, s.power = true → (typ = 0 ∨ typ = 2) →
      exec (.getPldmCommands typ) s = .next { s with
        out := .smbus 0 (pldmCommands typ) :: s.out } :)
  ∧ (∀ s, s.power = true →
      exec .getPdrRepositoryInfo s = .next { s with out := .smbus 0 ((upTo 4).map fun i => Config.pldmPdr 0 i) :: s.out } :)
  ∧ (∀ handle s, s.power = true →
      exec (.getPdr handle) s = .next { s with out := .smbus 0 ((upTo 8).map fun i => Config.pldmPdr (handle + 1) i) :: s.out } :)
  ∧ (∀ s, s.power = true →
      exec (.getSensorReading 1) s = .next { s with out := .smbus 0 [BitVec.ofNat 32 s.pwr.wmPower.level] :: s.out } :)
  ∧ (∀ s, s.power = true →
      exec (.getStateSensorReadings 0x300) s = .next { s with out := .smbus 0 [BitVec.ofNat 32 s.frm.state.code] :: s.out } :)
  ∧ (∀ typ cmd s, s.power = true →
      exec (.unsupportedPldmCmd typ cmd) s = .next { s with out := .smbus unsupportedPldm [] :: s.out } :)
  ∧ (∀ n s, s.power = true → (s.client n).dbg.breaking = true → (s.client n).dbg.halted = false → s.haltReady n = true →
      ∃ t, exec (.haltComplete n) s = .next t ∧ t = { s with
        clients := tabMod {} s.clients n fun c => { c with dbg := { c.dbg with
          halted := true, breaking := false, stepping := false, stepped := false, parked := !(s.client n).resident, since := s.now } }
        hbm := t.hbm, trace := t.trace } :)
  ∧ (∀ n s, s.power = true → s.dbgOpen n = true → (s.client n).dbg.halted = false → (s.client n).dbg.breaking = false →
      exec (.halt n) s = .next { s with clients := tabMod {} s.clients n fun c => { c with dbg := { c.dbg with hostReq := true } } } :)
  ∧ (∀ n s, s.power = true → s.dbgOpen n = true → (s.client n).dbg.halted = true → (∀ u ∈ s.units, u.handoff.bind (fun h : HandoffRun => h.held) = none) →
      (∀ a ∈ s.seatTiles n, (s.tile a).heldUpset = false) →
      ∃ t, exec (.release n) s = .next t ∧ (t.client n).dbg = { (s.client n).dbg with
          halted := false, stepping := false, stepped := false, breaking := false, pass := (s.client n).dbg.held, held := none, stepDesc := none } :)
  ∧ (∀ n q (x : ADesc) s, s.power = true → s.dbgOpen n = true → (s.client n).dbg.halted = true → (s.client n).dbg.stepping = false → s.nextHeld n = some (q, x) →
      (∀ u ∈ s.units, u.handoff.bind (fun h : HandoffRun => h.held) = none) →
      ∃ t, exec (.stepDesc n) s = .next t ∧ (t.client n).dbg = { (s.client n).dbg with
        stepping := true, stepped := false, breaking := false, held := none, pass := some (q, x.ordinal), stepDesc := some (q, x.ordinal), q := q, tag := dTag x.desc } :)
  ∧ (∀ n q (x : ADesc) s, s.power = true → s.dbgOpen n = true → (s.client n).dbg.halted = true → (s.client n).dbg.stepping = false → s.runsOf n = [] → s.nextHeld n = some (q, x) →
      exec (.stepLw n) s = .next { s with clients := tabMod {} s.clients n fun c => { c with dbg := { c.dbg with
        stepping := true, stepped := false, held := none, pass := some (q, x.ordinal), q := q, tag := dTag x.desc } } } :)
  ∧ (∀ n s, s.power = true → (s.client n).dbg.halted = true → (s.client n).dbg.stepping = true → (s.client n).dbg.stepDesc = none → (s.client n).dbg.pass = none → s.haltReady n = true →
      ∃ t, exec (.stepComplete n) s = .next t ∧ (t.client n).dbg.stepping = false ∧ (t.client n).dbg.stepped = true ∧ (t.client n).dbg.halted = true :)
  ∧ (∀ tdi s, s.power = true →
      exec (.bypass tdi) s = .next { s with jtag := { s.jtag with ir := 0, driven := false }, out := .jtagOut (tdi <<< 1) :: s.out } :)
  ∧ (∀ s, s.power = true →
      exec .idcode s = .next { s with jtag := { s.jtag with ir := 1, driven := false }, out := .jtagOut 0x190006B7 :: s.out } :)
  ∧ (∀ cells s, s.power = true →
      exec (.samplePreload cells) s = .next { s with
      jtag := { s.jtag with ir := 2, driven := false, boundary := cells }, freeCtr := s.freeCtr + 1, out := .jtagOut (Config.freeScan s.freeCtr) :: s.out } :)
  ∧ (∀ s, s.power = true →
      exec .extest s = .next { s with jtag := { s.jtag with ir := 3, driven := true } } :)
  ∧ (∀ chain tdi s, s.power = true →
      exec (.scan chain tdi) s = .next { s with
      jtag := { s.jtag with ir := 4, driven := false }, freeCtr := s.freeCtr + 1, out := .jtagOut (Config.freeScan s.freeCtr) :: s.out } :)
  ∧ (∀ a o n s, s.power = true → a < 8192 → o + n ≤ 65536 * 48 →
      exec (.memacc (.vat a o) (.read n)) s = .next { s with
        jtag := { s.jtag with ir := 5, driven := false }, out := .readBytes (memRead (s.tile a).vat o n) :: s.out } :)
  ∧ (∀ k s, s.power = true → k < 24 →
      exec (.fuse (.readLedger k)) s = .next { s with jtag := { s.jtag with ir := 6, driven := false }, out := .readBytes (leBytes (s.frm.slot k).toNat 1280) :: s.out } :)
  ∧ (∀ s, s.power = true → s.frm.resetReq = none →
      exec .jtagReset s = .next { s with jtag := { s.jtag with ir := 7, driven := false }, frm := { s.frm with resetReq := some 4 } } :)
  ∧ (∀ s, s.power = true → s.pwr.pausing = true → s.pwr.pauseStart + 1000 * s.pwr.pause ≤ s.now →
      exec .capPauseEnd s = .next { s with pwr := { s.pwr with pausing := false } } :)
  ∧ (∀ n q s, s.power = true → s.canFetch n q = true → (s.queue n q).fetchFail = none → (s.queue n q).baseLoc = 0 →
      exec (.fetchCompletionTimeout n q) s = .next { (s.modQueue n q fun x => { x with fetchFail := some { cause := 4, at_ := s.now } }) with
        out := .hostRead n (s.queue n q).fetchAddr (64 * (s.queue n q).fetchCount) :: s.out } :)
  ∧ (∀ p s, s.power = true → p < 4 → s.frm.state ≠ .frameBoot → (∀ f, f < 32 → (s.client (32 * p + f)).func.bme = false) →
      exec (.pcieLinkUp p) s = .next { s with linkUp := tabPut s.linkUp p true, out := .deviceReadiness p :: s.out } :)
  ∧ (∀ p s, Live s → p < 4 →
      ∃ t, exec (.pcieLinkDown p) s = .next t ∧ tabGet false t.linkUp p = false ∧ tabGet 0 t.numVfs p = 0 ∧ ∀ f, f < 32 → (t.client (32 * p + f)).en = false ∧ (t.client (32 * p + f)).q0 = {} :)
  ∧ (∀ n q t0 s, s.power = true → (s.port n).state = .active → (s.port n).retireWait = some (q, t0) → t0 + 2000 ≤ s.now → (s.port n).needsRecovery = true →
      ∃ t, exec (.laneRetireWaitExpiry n) s = .next t ∧ (t.port n).state = .recovery ∧ (t.port n).retireWait = none ∧ (t.port n).held = (s.port n).held :)
  ∧ (∀ n v s, s.power = true → (s.client n).func.pendingBits = [v] → (s.client n).func.funcMask = false → s.canDma n = true →
      exec (.msixVectorUnmask n (some v)) s = .next { s with
        clients := tabMod {} s.clients n fun c => { c with func := { c.func with masked := c.func.masked.filter (· != v), pendingBits := [] } }
        out := .msix n v :: s.out } :)
  ∧ (∀ n s, Live s →
      exec (.outcomeRingDisable n) s = .next { s with
        clients := tabMod {} s.clients n fun c => { c with out := { c.out with enable := false, reserved := 0, pend := 0 }, lostSeqs := [] } } :)
  ∧ (∀ v s, Live s →
      exec (.traceEnable v) s = .next { s with trace := { s.trace with
        en := bit v.toNat 0 && (s.trace.en || s.traceOk), stop := bit v.toNat 1, members := bit v.toNat 2 } } :)
  ∧ (∀ n s, s.power = true →
      exec (.vfFlrDone n) s = .next { s with clients := tabMod {} s.clients n fun c => { c with func := { c.func with flr := false } } } :)
end

