-- ==== Sys2Proof/Laws/State.lean ====
section
/-! SUPPORT. What each update of the state leaves in each field: one lemma per field per update, all true by `rfl`. -/

namespace Sys2Proof.Machine

open Sys2Proof

variable (s : State)

/-! ### modClient -/

@[simp] theorem State.modClient_pending (n : Nat) (f : Client → Client) : (s.modClient n f).pending = s.pending := rfl
@[simp] theorem State.modClient_power (n : Nat) (f : Client → Client) : (s.modClient n f).power = s.power := rfl
@[simp] theorem State.modClient_now (n : Nat) (f : Client → Client) : (s.modClient n f).now = s.now := rfl
@[simp] theorem State.modClient_frm (n : Nat) (f : Client → Client) : (s.modClient n f).frm = s.frm := rfl
@[simp] theorem State.modClient_pwr (n : Nat) (f : Client → Client) : (s.modClient n f).pwr = s.pwr := rfl
@[simp] theorem State.modClient_flt (n : Nat) (f : Client → Client) : (s.modClient n f).flt = s.flt := rfl
@[simp] theorem State.modClient_ntc (n : Nat) (f : Client → Client) : (s.modClient n f).ntc = s.ntc := rfl
@[simp] theorem State.modClient_trace (n : Nat) (f : Client → Client) : (s.modClient n f).trace = s.trace := rfl
@[simp] theorem State.modClient_clients (n : Nat) (f : Client → Client) : (s.modClient n f).clients = tabMod {} s.clients n f := rfl
@[simp] theorem State.modClient_parts (n : Nat) (f : Client → Client) : (s.modClient n f).parts = s.parts := rfl
@[simp] theorem State.modClient_tiles (n : Nat) (f : Client → Client) : (s.modClient n f).tiles = s.tiles := rfl
@[simp] theorem State.modClient_units (n : Nat) (f : Client → Client) : (s.modClient n f).units = s.units := rfl
@[simp] theorem State.modClient_nextUnit (n : Nat) (f : Client → Client) : (s.modClient n f).nextUnit = s.nextUnit := rfl
@[simp] theorem State.modClient_fabric (n : Nat) (f : Client → Client) : (s.modClient n f).fabric = s.fabric := rfl
@[simp] theorem State.modClient_north (n : Nat) (f : Client → Client) : (s.modClient n f).north = s.north := rfl
@[simp] theorem State.modClient_south (n : Nat) (f : Client → Client) : (s.modClient n f).south = s.south := rfl
@[simp] theorem State.modClient_ltLimit (n : Nat) (f : Client → Client) : (s.modClient n f).ltLimit = s.ltLimit := rfl
@[simp] theorem State.modClient_wmLot (n : Nat) (f : Client → Client) : (s.modClient n f).wmLot = s.wmLot := rfl
@[simp] theorem State.modClient_swShare (n : Nat) (f : Client → Client) : (s.modClient n f).swShare = s.swShare := rfl
@[simp] theorem State.modClient_stageSlots (n : Nat) (f : Client → Client) : (s.modClient n f).stageSlots = s.stageSlots := rfl
@[simp] theorem State.modClient_hbm (n : Nat) (f : Client → Client) : (s.modClient n f).hbm = s.hbm := rfl
@[simp] theorem State.modClient_hbmCtl (n : Nat) (f : Client → Client) : (s.modClient n f).hbmCtl = s.hbmCtl := rfl
@[simp] theorem State.modClient_ports (n : Nat) (f : Client → Client) : (s.modClient n f).ports = s.ports := rfl
@[simp] theorem State.modClient_stk (n : Nat) (f : Client → Client) : (s.modClient n f).stk = s.stk := rfl
@[simp] theorem State.modClient_inbox (n : Nat) (f : Client → Client) : (s.modClient n f).inbox = s.inbox := rfl
@[simp] theorem State.modClient_numVfs (n : Nat) (f : Client → Client) : (s.modClient n f).numVfs = s.numVfs := rfl
@[simp] theorem State.modClient_linkUp (n : Nat) (f : Client → Client) : (s.modClient n f).linkUp = s.linkUp := rfl
@[simp] theorem State.modClient_latches (n : Nat) (f : Client → Client) : (s.modClient n f).latches = s.latches := rfl
@[simp] theorem State.modClient_jtag (n : Nat) (f : Client → Client) : (s.modClient n f).jtag = s.jtag := rfl
@[simp] theorem State.modClient_smbusEid (n : Nat) (f : Client → Client) : (s.modClient n f).smbusEid = s.smbusEid := rfl
@[simp] theorem State.modClient_order (n : Nat) (f : Client → Client) : (s.modClient n f).order = s.order := rfl
@[simp] theorem State.modClient_freeCtr (n : Nat) (f : Client → Client) : (s.modClient n f).freeCtr = s.freeCtr := rfl
@[simp] theorem State.modClient_out (n : Nat) (f : Client → Client) : (s.modClient n f).out = s.out := rfl

/-! ### modPart -/

@[simp] theorem State.modPart_pending (p : Nat) (f : Part → Part) : (s.modPart p f).pending = s.pending := rfl
@[simp] theorem State.modPart_power (p : Nat) (f : Part → Part) : (s.modPart p f).power = s.power := rfl
@[simp] theorem State.modPart_now (p : Nat) (f : Part → Part) : (s.modPart p f).now = s.now := rfl
@[simp] theorem State.modPart_frm (p : Nat) (f : Part → Part) : (s.modPart p f).frm = s.frm := rfl
@[simp] theorem State.modPart_pwr (p : Nat) (f : Part → Part) : (s.modPart p f).pwr = s.pwr := rfl
@[simp] theorem State.modPart_flt (p : Nat) (f : Part → Part) : (s.modPart p f).flt = s.flt := rfl
@[simp] theorem State.modPart_ntc (p : Nat) (f : Part → Part) : (s.modPart p f).ntc = s.ntc := rfl
@[simp] theorem State.modPart_trace (p : Nat) (f : Part → Part) : (s.modPart p f).trace = s.trace := rfl
@[simp] theorem State.modPart_clients (p : Nat) (f : Part → Part) : (s.modPart p f).clients = s.clients := rfl
@[simp] theorem State.modPart_parts (p : Nat) (f : Part → Part) : (s.modPart p f).parts = tabMod {} s.parts p f := rfl
@[simp] theorem State.modPart_tiles (p : Nat) (f : Part → Part) : (s.modPart p f).tiles = s.tiles := rfl
@[simp] theorem State.modPart_units (p : Nat) (f : Part → Part) : (s.modPart p f).units = s.units := rfl
@[simp] theorem State.modPart_nextUnit (p : Nat) (f : Part → Part) : (s.modPart p f).nextUnit = s.nextUnit := rfl
@[simp] theorem State.modPart_fabric (p : Nat) (f : Part → Part) : (s.modPart p f).fabric = s.fabric := rfl
@[simp] theorem State.modPart_north (p : Nat) (f : Part → Part) : (s.modPart p f).north = s.north := rfl
@[simp] theorem State.modPart_south (p : Nat) (f : Part → Part) : (s.modPart p f).south = s.south := rfl
@[simp] theorem State.modPart_ltLimit (p : Nat) (f : Part → Part) : (s.modPart p f).ltLimit = s.ltLimit := rfl
@[simp] theorem State.modPart_wmLot (p : Nat) (f : Part → Part) : (s.modPart p f).wmLot = s.wmLot := rfl
@[simp] theorem State.modPart_swShare (p : Nat) (f : Part → Part) : (s.modPart p f).swShare = s.swShare := rfl
@[simp] theorem State.modPart_stageSlots (p : Nat) (f : Part → Part) : (s.modPart p f).stageSlots = s.stageSlots := rfl
@[simp] theorem State.modPart_hbm (p : Nat) (f : Part → Part) : (s.modPart p f).hbm = s.hbm := rfl
@[simp] theorem State.modPart_hbmCtl (p : Nat) (f : Part → Part) : (s.modPart p f).hbmCtl = s.hbmCtl := rfl
@[simp] theorem State.modPart_ports (p : Nat) (f : Part → Part) : (s.modPart p f).ports = s.ports := rfl
@[simp] theorem State.modPart_stk (p : Nat) (f : Part → Part) : (s.modPart p f).stk = s.stk := rfl
@[simp] theorem State.modPart_inbox (p : Nat) (f : Part → Part) : (s.modPart p f).inbox = s.inbox := rfl
@[simp] theorem State.modPart_numVfs (p : Nat) (f : Part → Part) : (s.modPart p f).numVfs = s.numVfs := rfl
@[simp] theorem State.modPart_linkUp (p : Nat) (f : Part → Part) : (s.modPart p f).linkUp = s.linkUp := rfl
@[simp] theorem State.modPart_latches (p : Nat) (f : Part → Part) : (s.modPart p f).latches = s.latches := rfl
@[simp] theorem State.modPart_jtag (p : Nat) (f : Part → Part) : (s.modPart p f).jtag = s.jtag := rfl
@[simp] theorem State.modPart_smbusEid (p : Nat) (f : Part → Part) : (s.modPart p f).smbusEid = s.smbusEid := rfl
@[simp] theorem State.modPart_order (p : Nat) (f : Part → Part) : (s.modPart p f).order = s.order := rfl
@[simp] theorem State.modPart_freeCtr (p : Nat) (f : Part → Part) : (s.modPart p f).freeCtr = s.freeCtr := rfl
@[simp] theorem State.modPart_out (p : Nat) (f : Part → Part) : (s.modPart p f).out = s.out := rfl

/-! ### modTile -/

@[simp] theorem State.modTile_pending (a : Nat) (f : Tile → Tile) : (s.modTile a f).pending = s.pending := rfl
@[simp] theorem State.modTile_power (a : Nat) (f : Tile → Tile) : (s.modTile a f).power = s.power := rfl
@[simp] theorem State.modTile_now (a : Nat) (f : Tile → Tile) : (s.modTile a f).now = s.now := rfl
@[simp] theorem State.modTile_frm (a : Nat) (f : Tile → Tile) : (s.modTile a f).frm = s.frm := rfl
@[simp] theorem State.modTile_pwr (a : Nat) (f : Tile → Tile) : (s.modTile a f).pwr = s.pwr := rfl
@[simp] theorem State.modTile_flt (a : Nat) (f : Tile → Tile) : (s.modTile a f).flt = s.flt := rfl
@[simp] theorem State.modTile_ntc (a : Nat) (f : Tile → Tile) : (s.modTile a f).ntc = s.ntc := rfl
@[simp] theorem State.modTile_trace (a : Nat) (f : Tile → Tile) : (s.modTile a f).trace = s.trace := rfl
@[simp] theorem State.modTile_clients (a : Nat) (f : Tile → Tile) : (s.modTile a f).clients = s.clients := rfl
@[simp] theorem State.modTile_parts (a : Nat) (f : Tile → Tile) : (s.modTile a f).parts = s.parts := rfl
@[simp] theorem State.modTile_tiles (a : Nat) (f : Tile → Tile) : (s.modTile a f).tiles = tabMod {} s.tiles a f := rfl
@[simp] theorem State.modTile_units (a : Nat) (f : Tile → Tile) : (s.modTile a f).units = s.units := rfl
@[simp] theorem State.modTile_nextUnit (a : Nat) (f : Tile → Tile) : (s.modTile a f).nextUnit = s.nextUnit := rfl
@[simp] theorem State.modTile_fabric (a : Nat) (f : Tile → Tile) : (s.modTile a f).fabric = s.fabric := rfl
@[simp] theorem State.modTile_north (a : Nat) (f : Tile → Tile) : (s.modTile a f).north = s.north := rfl
@[simp] theorem State.modTile_south (a : Nat) (f : Tile → Tile) : (s.modTile a f).south = s.south := rfl
@[simp] theorem State.modTile_ltLimit (a : Nat) (f : Tile → Tile) : (s.modTile a f).ltLimit = s.ltLimit := rfl
@[simp] theorem State.modTile_wmLot (a : Nat) (f : Tile → Tile) : (s.modTile a f).wmLot = s.wmLot := rfl
@[simp] theorem State.modTile_swShare (a : Nat) (f : Tile → Tile) : (s.modTile a f).swShare = s.swShare := rfl
@[simp] theorem State.modTile_stageSlots (a : Nat) (f : Tile → Tile) : (s.modTile a f).stageSlots = s.stageSlots := rfl
@[simp] theorem State.modTile_hbm (a : Nat) (f : Tile → Tile) : (s.modTile a f).hbm = s.hbm := rfl
@[simp] theorem State.modTile_hbmCtl (a : Nat) (f : Tile → Tile) : (s.modTile a f).hbmCtl = s.hbmCtl := rfl
@[simp] theorem State.modTile_ports (a : Nat) (f : Tile → Tile) : (s.modTile a f).ports = s.ports := rfl
@[simp] theorem State.modTile_stk (a : Nat) (f : Tile → Tile) : (s.modTile a f).stk = s.stk := rfl
@[simp] theorem State.modTile_inbox (a : Nat) (f : Tile → Tile) : (s.modTile a f).inbox = s.inbox := rfl
@[simp] theorem State.modTile_numVfs (a : Nat) (f : Tile → Tile) : (s.modTile a f).numVfs = s.numVfs := rfl
@[simp] theorem State.modTile_linkUp (a : Nat) (f : Tile → Tile) : (s.modTile a f).linkUp = s.linkUp := rfl
@[simp] theorem State.modTile_latches (a : Nat) (f : Tile → Tile) : (s.modTile a f).latches = s.latches := rfl
@[simp] theorem State.modTile_jtag (a : Nat) (f : Tile → Tile) : (s.modTile a f).jtag = s.jtag := rfl
@[simp] theorem State.modTile_smbusEid (a : Nat) (f : Tile → Tile) : (s.modTile a f).smbusEid = s.smbusEid := rfl
@[simp] theorem State.modTile_order (a : Nat) (f : Tile → Tile) : (s.modTile a f).order = s.order := rfl
@[simp] theorem State.modTile_freeCtr (a : Nat) (f : Tile → Tile) : (s.modTile a f).freeCtr = s.freeCtr := rfl
@[simp] theorem State.modTile_out (a : Nat) (f : Tile → Tile) : (s.modTile a f).out = s.out := rfl

/-! ### modDom -/

@[simp] theorem State.modDom_pending (d : Nat) (f : Dom → Dom) : (s.modDom d f).pending = s.pending := rfl
@[simp] theorem State.modDom_power (d : Nat) (f : Dom → Dom) : (s.modDom d f).power = s.power := rfl
@[simp] theorem State.modDom_now (d : Nat) (f : Dom → Dom) : (s.modDom d f).now = s.now := rfl
@[simp] theorem State.modDom_frm (d : Nat) (f : Dom → Dom) : (s.modDom d f).frm = s.frm := rfl
@[simp] theorem State.modDom_pwr (d : Nat) (f : Dom → Dom) : (s.modDom d f).pwr = { s.pwr with doms := tabMod {} s.pwr.doms d f } := rfl
@[simp] theorem State.modDom_flt (d : Nat) (f : Dom → Dom) : (s.modDom d f).flt = s.flt := rfl
@[simp] theorem State.modDom_ntc (d : Nat) (f : Dom → Dom) : (s.modDom d f).ntc = s.ntc := rfl
@[simp] theorem State.modDom_trace (d : Nat) (f : Dom → Dom) : (s.modDom d f).trace = s.trace := rfl
@[simp] theorem State.modDom_clients (d : Nat) (f : Dom → Dom) : (s.modDom d f).clients = s.clients := rfl
@[simp] theorem State.modDom_parts (d : Nat) (f : Dom → Dom) : (s.modDom d f).parts = s.parts := rfl
@[simp] theorem State.modDom_tiles (d : Nat) (f : Dom → Dom) : (s.modDom d f).tiles = s.tiles := rfl
@[simp] theorem State.modDom_units (d : Nat) (f : Dom → Dom) : (s.modDom d f).units = s.units := rfl
@[simp] theorem State.modDom_nextUnit (d : Nat) (f : Dom → Dom) : (s.modDom d f).nextUnit = s.nextUnit := rfl
@[simp] theorem State.modDom_fabric (d : Nat) (f : Dom → Dom) : (s.modDom d f).fabric = s.fabric := rfl
@[simp] theorem State.modDom_north (d : Nat) (f : Dom → Dom) : (s.modDom d f).north = s.north := rfl
@[simp] theorem State.modDom_south (d : Nat) (f : Dom → Dom) : (s.modDom d f).south = s.south := rfl
@[simp] theorem State.modDom_ltLimit (d : Nat) (f : Dom → Dom) : (s.modDom d f).ltLimit = s.ltLimit := rfl
@[simp] theorem State.modDom_wmLot (d : Nat) (f : Dom → Dom) : (s.modDom d f).wmLot = s.wmLot := rfl
@[simp] theorem State.modDom_swShare (d : Nat) (f : Dom → Dom) : (s.modDom d f).swShare = s.swShare := rfl
@[simp] theorem State.modDom_stageSlots (d : Nat) (f : Dom → Dom) : (s.modDom d f).stageSlots = s.stageSlots := rfl
@[simp] theorem State.modDom_hbm (d : Nat) (f : Dom → Dom) : (s.modDom d f).hbm = s.hbm := rfl
@[simp] theorem State.modDom_hbmCtl (d : Nat) (f : Dom → Dom) : (s.modDom d f).hbmCtl = s.hbmCtl := rfl
@[simp] theorem State.modDom_ports (d : Nat) (f : Dom → Dom) : (s.modDom d f).ports = s.ports := rfl
@[simp] theorem State.modDom_stk (d : Nat) (f : Dom → Dom) : (s.modDom d f).stk = s.stk := rfl
@[simp] theorem State.modDom_inbox (d : Nat) (f : Dom → Dom) : (s.modDom d f).inbox = s.inbox := rfl
@[simp] theorem State.modDom_numVfs (d : Nat) (f : Dom → Dom) : (s.modDom d f).numVfs = s.numVfs := rfl
@[simp] theorem State.modDom_linkUp (d : Nat) (f : Dom → Dom) : (s.modDom d f).linkUp = s.linkUp := rfl
@[simp] theorem State.modDom_latches (d : Nat) (f : Dom → Dom) : (s.modDom d f).latches = s.latches := rfl
@[simp] theorem State.modDom_jtag (d : Nat) (f : Dom → Dom) : (s.modDom d f).jtag = s.jtag := rfl
@[simp] theorem State.modDom_smbusEid (d : Nat) (f : Dom → Dom) : (s.modDom d f).smbusEid = s.smbusEid := rfl
@[simp] theorem State.modDom_order (d : Nat) (f : Dom → Dom) : (s.modDom d f).order = s.order := rfl
@[simp] theorem State.modDom_freeCtr (d : Nat) (f : Dom → Dom) : (s.modDom d f).freeCtr = s.freeCtr := rfl
@[simp] theorem State.modDom_out (d : Nat) (f : Dom → Dom) : (s.modDom d f).out = s.out := rfl

/-! ### modPort -/

@[simp] theorem State.modPort_pending (p : Nat) (f : Port → Port) : (s.modPort p f).pending = s.pending := rfl
@[simp] theorem State.modPort_power (p : Nat) (f : Port → Port) : (s.modPort p f).power = s.power := rfl
@[simp] theorem State.modPort_now (p : Nat) (f : Port → Port) : (s.modPort p f).now = s.now := rfl
@[simp] theorem State.modPort_frm (p : Nat) (f : Port → Port) : (s.modPort p f).frm = s.frm := rfl
@[simp] theorem State.modPort_pwr (p : Nat) (f : Port → Port) : (s.modPort p f).pwr = s.pwr := rfl
@[simp] theorem State.modPort_flt (p : Nat) (f : Port → Port) : (s.modPort p f).flt = s.flt := rfl
@[simp] theorem State.modPort_ntc (p : Nat) (f : Port → Port) : (s.modPort p f).ntc = s.ntc := rfl
@[simp] theorem State.modPort_trace (p : Nat) (f : Port → Port) : (s.modPort p f).trace = s.trace := rfl
@[simp] theorem State.modPort_clients (p : Nat) (f : Port → Port) : (s.modPort p f).clients = s.clients := rfl
@[simp] theorem State.modPort_parts (p : Nat) (f : Port → Port) : (s.modPort p f).parts = s.parts := rfl
@[simp] theorem State.modPort_tiles (p : Nat) (f : Port → Port) : (s.modPort p f).tiles = s.tiles := rfl
@[simp] theorem State.modPort_units (p : Nat) (f : Port → Port) : (s.modPort p f).units = s.units := rfl
@[simp] theorem State.modPort_nextUnit (p : Nat) (f : Port → Port) : (s.modPort p f).nextUnit = s.nextUnit := rfl
@[simp] theorem State.modPort_fabric (p : Nat) (f : Port → Port) : (s.modPort p f).fabric = s.fabric := rfl
@[simp] theorem State.modPort_north (p : Nat) (f : Port → Port) : (s.modPort p f).north = s.north := rfl
@[simp] theorem State.modPort_south (p : Nat) (f : Port → Port) : (s.modPort p f).south = s.south := rfl
@[simp] theorem State.modPort_ltLimit (p : Nat) (f : Port → Port) : (s.modPort p f).ltLimit = s.ltLimit := rfl
@[simp] theorem State.modPort_wmLot (p : Nat) (f : Port → Port) : (s.modPort p f).wmLot = s.wmLot := rfl
@[simp] theorem State.modPort_swShare (p : Nat) (f : Port → Port) : (s.modPort p f).swShare = s.swShare := rfl
@[simp] theorem State.modPort_stageSlots (p : Nat) (f : Port → Port) : (s.modPort p f).stageSlots = s.stageSlots := rfl
@[simp] theorem State.modPort_hbm (p : Nat) (f : Port → Port) : (s.modPort p f).hbm = s.hbm := rfl
@[simp] theorem State.modPort_hbmCtl (p : Nat) (f : Port → Port) : (s.modPort p f).hbmCtl = s.hbmCtl := rfl
@[simp] theorem State.modPort_ports (p : Nat) (f : Port → Port) : (s.modPort p f).ports = tabMod {} s.ports p f := rfl
@[simp] theorem State.modPort_stk (p : Nat) (f : Port → Port) : (s.modPort p f).stk = s.stk := rfl
@[simp] theorem State.modPort_inbox (p : Nat) (f : Port → Port) : (s.modPort p f).inbox = s.inbox := rfl
@[simp] theorem State.modPort_numVfs (p : Nat) (f : Port → Port) : (s.modPort p f).numVfs = s.numVfs := rfl
@[simp] theorem State.modPort_linkUp (p : Nat) (f : Port → Port) : (s.modPort p f).linkUp = s.linkUp := rfl
@[simp] theorem State.modPort_latches (p : Nat) (f : Port → Port) : (s.modPort p f).latches = s.latches := rfl
@[simp] theorem State.modPort_jtag (p : Nat) (f : Port → Port) : (s.modPort p f).jtag = s.jtag := rfl
@[simp] theorem State.modPort_smbusEid (p : Nat) (f : Port → Port) : (s.modPort p f).smbusEid = s.smbusEid := rfl
@[simp] theorem State.modPort_order (p : Nat) (f : Port → Port) : (s.modPort p f).order = s.order := rfl
@[simp] theorem State.modPort_freeCtr (p : Nat) (f : Port → Port) : (s.modPort p f).freeCtr = s.freeCtr := rfl
@[simp] theorem State.modPort_out (p : Nat) (f : Port → Port) : (s.modPort p f).out = s.out := rfl

/-! ### modCtl -/

@[simp] theorem State.modCtl_pending (m : Nat) (f : HbmCtl → HbmCtl) : (s.modCtl m f).pending = s.pending := rfl
@[simp] theorem State.modCtl_power (m : Nat) (f : HbmCtl → HbmCtl) : (s.modCtl m f).power = s.power := rfl
@[simp] theorem State.modCtl_now (m : Nat) (f : HbmCtl → HbmCtl) : (s.modCtl m f).now = s.now := rfl
@[simp] theorem State.modCtl_frm (m : Nat) (f : HbmCtl → HbmCtl) : (s.modCtl m f).frm = s.frm := rfl
@[simp] theorem State.modCtl_pwr (m : Nat) (f : HbmCtl → HbmCtl) : (s.modCtl m f).pwr = s.pwr := rfl
@[simp] theorem State.modCtl_flt (m : Nat) (f : HbmCtl → HbmCtl) : (s.modCtl m f).flt = s.flt := rfl
@[simp] theorem State.modCtl_ntc (m : Nat) (f : HbmCtl → HbmCtl) : (s.modCtl m f).ntc = s.ntc := rfl
@[simp] theorem State.modCtl_trace (m : Nat) (f : HbmCtl → HbmCtl) : (s.modCtl m f).trace = s.trace := rfl
@[simp] theorem State.modCtl_clients (m : Nat) (f : HbmCtl → HbmCtl) : (s.modCtl m f).clients = s.clients := rfl
@[simp] theorem State.modCtl_parts (m : Nat) (f : HbmCtl → HbmCtl) : (s.modCtl m f).parts = s.parts := rfl
@[simp] theorem State.modCtl_tiles (m : Nat) (f : HbmCtl → HbmCtl) : (s.modCtl m f).tiles = s.tiles := rfl
@[simp] theorem State.modCtl_units (m : Nat) (f : HbmCtl → HbmCtl) : (s.modCtl m f).units = s.units := rfl
@[simp] theorem State.modCtl_nextUnit (m : Nat) (f : HbmCtl → HbmCtl) : (s.modCtl m f).nextUnit = s.nextUnit := rfl
@[simp] theorem State.modCtl_fabric (m : Nat) (f : HbmCtl → HbmCtl) : (s.modCtl m f).fabric = s.fabric := rfl
@[simp] theorem State.modCtl_north (m : Nat) (f : HbmCtl → HbmCtl) : (s.modCtl m f).north = s.north := rfl
@[simp] theorem State.modCtl_south (m : Nat) (f : HbmCtl → HbmCtl) : (s.modCtl m f).south = s.south := rfl
@[simp] theorem State.modCtl_ltLimit (m : Nat) (f : HbmCtl → HbmCtl) : (s.modCtl m f).ltLimit = s.ltLimit := rfl
@[simp] theorem State.modCtl_wmLot (m : Nat) (f : HbmCtl → HbmCtl) : (s.modCtl m f).wmLot = s.wmLot := rfl
@[simp] theorem State.modCtl_swShare (m : Nat) (f : HbmCtl → HbmCtl) : (s.modCtl m f).swShare = s.swShare := rfl
@[simp] theorem State.modCtl_stageSlots (m : Nat) (f : HbmCtl → HbmCtl) : (s.modCtl m f).stageSlots = s.stageSlots := rfl
@[simp] theorem State.modCtl_hbm (m : Nat) (f : HbmCtl → HbmCtl) : (s.modCtl m f).hbm = s.hbm := rfl
@[simp] theorem State.modCtl_hbmCtl (m : Nat) (f : HbmCtl → HbmCtl) : (s.modCtl m f).hbmCtl = tabMod {} s.hbmCtl m f := rfl
@[simp] theorem State.modCtl_ports (m : Nat) (f : HbmCtl → HbmCtl) : (s.modCtl m f).ports = s.ports := rfl
@[simp] theorem State.modCtl_stk (m : Nat) (f : HbmCtl → HbmCtl) : (s.modCtl m f).stk = s.stk := rfl
@[simp] theorem State.modCtl_inbox (m : Nat) (f : HbmCtl → HbmCtl) : (s.modCtl m f).inbox = s.inbox := rfl
@[simp] theorem State.modCtl_numVfs (m : Nat) (f : HbmCtl → HbmCtl) : (s.modCtl m f).numVfs = s.numVfs := rfl
@[simp] theorem State.modCtl_linkUp (m : Nat) (f : HbmCtl → HbmCtl) : (s.modCtl m f).linkUp = s.linkUp := rfl
@[simp] theorem State.modCtl_latches (m : Nat) (f : HbmCtl → HbmCtl) : (s.modCtl m f).latches = s.latches := rfl
@[simp] theorem State.modCtl_jtag (m : Nat) (f : HbmCtl → HbmCtl) : (s.modCtl m f).jtag = s.jtag := rfl
@[simp] theorem State.modCtl_smbusEid (m : Nat) (f : HbmCtl → HbmCtl) : (s.modCtl m f).smbusEid = s.smbusEid := rfl
@[simp] theorem State.modCtl_order (m : Nat) (f : HbmCtl → HbmCtl) : (s.modCtl m f).order = s.order := rfl
@[simp] theorem State.modCtl_freeCtr (m : Nat) (f : HbmCtl → HbmCtl) : (s.modCtl m f).freeCtr = s.freeCtr := rfl
@[simp] theorem State.modCtl_out (m : Nat) (f : HbmCtl → HbmCtl) : (s.modCtl m f).out = s.out := rfl

/-! ### modUnit -/

@[simp] theorem State.modUnit_pending (id : Nat) (f : CUnit → CUnit) : (s.modUnit id f).pending = s.pending := rfl
@[simp] theorem State.modUnit_power (id : Nat) (f : CUnit → CUnit) : (s.modUnit id f).power = s.power := rfl
@[simp] theorem State.modUnit_now (id : Nat) (f : CUnit → CUnit) : (s.modUnit id f).now = s.now := rfl
@[simp] theorem State.modUnit_frm (id : Nat) (f : CUnit → CUnit) : (s.modUnit id f).frm = s.frm := rfl
@[simp] theorem State.modUnit_pwr (id : Nat) (f : CUnit → CUnit) : (s.modUnit id f).pwr = s.pwr := rfl
@[simp] theorem State.modUnit_flt (id : Nat) (f : CUnit → CUnit) : (s.modUnit id f).flt = s.flt := rfl
@[simp] theorem State.modUnit_ntc (id : Nat) (f : CUnit → CUnit) : (s.modUnit id f).ntc = s.ntc := rfl
@[simp] theorem State.modUnit_trace (id : Nat) (f : CUnit → CUnit) : (s.modUnit id f).trace = s.trace := rfl
@[simp] theorem State.modUnit_clients (id : Nat) (f : CUnit → CUnit) : (s.modUnit id f).clients = s.clients := rfl
@[simp] theorem State.modUnit_parts (id : Nat) (f : CUnit → CUnit) : (s.modUnit id f).parts = s.parts := rfl
@[simp] theorem State.modUnit_tiles (id : Nat) (f : CUnit → CUnit) : (s.modUnit id f).tiles = s.tiles := rfl
@[simp] theorem State.modUnit_units (id : Nat) (f : CUnit → CUnit) : (s.modUnit id f).units = s.units.map fun u => if u.id = id then f u else u := rfl
@[simp] theorem State.modUnit_nextUnit (id : Nat) (f : CUnit → CUnit) : (s.modUnit id f).nextUnit = s.nextUnit := rfl
@[simp] theorem State.modUnit_fabric (id : Nat) (f : CUnit → CUnit) : (s.modUnit id f).fabric = s.fabric := rfl
@[simp] theorem State.modUnit_north (id : Nat) (f : CUnit → CUnit) : (s.modUnit id f).north = s.north := rfl
@[simp] theorem State.modUnit_south (id : Nat) (f : CUnit → CUnit) : (s.modUnit id f).south = s.south := rfl
@[simp] theorem State.modUnit_ltLimit (id : Nat) (f : CUnit → CUnit) : (s.modUnit id f).ltLimit = s.ltLimit := rfl
@[simp] theorem State.modUnit_wmLot (id : Nat) (f : CUnit → CUnit) : (s.modUnit id f).wmLot = s.wmLot := rfl
@[simp] theorem State.modUnit_swShare (id : Nat) (f : CUnit → CUnit) : (s.modUnit id f).swShare = s.swShare := rfl
@[simp] theorem State.modUnit_stageSlots (id : Nat) (f : CUnit → CUnit) : (s.modUnit id f).stageSlots = s.stageSlots := rfl
@[simp] theorem State.modUnit_hbm (id : Nat) (f : CUnit → CUnit) : (s.modUnit id f).hbm = s.hbm := rfl
@[simp] theorem State.modUnit_hbmCtl (id : Nat) (f : CUnit → CUnit) : (s.modUnit id f).hbmCtl = s.hbmCtl := rfl
@[simp] theorem State.modUnit_ports (id : Nat) (f : CUnit → CUnit) : (s.modUnit id f).ports = s.ports := rfl
@[simp] theorem State.modUnit_stk (id : Nat) (f : CUnit → CUnit) : (s.modUnit id f).stk = s.stk := rfl
@[simp] theorem State.modUnit_inbox (id : Nat) (f : CUnit → CUnit) : (s.modUnit id f).inbox = s.inbox := rfl
@[simp] theorem State.modUnit_numVfs (id : Nat) (f : CUnit → CUnit) : (s.modUnit id f).numVfs = s.numVfs := rfl
@[simp] theorem State.modUnit_linkUp (id : Nat) (f : CUnit → CUnit) : (s.modUnit id f).linkUp = s.linkUp := rfl
@[simp] theorem State.modUnit_latches (id : Nat) (f : CUnit → CUnit) : (s.modUnit id f).latches = s.latches := rfl
@[simp] theorem State.modUnit_jtag (id : Nat) (f : CUnit → CUnit) : (s.modUnit id f).jtag = s.jtag := rfl
@[simp] theorem State.modUnit_smbusEid (id : Nat) (f : CUnit → CUnit) : (s.modUnit id f).smbusEid = s.smbusEid := rfl
@[simp] theorem State.modUnit_order (id : Nat) (f : CUnit → CUnit) : (s.modUnit id f).order = s.order := rfl
@[simp] theorem State.modUnit_freeCtr (id : Nat) (f : CUnit → CUnit) : (s.modUnit id f).freeCtr = s.freeCtr := rfl
@[simp] theorem State.modUnit_out (id : Nat) (f : CUnit → CUnit) : (s.modUnit id f).out = s.out := rfl

/-! ### dropUnit -/

@[simp] theorem State.dropUnit_pending (id : Nat) : (s.dropUnit id).pending = s.pending := rfl
@[simp] theorem State.dropUnit_power (id : Nat) : (s.dropUnit id).power = s.power := rfl
@[simp] theorem State.dropUnit_now (id : Nat) : (s.dropUnit id).now = s.now := rfl
@[simp] theorem State.dropUnit_frm (id : Nat) : (s.dropUnit id).frm = s.frm := rfl
@[simp] theorem State.dropUnit_pwr (id : Nat) : (s.dropUnit id).pwr = s.pwr := rfl
@[simp] theorem State.dropUnit_flt (id : Nat) : (s.dropUnit id).flt = s.flt := rfl
@[simp] theorem State.dropUnit_ntc (id : Nat) : (s.dropUnit id).ntc = s.ntc := rfl
@[simp] theorem State.dropUnit_trace (id : Nat) : (s.dropUnit id).trace = s.trace := rfl
@[simp] theorem State.dropUnit_clients (id : Nat) : (s.dropUnit id).clients = s.clients := rfl
@[simp] theorem State.dropUnit_parts (id : Nat) : (s.dropUnit id).parts = s.parts := rfl
@[simp] theorem State.dropUnit_tiles (id : Nat) : (s.dropUnit id).tiles = s.tiles := rfl
@[simp] theorem State.dropUnit_units (id : Nat) : (s.dropUnit id).units = s.units.filter fun u => u.id != id := rfl
@[simp] theorem State.dropUnit_nextUnit (id : Nat) : (s.dropUnit id).nextUnit = s.nextUnit := rfl
@[simp] theorem State.dropUnit_fabric (id : Nat) : (s.dropUnit id).fabric = s.fabric := rfl
@[simp] theorem State.dropUnit_north (id : Nat) : (s.dropUnit id).north = s.north := rfl
@[simp] theorem State.dropUnit_south (id : Nat) : (s.dropUnit id).south = s.south := rfl
@[simp] theorem State.dropUnit_ltLimit (id : Nat) : (s.dropUnit id).ltLimit = s.ltLimit := rfl
@[simp] theorem State.dropUnit_wmLot (id : Nat) : (s.dropUnit id).wmLot = s.wmLot := rfl
@[simp] theorem State.dropUnit_swShare (id : Nat) : (s.dropUnit id).swShare = s.swShare := rfl
@[simp] theorem State.dropUnit_stageSlots (id : Nat) : (s.dropUnit id).stageSlots = s.stageSlots := rfl
@[simp] theorem State.dropUnit_hbm (id : Nat) : (s.dropUnit id).hbm = s.hbm := rfl
@[simp] theorem State.dropUnit_hbmCtl (id : Nat) : (s.dropUnit id).hbmCtl = s.hbmCtl := rfl
@[simp] theorem State.dropUnit_ports (id : Nat) : (s.dropUnit id).ports = s.ports := rfl
@[simp] theorem State.dropUnit_stk (id : Nat) : (s.dropUnit id).stk = s.stk := rfl
@[simp] theorem State.dropUnit_inbox (id : Nat) : (s.dropUnit id).inbox = s.inbox := rfl
@[simp] theorem State.dropUnit_numVfs (id : Nat) : (s.dropUnit id).numVfs = s.numVfs := rfl
@[simp] theorem State.dropUnit_linkUp (id : Nat) : (s.dropUnit id).linkUp = s.linkUp := rfl
@[simp] theorem State.dropUnit_latches (id : Nat) : (s.dropUnit id).latches = s.latches := rfl
@[simp] theorem State.dropUnit_jtag (id : Nat) : (s.dropUnit id).jtag = s.jtag := rfl
@[simp] theorem State.dropUnit_smbusEid (id : Nat) : (s.dropUnit id).smbusEid = s.smbusEid := rfl
@[simp] theorem State.dropUnit_order (id : Nat) : (s.dropUnit id).order = s.order := rfl
@[simp] theorem State.dropUnit_freeCtr (id : Nat) : (s.dropUnit id).freeCtr = s.freeCtr := rfl
@[simp] theorem State.dropUnit_out (id : Nat) : (s.dropUnit id).out = s.out := rfl

/-! ### modQueue -/

@[simp] theorem State.modQueue_pending (n q : Nat) (f : Queue → Queue) : (s.modQueue n q f).pending = s.pending := rfl
@[simp] theorem State.modQueue_power (n q : Nat) (f : Queue → Queue) : (s.modQueue n q f).power = s.power := rfl
@[simp] theorem State.modQueue_now (n q : Nat) (f : Queue → Queue) : (s.modQueue n q f).now = s.now := rfl
@[simp] theorem State.modQueue_frm (n q : Nat) (f : Queue → Queue) : (s.modQueue n q f).frm = s.frm := rfl
@[simp] theorem State.modQueue_pwr (n q : Nat) (f : Queue → Queue) : (s.modQueue n q f).pwr = s.pwr := rfl
@[simp] theorem State.modQueue_flt (n q : Nat) (f : Queue → Queue) : (s.modQueue n q f).flt = s.flt := rfl
@[simp] theorem State.modQueue_ntc (n q : Nat) (f : Queue → Queue) : (s.modQueue n q f).ntc = s.ntc := rfl
@[simp] theorem State.modQueue_trace (n q : Nat) (f : Queue → Queue) : (s.modQueue n q f).trace = s.trace := rfl
@[simp] theorem State.modQueue_parts (n q : Nat) (f : Queue → Queue) : (s.modQueue n q f).parts = s.parts := rfl
@[simp] theorem State.modQueue_tiles (n q : Nat) (f : Queue → Queue) : (s.modQueue n q f).tiles = s.tiles := rfl
@[simp] theorem State.modQueue_units (n q : Nat) (f : Queue → Queue) : (s.modQueue n q f).units = s.units := rfl
@[simp] theorem State.modQueue_nextUnit (n q : Nat) (f : Queue → Queue) : (s.modQueue n q f).nextUnit = s.nextUnit := rfl
@[simp] theorem State.modQueue_fabric (n q : Nat) (f : Queue → Queue) : (s.modQueue n q f).fabric = s.fabric := rfl
@[simp] theorem State.modQueue_north (n q : Nat) (f : Queue → Queue) : (s.modQueue n q f).north = s.north := rfl
@[simp] theorem State.modQueue_south (n q : Nat) (f : Queue → Queue) : (s.modQueue n q f).south = s.south := rfl
@[simp] theorem State.modQueue_ltLimit (n q : Nat) (f : Queue → Queue) : (s.modQueue n q f).ltLimit = s.ltLimit := rfl
@[simp] theorem State.modQueue_wmLot (n q : Nat) (f : Queue → Queue) : (s.modQueue n q f).wmLot = s.wmLot := rfl
@[simp] theorem State.modQueue_swShare (n q : Nat) (f : Queue → Queue) : (s.modQueue n q f).swShare = s.swShare := rfl
@[simp] theorem State.modQueue_stageSlots (n q : Nat) (f : Queue → Queue) : (s.modQueue n q f).stageSlots = s.stageSlots := rfl
@[simp] theorem State.modQueue_hbm (n q : Nat) (f : Queue → Queue) : (s.modQueue n q f).hbm = s.hbm := rfl
@[simp] theorem State.modQueue_hbmCtl (n q : Nat) (f : Queue → Queue) : (s.modQueue n q f).hbmCtl = s.hbmCtl := rfl
@[simp] theorem State.modQueue_ports (n q : Nat) (f : Queue → Queue) : (s.modQueue n q f).ports = s.ports := rfl
@[simp] theorem State.modQueue_stk (n q : Nat) (f : Queue → Queue) : (s.modQueue n q f).stk = s.stk := rfl
@[simp] theorem State.modQueue_inbox (n q : Nat) (f : Queue → Queue) : (s.modQueue n q f).inbox = s.inbox := rfl
@[simp] theorem State.modQueue_numVfs (n q : Nat) (f : Queue → Queue) : (s.modQueue n q f).numVfs = s.numVfs := rfl
@[simp] theorem State.modQueue_linkUp (n q : Nat) (f : Queue → Queue) : (s.modQueue n q f).linkUp = s.linkUp := rfl
@[simp] theorem State.modQueue_latches (n q : Nat) (f : Queue → Queue) : (s.modQueue n q f).latches = s.latches := rfl
@[simp] theorem State.modQueue_jtag (n q : Nat) (f : Queue → Queue) : (s.modQueue n q f).jtag = s.jtag := rfl
@[simp] theorem State.modQueue_smbusEid (n q : Nat) (f : Queue → Queue) : (s.modQueue n q f).smbusEid = s.smbusEid := rfl
@[simp] theorem State.modQueue_order (n q : Nat) (f : Queue → Queue) : (s.modQueue n q f).order = s.order := rfl
@[simp] theorem State.modQueue_freeCtr (n q : Nat) (f : Queue → Queue) : (s.modQueue n q f).freeCtr = s.freeCtr := rfl
@[simp] theorem State.modQueue_out (n q : Nat) (f : Queue → Queue) : (s.modQueue n q f).out = s.out := rfl

/-! ### modAcct -/

@[simp] theorem State.modAcct_pending (n : Nat) (f : Acct → Acct) : (s.modAcct n f).pending = s.pending := rfl
@[simp] theorem State.modAcct_power (n : Nat) (f : Acct → Acct) : (s.modAcct n f).power = s.power := rfl
@[simp] theorem State.modAcct_now (n : Nat) (f : Acct → Acct) : (s.modAcct n f).now = s.now := rfl
@[simp] theorem State.modAcct_frm (n : Nat) (f : Acct → Acct) : (s.modAcct n f).frm = s.frm := rfl
@[simp] theorem State.modAcct_pwr (n : Nat) (f : Acct → Acct) : (s.modAcct n f).pwr = s.pwr := rfl
@[simp] theorem State.modAcct_flt (n : Nat) (f : Acct → Acct) : (s.modAcct n f).flt = s.flt := rfl
@[simp] theorem State.modAcct_ntc (n : Nat) (f : Acct → Acct) : (s.modAcct n f).ntc = s.ntc := rfl
@[simp] theorem State.modAcct_trace (n : Nat) (f : Acct → Acct) : (s.modAcct n f).trace = s.trace := rfl
@[simp] theorem State.modAcct_parts (n : Nat) (f : Acct → Acct) : (s.modAcct n f).parts = s.parts := rfl
@[simp] theorem State.modAcct_tiles (n : Nat) (f : Acct → Acct) : (s.modAcct n f).tiles = s.tiles := rfl
@[simp] theorem State.modAcct_units (n : Nat) (f : Acct → Acct) : (s.modAcct n f).units = s.units := rfl
@[simp] theorem State.modAcct_nextUnit (n : Nat) (f : Acct → Acct) : (s.modAcct n f).nextUnit = s.nextUnit := rfl
@[simp] theorem State.modAcct_fabric (n : Nat) (f : Acct → Acct) : (s.modAcct n f).fabric = s.fabric := rfl
@[simp] theorem State.modAcct_north (n : Nat) (f : Acct → Acct) : (s.modAcct n f).north = s.north := rfl
@[simp] theorem State.modAcct_south (n : Nat) (f : Acct → Acct) : (s.modAcct n f).south = s.south := rfl
@[simp] theorem State.modAcct_ltLimit (n : Nat) (f : Acct → Acct) : (s.modAcct n f).ltLimit = s.ltLimit := rfl
@[simp] theorem State.modAcct_wmLot (n : Nat) (f : Acct → Acct) : (s.modAcct n f).wmLot = s.wmLot := rfl
@[simp] theorem State.modAcct_swShare (n : Nat) (f : Acct → Acct) : (s.modAcct n f).swShare = s.swShare := rfl
@[simp] theorem State.modAcct_stageSlots (n : Nat) (f : Acct → Acct) : (s.modAcct n f).stageSlots = s.stageSlots := rfl
@[simp] theorem State.modAcct_hbm (n : Nat) (f : Acct → Acct) : (s.modAcct n f).hbm = s.hbm := rfl
@[simp] theorem State.modAcct_hbmCtl (n : Nat) (f : Acct → Acct) : (s.modAcct n f).hbmCtl = s.hbmCtl := rfl
@[simp] theorem State.modAcct_ports (n : Nat) (f : Acct → Acct) : (s.modAcct n f).ports = s.ports := rfl
@[simp] theorem State.modAcct_stk (n : Nat) (f : Acct → Acct) : (s.modAcct n f).stk = s.stk := rfl
@[simp] theorem State.modAcct_inbox (n : Nat) (f : Acct → Acct) : (s.modAcct n f).inbox = s.inbox := rfl
@[simp] theorem State.modAcct_numVfs (n : Nat) (f : Acct → Acct) : (s.modAcct n f).numVfs = s.numVfs := rfl
@[simp] theorem State.modAcct_linkUp (n : Nat) (f : Acct → Acct) : (s.modAcct n f).linkUp = s.linkUp := rfl
@[simp] theorem State.modAcct_latches (n : Nat) (f : Acct → Acct) : (s.modAcct n f).latches = s.latches := rfl
@[simp] theorem State.modAcct_jtag (n : Nat) (f : Acct → Acct) : (s.modAcct n f).jtag = s.jtag := rfl
@[simp] theorem State.modAcct_smbusEid (n : Nat) (f : Acct → Acct) : (s.modAcct n f).smbusEid = s.smbusEid := rfl
@[simp] theorem State.modAcct_order (n : Nat) (f : Acct → Acct) : (s.modAcct n f).order = s.order := rfl
@[simp] theorem State.modAcct_freeCtr (n : Nat) (f : Acct → Acct) : (s.modAcct n f).freeCtr = s.freeCtr := rfl
@[simp] theorem State.modAcct_out (n : Nat) (f : Acct → Acct) : (s.modAcct n f).out = s.out := rfl

/-! ### emit -/

@[simp] theorem State.emit_pending (o : Output) : (s.emit o).pending = s.pending := rfl
@[simp] theorem State.emit_power (o : Output) : (s.emit o).power = s.power := rfl
@[simp] theorem State.emit_now (o : Output) : (s.emit o).now = s.now := rfl
@[simp] theorem State.emit_frm (o : Output) : (s.emit o).frm = s.frm := rfl
@[simp] theorem State.emit_pwr (o : Output) : (s.emit o).pwr = s.pwr := rfl
@[simp] theorem State.emit_flt (o : Output) : (s.emit o).flt = s.flt := rfl
@[simp] theorem State.emit_ntc (o : Output) : (s.emit o).ntc = s.ntc := rfl
@[simp] theorem State.emit_trace (o : Output) : (s.emit o).trace = s.trace := rfl
@[simp] theorem State.emit_clients (o : Output) : (s.emit o).clients = s.clients := rfl
@[simp] theorem State.emit_parts (o : Output) : (s.emit o).parts = s.parts := rfl
@[simp] theorem State.emit_tiles (o : Output) : (s.emit o).tiles = s.tiles := rfl
@[simp] theorem State.emit_units (o : Output) : (s.emit o).units = s.units := rfl
@[simp] theorem State.emit_nextUnit (o : Output) : (s.emit o).nextUnit = s.nextUnit := rfl
@[simp] theorem State.emit_fabric (o : Output) : (s.emit o).fabric = s.fabric := rfl
@[simp] theorem State.emit_north (o : Output) : (s.emit o).north = s.north := rfl
@[simp] theorem State.emit_south (o : Output) : (s.emit o).south = s.south := rfl
@[simp] theorem State.emit_ltLimit (o : Output) : (s.emit o).ltLimit = s.ltLimit := rfl
@[simp] theorem State.emit_wmLot (o : Output) : (s.emit o).wmLot = s.wmLot := rfl
@[simp] theorem State.emit_swShare (o : Output) : (s.emit o).swShare = s.swShare := rfl
@[simp] theorem State.emit_stageSlots (o : Output) : (s.emit o).stageSlots = s.stageSlots := rfl
@[simp] theorem State.emit_hbm (o : Output) : (s.emit o).hbm = s.hbm := rfl
@[simp] theorem State.emit_hbmCtl (o : Output) : (s.emit o).hbmCtl = s.hbmCtl := rfl
@[simp] theorem State.emit_ports (o : Output) : (s.emit o).ports = s.ports := rfl
@[simp] theorem State.emit_stk (o : Output) : (s.emit o).stk = s.stk := rfl
@[simp] theorem State.emit_inbox (o : Output) : (s.emit o).inbox = s.inbox := rfl
@[simp] theorem State.emit_numVfs (o : Output) : (s.emit o).numVfs = s.numVfs := rfl
@[simp] theorem State.emit_linkUp (o : Output) : (s.emit o).linkUp = s.linkUp := rfl
@[simp] theorem State.emit_latches (o : Output) : (s.emit o).latches = s.latches := rfl
@[simp] theorem State.emit_jtag (o : Output) : (s.emit o).jtag = s.jtag := rfl
@[simp] theorem State.emit_smbusEid (o : Output) : (s.emit o).smbusEid = s.smbusEid := rfl
@[simp] theorem State.emit_order (o : Output) : (s.emit o).order = s.order := rfl
@[simp] theorem State.emit_freeCtr (o : Output) : (s.emit o).freeCtr = s.freeCtr := rfl
@[simp] theorem State.emit_out (o : Output) : (s.emit o).out = o :: s.out := rfl

/-! ### modFrm -/

@[simp] theorem State.modFrm_pending (f : Frm → Frm) : (s.modFrm f).pending = s.pending := rfl
@[simp] theorem State.modFrm_power (f : Frm → Frm) : (s.modFrm f).power = s.power := rfl
@[simp] theorem State.modFrm_now (f : Frm → Frm) : (s.modFrm f).now = s.now := rfl
@[simp] theorem State.modFrm_frm (f : Frm → Frm) : (s.modFrm f).frm = f s.frm := rfl
@[simp] theorem State.modFrm_pwr (f : Frm → Frm) : (s.modFrm f).pwr = s.pwr := rfl
@[simp] theorem State.modFrm_flt (f : Frm → Frm) : (s.modFrm f).flt = s.flt := rfl
@[simp] theorem State.modFrm_ntc (f : Frm → Frm) : (s.modFrm f).ntc = s.ntc := rfl
@[simp] theorem State.modFrm_trace (f : Frm → Frm) : (s.modFrm f).trace = s.trace := rfl
@[simp] theorem State.modFrm_clients (f : Frm → Frm) : (s.modFrm f).clients = s.clients := rfl
@[simp] theorem State.modFrm_parts (f : Frm → Frm) : (s.modFrm f).parts = s.parts := rfl
@[simp] theorem State.modFrm_tiles (f : Frm → Frm) : (s.modFrm f).tiles = s.tiles := rfl
@[simp] theorem State.modFrm_units (f : Frm → Frm) : (s.modFrm f).units = s.units := rfl
@[simp] theorem State.modFrm_nextUnit (f : Frm → Frm) : (s.modFrm f).nextUnit = s.nextUnit := rfl
@[simp] theorem State.modFrm_fabric (f : Frm → Frm) : (s.modFrm f).fabric = s.fabric := rfl
@[simp] theorem State.modFrm_north (f : Frm → Frm) : (s.modFrm f).north = s.north := rfl
@[simp] theorem State.modFrm_south (f : Frm → Frm) : (s.modFrm f).south = s.south := rfl
@[simp] theorem State.modFrm_ltLimit (f : Frm → Frm) : (s.modFrm f).ltLimit = s.ltLimit := rfl
@[simp] theorem State.modFrm_wmLot (f : Frm → Frm) : (s.modFrm f).wmLot = s.wmLot := rfl
@[simp] theorem State.modFrm_swShare (f : Frm → Frm) : (s.modFrm f).swShare = s.swShare := rfl
@[simp] theorem State.modFrm_stageSlots (f : Frm → Frm) : (s.modFrm f).stageSlots = s.stageSlots := rfl
@[simp] theorem State.modFrm_hbm (f : Frm → Frm) : (s.modFrm f).hbm = s.hbm := rfl
@[simp] theorem State.modFrm_hbmCtl (f : Frm → Frm) : (s.modFrm f).hbmCtl = s.hbmCtl := rfl
@[simp] theorem State.modFrm_ports (f : Frm → Frm) : (s.modFrm f).ports = s.ports := rfl
@[simp] theorem State.modFrm_stk (f : Frm → Frm) : (s.modFrm f).stk = s.stk := rfl
@[simp] theorem State.modFrm_inbox (f : Frm → Frm) : (s.modFrm f).inbox = s.inbox := rfl
@[simp] theorem State.modFrm_numVfs (f : Frm → Frm) : (s.modFrm f).numVfs = s.numVfs := rfl
@[simp] theorem State.modFrm_linkUp (f : Frm → Frm) : (s.modFrm f).linkUp = s.linkUp := rfl
@[simp] theorem State.modFrm_latches (f : Frm → Frm) : (s.modFrm f).latches = s.latches := rfl
@[simp] theorem State.modFrm_jtag (f : Frm → Frm) : (s.modFrm f).jtag = s.jtag := rfl
@[simp] theorem State.modFrm_smbusEid (f : Frm → Frm) : (s.modFrm f).smbusEid = s.smbusEid := rfl
@[simp] theorem State.modFrm_order (f : Frm → Frm) : (s.modFrm f).order = s.order := rfl
@[simp] theorem State.modFrm_freeCtr (f : Frm → Frm) : (s.modFrm f).freeCtr = s.freeCtr := rfl
@[simp] theorem State.modFrm_out (f : Frm → Frm) : (s.modFrm f).out = s.out := rfl

/-! ### modFlt -/

@[simp] theorem State.modFlt_pending (f : Flt → Flt) : (s.modFlt f).pending = s.pending := rfl
@[simp] theorem State.modFlt_power (f : Flt → Flt) : (s.modFlt f).power = s.power := rfl
@[simp] theorem State.modFlt_now (f : Flt → Flt) : (s.modFlt f).now = s.now := rfl
@[simp] theorem State.modFlt_frm (f : Flt → Flt) : (s.modFlt f).frm = s.frm := rfl
@[simp] theorem State.modFlt_pwr (f : Flt → Flt) : (s.modFlt f).pwr = s.pwr := rfl
@[simp] theorem State.modFlt_flt (f : Flt → Flt) : (s.modFlt f).flt = f s.flt := rfl
@[simp] theorem State.modFlt_ntc (f : Flt → Flt) : (s.modFlt f).ntc = s.ntc := rfl
@[simp] theorem State.modFlt_trace (f : Flt → Flt) : (s.modFlt f).trace = s.trace := rfl
@[simp] theorem State.modFlt_clients (f : Flt → Flt) : (s.modFlt f).clients = s.clients := rfl
@[simp] theorem State.modFlt_parts (f : Flt → Flt) : (s.modFlt f).parts = s.parts := rfl
@[simp] theorem State.modFlt_tiles (f : Flt → Flt) : (s.modFlt f).tiles = s.tiles := rfl
@[simp] theorem State.modFlt_units (f : Flt → Flt) : (s.modFlt f).units = s.units := rfl
@[simp] theorem State.modFlt_nextUnit (f : Flt → Flt) : (s.modFlt f).nextUnit = s.nextUnit := rfl
@[simp] theorem State.modFlt_fabric (f : Flt → Flt) : (s.modFlt f).fabric = s.fabric := rfl
@[simp] theorem State.modFlt_north (f : Flt → Flt) : (s.modFlt f).north = s.north := rfl
@[simp] theorem State.modFlt_south (f : Flt → Flt) : (s.modFlt f).south = s.south := rfl
@[simp] theorem State.modFlt_ltLimit (f : Flt → Flt) : (s.modFlt f).ltLimit = s.ltLimit := rfl
@[simp] theorem State.modFlt_wmLot (f : Flt → Flt) : (s.modFlt f).wmLot = s.wmLot := rfl
@[simp] theorem State.modFlt_swShare (f : Flt → Flt) : (s.modFlt f).swShare = s.swShare := rfl
@[simp] theorem State.modFlt_stageSlots (f : Flt → Flt) : (s.modFlt f).stageSlots = s.stageSlots := rfl
@[simp] theorem State.modFlt_hbm (f : Flt → Flt) : (s.modFlt f).hbm = s.hbm := rfl
@[simp] theorem State.modFlt_hbmCtl (f : Flt → Flt) : (s.modFlt f).hbmCtl = s.hbmCtl := rfl
@[simp] theorem State.modFlt_ports (f : Flt → Flt) : (s.modFlt f).ports = s.ports := rfl
@[simp] theorem State.modFlt_stk (f : Flt → Flt) : (s.modFlt f).stk = s.stk := rfl
@[simp] theorem State.modFlt_inbox (f : Flt → Flt) : (s.modFlt f).inbox = s.inbox := rfl
@[simp] theorem State.modFlt_numVfs (f : Flt → Flt) : (s.modFlt f).numVfs = s.numVfs := rfl
@[simp] theorem State.modFlt_linkUp (f : Flt → Flt) : (s.modFlt f).linkUp = s.linkUp := rfl
@[simp] theorem State.modFlt_latches (f : Flt → Flt) : (s.modFlt f).latches = s.latches := rfl
@[simp] theorem State.modFlt_jtag (f : Flt → Flt) : (s.modFlt f).jtag = s.jtag := rfl
@[simp] theorem State.modFlt_smbusEid (f : Flt → Flt) : (s.modFlt f).smbusEid = s.smbusEid := rfl
@[simp] theorem State.modFlt_order (f : Flt → Flt) : (s.modFlt f).order = s.order := rfl
@[simp] theorem State.modFlt_freeCtr (f : Flt → Flt) : (s.modFlt f).freeCtr = s.freeCtr := rfl
@[simp] theorem State.modFlt_out (f : Flt → Flt) : (s.modFlt f).out = s.out := rfl

/-! ### modPwr -/

@[simp] theorem State.modPwr_pending (f : Pwr → Pwr) : (s.modPwr f).pending = s.pending := rfl
@[simp] theorem State.modPwr_power (f : Pwr → Pwr) : (s.modPwr f).power = s.power := rfl
@[simp] theorem State.modPwr_now (f : Pwr → Pwr) : (s.modPwr f).now = s.now := rfl
@[simp] theorem State.modPwr_frm (f : Pwr → Pwr) : (s.modPwr f).frm = s.frm := rfl
@[simp] theorem State.modPwr_pwr (f : Pwr → Pwr) : (s.modPwr f).pwr = f s.pwr := rfl
@[simp] theorem State.modPwr_flt (f : Pwr → Pwr) : (s.modPwr f).flt = s.flt := rfl
@[simp] theorem State.modPwr_ntc (f : Pwr → Pwr) : (s.modPwr f).ntc = s.ntc := rfl
@[simp] theorem State.modPwr_trace (f : Pwr → Pwr) : (s.modPwr f).trace = s.trace := rfl
@[simp] theorem State.modPwr_clients (f : Pwr → Pwr) : (s.modPwr f).clients = s.clients := rfl
@[simp] theorem State.modPwr_parts (f : Pwr → Pwr) : (s.modPwr f).parts = s.parts := rfl
@[simp] theorem State.modPwr_tiles (f : Pwr → Pwr) : (s.modPwr f).tiles = s.tiles := rfl
@[simp] theorem State.modPwr_units (f : Pwr → Pwr) : (s.modPwr f).units = s.units := rfl
@[simp] theorem State.modPwr_nextUnit (f : Pwr → Pwr) : (s.modPwr f).nextUnit = s.nextUnit := rfl
@[simp] theorem State.modPwr_fabric (f : Pwr → Pwr) : (s.modPwr f).fabric = s.fabric := rfl
@[simp] theorem State.modPwr_north (f : Pwr → Pwr) : (s.modPwr f).north = s.north := rfl
@[simp] theorem State.modPwr_south (f : Pwr → Pwr) : (s.modPwr f).south = s.south := rfl
@[simp] theorem State.modPwr_ltLimit (f : Pwr → Pwr) : (s.modPwr f).ltLimit = s.ltLimit := rfl
@[simp] theorem State.modPwr_wmLot (f : Pwr → Pwr) : (s.modPwr f).wmLot = s.wmLot := rfl
@[simp] theorem State.modPwr_swShare (f : Pwr → Pwr) : (s.modPwr f).swShare = s.swShare := rfl
@[simp] theorem State.modPwr_stageSlots (f : Pwr → Pwr) : (s.modPwr f).stageSlots = s.stageSlots := rfl
@[simp] theorem State.modPwr_hbm (f : Pwr → Pwr) : (s.modPwr f).hbm = s.hbm := rfl
@[simp] theorem State.modPwr_hbmCtl (f : Pwr → Pwr) : (s.modPwr f).hbmCtl = s.hbmCtl := rfl
@[simp] theorem State.modPwr_ports (f : Pwr → Pwr) : (s.modPwr f).ports = s.ports := rfl
@[simp] theorem State.modPwr_stk (f : Pwr → Pwr) : (s.modPwr f).stk = s.stk := rfl
@[simp] theorem State.modPwr_inbox (f : Pwr → Pwr) : (s.modPwr f).inbox = s.inbox := rfl
@[simp] theorem State.modPwr_numVfs (f : Pwr → Pwr) : (s.modPwr f).numVfs = s.numVfs := rfl
@[simp] theorem State.modPwr_linkUp (f : Pwr → Pwr) : (s.modPwr f).linkUp = s.linkUp := rfl
@[simp] theorem State.modPwr_latches (f : Pwr → Pwr) : (s.modPwr f).latches = s.latches := rfl
@[simp] theorem State.modPwr_jtag (f : Pwr → Pwr) : (s.modPwr f).jtag = s.jtag := rfl
@[simp] theorem State.modPwr_smbusEid (f : Pwr → Pwr) : (s.modPwr f).smbusEid = s.smbusEid := rfl
@[simp] theorem State.modPwr_order (f : Pwr → Pwr) : (s.modPwr f).order = s.order := rfl
@[simp] theorem State.modPwr_freeCtr (f : Pwr → Pwr) : (s.modPwr f).freeCtr = s.freeCtr := rfl
@[simp] theorem State.modPwr_out (f : Pwr → Pwr) : (s.modPwr f).out = s.out := rfl

/-! ### modStk -/

@[simp] theorem State.modStk_pending (f : Stack → Stack) : (s.modStk f).pending = s.pending := rfl
@[simp] theorem State.modStk_power (f : Stack → Stack) : (s.modStk f).power = s.power := rfl
@[simp] theorem State.modStk_now (f : Stack → Stack) : (s.modStk f).now = s.now := rfl
@[simp] theorem State.modStk_frm (f : Stack → Stack) : (s.modStk f).frm = s.frm := rfl
@[simp] theorem State.modStk_pwr (f : Stack → Stack) : (s.modStk f).pwr = s.pwr := rfl
@[simp] theorem State.modStk_flt (f : Stack → Stack) : (s.modStk f).flt = s.flt := rfl
@[simp] theorem State.modStk_ntc (f : Stack → Stack) : (s.modStk f).ntc = s.ntc := rfl
@[simp] theorem State.modStk_trace (f : Stack → Stack) : (s.modStk f).trace = s.trace := rfl
@[simp] theorem State.modStk_clients (f : Stack → Stack) : (s.modStk f).clients = s.clients := rfl
@[simp] theorem State.modStk_parts (f : Stack → Stack) : (s.modStk f).parts = s.parts := rfl
@[simp] theorem State.modStk_tiles (f : Stack → Stack) : (s.modStk f).tiles = s.tiles := rfl
@[simp] theorem State.modStk_units (f : Stack → Stack) : (s.modStk f).units = s.units := rfl
@[simp] theorem State.modStk_nextUnit (f : Stack → Stack) : (s.modStk f).nextUnit = s.nextUnit := rfl
@[simp] theorem State.modStk_fabric (f : Stack → Stack) : (s.modStk f).fabric = s.fabric := rfl
@[simp] theorem State.modStk_north (f : Stack → Stack) : (s.modStk f).north = s.north := rfl
@[simp] theorem State.modStk_south (f : Stack → Stack) : (s.modStk f).south = s.south := rfl
@[simp] theorem State.modStk_ltLimit (f : Stack → Stack) : (s.modStk f).ltLimit = s.ltLimit := rfl
@[simp] theorem State.modStk_wmLot (f : Stack → Stack) : (s.modStk f).wmLot = s.wmLot := rfl
@[simp] theorem State.modStk_swShare (f : Stack → Stack) : (s.modStk f).swShare = s.swShare := rfl
@[simp] theorem State.modStk_stageSlots (f : Stack → Stack) : (s.modStk f).stageSlots = s.stageSlots := rfl
@[simp] theorem State.modStk_hbm (f : Stack → Stack) : (s.modStk f).hbm = s.hbm := rfl
@[simp] theorem State.modStk_hbmCtl (f : Stack → Stack) : (s.modStk f).hbmCtl = s.hbmCtl := rfl
@[simp] theorem State.modStk_ports (f : Stack → Stack) : (s.modStk f).ports = s.ports := rfl
@[simp] theorem State.modStk_stk (f : Stack → Stack) : (s.modStk f).stk = f s.stk := rfl
@[simp] theorem State.modStk_inbox (f : Stack → Stack) : (s.modStk f).inbox = s.inbox := rfl
@[simp] theorem State.modStk_numVfs (f : Stack → Stack) : (s.modStk f).numVfs = s.numVfs := rfl
@[simp] theorem State.modStk_linkUp (f : Stack → Stack) : (s.modStk f).linkUp = s.linkUp := rfl
@[simp] theorem State.modStk_latches (f : Stack → Stack) : (s.modStk f).latches = s.latches := rfl
@[simp] theorem State.modStk_jtag (f : Stack → Stack) : (s.modStk f).jtag = s.jtag := rfl
@[simp] theorem State.modStk_smbusEid (f : Stack → Stack) : (s.modStk f).smbusEid = s.smbusEid := rfl
@[simp] theorem State.modStk_order (f : Stack → Stack) : (s.modStk f).order = s.order := rfl
@[simp] theorem State.modStk_freeCtr (f : Stack → Stack) : (s.modStk f).freeCtr = s.freeCtr := rfl
@[simp] theorem State.modStk_out (f : Stack → Stack) : (s.modStk f).out = s.out := rfl

/-! ### hbmClear -/

@[simp] theorem State.hbmClear_pending (a n : Nat) : (s.hbmClear a n).pending = s.pending := rfl
@[simp] theorem State.hbmClear_power (a n : Nat) : (s.hbmClear a n).power = s.power := rfl
@[simp] theorem State.hbmClear_now (a n : Nat) : (s.hbmClear a n).now = s.now := rfl
@[simp] theorem State.hbmClear_frm (a n : Nat) : (s.hbmClear a n).frm = s.frm := rfl
@[simp] theorem State.hbmClear_pwr (a n : Nat) : (s.hbmClear a n).pwr = s.pwr := rfl
@[simp] theorem State.hbmClear_flt (a n : Nat) : (s.hbmClear a n).flt = s.flt := rfl
@[simp] theorem State.hbmClear_ntc (a n : Nat) : (s.hbmClear a n).ntc = s.ntc := rfl
@[simp] theorem State.hbmClear_trace (a n : Nat) : (s.hbmClear a n).trace = s.trace := rfl
@[simp] theorem State.hbmClear_clients (a n : Nat) : (s.hbmClear a n).clients = s.clients := rfl
@[simp] theorem State.hbmClear_parts (a n : Nat) : (s.hbmClear a n).parts = s.parts := rfl
@[simp] theorem State.hbmClear_tiles (a n : Nat) : (s.hbmClear a n).tiles = s.tiles := rfl
@[simp] theorem State.hbmClear_units (a n : Nat) : (s.hbmClear a n).units = s.units := rfl
@[simp] theorem State.hbmClear_nextUnit (a n : Nat) : (s.hbmClear a n).nextUnit = s.nextUnit := rfl
@[simp] theorem State.hbmClear_fabric (a n : Nat) : (s.hbmClear a n).fabric = s.fabric := rfl
@[simp] theorem State.hbmClear_north (a n : Nat) : (s.hbmClear a n).north = s.north := rfl
@[simp] theorem State.hbmClear_south (a n : Nat) : (s.hbmClear a n).south = s.south := rfl
@[simp] theorem State.hbmClear_ltLimit (a n : Nat) : (s.hbmClear a n).ltLimit = s.ltLimit := rfl
@[simp] theorem State.hbmClear_wmLot (a n : Nat) : (s.hbmClear a n).wmLot = s.wmLot := rfl
@[simp] theorem State.hbmClear_swShare (a n : Nat) : (s.hbmClear a n).swShare = s.swShare := rfl
@[simp] theorem State.hbmClear_stageSlots (a n : Nat) : (s.hbmClear a n).stageSlots = s.stageSlots := rfl
@[simp] theorem State.hbmClear_hbm (a n : Nat) : (s.hbmClear a n).hbm = memClear s.hbm a n := rfl
@[simp] theorem State.hbmClear_hbmCtl (a n : Nat) : (s.hbmClear a n).hbmCtl = s.hbmCtl := rfl
@[simp] theorem State.hbmClear_ports (a n : Nat) : (s.hbmClear a n).ports = s.ports := rfl
@[simp] theorem State.hbmClear_stk (a n : Nat) : (s.hbmClear a n).stk = s.stk := rfl
@[simp] theorem State.hbmClear_inbox (a n : Nat) : (s.hbmClear a n).inbox = s.inbox := rfl
@[simp] theorem State.hbmClear_numVfs (a n : Nat) : (s.hbmClear a n).numVfs = s.numVfs := rfl
@[simp] theorem State.hbmClear_linkUp (a n : Nat) : (s.hbmClear a n).linkUp = s.linkUp := rfl
@[simp] theorem State.hbmClear_latches (a n : Nat) : (s.hbmClear a n).latches = s.latches := rfl
@[simp] theorem State.hbmClear_jtag (a n : Nat) : (s.hbmClear a n).jtag = s.jtag := rfl
@[simp] theorem State.hbmClear_smbusEid (a n : Nat) : (s.hbmClear a n).smbusEid = s.smbusEid := rfl
@[simp] theorem State.hbmClear_order (a n : Nat) : (s.hbmClear a n).order = s.order := rfl
@[simp] theorem State.hbmClear_freeCtr (a n : Nat) : (s.hbmClear a n).freeCtr = s.freeCtr := rfl
@[simp] theorem State.hbmClear_out (a n : Nat) : (s.hbmClear a n).out = s.out := rfl

/-! ### ntcWrite -/

@[simp] theorem State.ntcWrite_pending (e : NtcEntry) : (s.ntcWrite e).pending = s.pending := rfl
@[simp] theorem State.ntcWrite_power (e : NtcEntry) : (s.ntcWrite e).power = s.power := rfl
@[simp] theorem State.ntcWrite_now (e : NtcEntry) : (s.ntcWrite e).now = s.now := rfl
@[simp] theorem State.ntcWrite_frm (e : NtcEntry) : (s.ntcWrite e).frm = s.frm := rfl
@[simp] theorem State.ntcWrite_pwr (e : NtcEntry) : (s.ntcWrite e).pwr = s.pwr := rfl
@[simp] theorem State.ntcWrite_flt (e : NtcEntry) : (s.ntcWrite e).flt = s.flt := rfl
@[simp] theorem State.ntcWrite_trace (e : NtcEntry) : (s.ntcWrite e).trace = s.trace := rfl
@[simp] theorem State.ntcWrite_clients (e : NtcEntry) : (s.ntcWrite e).clients = s.clients := rfl
@[simp] theorem State.ntcWrite_parts (e : NtcEntry) : (s.ntcWrite e).parts = s.parts := rfl
@[simp] theorem State.ntcWrite_tiles (e : NtcEntry) : (s.ntcWrite e).tiles = s.tiles := rfl
@[simp] theorem State.ntcWrite_units (e : NtcEntry) : (s.ntcWrite e).units = s.units := rfl
@[simp] theorem State.ntcWrite_nextUnit (e : NtcEntry) : (s.ntcWrite e).nextUnit = s.nextUnit := rfl
@[simp] theorem State.ntcWrite_fabric (e : NtcEntry) : (s.ntcWrite e).fabric = s.fabric := rfl
@[simp] theorem State.ntcWrite_north (e : NtcEntry) : (s.ntcWrite e).north = s.north := rfl
@[simp] theorem State.ntcWrite_south (e : NtcEntry) : (s.ntcWrite e).south = s.south := rfl
@[simp] theorem State.ntcWrite_ltLimit (e : NtcEntry) : (s.ntcWrite e).ltLimit = s.ltLimit := rfl
@[simp] theorem State.ntcWrite_wmLot (e : NtcEntry) : (s.ntcWrite e).wmLot = s.wmLot := rfl
@[simp] theorem State.ntcWrite_swShare (e : NtcEntry) : (s.ntcWrite e).swShare = s.swShare := rfl
@[simp] theorem State.ntcWrite_stageSlots (e : NtcEntry) : (s.ntcWrite e).stageSlots = s.stageSlots := rfl
@[simp] theorem State.ntcWrite_hbm (e : NtcEntry) : (s.ntcWrite e).hbm = s.hbm := rfl
@[simp] theorem State.ntcWrite_hbmCtl (e : NtcEntry) : (s.ntcWrite e).hbmCtl = s.hbmCtl := rfl
@[simp] theorem State.ntcWrite_ports (e : NtcEntry) : (s.ntcWrite e).ports = s.ports := rfl
@[simp] theorem State.ntcWrite_stk (e : NtcEntry) : (s.ntcWrite e).stk = s.stk := rfl
@[simp] theorem State.ntcWrite_inbox (e : NtcEntry) : (s.ntcWrite e).inbox = s.inbox := rfl
@[simp] theorem State.ntcWrite_numVfs (e : NtcEntry) : (s.ntcWrite e).numVfs = s.numVfs := rfl
@[simp] theorem State.ntcWrite_linkUp (e : NtcEntry) : (s.ntcWrite e).linkUp = s.linkUp := rfl
@[simp] theorem State.ntcWrite_latches (e : NtcEntry) : (s.ntcWrite e).latches = s.latches := rfl
@[simp] theorem State.ntcWrite_jtag (e : NtcEntry) : (s.ntcWrite e).jtag = s.jtag := rfl
@[simp] theorem State.ntcWrite_smbusEid (e : NtcEntry) : (s.ntcWrite e).smbusEid = s.smbusEid := rfl
@[simp] theorem State.ntcWrite_order (e : NtcEntry) : (s.ntcWrite e).order = s.order := rfl
@[simp] theorem State.ntcWrite_freeCtr (e : NtcEntry) : (s.ntcWrite e).freeCtr = s.freeCtr := rfl
@[simp] theorem State.ntcWrite_out (e : NtcEntry) : (s.ntcWrite e).out = s.out := rfl

end Sys2Proof.Machine
end

