-- ==== Sys2Proof/Laws/Tab.lean ====
section
/-! SUPPORT. Laws of the sparse tables and byte stores: a read after a write, and that every byte store operation keeps the canonical form. -/

namespace Sys2Proof.Machine

open Sys2Proof

/-! ### Tables -/

/-- A key reads as what was put there. -/
@[simp] theorem tabGet_tabPut_self {α : Type} (d : α) (t : Tab α) (i : Nat) (x : α) : tabGet d (tabPut t i x) i = x := by
  induction t with
  | nil => simp [tabPut, tabGet]
  | cons p r ih =>
    obtain ⟨k, v⟩ := p
    simp only [tabPut]
    split
    · simp [tabGet]
    · split
      · simp [tabGet]
      · simp_all [tabGet]

/-- Every other key reads as before. -/
theorem tabGet_tabPut_ne {α : Type} (d : α) (t : Tab α) {i j : Nat} (x : α) (h : j ≠ i) : tabGet d (tabPut t i x) j = tabGet d t j := by
  induction t with
  | nil => simp [tabPut, tabGet, h]
  | cons p r ih =>
    obtain ⟨k, v⟩ := p
    simp only [tabPut]
    split
    · next e => subst e; simp [tabGet, h]
    · split
      · simp [tabGet, h]
      · simp [tabGet, ih]

@[simp] theorem tabGet_tabMod_self {α : Type} (d : α) (t : Tab α) (i : Nat) (f : α → α) : tabGet d (tabMod d t i f) i = f (tabGet d t i) := by
  simp [tabMod]

theorem tabGet_tabMod_ne {α : Type} (d e : α) (t : Tab α) {i j : Nat} (f : α → α) (h : j ≠ i) : tabGet d (tabMod e t i f) j = tabGet d t j := by
  simp [tabMod, tabGet_tabPut_ne d t _ h]

/-- The later of two puts at one key counts. -/
theorem tabPut_tabPut {α : Type} (t : Tab α) (i : Nat) (x y : α) : tabPut (tabPut t i x) i y = tabPut t i y := by
  induction t with
  | nil => simp [tabPut]
  | cons q r ih =>
    obtain ⟨k, v⟩ := q
    simp only [tabPut]
    split
    · simp [tabPut]
    · split
      · simp [tabPut]
      · simp_all [tabPut]

/-- A change of a key depends on what the change makes of the key's content only. -/
theorem tabMod_congr {α : Type} {d : α} {t : Tab α} {i : Nat} {f g : α → α} (h : f (tabGet d t i) = g (tabGet d t i)) : tabMod d t i f = tabMod d t i g := by
  unfold tabMod; rw [h]

/-- Two changes of one key are one change. -/
theorem tabMod_tabMod {α : Type} (d : α) (t : Tab α) (i : Nat) (f g : α → α) : tabMod d (tabMod d t i f) i g = tabMod d t i fun x => g (f x) := by
  unfold tabMod
  rw [tabPut_tabPut, tabGet_tabPut_self]

/-- A deleted key reads as the default. -/
@[simp] theorem tabGet_tabDel_self {α : Type} (d : α) (t : Tab α) (i : Nat) : tabGet d (tabDel t i) i = d := by
  induction t with
  | nil => rfl
  | cons p r ih =>
    obtain ⟨k, v⟩ := p
    by_cases h : k = i
    · subst h; simpa [tabDel] using ih
    · have h' : i ≠ k := fun e => h e.symm
      simpa [tabDel, List.filter_cons, h, tabGet, h'] using ih

theorem tabGet_tabDel_ne {α : Type} (d : α) (t : Tab α) {i j : Nat} (h : j ≠ i) : tabGet d (tabDel t i) j = tabGet d t j := by
  induction t with
  | nil => rfl
  | cons p r ih =>
    obtain ⟨k, v⟩ := p
    by_cases hk : k = i
    · subst hk
      simp only [tabGet, h, if_false]
      simpa [tabDel] using ih
    · by_cases hj : j = k
      · subst hj; simp [tabDel, hk, tabGet]
      · simpa [tabDel, List.filter_cons, hk, tabGet, hj] using ih

/-! ### Byte stores -/

/-- A byte reads as what was last put there. -/
@[simp] theorem memGet_memPut_self (m : Bytes) (a : Nat) (v : Byte) : memGet (memPut m a v) a = v := by
  unfold memGet memPut
  split
  · next h => simp [h]
  · simp

/-- Every other byte reads as before. -/
theorem memGet_memPut_ne (m : Bytes) {a b : Nat} (v : Byte) (h : b ≠ a) : memGet (memPut m a v) b = memGet m b := by
  unfold memGet memPut
  split
  · exact tabGet_tabDel_ne _ _ h
  · exact tabGet_tabPut_ne _ _ _ h

/-- A write leaves every byte below it alone. -/
theorem memGet_memWrite_lt (bs : List Byte) : ∀ (m : Bytes) (a b : Nat), b < a → memGet (memWrite m a bs) b = memGet m b := by
  induction bs with
  | nil => intro m a b _; rfl
  | cons x xs ih =>
    intro m a b h
    rw [memWrite, ih _ _ _ (by omega), memGet_memPut_ne _ _ (by omega)]

/-- A write leaves every byte above it alone. -/
theorem memGet_memWrite_ge (bs : List Byte) : ∀ (m : Bytes) (a b : Nat), a + bs.length ≤ b → memGet (memWrite m a bs) b = memGet m b := by
  induction bs with
  | nil => intro m a b _; rfl
  | cons x xs ih =>
    intro m a b h
    simp only [List.length_cons] at h
    rw [memWrite, ih _ _ _ (by omega), memGet_memPut_ne _ _ (by omega)]

/-- A written byte reads as written. -/
theorem memGet_memWrite (bs : List Byte) : ∀ (m : Bytes) (a i : Nat), i < bs.length → memGet (memWrite m a bs) (a + i) = bs.getD i 0 := by
  induction bs with
  | nil => intro m a i h; simp at h
  | cons x xs ih =>
    intro m a i h
    cases i with
    | zero => rw [memWrite, Nat.add_zero, memGet_memWrite_lt _ _ _ _ (by omega)]; simp
    | succ i =>
      have := ih (memPut m a x) (a + 1) i (by simpa using h)
      rw [memWrite, show a + (i + 1) = a + 1 + i by omega, this]
      simp

/-- The canonical form, said of the whole list. -/
theorem memWf_iff (m : Bytes) : memWf m = true ↔ m.Pairwise (fun p q => p.1 < q.1) ∧ ∀ p ∈ m, p.2 ≠ 0 := by
  induction m with
  | nil => simp [memWf]
  | cons p r ih =>
    obtain ⟨k, v⟩ := p
    cases r with
    | nil => simp [memWf]
    | cons q r =>
      obtain ⟨k', v'⟩ := q
      simp only [memWf, Bool.and_eq_true, bne_iff_ne, ne_eq, decide_eq_true_eq, ih, List.pairwise_cons, List.mem_cons, forall_eq_or_imp]
      constructor
      · rintro ⟨⟨hv, hk⟩, ⟨h1, h2⟩, h3, h4⟩
        exact ⟨⟨⟨hk, fun x hx => lt_trans hk (h1 x hx)⟩, h1, h2⟩, hv, h3, h4⟩
      · rintro ⟨⟨⟨hk, _⟩, h1, h2⟩, hv, h3, h4⟩
        exact ⟨⟨hv, hk⟩, ⟨h1, h2⟩, h3, h4⟩

theorem tabPut_keys_lt {α : Type} (t : Tab α) (i k : Nat) (x : α) (hk : k < i) (h : ∀ p ∈ t, k < p.1) : ∀ p ∈ tabPut t i x, k < p.1 := by
  induction t with
  | nil => simp [tabPut, hk]
  | cons q r ih =>
    obtain ⟨k', v'⟩ := q
    simp only [List.mem_cons, forall_eq_or_imp] at h
    simp only [tabPut]
    split
    · simp only [List.mem_cons, forall_eq_or_imp]; exact ⟨hk, h.2⟩
    · split
      · simp only [List.mem_cons, forall_eq_or_imp]; exact ⟨hk, h⟩
      · simp only [List.mem_cons, forall_eq_or_imp]; exact ⟨h.1, ih h.2⟩

/-- A put keeps the keys of a table strictly rising. -/
theorem tabPut_sorted {α : Type} (t : Tab α) (i : Nat) (x : α) (h : t.Pairwise fun p q => p.1 < q.1) : (tabPut t i x).Pairwise fun p q => p.1 < q.1 := by
  induction t with
  | nil => simp [tabPut]
  | cons q r ih =>
    obtain ⟨k, v⟩ := q
    rw [List.pairwise_cons] at h
    simp only [tabPut]
    split
    · next e => subst e; exact List.pairwise_cons.2 h
    · split
      · next hlt =>
        refine List.pairwise_cons.2 ⟨?_, List.pairwise_cons.2 h⟩
        simp only [List.mem_cons, forall_eq_or_imp]
        exact ⟨hlt, fun p hp => lt_trans hlt (h.1 p hp)⟩
      · next h1 h2 => exact List.pairwise_cons.2 ⟨tabPut_keys_lt r i k x (by omega) h.1, ih h.2⟩

theorem tabPut_mem {α : Type} (t : Tab α) (i : Nat) (x : α) : ∀ p ∈ tabPut t i x, p ∈ t ∨ p = (i, x) := by
  induction t with
  | nil => simp [tabPut]
  | cons q r ih =>
    obtain ⟨k, v⟩ := q
    simp only [tabPut]
    intro p hp
    split at hp
    · simp only [List.mem_cons] at hp ⊢; tauto
    · split at hp
      · simp only [List.mem_cons] at hp ⊢; tauto
      · simp only [List.mem_cons] at hp ⊢
        rcases hp with h | h
        · tauto
        · have := ih p h; tauto

/-- A put of one byte keeps the canonical form. -/
theorem memWf_memPut (m : Bytes) (a : Nat) (v : Byte) (h : memWf m = true) : memWf (memPut m a v) = true := by
  rw [memWf_iff] at h ⊢
  unfold memPut
  split
  · exact ⟨h.1.sublist List.filter_sublist, fun p hp => h.2 p (List.mem_of_mem_filter hp)⟩
  · next hv =>
    refine ⟨tabPut_sorted _ _ _ h.1, fun p hp => ?_⟩
    rcases tabPut_mem _ _ _ p hp with h' | h'
    · exact h.2 p h'
    · simpa [h'] using hv

/-- A write of a byte string keeps the canonical form. -/
theorem memWf_memWrite (bs : List Byte) : ∀ (m : Bytes) (a : Nat), memWf m = true → memWf (memWrite m a bs) = true := by
  induction bs with
  | nil => intro m a h; exact h
  | cons x xs ih => intro m a h; exact ih _ _ (memWf_memPut _ _ _ h)

/-- A write of listed bytes keeps the canonical form. -/
theorem memWf_memPutAll (l : List (Nat × Byte)) : ∀ m : Bytes, memWf m = true → memWf (memPutAll m l) = true := by
  induction l with
  | nil => intro m h; exact h
  | cons p r ih => intro m h; exact ih _ (memWf_memPut _ _ _ h)

/-- Clearing keeps the canonical form. -/
theorem memWf_memClear (m : Bytes) (a n : Nat) (h : memWf m = true) : memWf (memClear m a n) = true := by
  rw [memWf_iff] at h ⊢
  exact ⟨h.1.sublist List.filter_sublist, fun p hp => h.2 p (List.mem_of_mem_filter hp)⟩

/-- A slice has the canonical form. -/
theorem memWf_memSlice (m : Bytes) (a n : Nat) (h : memWf m = true) : memWf (memSlice m a n) = true := by
  rw [memWf_iff] at h ⊢
  refine ⟨?_, ?_⟩
  · unfold memSlice
    rw [List.pairwise_map]
    have h' : ((m.filter fun p => decide (a ≤ p.1) && decide (p.1 < a + n))).Pairwise fun p q => p.1 < q.1 := h.1.sublist List.filter_sublist
    refine h'.imp_of_mem ?_
    intro p q hp hq hpq
    have h1 := (List.mem_filter.1 hp).2
    have h2 := (List.mem_filter.1 hq).2
    simp only [Bool.and_eq_true, decide_eq_true_eq] at h1 h2
    show p.1 - a < q.1 - a
    omega
  · intro p hp
    obtain ⟨q, hq, rfl⟩ := List.mem_map.1 hp
    exact h.2 q (List.mem_of_mem_filter hq)

/-- Pasting keeps the canonical form. -/
theorem memWf_memPaste (m : Bytes) (a n : Nat) (src : Bytes) (h : memWf m = true) : memWf (memPaste m a n src) = true :=
  memWf_memPutAll _ _ (memWf_memClear _ _ _ h)

/-- Every operation on a byte store keeps the canonical form. -/
theorem memWf_ops (m src : Bytes) (a n : Nat) (v : Byte) (bs : List Byte) (l : List (Nat × Byte)) (h : memWf m = true) :
    memWf (memPut m a v) = true ∧ memWf (memWrite m a bs) = true ∧ memWf (memPutAll m l) = true ∧ memWf (memClear m a n) = true
      ∧ memWf (memSlice m a n) = true ∧ memWf (memPaste m a n src) = true :=
  ⟨memWf_memPut _ _ _ h, memWf_memWrite _ _ _ h, memWf_memPutAll _ _ h, memWf_memClear _ _ _ h, memWf_memSlice _ _ _ h, memWf_memPaste _ _ _ _ h⟩

end Sys2Proof.Machine
end

