-- ==== Sys2Proof/Laws/Ops.lean ====
section
/-! SUPPORT. Laws of the shared operations: what each update leaves in each client, partition, tile, domain, port and controller, what `run` answers, and what the watermark updates do. -/

namespace Sys2Proof.Machine

open Sys2Proof

variable (s : State)

/-! ### Parts that an update leaves alone -/

@[simp] theorem State.modPart_client' (p : Nat) (f : Part → Part) (i : Nat) : (s.modPart p f).client i = s.client i := rfl
@[simp] theorem State.modTile_client' (a : Nat) (f : Tile → Tile) (i : Nat) : (s.modTile a f).client i = s.client i := rfl
@[simp] theorem State.modDom_client' (d : Nat) (f : Dom → Dom) (i : Nat) : (s.modDom d f).client i = s.client i := rfl
@[simp] theorem State.modPort_client' (p : Nat) (f : Port → Port) (i : Nat) : (s.modPort p f).client i = s.client i := rfl
@[simp] theorem State.modCtl_client' (m : Nat) (f : HbmCtl → HbmCtl) (i : Nat) : (s.modCtl m f).client i = s.client i := rfl
@[simp] theorem State.modUnit_client' (id : Nat) (f : CUnit → CUnit) (i : Nat) : (s.modUnit id f).client i = s.client i := rfl
@[simp] theorem State.dropUnit_client' (id : Nat) (i : Nat) : (s.dropUnit id).client i = s.client i := rfl
@[simp] theorem State.emit_client' (o : Output) (i : Nat) : (s.emit o).client i = s.client i := rfl
@[simp] theorem State.modFrm_client' (f : Frm → Frm) (i : Nat) : (s.modFrm f).client i = s.client i := rfl
@[simp] theorem State.modFlt_client' (f : Flt → Flt) (i : Nat) : (s.modFlt f).client i = s.client i := rfl
@[simp] theorem State.modPwr_client' (f : Pwr → Pwr) (i : Nat) : (s.modPwr f).client i = s.client i := rfl
@[simp] theorem State.modStk_client' (f : Stack → Stack) (i : Nat) : (s.modStk f).client i = s.client i := rfl
@[simp] theorem State.ntcWrite_client' (e : NtcEntry) (i : Nat) : (s.ntcWrite e).client i = s.client i := rfl
@[simp] theorem State.keep_client (t : State) (i : Nat) : (s.keep t).client i = t.client i := rfl
@[simp] theorem State.modClient_part' (n : Nat) (f : Client → Client) (i : Nat) : (s.modClient n f).part i = s.part i := rfl
@[simp] theorem State.modTile_part' (a : Nat) (f : Tile → Tile) (i : Nat) : (s.modTile a f).part i = s.part i := rfl
@[simp] theorem State.modDom_part' (d : Nat) (f : Dom → Dom) (i : Nat) : (s.modDom d f).part i = s.part i := rfl
@[simp] theorem State.modPort_part' (p : Nat) (f : Port → Port) (i : Nat) : (s.modPort p f).part i = s.part i := rfl
@[simp] theorem State.modCtl_part' (m : Nat) (f : HbmCtl → HbmCtl) (i : Nat) : (s.modCtl m f).part i = s.part i := rfl
@[simp] theorem State.modUnit_part' (id : Nat) (f : CUnit → CUnit) (i : Nat) : (s.modUnit id f).part i = s.part i := rfl
@[simp] theorem State.dropUnit_part' (id : Nat) (i : Nat) : (s.dropUnit id).part i = s.part i := rfl
@[simp] theorem State.modQueue_part' (n q : Nat) (f : Queue → Queue) (i : Nat) : (s.modQueue n q f).part i = s.part i := rfl
@[simp] theorem State.emit_part' (o : Output) (i : Nat) : (s.emit o).part i = s.part i := rfl
@[simp] theorem State.modFrm_part' (f : Frm → Frm) (i : Nat) : (s.modFrm f).part i = s.part i := rfl
@[simp] theorem State.modFlt_part' (f : Flt → Flt) (i : Nat) : (s.modFlt f).part i = s.part i := rfl
@[simp] theorem State.modPwr_part' (f : Pwr → Pwr) (i : Nat) : (s.modPwr f).part i = s.part i := rfl
@[simp] theorem State.modStk_part' (f : Stack → Stack) (i : Nat) : (s.modStk f).part i = s.part i := rfl
@[simp] theorem State.ntcWrite_part' (e : NtcEntry) (i : Nat) : (s.ntcWrite e).part i = s.part i := rfl
@[simp] theorem State.keep_part (t : State) (i : Nat) : (s.keep t).part i = t.part i := rfl
@[simp] theorem State.modClient_tile' (n : Nat) (f : Client → Client) (i : Nat) : (s.modClient n f).tile i = s.tile i := rfl
@[simp] theorem State.modPart_tile' (p : Nat) (f : Part → Part) (i : Nat) : (s.modPart p f).tile i = s.tile i := rfl
@[simp] theorem State.modDom_tile' (d : Nat) (f : Dom → Dom) (i : Nat) : (s.modDom d f).tile i = s.tile i := rfl
@[simp] theorem State.modPort_tile' (p : Nat) (f : Port → Port) (i : Nat) : (s.modPort p f).tile i = s.tile i := rfl
@[simp] theorem State.modCtl_tile' (m : Nat) (f : HbmCtl → HbmCtl) (i : Nat) : (s.modCtl m f).tile i = s.tile i := rfl
@[simp] theorem State.modUnit_tile' (id : Nat) (f : CUnit → CUnit) (i : Nat) : (s.modUnit id f).tile i = s.tile i := rfl
@[simp] theorem State.dropUnit_tile' (id : Nat) (i : Nat) : (s.dropUnit id).tile i = s.tile i := rfl
@[simp] theorem State.modQueue_tile' (n q : Nat) (f : Queue → Queue) (i : Nat) : (s.modQueue n q f).tile i = s.tile i := rfl
@[simp] theorem State.emit_tile' (o : Output) (i : Nat) : (s.emit o).tile i = s.tile i := rfl
@[simp] theorem State.modFrm_tile' (f : Frm → Frm) (i : Nat) : (s.modFrm f).tile i = s.tile i := rfl
@[simp] theorem State.modFlt_tile' (f : Flt → Flt) (i : Nat) : (s.modFlt f).tile i = s.tile i := rfl
@[simp] theorem State.modPwr_tile' (f : Pwr → Pwr) (i : Nat) : (s.modPwr f).tile i = s.tile i := rfl
@[simp] theorem State.modStk_tile' (f : Stack → Stack) (i : Nat) : (s.modStk f).tile i = s.tile i := rfl
@[simp] theorem State.ntcWrite_tile' (e : NtcEntry) (i : Nat) : (s.ntcWrite e).tile i = s.tile i := rfl
@[simp] theorem State.keep_tile (t : State) (i : Nat) : (s.keep t).tile i = t.tile i := rfl
@[simp] theorem State.modClient_port' (n : Nat) (f : Client → Client) (i : Nat) : (s.modClient n f).port i = s.port i := rfl
@[simp] theorem State.modPart_port' (p : Nat) (f : Part → Part) (i : Nat) : (s.modPart p f).port i = s.port i := rfl
@[simp] theorem State.modTile_port' (a : Nat) (f : Tile → Tile) (i : Nat) : (s.modTile a f).port i = s.port i := rfl
@[simp] theorem State.modDom_port' (d : Nat) (f : Dom → Dom) (i : Nat) : (s.modDom d f).port i = s.port i := rfl
@[simp] theorem State.modCtl_port' (m : Nat) (f : HbmCtl → HbmCtl) (i : Nat) : (s.modCtl m f).port i = s.port i := rfl
@[simp] theorem State.modUnit_port' (id : Nat) (f : CUnit → CUnit) (i : Nat) : (s.modUnit id f).port i = s.port i := rfl
@[simp] theorem State.dropUnit_port' (id : Nat) (i : Nat) : (s.dropUnit id).port i = s.port i := rfl
@[simp] theorem State.modQueue_port' (n q : Nat) (f : Queue → Queue) (i : Nat) : (s.modQueue n q f).port i = s.port i := rfl
@[simp] theorem State.emit_port' (o : Output) (i : Nat) : (s.emit o).port i = s.port i := rfl
@[simp] theorem State.modFrm_port' (f : Frm → Frm) (i : Nat) : (s.modFrm f).port i = s.port i := rfl
@[simp] theorem State.modFlt_port' (f : Flt → Flt) (i : Nat) : (s.modFlt f).port i = s.port i := rfl
@[simp] theorem State.modPwr_port' (f : Pwr → Pwr) (i : Nat) : (s.modPwr f).port i = s.port i := rfl
@[simp] theorem State.modStk_port' (f : Stack → Stack) (i : Nat) : (s.modStk f).port i = s.port i := rfl
@[simp] theorem State.ntcWrite_port' (e : NtcEntry) (i : Nat) : (s.ntcWrite e).port i = s.port i := rfl
@[simp] theorem State.keep_port (t : State) (i : Nat) : (s.keep t).port i = t.port i := rfl
@[simp] theorem State.modClient_ctl' (n : Nat) (f : Client → Client) (i : Nat) : (s.modClient n f).ctl i = s.ctl i := rfl
@[simp] theorem State.modPart_ctl' (p : Nat) (f : Part → Part) (i : Nat) : (s.modPart p f).ctl i = s.ctl i := rfl
@[simp] theorem State.modTile_ctl' (a : Nat) (f : Tile → Tile) (i : Nat) : (s.modTile a f).ctl i = s.ctl i := rfl
@[simp] theorem State.modDom_ctl' (d : Nat) (f : Dom → Dom) (i : Nat) : (s.modDom d f).ctl i = s.ctl i := rfl
@[simp] theorem State.modPort_ctl' (p : Nat) (f : Port → Port) (i : Nat) : (s.modPort p f).ctl i = s.ctl i := rfl
@[simp] theorem State.modUnit_ctl' (id : Nat) (f : CUnit → CUnit) (i : Nat) : (s.modUnit id f).ctl i = s.ctl i := rfl
@[simp] theorem State.dropUnit_ctl' (id : Nat) (i : Nat) : (s.dropUnit id).ctl i = s.ctl i := rfl
@[simp] theorem State.modQueue_ctl' (n q : Nat) (f : Queue → Queue) (i : Nat) : (s.modQueue n q f).ctl i = s.ctl i := rfl
@[simp] theorem State.emit_ctl' (o : Output) (i : Nat) : (s.emit o).ctl i = s.ctl i := rfl
@[simp] theorem State.modFrm_ctl' (f : Frm → Frm) (i : Nat) : (s.modFrm f).ctl i = s.ctl i := rfl
@[simp] theorem State.modFlt_ctl' (f : Flt → Flt) (i : Nat) : (s.modFlt f).ctl i = s.ctl i := rfl
@[simp] theorem State.modPwr_ctl' (f : Pwr → Pwr) (i : Nat) : (s.modPwr f).ctl i = s.ctl i := rfl
@[simp] theorem State.modStk_ctl' (f : Stack → Stack) (i : Nat) : (s.modStk f).ctl i = s.ctl i := rfl
@[simp] theorem State.ntcWrite_ctl' (e : NtcEntry) (i : Nat) : (s.ntcWrite e).ctl i = s.ctl i := rfl
@[simp] theorem State.keep_ctl (t : State) (i : Nat) : (s.keep t).ctl i = t.ctl i := rfl
@[simp] theorem State.modClient_dom' (n : Nat) (f : Client → Client) (i : Nat) : (s.modClient n f).dom i = s.dom i := rfl
@[simp] theorem State.modPart_dom' (p : Nat) (f : Part → Part) (i : Nat) : (s.modPart p f).dom i = s.dom i := rfl
@[simp] theorem State.modTile_dom' (a : Nat) (f : Tile → Tile) (i : Nat) : (s.modTile a f).dom i = s.dom i := rfl
@[simp] theorem State.modPort_dom' (p : Nat) (f : Port → Port) (i : Nat) : (s.modPort p f).dom i = s.dom i := rfl
@[simp] theorem State.modCtl_dom' (m : Nat) (f : HbmCtl → HbmCtl) (i : Nat) : (s.modCtl m f).dom i = s.dom i := rfl
@[simp] theorem State.modUnit_dom' (id : Nat) (f : CUnit → CUnit) (i : Nat) : (s.modUnit id f).dom i = s.dom i := rfl
@[simp] theorem State.dropUnit_dom' (id : Nat) (i : Nat) : (s.dropUnit id).dom i = s.dom i := rfl
@[simp] theorem State.modQueue_dom' (n q : Nat) (f : Queue → Queue) (i : Nat) : (s.modQueue n q f).dom i = s.dom i := rfl
@[simp] theorem State.emit_dom' (o : Output) (i : Nat) : (s.emit o).dom i = s.dom i := rfl
@[simp] theorem State.modFrm_dom' (f : Frm → Frm) (i : Nat) : (s.modFrm f).dom i = s.dom i := rfl
@[simp] theorem State.modFlt_dom' (f : Flt → Flt) (i : Nat) : (s.modFlt f).dom i = s.dom i := rfl
@[simp] theorem State.modStk_dom' (f : Stack → Stack) (i : Nat) : (s.modStk f).dom i = s.dom i := rfl
@[simp] theorem State.ntcWrite_dom' (e : NtcEntry) (i : Nat) : (s.ntcWrite e).dom i = s.dom i := rfl
@[simp] theorem State.keep_dom (t : State) (i : Nat) : (s.keep t).dom i = t.dom i := rfl

/-! ### The part that an update changes, and its fellows -/

@[simp] theorem State.modClient_self (i : Nat) (f : Client → Client) : (s.modClient i f).client i = f (s.client i) := tabGet_tabMod_self _ _ _ _
theorem State.modClient_ne (i j : Nat) (f : Client → Client) (h : j ≠ i) : (s.modClient i f).client j = s.client j := tabGet_tabMod_ne _ _ _ _ h
@[simp] theorem State.modPart_self (i : Nat) (f : Part → Part) : (s.modPart i f).part i = f (s.part i) := tabGet_tabMod_self _ _ _ _
theorem State.modPart_ne (i j : Nat) (f : Part → Part) (h : j ≠ i) : (s.modPart i f).part j = s.part j := tabGet_tabMod_ne _ _ _ _ h
@[simp] theorem State.modTile_self (i : Nat) (f : Tile → Tile) : (s.modTile i f).tile i = f (s.tile i) := tabGet_tabMod_self _ _ _ _
theorem State.modTile_ne (i j : Nat) (f : Tile → Tile) (h : j ≠ i) : (s.modTile i f).tile j = s.tile j := tabGet_tabMod_ne _ _ _ _ h
@[simp] theorem State.modPort_self (i : Nat) (f : Port → Port) : (s.modPort i f).port i = f (s.port i) := tabGet_tabMod_self _ _ _ _
theorem State.modPort_ne (i j : Nat) (f : Port → Port) (h : j ≠ i) : (s.modPort i f).port j = s.port j := tabGet_tabMod_ne _ _ _ _ h
@[simp] theorem State.modCtl_self (i : Nat) (f : HbmCtl → HbmCtl) : (s.modCtl i f).ctl i = f (s.ctl i) := tabGet_tabMod_self _ _ _ _
theorem State.modCtl_ne (i j : Nat) (f : HbmCtl → HbmCtl) (h : j ≠ i) : (s.modCtl i f).ctl j = s.ctl j := tabGet_tabMod_ne _ _ _ _ h
@[simp] theorem State.modDom_self (i : Nat) (f : Dom → Dom) : (s.modDom i f).dom i = f (s.dom i) := tabGet_tabMod_self _ _ _ _
theorem State.modDom_ne (i j : Nat) (f : Dom → Dom) (h : j ≠ i) : (s.modDom i f).dom j = s.dom j := tabGet_tabMod_ne _ _ _ _ h
theorem State.modClient_modClient (i : Nat) (f g : Client → Client) : (s.modClient i f).modClient i g = s.modClient i fun x => g (f x) := by simp only [State.modClient, tabMod_tabMod]
theorem State.modPart_modPart (i : Nat) (f g : Part → Part) : (s.modPart i f).modPart i g = s.modPart i fun x => g (f x) := by simp only [State.modPart, tabMod_tabMod]
theorem State.modTile_modTile (i : Nat) (f g : Tile → Tile) : (s.modTile i f).modTile i g = s.modTile i fun x => g (f x) := by simp only [State.modTile, tabMod_tabMod]
theorem State.modPort_modPort (i : Nat) (f g : Port → Port) : (s.modPort i f).modPort i g = s.modPort i fun x => g (f x) := by simp only [State.modPort, tabMod_tabMod]
theorem State.modCtl_modCtl (i : Nat) (f g : HbmCtl → HbmCtl) : (s.modCtl i f).modCtl i g = s.modCtl i fun x => g (f x) := by simp only [State.modCtl, tabMod_tabMod]
theorem State.modDom_modDom (i : Nat) (f g : Dom → Dom) : (s.modDom i f).modDom i g = s.modDom i fun x => g (f x) := by simp only [State.modDom, tabMod_tabMod]

@[simp] theorem Client.modQueue_self (c : Client) (q : Nat) (f : Queue → Queue) : (c.modQueue q f).queue q = f (c.queue q) := by
  unfold Client.modQueue Client.queue; split <;> simp_all

@[simp] theorem State.modQueue_queue_self (n q : Nat) (f : Queue → Queue) : (s.modQueue n q f).queue n q = f (s.queue n q) := by
  simp [State.queue, State.modQueue]

theorem State.modQueue_client_ne (n q m : Nat) (f : Queue → Queue) (h : m ≠ n) : (s.modQueue n q f).client m = s.client m :=
  State.modClient_ne s n m _ h

/-- What an update of a queue leaves of its client: every field but the queue. -/
theorem Client.modQueue_eq (c : Client) (q : Nat) (f : Queue → Queue) :
    c.modQueue q f = { c with q0 := if q = 0 then f c.q0 else c.q0, q1 := if q = 0 then c.q1 else f c.q1 } := by
  unfold Client.modQueue; split <;> rfl

/-! ### What a command answers -/

/-- A command answers a next state while power-good is asserted: what its effect makes of the state, with what `State.keep` names kept. -/
theorem run_on (f : State → State) (h : s.power = true) : run f s = .next (s.keep (f s)) := by simp [run, h]

/-- While power-good is not asserted a command changes nothing. -/
theorem run_off (f : State → State) (h : s.power = false) : run f s = .next s := by simp [run, h]

/-- Every command that goes through `run` answers a next state that keeps the queue's rest, the power-good level, device time, the serial and the programmed slots and fuses. -/
theorem run_keeps (f : State → State) (t : State) (h : run f s = .next t) :
    t.pending = s.pending ∧ t.power = s.power ∧ t.now = s.now ∧ t.frm.serial = s.frm.serial ∧ t.frm.ledger = s.frm.ledger ∧ t.pwr.fuses = s.pwr.fuses := by
  unfold run at h
  split at h
  · injection h with h; subst h; simp
  · injection h with h; subst h; simp [State.keep]

/-- A command that goes through `run` never stops. -/
theorem run_total (f : State → State) : ∃ t, run f s = .next t := by
  unfold run; split <;> exact ⟨_, rfl⟩

/-- What a state that already keeps what a command must keep becomes. -/
theorem State.keep_of (t : State) (h1 : t.pending = s.pending) (h2 : t.power = s.power) (h3 : t.now = s.now) (h4 : t.frm.serial = s.frm.serial)
    (h5 : t.frm.ledger = s.frm.ledger) (h6 : t.pwr.fuses = s.pwr.fuses) : s.keep t = t := by
  unfold State.keep
  rw [← h1, ← h2, ← h3, ← h4, ← h5, ← h6]

@[simp] theorem State.when_true (f : State → State) : s.when true f = f s := rfl
@[simp] theorem State.when_false (f : State → State) : s.when false f = s := rfl
@[simp] theorem State.each_nil {α : Type} (f : State → α → State) : s.each [] f = s := rfl
@[simp] theorem State.each_cons {α : Type} (a : α) (l : List α) (f : State → α → State) : s.each (a :: l) f = (f s a).each l f := rfl

/-- What `f` keeps of a state, doing it for each element of a list keeps. -/
theorem State.each_keeps {α β : Type} (g : State → β) (f : State → α → State) (h : ∀ t a, g (f t a) = g t) : ∀ (l : List α) (t : State), g (t.each l f) = g t := by
  intro l
  induction l with
  | nil => intro t; rfl
  | cons a r ih => intro t; rw [State.each_cons, ih, h]

/-! ### HBM -/

/-- A write to HBM keeps its canonical form. -/
theorem State.hbmWrite_wf (a : Nat) (bs : List Byte) (h : memWf s.hbm = true) : memWf (s.hbmWrite a bs).hbm = true := by
  unfold State.hbmWrite
  split
  · exact memWf_memWrite _ _ _ h
  · exact memWf_memPutAll _ _ h

/-- Clearing HBM keeps its canonical form. -/
theorem State.hbmClear_wf (a n : Nat) (h : memWf s.hbm = true) : memWf (s.hbmClear a n).hbm = true := memWf_memClear _ _ _ h

/-- A write to HBM changes nothing but HBM. -/
theorem State.hbmWrite_eq (a : Nat) (bs : List Byte) : ∃ m, s.hbmWrite a bs = { s with hbm := m } := by
  unfold State.hbmWrite
  split <;> exact ⟨_, rfl⟩

/-! ### Watermarks -/

/-- After an update LEVEL is the new value and PEAK is at least LEVEL, if it was before. -/
theorem wmUpdate_peak (w : Wm) (l : Nat) : (wmUpdate w l).1.level = satTo 0xFFFFFFFF l ∧ (wmUpdate w l).1.level ≤ (wmUpdate w l).1.peak := by
  unfold wmUpdate
  simp only
  split <;> simp_all
  omega

/-- A notice comes only with CROSSED set. -/
theorem wmUpdate_raise (w : Wm) (l : Nat) (h : (wmUpdate w l).2 = true) : (wmUpdate w l).1.crossed = true ∧ w.crossed = false := by
  unfold wmUpdate at h ⊢
  simp_all

end Sys2Proof.Machine
end

