-- ==== Sys2Proof/Laws/Notice.lean ====
section
/-! SUPPORT. Laws of messages, notices and watermark updates: what they leave alone. -/

namespace Sys2Proof.Machine

open Sys2Proof

variable (s : State)

/-! ### Messages -/

/-- A message changes only functions of clients and what has been sent. -/
theorem State.msix_eq (n v : Nat) : ∃ C O, s.msix n v = { s with clients := C, out := O } := by
  unfold State.msix
  dsimp only
  split
  · exact ⟨_, _, rfl⟩
  · split
    · exact ⟨_, _, rfl⟩
    · exact ⟨_, _, rfl⟩

/-- A message changes nothing of a client but its function. -/
theorem State.msix_client {α : Type} (g : Client → α) (hg : ∀ c f, g { c with func := f } = g c) (n v m : Nat) :
    g ((s.msix n v).client m) = g (s.client m) := by
  have key : ∀ f : Client → Func, g ((s.modClient n fun c => { c with func := f c }).client m) = g (s.client m) := by
    intro f
    by_cases h : m = n
    · subst h; simp [hg]
    · rw [State.modClient_ne _ _ _ _ h]
  unfold State.msix
  dsimp only
  split
  · exact key _
  · split
    · rfl
    · exact key _

/-- Vector-4 messages change only functions of clients and what has been sent. -/
theorem State.msix4_eq : ∃ C O, s.msix4 = { s with clients := C, out := O } := by
  have h : ∀ (l : List Nat) (t : State), ∃ C O,
      (t.each l fun x p => x.when (bit x.ntc.route p) fun x => x.msix (32 * p) 4) = { t with clients := C, out := O } := by
    intro l
    induction l with
    | nil => intro t; exact ⟨_, _, rfl⟩
    | cons a k ih =>
      intro t
      simp only [State.each_cons]
      obtain ⟨C, O, h⟩ := ih (t.when (bit t.ntc.route a) fun x => x.msix (32 * a) 4)
      cases hb : bit t.ntc.route a
      · rw [hb] at h; exact ⟨C, O, h⟩
      · obtain ⟨C', O', h'⟩ := t.msix_eq (32 * a) 4
        rw [hb] at h
        simp only [State.when_true] at h ⊢
        rw [h, h']
        exact ⟨_, _, rfl⟩
  exact h _ s

/-- Vector-4 messages change nothing of a client but its function. -/
theorem State.msix4_client {α : Type} (g : Client → α) (hg : ∀ c f, g { c with func := f } = g c) (m : Nat) : g (s.msix4.client m) = g (s.client m) := by
  unfold State.msix4
  refine State.each_keeps (fun t => g (t.client m)) _ ?_ _ s
  intro t a
  cases h : bit t.ntc.route a
  · rfl
  · simp only [State.when_true]; exact State.msix_client t g hg _ _ _

/-! ### Notices -/

/-- A notice writes one log entry, and changes beside that only functions of clients, what waits to be forwarded and what has been sent. -/
theorem State.notice_eq (code index value : Nat) (cl : Option Nat) : ∃ C O F, s.notice code index value cl = { s with
    ntc := { s.ntc with
      log := tabPut s.ntc.log (s.ntc.head.toNat % 64) { time := s.now, code := code, wafer := s.frm.waferId, forwarded := false, index := index, value := value }
      head := s.ntc.head + 1, toForward := F }
    clients := C, out := O } := by
  unfold State.notice
  cases cl with
  | none =>
    obtain ⟨C, O, h⟩ := (s.ntcWrite { time := s.now, code := code, wafer := s.frm.waferId, forwarded := false, index := index, value := value }).msix4_eq
    dsimp only
    rw [h]
    split <;> exact ⟨_, _, _, rfl⟩
  | some c =>
    obtain ⟨C, O, h⟩ := (s.ntcWrite { time := s.now, code := code, wafer := s.frm.waferId, forwarded := false, index := index, value := value }).msix_eq c 3
    dsimp only
    rw [h]
    split <;> exact ⟨_, _, _, rfl⟩

/-- A notice changes nothing of a client but its function. -/
theorem State.notice_client {α : Type} (g : Client → α) (hg : ∀ c f, g { c with func := f } = g c) (code index value : Nat) (cl : Option Nat) (m : Nat) :
    g ((s.notice code index value cl).client m) = g (s.client m) := by
  have h : ∀ (t : State) (e : List NtcEntry), ({ t with ntc := { t.ntc with toForward := e } } : State).client m = t.client m := fun _ _ => rfl
  unfold State.notice
  cases cl with
  | none =>
    dsimp only
    split
    · rw [h]; exact State.msix4_client _ g hg m
    · exact State.msix4_client _ g hg m
  | some c =>
    dsimp only
    split
    · rw [h]; exact State.msix_client _ g hg _ _ m
    · exact State.msix_client _ g hg _ _ m

@[simp] theorem State.notice_pending (a b c : Nat) (d : Option Nat) : (s.notice a b c d).pending = s.pending := by obtain ⟨_, _, _, h⟩ := s.notice_eq a b c d; rw [h]
@[simp] theorem State.notice_power (a b c : Nat) (d : Option Nat) : (s.notice a b c d).power = s.power := by obtain ⟨_, _, _, h⟩ := s.notice_eq a b c d; rw [h]
@[simp] theorem State.notice_now (a b c : Nat) (d : Option Nat) : (s.notice a b c d).now = s.now := by obtain ⟨_, _, _, h⟩ := s.notice_eq a b c d; rw [h]
@[simp] theorem State.notice_frm (a b c : Nat) (d : Option Nat) : (s.notice a b c d).frm = s.frm := by obtain ⟨_, _, _, h⟩ := s.notice_eq a b c d; rw [h]
@[simp] theorem State.notice_pwr (a b c : Nat) (d : Option Nat) : (s.notice a b c d).pwr = s.pwr := by obtain ⟨_, _, _, h⟩ := s.notice_eq a b c d; rw [h]
@[simp] theorem State.notice_flt (a b c : Nat) (d : Option Nat) : (s.notice a b c d).flt = s.flt := by obtain ⟨_, _, _, h⟩ := s.notice_eq a b c d; rw [h]
@[simp] theorem State.notice_trace (a b c : Nat) (d : Option Nat) : (s.notice a b c d).trace = s.trace := by obtain ⟨_, _, _, h⟩ := s.notice_eq a b c d; rw [h]
@[simp] theorem State.notice_parts (a b c : Nat) (d : Option Nat) : (s.notice a b c d).parts = s.parts := by obtain ⟨_, _, _, h⟩ := s.notice_eq a b c d; rw [h]
@[simp] theorem State.notice_tiles (a b c : Nat) (d : Option Nat) : (s.notice a b c d).tiles = s.tiles := by obtain ⟨_, _, _, h⟩ := s.notice_eq a b c d; rw [h]
@[simp] theorem State.notice_units (a b c : Nat) (d : Option Nat) : (s.notice a b c d).units = s.units := by obtain ⟨_, _, _, h⟩ := s.notice_eq a b c d; rw [h]
@[simp] theorem State.notice_nextUnit (a b c : Nat) (d : Option Nat) : (s.notice a b c d).nextUnit = s.nextUnit := by obtain ⟨_, _, _, h⟩ := s.notice_eq a b c d; rw [h]
@[simp] theorem State.notice_fabric (a b c : Nat) (d : Option Nat) : (s.notice a b c d).fabric = s.fabric := by obtain ⟨_, _, _, h⟩ := s.notice_eq a b c d; rw [h]
@[simp] theorem State.notice_north (a b c : Nat) (d : Option Nat) : (s.notice a b c d).north = s.north := by obtain ⟨_, _, _, h⟩ := s.notice_eq a b c d; rw [h]
@[simp] theorem State.notice_south (a b c : Nat) (d : Option Nat) : (s.notice a b c d).south = s.south := by obtain ⟨_, _, _, h⟩ := s.notice_eq a b c d; rw [h]
@[simp] theorem State.notice_ltLimit (a b c : Nat) (d : Option Nat) : (s.notice a b c d).ltLimit = s.ltLimit := by obtain ⟨_, _, _, h⟩ := s.notice_eq a b c d; rw [h]
@[simp] theorem State.notice_wmLot (a b c : Nat) (d : Option Nat) : (s.notice a b c d).wmLot = s.wmLot := by obtain ⟨_, _, _, h⟩ := s.notice_eq a b c d; rw [h]
@[simp] theorem State.notice_swShare (a b c : Nat) (d : Option Nat) : (s.notice a b c d).swShare = s.swShare := by obtain ⟨_, _, _, h⟩ := s.notice_eq a b c d; rw [h]
@[simp] theorem State.notice_stageSlots (a b c : Nat) (d : Option Nat) : (s.notice a b c d).stageSlots = s.stageSlots := by obtain ⟨_, _, _, h⟩ := s.notice_eq a b c d; rw [h]
@[simp] theorem State.notice_hbm (a b c : Nat) (d : Option Nat) : (s.notice a b c d).hbm = s.hbm := by obtain ⟨_, _, _, h⟩ := s.notice_eq a b c d; rw [h]
@[simp] theorem State.notice_hbmCtl (a b c : Nat) (d : Option Nat) : (s.notice a b c d).hbmCtl = s.hbmCtl := by obtain ⟨_, _, _, h⟩ := s.notice_eq a b c d; rw [h]
@[simp] theorem State.notice_ports (a b c : Nat) (d : Option Nat) : (s.notice a b c d).ports = s.ports := by obtain ⟨_, _, _, h⟩ := s.notice_eq a b c d; rw [h]
@[simp] theorem State.notice_stk (a b c : Nat) (d : Option Nat) : (s.notice a b c d).stk = s.stk := by obtain ⟨_, _, _, h⟩ := s.notice_eq a b c d; rw [h]
@[simp] theorem State.notice_inbox (a b c : Nat) (d : Option Nat) : (s.notice a b c d).inbox = s.inbox := by obtain ⟨_, _, _, h⟩ := s.notice_eq a b c d; rw [h]
@[simp] theorem State.notice_numVfs (a b c : Nat) (d : Option Nat) : (s.notice a b c d).numVfs = s.numVfs := by obtain ⟨_, _, _, h⟩ := s.notice_eq a b c d; rw [h]
@[simp] theorem State.notice_linkUp (a b c : Nat) (d : Option Nat) : (s.notice a b c d).linkUp = s.linkUp := by obtain ⟨_, _, _, h⟩ := s.notice_eq a b c d; rw [h]
@[simp] theorem State.notice_latches (a b c : Nat) (d : Option Nat) : (s.notice a b c d).latches = s.latches := by obtain ⟨_, _, _, h⟩ := s.notice_eq a b c d; rw [h]
@[simp] theorem State.notice_jtag (a b c : Nat) (d : Option Nat) : (s.notice a b c d).jtag = s.jtag := by obtain ⟨_, _, _, h⟩ := s.notice_eq a b c d; rw [h]
@[simp] theorem State.notice_smbusEid (a b c : Nat) (d : Option Nat) : (s.notice a b c d).smbusEid = s.smbusEid := by obtain ⟨_, _, _, h⟩ := s.notice_eq a b c d; rw [h]
@[simp] theorem State.notice_order (a b c : Nat) (d : Option Nat) : (s.notice a b c d).order = s.order := by obtain ⟨_, _, _, h⟩ := s.notice_eq a b c d; rw [h]
@[simp] theorem State.notice_freeCtr (a b c : Nat) (d : Option Nat) : (s.notice a b c d).freeCtr = s.freeCtr := by obtain ⟨_, _, _, h⟩ := s.notice_eq a b c d; rw [h]
@[simp] theorem State.msix_pending (n v : Nat) : (s.msix n v).pending = s.pending := by obtain ⟨_, _, h⟩ := s.msix_eq n v; rw [h]
@[simp] theorem State.msix_power (n v : Nat) : (s.msix n v).power = s.power := by obtain ⟨_, _, h⟩ := s.msix_eq n v; rw [h]
@[simp] theorem State.msix_now (n v : Nat) : (s.msix n v).now = s.now := by obtain ⟨_, _, h⟩ := s.msix_eq n v; rw [h]
@[simp] theorem State.msix_frm (n v : Nat) : (s.msix n v).frm = s.frm := by obtain ⟨_, _, h⟩ := s.msix_eq n v; rw [h]
@[simp] theorem State.msix_pwr (n v : Nat) : (s.msix n v).pwr = s.pwr := by obtain ⟨_, _, h⟩ := s.msix_eq n v; rw [h]
@[simp] theorem State.msix_flt (n v : Nat) : (s.msix n v).flt = s.flt := by obtain ⟨_, _, h⟩ := s.msix_eq n v; rw [h]
@[simp] theorem State.msix_trace (n v : Nat) : (s.msix n v).trace = s.trace := by obtain ⟨_, _, h⟩ := s.msix_eq n v; rw [h]
@[simp] theorem State.msix_parts (n v : Nat) : (s.msix n v).parts = s.parts := by obtain ⟨_, _, h⟩ := s.msix_eq n v; rw [h]
@[simp] theorem State.msix_tiles (n v : Nat) : (s.msix n v).tiles = s.tiles := by obtain ⟨_, _, h⟩ := s.msix_eq n v; rw [h]
@[simp] theorem State.msix_units (n v : Nat) : (s.msix n v).units = s.units := by obtain ⟨_, _, h⟩ := s.msix_eq n v; rw [h]
@[simp] theorem State.msix_nextUnit (n v : Nat) : (s.msix n v).nextUnit = s.nextUnit := by obtain ⟨_, _, h⟩ := s.msix_eq n v; rw [h]
@[simp] theorem State.msix_fabric (n v : Nat) : (s.msix n v).fabric = s.fabric := by obtain ⟨_, _, h⟩ := s.msix_eq n v; rw [h]
@[simp] theorem State.msix_north (n v : Nat) : (s.msix n v).north = s.north := by obtain ⟨_, _, h⟩ := s.msix_eq n v; rw [h]
@[simp] theorem State.msix_south (n v : Nat) : (s.msix n v).south = s.south := by obtain ⟨_, _, h⟩ := s.msix_eq n v; rw [h]
@[simp] theorem State.msix_ltLimit (n v : Nat) : (s.msix n v).ltLimit = s.ltLimit := by obtain ⟨_, _, h⟩ := s.msix_eq n v; rw [h]
@[simp] theorem State.msix_wmLot (n v : Nat) : (s.msix n v).wmLot = s.wmLot := by obtain ⟨_, _, h⟩ := s.msix_eq n v; rw [h]
@[simp] theorem State.msix_swShare (n v : Nat) : (s.msix n v).swShare = s.swShare := by obtain ⟨_, _, h⟩ := s.msix_eq n v; rw [h]
@[simp] theorem State.msix_stageSlots (n v : Nat) : (s.msix n v).stageSlots = s.stageSlots := by obtain ⟨_, _, h⟩ := s.msix_eq n v; rw [h]
@[simp] theorem State.msix_hbm (n v : Nat) : (s.msix n v).hbm = s.hbm := by obtain ⟨_, _, h⟩ := s.msix_eq n v; rw [h]
@[simp] theorem State.msix_hbmCtl (n v : Nat) : (s.msix n v).hbmCtl = s.hbmCtl := by obtain ⟨_, _, h⟩ := s.msix_eq n v; rw [h]
@[simp] theorem State.msix_ports (n v : Nat) : (s.msix n v).ports = s.ports := by obtain ⟨_, _, h⟩ := s.msix_eq n v; rw [h]
@[simp] theorem State.msix_stk (n v : Nat) : (s.msix n v).stk = s.stk := by obtain ⟨_, _, h⟩ := s.msix_eq n v; rw [h]
@[simp] theorem State.msix_inbox (n v : Nat) : (s.msix n v).inbox = s.inbox := by obtain ⟨_, _, h⟩ := s.msix_eq n v; rw [h]
@[simp] theorem State.msix_numVfs (n v : Nat) : (s.msix n v).numVfs = s.numVfs := by obtain ⟨_, _, h⟩ := s.msix_eq n v; rw [h]
@[simp] theorem State.msix_linkUp (n v : Nat) : (s.msix n v).linkUp = s.linkUp := by obtain ⟨_, _, h⟩ := s.msix_eq n v; rw [h]
@[simp] theorem State.msix_latches (n v : Nat) : (s.msix n v).latches = s.latches := by obtain ⟨_, _, h⟩ := s.msix_eq n v; rw [h]
@[simp] theorem State.msix_jtag (n v : Nat) : (s.msix n v).jtag = s.jtag := by obtain ⟨_, _, h⟩ := s.msix_eq n v; rw [h]
@[simp] theorem State.msix_smbusEid (n v : Nat) : (s.msix n v).smbusEid = s.smbusEid := by obtain ⟨_, _, h⟩ := s.msix_eq n v; rw [h]
@[simp] theorem State.msix_order (n v : Nat) : (s.msix n v).order = s.order := by obtain ⟨_, _, h⟩ := s.msix_eq n v; rw [h]
@[simp] theorem State.msix_freeCtr (n v : Nat) : (s.msix n v).freeCtr = s.freeCtr := by obtain ⟨_, _, h⟩ := s.msix_eq n v; rw [h]
@[simp] theorem State.notice_part' (a b c : Nat) (d : Option Nat) (i : Nat) : (s.notice a b c d).part i = s.part i := by simp [State.part]
@[simp] theorem State.msix_part' (n v : Nat) (i : Nat) : (s.msix n v).part i = s.part i := by simp [State.part]
@[simp] theorem State.notice_tile' (a b c : Nat) (d : Option Nat) (i : Nat) : (s.notice a b c d).tile i = s.tile i := by simp [State.tile]
@[simp] theorem State.msix_tile' (n v : Nat) (i : Nat) : (s.msix n v).tile i = s.tile i := by simp [State.tile]
@[simp] theorem State.notice_dom' (a b c : Nat) (d : Option Nat) (i : Nat) : (s.notice a b c d).dom i = s.dom i := by simp [State.dom]
@[simp] theorem State.msix_dom' (n v : Nat) (i : Nat) : (s.msix n v).dom i = s.dom i := by simp [State.dom]
@[simp] theorem State.notice_port' (a b c : Nat) (d : Option Nat) (i : Nat) : (s.notice a b c d).port i = s.port i := by simp [State.port]
@[simp] theorem State.msix_port' (n v : Nat) (i : Nat) : (s.msix n v).port i = s.port i := by simp [State.port]
@[simp] theorem State.notice_ctl' (a b c : Nat) (d : Option Nat) (i : Nat) : (s.notice a b c d).ctl i = s.ctl i := by simp [State.ctl]
@[simp] theorem State.msix_ctl' (n v : Nat) (i : Nat) : (s.msix n v).ctl i = s.ctl i := by simp [State.ctl]

end Sys2Proof.Machine
end

