-- ==== Sys2Proof/Laws/Exec.lean ====
section
/-! SUPPORT. What a command answers, by way of its effect. -/

namespace Sys2Proof.Machine

open Sys2Proof

/-- What a command that goes through `run` answers while power-good is asserted. -/
theorem exec_on {c : Instr} {s t : State} {f : State → State} (hp : s.power = true) (e : exec c s = run f s) (h : s.keep (f s) = t) :
    exec c s = .next t := by
  rw [e, run_on _ _ hp, h]

/-- What a command that goes through `runAny` answers. -/
theorem exec_any {c : Instr} {s t : State} {f : State → State} (e : exec c s = runAny f s) (h : { f s with pending := s.pending } = t) :
    exec c s = .next t := by
  rw [e, runAny, h]

/-- A command at the front of the queue acts on the state with the queue's rest. -/
theorem step_cons (c : Instr) (r : List Instr) (s : State) (h : s.pending = c :: r) : step s = exec c { s with pending := r } := by
  unfold step; rw [h]

/-- On an empty queue one nanosecond passes. -/
theorem step_nil (s : State) (h : s.pending = []) : step s = .next (tick s) := by
  unfold step; rw [h]

end Sys2Proof.Machine
end

