-- ==== Sys2Proof/Laws/Fits.lean ====
section
/-! SUPPORT. A unit fits its tiles where each of them has as many FREE windows as the unit has destination windows there (R43, R199, R507). -/

namespace Sys2Proof.Machine

open Sys2Proof Sys2Proof.Safety

/-- Destination windows of a unit on working tile `k` of `t`, for a tile whose table bank is `bank`. -/
def CUnit.need (u : CUnit) (bank : Bytes) (k t : Nat) : Nat :=
  ((u.dests bank).flatMap fun x => (u.destOwners x.1 x.2.1 x.2.2 k t)).length

/-- Every tile of a side has room for the unit's destination windows. -/
def State.rooms (s : State) (u : CUnit) (side : Side) : Bool :=
  decide (u.sideTiles side).Nodup && (u.sideTiles side).zipIdx.all fun p =>
    decide (u.need (s.tile p.1).tbl.bank (u.shareAt side p.2).1 (u.shareAt side p.2).2
      ≤ (s.tile p.1).freeList.length)

/-- An allocation takes at most one FREE window. -/
theorem Tile.freeList_alloc (t : Tile) (o : Owner) (uid : Nat) (c : Bytes) : t.freeList.length ≤ (t.alloc o uid c).freeList.length + 1 := by
  cases h : t.freeList with
  | nil => simp
  | cons w r =>
    have hw : ∀ x, x ≠ w → (t.alloc o uid c).win x = t.win x := fun x hx => by
      simp [Tile.alloc, h, Tile.setWinData, Tile.setWin, Tile.win, tabGet_tabPut_ne _ _ _ hx]
    have nd : (w :: r).Nodup := h ▸ (List.nodup_range (n := 47)).filter _
    have sub : ∀ x ∈ r, x ∈ (t.alloc o uid c).freeList := fun x hx => by
      have hm : x ∈ t.freeList := h ▸ List.mem_cons_of_mem _ hx
      have ne : x ≠ w := fun e => (List.nodup_cons.1 nd).1 (e ▸ hx)
      simp only [Tile.freeList, List.mem_filter] at hm ⊢
      rw [hw x ne]; exact hm
    have := ((List.nodup_cons.1 nd).2.subperm sub).length_le
    simpa using this

/-- One tile with room gets its windows, and the other tiles are as before. -/
theorem allocTile_room (s : State) (a : Nat) (u : CUnit) (side : Side) (k t : Nat) (h : u.need (s.tile a).tbl.bank k t ≤ (s.tile a).freeList.length) :
    ∃ s', s.allocTile a u side k t = some s' ∧ ∀ b, b ≠ a → s'.tile b = s.tile b := by
  unfold State.allocTile
  have hl : ((u.dests (s.tile a).tbl.bank).flatMap fun x => ((u.destOwners x.1 x.2.1 x.2.2 k t).zipIdx.map fun o => (o.1, x.2.2, o.2))).length ≤ (s.tile a).freeList.length := by
    simpa [CUnit.need, List.length_flatMap] using h
  generalize ((u.dests (s.tile a).tbl.bank).flatMap fun x => ((u.destOwners x.1 x.2.1 x.2.2 k t).zipIdx.map fun o => (o.1, x.2.2, o.2))) = own at hl
  clear h
  induction own generalizing s with
  | nil => exact ⟨s, rfl, fun _ _ => rfl⟩
  | cons x r ih =>
    simp only [List.length_cons] at hl
    simp only [List.foldl_cons, Option.bind_some]
    split
    · exact ih s (by omega)
    · have : (s.tile a).freeList.isEmpty = false := by
        cases e : (s.tile a).freeList with
        | nil => simp [e] at hl
        | cons _ _ => rfl
      simp only [this, Bool.false_eq_true, if_false]
      obtain ⟨s', h1, h2⟩ := ih (s.modTile a fun tile => tile.alloc x.1 u.id (s.winBefore a u side x.2.1 k t x.2.2 x.1)) (by
        have := Tile.freeList_alloc (s.tile a) x.1 u.id (s.winBefore a u side x.2.1 k t x.2.2 x.1)
        simp only [State.modTile_self]; omega)
      exact ⟨s', h1, fun b hb => by rw [h2 b hb, State.modTile_ne _ _ _ _ hb]⟩

/-- A side with room gets its windows, and the tiles outside it are as before. -/
theorem allocSide_room (s : State) (u : CUnit) (side : Side) (h : s.rooms u side = true) :
    ∃ s', s.allocSide u side = some s' ∧ ∀ b, b ∉ u.sideTiles side → s'.tile b = s.tile b := by
  unfold State.rooms at h
  unfold State.allocSide
  simp only [Bool.and_eq_true, decide_eq_true_eq, List.all_eq_true] at h
  obtain ⟨hn, hr⟩ := h
  have key : ∀ (l : List (Nat × Nat)) (s : State), (l.map Prod.fst).Nodup →
      (∀ p ∈ l, u.need (s.tile p.1).tbl.bank (u.shareAt side p.2).1 (u.shareAt side p.2).2 ≤ (s.tile p.1).freeList.length) →
      ∃ s', l.foldl (fun (m : Option State) p => m.bind fun s =>
        s.allocTile p.1 u side (u.shareAt side p.2).1 (u.shareAt side p.2).2) (some s) = some s'
        ∧ ∀ b, b ∉ l.map Prod.fst → s'.tile b = s.tile b := by
    intro l
    induction l with
    | nil => exact fun s _ _ => ⟨s, rfl, fun _ _ => rfl⟩
    | cons p r ih =>
      intro s hn hr
      simp only [List.map_cons, List.nodup_cons] at hn
      obtain ⟨s1, e1, k1⟩ := allocTile_room s p.1 u side _ _ (hr p (List.mem_cons_self ..))
      obtain ⟨s2, e2, k2⟩ := ih s1 hn.2 fun q hq => by
        have ne : q.1 ≠ p.1 := fun e => hn.1 (e ▸ List.mem_map_of_mem hq)
        rw [k1 _ ne]; exact hr q (List.mem_cons_of_mem _ hq)
      refine ⟨s2, by simp only [List.foldl_cons, Option.bind_some, e1]; exact e2, fun b hb => ?_⟩
      simp only [List.map_cons, List.mem_cons, not_or] at hb
      rw [k2 b hb.2, k1 b hb.1]
  have hm : (u.sideTiles side).zipIdx.map Prod.fst = u.sideTiles side := by simp
  obtain ⟨s', e, k⟩ := key (u.sideTiles side).zipIdx s (by rw [hm]; exact hn) hr
  exact ⟨s', e, fun b hb => k b (by rw [hm]; exact hb)⟩

/-- A unit fits where both its sides have room and share no tile. -/
theorem fits_of_rooms (s : State) (u : CUnit) (h : s.rooms u .main = true ∧ s.rooms u .pair = true ∧ ∀ a ∈ u.pairTiles, a ∉ u.tiles) : Fits s u := by
  obtain ⟨hm, hp, hd⟩ := h
  intro t ht
  have et : ∀ a, t.tile a = s.tile a := fun a => by simp [State.tile, ht]
  have hm' : t.rooms u .main = true := by simpa [State.rooms, et] using hm
  obtain ⟨t1, e1, k1⟩ := allocSide_room t u .main hm'
  have hp' : t1.rooms u .pair = true := by
    simp only [State.rooms, Bool.and_eq_true, decide_eq_true_eq, List.all_eq_true] at hp ⊢
    refine ⟨hp.1, fun p hq => ?_⟩
    have hmem : p.1 ∈ u.pairTiles := (List.mem_zipIdx hq).2.2 ▸ List.getElem_mem _
    rw [k1 p.1 (hd _ hmem), et]; exact hp.2 p hq
  obtain ⟨t2, e2, -⟩ := allocSide_room t1 u .pair hp'
  simp [e1, e2]

/-- A third run on given tiles gets its windows where they have room for the unit's destination windows. -/
theorem room_third (s : State) (u : CUnit) (l : List Nat) (bank : Bytes)
    (h : l.Nodup ∧ ∀ p ∈ l.zipIdx, ({ u with thirdTiles := l } : CUnit).need bank p.2 l.length ≤ (s.tile p.1).freeList.length) :
    ∀ t : State, (∀ a, (t.tile a).windows = (s.tile a).windows) → (∀ a ∈ l, (t.tile a).tbl.bank = bank) →
      ∀ d, (t.allocSide { u with thirdTiles := l, down := d } .third).isSome = true := by
  intro t hw hb d
  have hr : t.rooms { u with thirdTiles := l, down := d } .third = true := by
    simp only [State.rooms, Bool.and_eq_true, decide_eq_true_eq, List.all_eq_true]
    refine ⟨h.1, fun p hp => ?_⟩
    have hm : p.1 ∈ l := (List.mem_zipIdx hp).2.2 ▸ List.getElem_mem _
    rw [hb p.1 hm]
    have hf : (t.tile p.1).freeList = (s.tile p.1).freeList := by simp [Tile.freeList, Tile.win, hw]
    rw [hf]
    exact h.2 p hp
  obtain ⟨t1, e1, -⟩ := allocSide_room t _ .third hr
  simp [e1]

/-- The same for the arbiter's tiles. -/
theorem third_of_room (s : State) (u : CUnit)
    (h : (s.tilesOf s.flt.arbPart).Nodup ∧ ∀ p ∈ (s.tilesOf s.flt.arbPart).zipIdx,
      ({ u with thirdTiles := s.tilesOf s.flt.arbPart } : CUnit).need (s.tile (u.tiles.headD 0)).tbl.bank p.2 (s.tilesOf s.flt.arbPart).length ≤ (s.tile p.1).freeList.length) :
    ThirdFits s u := room_third s u _ _ h

end Sys2Proof.Machine
end

