-- ==== Sys2Proof/Laws/Records.lean ====
section
/-! SUPPORT. Laws of the trace, the fault log, watermarks, Lot Table writes, records and outcome entries: which parts of the state each can change, and what it leaves in the rest. -/

namespace Sys2Proof.Machine

open Sys2Proof

variable (s : State)

/-- What holds with and without an operation holds where it applies under a condition. -/
theorem State.when_ind {P : State → Prop} (c : Bool) (f : State → State) (h1 : P (f s)) (h2 : P s) : P (s.when c f) := by
  cases c
  · exact h2
  · exact h1

/-- A trace record changes only HBM and the trace head. -/
theorem State.trace1_eq (r : TraceRec) : ∃ H T, s.trace1 r = { s with hbm := H, trace := T } := by
  unfold State.trace1
  dsimp only
  split
  · obtain ⟨m, h⟩ := s.hbmWrite_eq (s.trace.base + 32 * (s.trace.head.toNat % (s.trace.size / 32))) (traceBytes s.now r)
    rw [h]; exact ⟨_, _, rfl⟩
  · exact ⟨_, _, rfl⟩

/-- A MEMBER trace record changes only HBM and the trace head. -/
theorem State.traceMember_eq (a b c d e f : Nat) : ∃ H T, s.traceMember a b c d e f = { s with hbm := H, trace := T } := by
  unfold State.traceMember
  exact State.when_ind (P := fun t => ∃ H T, t = { s with hbm := H, trace := T }) _ _ _ (s.trace1_eq _) ⟨_, _, rfl⟩

/-- A fault log entry: FLT takes the entry and its counters, and beside the notice nothing else changes. -/
theorem State.fltLog_eq (source result cls n : Nat) (cl : Option Nat) : ∃ N C O, s.fltLog source result cls n cl = { s with
    flt := { s.flt with
      log := tabPut s.flt.log (s.flt.head.toNat % 64) { time := s.now, source := source, result := result, cls := cls, unit := n, client := cl }
      head := s.flt.head + 1
      upsets := if result = 1 || result = 2 then s.flt.upsets + 1 else s.flt.upsets
      permanent := if result = 2 then s.flt.permanent + 1 else s.flt.permanent
      losses := if result = 3 then s.flt.losses + 1 else s.flt.losses
      latent := if result = 4 then s.flt.latent + 1 else s.flt.latent
      upsetNow := if result = 1 then s.flt.upsetNow + 1 else s.flt.upsetNow }
    ntc := N, clients := C, out := O } := by
  unfold State.fltLog
  dsimp only
  refine State.when_ind (P := fun t => ∃ N C O, t = { s with
    flt := { s.flt with
      log := tabPut s.flt.log (s.flt.head.toNat % 64) { time := s.now, source := source, result := result, cls := cls, unit := n, client := cl }
      head := s.flt.head + 1
      upsets := if result = 1 || result = 2 then s.flt.upsets + 1 else s.flt.upsets
      permanent := if result = 2 then s.flt.permanent + 1 else s.flt.permanent
      losses := if result = 3 then s.flt.losses + 1 else s.flt.losses
      latent := if result = 4 then s.flt.latent + 1 else s.flt.latent
      upsetNow := if result = 1 then s.flt.upsetNow + 1 else s.flt.upsetNow }
    ntc := N, clients := C, out := O }) _ _ _ ?_ ⟨_, _, _, rfl⟩
  obtain ⟨C, O, F, h⟩ := State.notice_eq (s.modFlt fun f => { f with
      log := tabPut f.log (f.head.toNat % 64) { time := s.now, source := source, result := result, cls := cls, unit := n, client := cl }
      head := f.head + 1
      upsets := if result = 1 || result = 2 then f.upsets + 1 else f.upsets
      permanent := if result = 2 then f.permanent + 1 else f.permanent
      losses := if result = 3 then f.losses + 1 else f.losses
      latent := if result = 4 then f.latent + 1 else f.latent
      upsetNow := if result = 1 then f.upsetNow + 1 else f.upsetNow }) 0x15 ((s.flt.head + 1).toNat % 2 ^ 16) 0 none
  exact ⟨_, _, _, h⟩

/-- A queue's watermark update changes only clients, the notice block and what has been sent. -/
theorem State.wmQueue_eq (n q : Nat) : ∃ N C O, s.wmQueue n q = { s with ntc := N, clients := C, out := O } := by
  unfold State.wmQueue
  dsimp only
  refine State.when_ind (P := fun t => ∃ N C O, t = { s with ntc := N, clients := C, out := O }) _ _ _ ?_ ⟨_, _, _, rfl⟩
  generalize (wmUpdate (if q = 0 then (s.client n).wmQ0 else (s.client n).wmQ1) ((s.client n).queue q).fill).1 = w
  obtain ⟨C, O, F, h⟩ := State.notice_eq (s.modClient n fun c => if q = 0 then { c with wmQ0 := w } else { c with wmQ1 := w }) 0x01 (2 * n + q) w.level (some n)
  exact ⟨_, _, _, h⟩

/-- The Lot Table watermark's update changes only itself, the notice block, clients and what has been sent. -/
theorem State.wmLtOcc_eq : ∃ W N C O, s.wmLtOcc = { s with wmLot := W, ntc := N, clients := C, out := O } := by
  unfold State.wmLtOcc
  dsimp only
  refine State.when_ind (P := fun t => ∃ W N C O, t = { s with wmLot := W, ntc := N, clients := C, out := O }) _ _ _ ?_ ⟨_, _, _, _, rfl⟩
  obtain ⟨C, O, F, h⟩ := State.notice_eq { s with wmLot := (wmUpdate s.wmLot s.ltOcc).1 } 0x03 0 (wmUpdate s.wmLot s.ltOcc).1.level none
  exact ⟨_, _, _, _, h⟩

/-- A Lot Table write puts the entry into both copies; beside the occupancy watermark nothing else changes (R229). -/
theorem State.setEntry_eq (i : Nat) (e : Entry) : ∃ W N C O, s.setEntry i e = { s with
    north := tabPut s.north i e, south := tabPut s.south i e, wmLot := W, ntc := N, clients := C, out := O } := by
  unfold State.setEntry
  dsimp only
  refine State.when_ind (P := fun t => ∃ W N C O, t = { s with
    north := tabPut s.north i e, south := tabPut s.south i e, wmLot := W, ntc := N, clients := C, out := O }) _ _ _ ?_ ⟨_, _, _, _, rfl⟩
  obtain ⟨W, N, C, O, h⟩ := State.wmLtOcc_eq { s with north := tabPut s.north i e, south := tabPut s.south i e }
  exact ⟨_, _, _, _, h⟩

/-- A ring write changes only HBM or what has been sent. -/
theorem State.ringWrite_eq (n loc a : Nat) (bs : List Byte) : ∃ H O, s.ringWrite n loc a bs = { s with hbm := H, out := O } := by
  unfold State.ringWrite
  split
  · exact ⟨_, _, rfl⟩
  · obtain ⟨m, h⟩ := s.hbmWrite_eq a bs
    rw [h]; exact ⟨_, _, rfl⟩

/-- A ring's message changes only clients and what has been sent. -/
theorem State.ringSignal_eq (n q : Nat) : ∃ C O, s.ringSignal n q = { s with clients := C, out := O } := by
  unfold State.ringSignal
  obtain ⟨C, O, h⟩ := (s.modQueue n q fun x => { x with pend := 0 }).msix_eq n q
  rw [h]; exact ⟨_, _, rfl⟩

theorem State.outSignal_eq (n : Nat) : ∃ C O, s.outSignal n = { s with clients := C, out := O } := by
  unfold State.outSignal
  obtain ⟨C, O, h⟩ := (s.modClient n fun c => { c with out := { c.out with pend := 0 } }).msix_eq n 2
  rw [h]; exact ⟨_, _, rfl⟩

/-- A completion record changes only clients, tiles, the notice block, HBM and what has been sent. -/
theorem State.recWrite_eq (n : Nat) (r : Rec) : ∃ C T N H O, s.recWrite n r = { s with clients := C, tiles := T, ntc := N, hbm := H, out := O } := by
  unfold State.recWrite
  extract_lets r' x s1 gone rest fail s2 s3 s4 y
  have e1 : ∃ H O, s1 = { s with hbm := H, out := O } := s.ringWrite_eq _ _ _ _
  obtain ⟨H1, O1, e1⟩ := e1
  have e2 : ∃ C, s2 = { s1 with clients := C } := ⟨_, rfl⟩
  obtain ⟨C2, e2⟩ := e2
  have e3 : ∃ N C O, s3 = { s2 with ntc := N, clients := C, out := O } := s2.wmQueue_eq _ _
  obtain ⟨N3, C3, O3, e3⟩ := e3
  obtain ⟨C4, T4, e4⟩ : ∃ C T, s4 = { s3 with clients := C, tiles := T } :=
    State.when_ind (P := fun t => ∃ C T, t = { s3 with clients := C, tiles := T }) s3 _ _ ⟨_, _, rfl⟩ ⟨_, _, rfl⟩
  refine State.when_ind (P := fun t => ∃ C T N H O, t = { s with clients := C, tiles := T, ntc := N, hbm := H, out := O }) _ _ _ ?_ ?_
  · obtain ⟨C, O, h⟩ := s4.ringSignal_eq n r.q
    rw [h, e4, e3, e2, e1]; exact ⟨_, _, _, _, _, rfl⟩
  · rw [e4, e3, e2, e1]; exact ⟨_, _, _, _, _, rfl⟩

/-- The same where the record may be held. -/
theorem State.putRec_eq (n : Nat) (r : Rec) : ∃ C T N H O, s.putRec n r = { s with clients := C, tiles := T, ntc := N, hbm := H, out := O } := by
  unfold State.putRec
  split
  · exact ⟨_, _, _, _, _, rfl⟩
  · exact s.recWrite_eq n r

/-- An outcome entry changes only clients, HBM and what has been sent. -/
theorem State.outWrite_eq (n : Nat) (e : OutE) : ∃ C H O, s.outWrite n e = { s with clients := C, hbm := H, out := O } := by
  unfold State.outWrite
  extract_lets o s1 s2 p
  obtain ⟨H1, O1, e1⟩ : ∃ H O, s1 = { s with hbm := H, out := O } := s.ringWrite_eq _ _ _ _
  obtain ⟨C2, e2⟩ : ∃ C, s2 = { s1 with clients := C } := ⟨_, rfl⟩
  refine State.when_ind (P := fun t => ∃ C H O, t = { s with clients := C, hbm := H, out := O }) _ _ _ ?_ ?_
  · obtain ⟨C, O, h⟩ := s2.outSignal_eq n
    rw [h, e2, e1]; exact ⟨_, _, _, rfl⟩
  · rw [e2, e1]; exact ⟨_, _, _, rfl⟩

/-- The same where the entry may be held, or the ring is disabled. -/
theorem State.putOut_eq (n : Nat) (e : OutE) : ∃ C H O, s.putOut n e = { s with clients := C, hbm := H, out := O } := by
  unfold State.putOut
  dsimp only
  split
  · exact ⟨_, _, _, rfl⟩
  · split
    · exact ⟨_, _, _, rfl⟩
    · exact s.outWrite_eq n e

/-! ### Transactions and units -/

/-- Sending a transaction changes only ports and the stack-wide work. -/
theorem State.sendFor_eq (uid : Nat) (t : Trans) : ∃ P K, s.sendFor uid t = { s with ports := P, stk := K } := by
  unfold State.sendFor
  split <;> exact ⟨_, _, rfl⟩

theorem State.send_eq (t : Trans) : ∃ P K, s.send t = { s with ports := P, stk := K } := s.sendFor_eq _ _

theorem State.request_eq (uid : Nat) (t : Trans) : ∃ P K, (s.request uid t).2 = { s with ports := P, stk := K } := by
  unfold State.request
  obtain ⟨P, K, h⟩ := State.sendFor_eq (s.modStk fun k => { k with
    nextTid := (s.stk.nextTid + 1) % 2 ^ 32, requests := k.requests ++ [(s.stk.nextTid, t.dst, uid, s.route t.dst)] }) uid
    { t with src := s.frm.waferId, tid := BitVec.ofNat 32 s.stk.nextTid }
  exact ⟨_, _, h⟩

theorem State.tell_eq (u : CUnit) (go : Bool) (l : List Nat) : ∃ P K, s.tell u go l = { s with ports := P, stk := K } := by
  unfold State.tell
  induction l generalizing s with
  | nil => exact ⟨_, _, rfl⟩
  | cons a r ih =>
    rw [State.each_cons]
    obtain ⟨P, K, h⟩ := s.request_eq u.id (lotSync 9 u.client a (s.commitData u go))
    obtain ⟨P', K', h'⟩ := ih (s.request u.id (lotSync 9 u.client a (s.commitData u go))).2
    rw [h', h]; exact ⟨_, _, rfl⟩

/-- Counting cycles of a tile changes only tiles and partitions (R292, R294). -/
theorem State.settle_eq (a : Nat) : ∃ T Q, s.settle a = { s with tiles := T, parts := Q } := by
  have count : ∀ (t : State) (a n st cls : Nat), ∃ T Q, t.countBusy a n st cls = { t with tiles := T, parts := Q } := by
    intro t a n st cls
    unfold State.countBusy
    dsimp only
    split <;> exact ⟨_, _, rfl⟩
  unfold State.settle
  dsimp only
  split
  · exact ⟨_, _, rfl⟩
  · unfold State.chargeTo
    split
    · exact ⟨_, _, rfl⟩
    · obtain ⟨T, Q, h⟩ := count _ _ _ _ _
      rw [h]; exact ⟨_, _, rfl⟩

/-- Discarding a unit's wet state changes only tiles, the busy cycles of partitions, and the fabric. -/
theorem State.discardOn_eq (uid : Nat) (l : List Nat) : ∃ T Q F, s.discardOn uid l = { s with tiles := T, parts := Q, fabric := F } := by
  have one : ∀ (t : State) (a : Nat), ∃ T Q,
      ((t.when ((t.tile a).run.any fun r => r.unit == uid) fun s => s.settle a).modTile a fun t => t.dropUnit uid) = { t with tiles := T, parts := Q } := by
    intro t a
    obtain ⟨T, Q, h⟩ : ∃ T Q, t.when ((t.tile a).run.any fun r => r.unit == uid) (fun s => s.settle a) = { t with tiles := T, parts := Q } :=
      State.when_ind (P := fun x => ∃ T Q, x = { t with tiles := T, parts := Q }) t _ _ (t.settle_eq a) ⟨_, _, rfl⟩
    rw [h]; exact ⟨_, _, rfl⟩
  have all : ∀ (l : List Nat) (t : State), ∃ T Q,
      (t.each l fun s a => (s.when ((s.tile a).run.any fun r => r.unit == uid) fun s => s.settle a).modTile a fun t => t.dropUnit uid) = { t with tiles := T, parts := Q } := by
    intro l
    induction l with
    | nil => intro t; exact ⟨_, _, rfl⟩
    | cons a r ih =>
      intro t
      obtain ⟨T, Q, h⟩ := one t a
      obtain ⟨T', Q', h'⟩ := ih { t with tiles := T, parts := Q }
      rw [State.each_cons, h, h']; exact ⟨_, _, rfl⟩
  unfold State.discardOn
  obtain ⟨T, Q, h⟩ := all l s
  dsimp only
  rw [h]; exact ⟨_, _, _, rfl⟩

/-- A unit that is not live is found under no number; one that is, has it. -/
theorem State.unit?_id (id : Nat) (u : CUnit) (h : s.unit? id = some u) : u.id = id ∧ u ∈ s.units := by
  unfold State.unit? at h
  exact ⟨by simpa using List.find?_some h, List.mem_of_find?_eq_some h⟩

/-- What a change of a unit that keeps its number leaves under that number. -/
theorem State.modUnit_unit? (id : Nat) (f : CUnit → CUnit) (hf : ∀ u, u.id = id → (f u).id = id) : (s.modUnit id f).unit? id = (s.unit? id).map f := by
  unfold State.modUnit State.unit?
  simp only
  induction s.units with
  | nil => rfl
  | cons a r ih =>
    simp only [List.map_cons, List.find?_cons]
    by_cases h : a.id = id
    · simp [h, hf a h]
    · have h' : (a.id == id) = false := by simpa using h
      simp only [h, h', if_false]
      exact ih

/-- A killed unit waits for its rerun, and the kill is counted in its partition by cause (R48 to R50). -/
theorem State.killUnit_killed (uid cause : Nat) (u : CUnit) (h : s.unit? uid = some u) (hp : u.phase = .running ∨ u.phase = .ready ∨ u.phase = .third) :
    ∃ v, (s.killUnit uid cause).unit? uid = some v ∧ v.phase = .killed ∧ v.flags = 0 ∧ v.ranges = []
      ∧ v.retries = (if cause = 2 then u.retries else u.retries + 1) ∧ v.kills = (if cause = 2 then u.kills + 1 else u.kills) := by
  unfold State.killUnit
  rw [h]
  have hn : ¬ ((u.phase == .committed || u.phase == .killed || u.phase == .placed) = true) := by rcases hp with e | e | e <;> simp [e]
  show ∃ v, State.unit? (ite _ _ _) uid = some v ∧ _
  rw [if_neg hn]
  obtain ⟨T, Q, F, e1⟩ := s.discardOn_eq uid u.allTiles
  extract_lets s1 s2 s3
  obtain ⟨P, K, e2⟩ : ∃ P K, s1 = { (s.discardOn uid u.allTiles).dropRequests uid with ports := P, stk := K } := State.tell_eq _ _ _ _
  have hu : s1.unit? uid = some u := by
    rw [e2]; show ((s.discardOn uid u.allTiles).dropRequests uid).unit? uid = _
    show (s.discardOn uid u.allTiles).unit? uid = _
    rw [e1]; exact h
  obtain ⟨H, T', e4⟩ := s3.trace1_eq { s3.unitTrace u 4 with detail := if cause = 0 then 1 else cause }
  rw [e4]
  have h3 : s3.unit? uid = s2.unit? uid := rfl
  show ∃ v, s3.unit? uid = some v ∧ _
  rw [h3]
  have h2 : s2.unit? uid = (s1.unit? uid).map _ := State.modUnit_unit? s1 uid _ (fun u hu => hu)
  rw [h2, hu]
  exact ⟨_, rfl, rfl, rfl, rfl, rfl, rfl⟩

end Sys2Proof.Machine
end

