-- ==== Sys2Proof/WellFormed.lean ====
section
/-! DEFINITION. When a command is well formed: every operand in the range the spec gives it. A command with an operand out of range has no meaning in the spec; the model lets it act on nothing or on a default (log 1). -/

namespace Sys2Proof

/-- A way that exists: a PF of one of the 4 ports, a VF, JTAG or the lead (R14, R382, R474). -/
def viaOk : Via → Bool
  | .pf p => decide (p < 4)
  | .vf n => decide (n < 128 ∧ n % 32 ≠ 0)
  | .jtag => true
  | .lead => true

/-- A watermark group that exists (R458). -/
def wmOk : WmId → Bool
  | .queue n q => decide (n < 128 ∧ q < 2)
  | .defer n => decide (n < 128)
  | .slowdown p => decide (p < 64)
  | .lotOcc => true
  | .power => true
  | .temp => true
  | .upset => true

/-- A transaction with a TYPE of R433, endpoint IDs of 8 bits and a client number (R433). -/
def transOk (t : Trans) : Bool := decide (1 ≤ t.typ ∧ t.typ ≤ 10 ∧ t.src < 256 ∧ t.dst < 256 ∧ t.client < 128 ∧ t.status < 256)

/-- What a HANDOFF command names. -/
def handoffSelOk : HandoffSel → Bool
  | .descriptor n q _ => decide (n < 128 ∧ q < 2)
  | .stage _ => true

/-- A place that MEMACC reaches (R474). -/
def memTargetOk : MemTarget → Bool
  | .vat a o => decide (a < 8192 ∧ o < 65536 * 48)
  | .acc a e => decide (a < 8192 ∧ e < 65536)
  | .palStore a b o => decide (a < 8192 ∧ b < 2 ∧ o < 8192)
  | .tblStore a b o => decide (a < 8192 ∧ b < 2 ∧ o < 16384)
  | .lotStore c i => decide (c < 2 ∧ i < 131072)
  | .hbm a => decide (a < Config.hbmBytes)
  | .reg a => decide (a % 4 = 0)

/-- An operation of FUSE (R474). -/
def fuseOk : FuseOp → Bool
  | .readLedger k => decide (k < 24)
  | .programLedger k _ => decide (k < 24)
  | .readCeiling => true
  | .programCeiling v => decide (v < 65536)
  | .readSerial => true

/-- Every operand of a command is in its range. -/
def Instr.wf : Instr → Bool
  | .longWordIssue tile => decide (tile < 8192)
  | .synDeferredIssue tile => decide (tile < 8192)
  | .barrierRelease _ => true
  | .slotComplete tile => decide (tile < 8192)
  | .tileReady tile => decide (tile < 8192)
  | .remoteReadRequest tile => decide (tile < 8192)
  | .remoteReadData tile => decide (tile < 8192)
  | .fabricAccWrite src dst => decide (src < 8192 ∧ dst < 8192)
  | .memberStart tile => decide (tile < 8192)
  | .spillCopyDone tile => decide (tile < 8192)
  | .spillDrainDone tile => decide (tile < 8192)
  | .commitInstant _ => true
  | .thirdRunStart _ => true
  | .thirdRunDone _ => true
  | .postCommitDrainDone _ => true
  | .coalesceTimer client ring => decide (client < 128 ∧ ring < 3)
  | .unitRerunStart _ => true
  | .currentMergeDone _ => true
  | .paletteBankSwap tile => decide (tile < 8192)
  | .tableBankSwap tile => decide (tile < 8192)
  | .descriptorFetch client q _ => decide (client < 128 ∧ q < 2)
  | .fetchRetry client q _ => decide (client < 128 ∧ q < 2)
  | .descriptorAccept client q => decide (client < 128 ∧ q < 2)
  | .depTimeout client q _ => decide (client < 128 ∧ q < 2)
  | .op client q _ => decide (client < 128 ∧ q < 2)
  | .move client q _ => decide (client < 128 ∧ q < 2)
  | .lot client q _ => decide (client < 128 ∧ q < 2)
  | .seqAdmit client q _ => decide (client < 128 ∧ q < 2)
  | .seqRetire client q _ => decide (client < 128 ∧ q < 2)
  | .seqKick client q _ => decide (client < 128 ∧ q < 2)
  | .seqSetDeadline client q _ => decide (client < 128 ∧ q < 2)
  | .seqSetPeriod client q _ => decide (client < 128 ∧ q < 2)
  | .seqSetCounts client q _ => decide (client < 128 ∧ q < 2)
  | .palette client q _ => decide (client < 128 ∧ q < 2)
  | .table client q _ => decide (client < 128 ∧ q < 2)
  | .fence client q _ => decide (client < 128 ∧ q < 2)
  | .mark client q _ => decide (client < 128 ∧ q < 2)
  | .record client q _ => decide (client < 128 ∧ q < 2)
  | .handoff sel => decide (handoffSelOk sel)
  | .cliDbQ client q _ => decide (client < 128 ∧ q < 2)
  | .cliDbC client q _ => decide (client < 128 ∧ q < 2)
  | .cliDbOut client _ => decide (client < 128)
  | .queueEnable client q _ => decide (client < 128 ∧ q < 2)
  | .queueDisable client q _ => decide (client < 128 ∧ q < 2)
  | .outcomeRingEnable client _ => decide (client < 128)
  | .resume client q => decide (client < 128 ∧ q < 2)
  | .flush client q => decide (client < 128 ∧ q < 2)
  | .buildEnd client => decide (client < 128)
  | .retiringFreed entry => decide (entry < 131072)
  | .ltScrubCompare entry _ _ => decide (entry < 131072)
  | .cliLtSel client _ => decide (client < 128)
  | .schedEvaluate part => decide (part < 64)
  | .stopComplete part => decide (part < 64)
  | .saveComplete part => decide (part < 64)
  | .restoreComplete part => decide (part < 64)
  | .rebuild part => decide (part < 64)
  | .rebuildBegin part _ => decide (part < 64)
  | .rebuildEnd part => decide (part < 64)
  | .prtStripsWrite part word _ => decide (part < 64 ∧ word < 16)
  | .contextCreate client _ => decide (client < 128)
  | .contextTeardown client _ => decide (client < 128)
  | .accClr via client _ => decide (viaOk via ∧ client < 128)
  | .counterLowHalfRead via r => decide (viaOk via ∧ (r.size = 4 ∨ r.size = 8))
  | .sdWindowEnd part _ => decide (part < 64)
  | .sdPublish part => decide (part < 64)
  | .rsClr client slot _ => decide (client < 128 ∧ slot < 1024)
  | .vatCorrectedError ptile => decide (ptile < 8704)
  | .correctedReadback cls unit _ => decide (cls < 4 ∧ unit < 8704)
  | .vatUncorrectable ptile window => decide (ptile < 8704 ∧ window < 48)
  | .laneParityError ptile => decide (ptile < 8704)
  | .residueError ptile => decide (ptile < 8704)
  | .storeCorrectedError ptile => decide (ptile < 8704)
  | .storeUncorrectable tile _ bank cleanCopy => decide (tile < 8192 ∧ bank < 2 ∧ (∀ a ∈ cleanCopy.toList, a < 8192))
  | .linkTimeout ptile _ => decide (ptile < 8704)
  | .hbmCorrectedError addr => decide (addr < Config.hbmBytes)
  | .hbmUncorrectable addr => decide (addr < Config.hbmBytes)
  | .hbmReissueResult addr _ => decide (addr < Config.hbmBytes)
  | .rimStoreCorrectedError copy entry => decide (copy < 2 ∧ entry < 131072)
  | .rimStoreUncorrectable copy entry _ => decide (copy < 2 ∧ entry < 131072)
  | .partitionBistDone part failed => decide (part < 64 ∧ (∀ x ∈ failed, x < 8704))
  | .syncTimeout tile => decide (tile < 8192)
  | .vatScrubCheck ptile window _ => decide (ptile < 8704 ∧ window < 48)
  | .retrim strip => decide (strip < 512)
  | .retrimForced strip => decide (strip < 512)
  | .retrimDone strip => decide (strip < 512)
  | .ledgerCommit via _ => decide (viaOk via)
  | .ledgerCommitDone _ => true
  | .probationRequest _ => true
  | .probationStep rcd _ => decide (rcd < 16)
  | .freqSetpointWrite dom code => decide (dom < 16 ∧ code ≤ 18)
  | .voltageRiseDone dom => decide (dom < 16)
  | .frequencyStepDone dom => decide (dom < 16)
  | .timeBeacon => true
  | .domainTargetWrite dom target => decide (dom < 16 ∧ target < 4)
  | .retainDelayExpiry dom => decide (dom < 16)
  | .domainWake dom => decide (dom < 16)
  | .domainTransitionDone dom => decide (dom < 16)
  | .domainPowerUpDone dom => decide (dom < 16)
  | .domainBistLiteDone dom failed => decide (dom < 16 ∧ (∀ x ∈ failed, x < 8704))
  | .powerWindowEnd _ temps => decide ((∀ x ∈ temps, x < 1024))
  | .thermalTrip sensor reading => decide (sensor < 68 ∧ reading < 1024)
  | .ceilingLower via _ => decide (viaOk via)
  | .ceilingProgrammed => true
  | .powerGood straps => decide (straps.waferId < 16)
  | .powerGoodLoss => true
  | .frameBootDone _ _ => true
  | .domainSwitchOn dom => decide (dom < 16)
  | .tileBistRoundDone round failed => decide (round < 4 ∧ (∀ x ∈ failed, x < 8704))
  | .ledgerMerge => true
  | .hbmTrainDone stacksDown failedPcs => decide ((∀ x ∈ stacksDown, x < 24) ∧ (∀ x ∈ failedPcs, x < 768))
  | .txTrainDone => true
  | .stackFormDone _ => true
  | .startupTimeout => true
  | .configRequest client _ => decide (client < 128)
  | .frmReset via _ => decide (viaOk via)
  | .warmReset => true
  | .perstHotReset port => decide (port < 4)
  | .hbmRetrain stack => decide (stack < 24)
  | .hbmRetrainDone stack failedPcs => decide (stack < 24 ∧ (∀ x ∈ failedPcs, x < 768))
  | .pcRetirementCopyDone pc _ => decide (pc < 768)
  | .hbmPatrolRead addr _ => decide (addr < Config.hbmBytes)
  | .vfFlr client => decide (client < 128)
  | .pfFlr port => decide (port < 4)
  | .vfEnableClear port numVfs => decide (port < 4 ∧ numVfs < 32)
  | .busMasterEnableChange client _ => decide (client < 128)
  | .powerStateChange client _ => decide (client < 128)
  | .pfBar2Access port _ _ => decide (port < 4)
  | .vfBar2Access client _ _ => decide (client < 128)
  | .poisonedWrite client bar _ => decide (client < 128 ∧ (bar = 0 ∨ bar = 2))
  | .registerWrite via _ size _ => decide (viaOk via ∧ (size = 1 ∨ size = 2 ∨ size = 4 ∨ size = 8))
  | .trainingDetectDone port signal => decide (port < 8 ∧ (∀ x ∈ signal, x < 68))
  | .trainingEqualizeDone port failed => decide (port < 8 ∧ (∀ x ∈ failed, x < 68))
  | .trainingFecLockDone port failed => decide (port < 8 ∧ (∀ x ∈ failed, x < 68))
  | .trainingLaneTestDone port failed => decide (port < 8 ∧ (∀ x ∈ failed, x < 68))
  | .trainingLaneMapDone port _ => decide (port < 8)
  | .trainingDeskewDone port => decide (port < 8)
  | .trainingTimeout port => decide (port < 8)
  | .initFlit port _ => decide (port < 8)
  | .initResend port => decide (port < 8)
  | .idleFlit port flit => decide (port < 8 ∧ ∀ x ∈ flit.fec, x.lane < 68)
  | .dataFlit port flit => decide (port < 8 ∧ ∀ x ∈ flit.fec, x.lane < 68)
  | .ctrlFlit port flit => decide (port < 8 ∧ ∀ x ∈ flit.fec, x.lane < 68)
  | .flitSend port => decide (port < 8)
  | .nakRepeat port => decide (port < 8)
  | .ackTimeout port => decide (port < 8)
  | .uncorrectableCodeword port lane => decide (port < 8 ∧ lane < 68)
  | .fecLockLoss port lane => decide (port < 8 ∧ lane < 68)
  | .recoveryTimeout port => decide (port < 8)
  | .txlReset port => decide (port < 8)
  | .txlRetrain port => decide (port < 8)
  | .txlEnable port _ => decide (port < 8)
  | .downPortRetry port => decide (port < 8)
  | .rd t => decide (transOk t)
  | .rdResponse t => decide (transOk t)
  | .wr t => decide (transOk t)
  | .wrResponse t => decide (transOk t)
  | .wrp t => decide (transOk t)
  | .descFwd t => decide (transOk t)
  | .descFwdResponse t => decide (transOk t)
  | .handoffTransaction t => decide (transOk t)
  | .handback t => decide (transOk t)
  | .handoffQueuedSend _ => true
  | .busyResend _ => true
  | .handoffTimeout _ => true
  | .routeTimeout _ => true
  | .admitReq t => decide (transOk t)
  | .admitReqResponse t => decide (transOk t)
  | .admitReqTimeout client q _ => decide (client < 128 ∧ q < 2)
  | .lotSyncRelease t => decide (transOk t)
  | .lotSyncCount t => decide (transOk t)
  | .countRebuildEnd => true
  | .lotSyncReady t => decide (transOk t)
  | .lotSyncBarrier t => decide (transOk t)
  | .barrierGo t => decide (transOk t)
  | .merge t => decide (transOk t)
  | .mergeResult t => decide (transOk t)
  | .lotSyncCommit t => decide (transOk t)
  | .lotSyncCommitResponse t => decide (transOk t)
  | .leadBeaconSend => true
  | .timeBeaconReceive t => decide (transOk t)
  | .timeSyncSend => true
  | .timeSyncRequest t => decide (transOk t)
  | .timeSyncReply t => decide (transOk t)
  | .notice t => decide (transOk t)
  | .id t => decide (transOk t)
  | .idResponse t => decide (transOk t)
  | .leadLossTimeout => true
  | .claimTimeout => true
  | .noticeForward => true
  | .wmCrossedClear wm => decide (wmOk wm)
  | .wmMarkWrite wm _ => decide (wmOk wm)
  | .deferWindowEnd client => decide (client < 128)
  | .upsetWindowEnd => true
  | .setEndpointId eid => decide (eid < 256)
  | .getTid => true
  | .getPldmVersion typ => decide (typ < 64)
  | .getPldmTypes => true
  | .getPldmCommands typ => decide (typ < 64)
  | .getPdrRepositoryInfo => true
  | .getPdr _ => true
  | .getSensorReading _ => true
  | .getStateSensorReadings _ => true
  | .unsupportedPldmCmd typ cmd => decide (typ < 64 ∧ cmd < 256)
  | .haltComplete client => decide (client < 128)
  | .halt client => decide (client < 128)
  | .release client => decide (client < 128)
  | .stepDesc client => decide (client < 128)
  | .stepLw client => decide (client < 128)
  | .stepComplete client => decide (client < 128)
  | .bypass _ => true
  | .idcode => true
  | .samplePreload _ => true
  | .extest => true
  | .scan _ _ => true
  | .memacc target _ => decide (memTargetOk target)
  | .fuse fop => decide (fuseOk fop)
  | .jtagReset => true
  | .capPauseEnd => true
  | .fetchCompletionTimeout client q => decide (client < 128 ∧ q < 2)
  | .pcieLinkUp port => decide (port < 4)
  | .pcieLinkDown port => decide (port < 4)
  | .laneRetireWaitExpiry port => decide (port < 8)
  | .msixVectorUnmask client vector => decide (client < 128 ∧ (∀ v ∈ vector.toList, v < 8))
  | .outcomeRingDisable client => decide (client < 128)
  | .traceEnable _ => true
  | .vfFlrDone client => decide (client < 128)

end Sys2Proof
end

