-- ==== Sys2Proof/Tests/Slice0.lean ====
section
/-! SUPPORT. Small tests: the well-formedness check refuses an ill-formed operand of each kind, and for each statement of Certificates/Slice0/Obligations.lean states and operands meet the hypotheses of each of its clauses together. Each is checked by evaluation in the kernel. -/

namespace Sys2Proof.Machine

open Sys2Proof Sys2Proof.Safety

-- One theorem after the other: each waits for the kernel, and a thread for each of them at once would exceed the memory.
set_option Elab.async false

/-! ### Well-formedness -/

/-- One ill-formed operand of each kind is refused: a client, a queue, a tile, a partition, a domain, a code, a port, a lane, a vector, a transaction's TYPE. -/
theorem test_wf_refuses : (Instr.halt 128).wf = false ∧ (Instr.resume 0 2).wf = false ∧ (Instr.longWordIssue 8192).wf = false ∧ (Instr.schedEvaluate 64).wf = false
    ∧ (Instr.domainWake 16).wf = false ∧ (Instr.freqSetpointWrite 0 19).wf = false ∧ (Instr.flitSend 8).wf = false ∧ (Instr.pfFlr 4).wf = false ∧ (Instr.fecLockLoss 0 68).wf = false
    ∧ (Instr.msixVectorUnmask 0 (some 8)).wf = false ∧ (Instr.rd {}).wf = false := by decide

/-- So is a way that does not exist, a watermark group, a place that MEMACC cannot reach, a ledger slot, a window, a stack, a pseudo-channel, a record, an entry, a strip, a physical tile, a ring, a range slot. -/
theorem test_wf_refuses_places : (Instr.accClr (.pf 4) 0 0).wf = false ∧ (Instr.accClr (.vf 32) 0 0).wf = false ∧ (Instr.wmCrossedClear (.slowdown 64)).wf = false
    ∧ (Instr.memacc (.vat 8192 0) (.read 1)).wf = false ∧ (Instr.fuse (.readLedger 24)).wf = false ∧ (Instr.vatUncorrectable 0 48).wf = false ∧ (Instr.hbmRetrain 24).wf = false
    ∧ (Instr.pcRetirementCopyDone 768 []).wf = false ∧ (Instr.probationStep 16 .equal).wf = false ∧ (Instr.retiringFreed 131072).wf = false ∧ (Instr.retrim 512).wf = false
    ∧ (Instr.residueError 8704).wf = false ∧ (Instr.coalesceTimer 0 3).wf = false ∧ (Instr.rsClr 0 1024 0).wf = false := by decide

/-- An operand at the end of its range is accepted. -/
theorem test_wf_accepts : (Instr.halt 127).wf = true ∧ (Instr.longWordIssue 8191).wf = true ∧ (Instr.fecLockLoss 7 67).wf = true ∧ (Instr.accClr (.vf 127) 127 1).wf = true
    ∧ (Instr.rd { typ := 1 }).wf = true := by decide

/-! ### States for the witnesses -/

def live : State := { State.reset with frm := { ({} : Machine.Frm) with state := .ready } }
def wm1 : Wm := { level := 5, mark := 3, peak := 9, count := 2, crossed := true }
/-- `live` with domain `d` as given. -/
def withDom (d : Nat) (x : Dom) : State := { live with pwr := { ({} : Pwr) with doms := [(d, x)] } }
/-- An ACTIVE domain. -/
def activeDom : Dom := { state := .active, code := 12 }
/-- `live` with the FRM given by `f`. -/
def withFrm (f : Machine.Frm → Machine.Frm) : State := { live with frm := f live.frm }
/-- A run of unit 1 that is neither stopped nor stalled. -/
def run1 : TileRun := { unit := 1 }
/-- An OP of client 127 in partition 63 that runs on tile 8191. -/
def op1 : CUnit := { id := 1, client := 127, q := 1, tag := 7, part := 63, kind := kOP, stages := [{ desc := 0, handles := [] }], tiles := [8191] }
/-- `live` with unit 1 and its run on tile 8191; partition 63 holds strip 511. -/
def opLive (r : TileRun) (u : CUnit) : State := { live with tiles := [(8191, { run := some r })], units := [u], parts := [(63, { strips := BitVec.twoPow 512 511, resident := some 127 })], nextUnit := 2 }
/-- The context of client 127, resident in partition 63. -/
def ctx127 : Client := { en := true, resident := true, bindPart := 63 }
/-- `live` with client `n` as given. -/
def withClient (n : Nat) (c : Client) : State := { live with clients := [(n, c)] }
/-- A function that may send: bus master, not masked. -/
def okFunc : Func := { bme := true, masked := [] }
/-- Every host link up. -/
def links : Tab Bool := [(0, true), (1, true), (2, true), (3, true)]
/-- A waiting OP descriptor with tag 7 and no operands. -/
def adW : ADesc := { idx := 0, ordinal := 1, desc := BitVec.ofNat 512 (7 + kOP * 2 ^ 32), accepted := 0, timer := 0, doorbell := 0 }
/-- A RUNNING queue of 64 slots with one descriptor to fetch. -/
def fetchQ : Queue := { state := .running, log2 := 6, clog2 := 6, pc := 1, doorbells := [(1, 0)] }
/-- `live` in which client 127 may reach the host, with queue 1 as given. -/
def withQ (q : Queue) : State := { withClient 127 { ctx127 with func := okFunc, q1 := q } with linkUp := links, parts := [(63, { strips := BitVec.twoPow 512 511, resident := some 127 })] }
/-- A FENCE with tag 7. -/
def fenceDesc : BitVec 512 := BitVec.ofNat 512 (7 + kFENCE * 2 ^ 32)
/-- Follower 2 of a stack of wafers 0, 1 and 2, with a link to each of the others. -/
def follower : State := { live with
  frm := { live.frm with waferId := 2, role := 2, leadId := 0, members := 7, stack := { members := [0, 1, 2], routes := [{ dst := 0, primary := 0, alternate := none }, { dst := 1, primary := 1, alternate := none }] } }
  ports := [(0, { state := .active, farEp := some 0 }), (1, { state := .active, farEp := some 1 })] }
/-- A valid boot image with an empty body. -/
def okImage : BootImage := { magic := 0x4C53594E, version := 1, length := 0, crc := BitVec.ofNat 32 (crc32 []), body := [], cfg := {}, subsystem := 0 }
/-- State.reset in a start-up state. -/
def inState (x : Startup) : State := { State.reset with frm := { State.reset.frm with state := x } }
/-- `live` with Tranyx port 7 as given. -/
def withPort (p : Port) : State := { live with ports := [(7, p)] }
/-- An INIT flit of endpoint 1 that has seen this port's INIT. -/
def initV : Flit := { kind := 3, payload := leBytes 0 1 ++ leBytes 1 1 ++ leBytes 0 1 ++ leBytes 2 1 ++ rxBuffers.flatMap (fun n => leBytes n 2) ++ leBytes 0 2 ++ List.replicate 226 0 }
/-- An INIT flit of endpoint 1 that has not. -/
def initU : Flit := { initV with payload := leBytes 0 1 ++ leBytes 1 1 ++ leBytes 0 1 ++ leBytes 0 1 ++ rxBuffers.flatMap (fun n => leBytes n 2) ++ leBytes 0 2 ++ List.replicate 226 0 }
/-- An IDLE flit. -/
def idleF : Flit := { kind := 0, ackSeq := 4095, payload := List.replicate 240 0 }
/-- A DATA flit that begins a transaction on VC 3. -/
def dataF : Flit := { kind := 1, seq := 5, vc := 3, ackSeq := 4095, len := 2, sot := true, payload := [1, 2] }
/-- LANE_STATUS: lane 67 has failed. -/
def laneF : Flit := { kind := 2, seq := 5, ackSeq := 4095, len := 2, payload := [0x10, 67] }
/-- A flit held in the retry buffer. -/
def held1 : Held := { seq := 5, vc := 0, kind := 1, len := 1, sot := true, eot := true, payload := [9], sentAt := 0 }
/-- Wafer 0, the lead of wafers 0 and 1, linked to wafer 1 by port 7; `m` has arrived, client 127 is as given and requests wait as given. -/
def net (m : Trans) (c : Client := {}) (r : List (Nat × Nat × Nat × Option Nat) := []) : State := { live with
  frm := { live.frm with role := 1, members := 3, stack := { members := [0, 1], routes := [{ dst := 1, primary := 7, alternate := none }] } }
  ports := [(7, { state := .active, farEp := some 1 })], inbox := [m], clients := [(127, c)], stk := { requests := r, nextTid := 10 } }
/-- `net` with unit 1 and its run on tile 8191. -/
def netOp (m : Trans) (r : TileRun) (u : CUnit) (q : List (Nat × Nat × Nat × Option Nat) := []) : State :=
  let s := net m {} q
  { s with tiles := [(8191, { run := some r })], units := [u], parts := [(63, { strips := BitVec.twoPow 512 511, resident := some 127 })], nextUnit := 2 }
/-- A client whose areas are the first 4,096 bytes of HBM. -/
def hbmClient : Client := { areas := { hi := 4096 } }
/-- A request of wafer 1 to HBM byte 4,032 of client 127. -/
def toHbm (typ : Nat) : Trans := { typ := typ, src := 1, tid := 9, addr := gaOf 0 1 4032, len := 64, client := 127, data := if typ = 1 then [] else List.replicate 64 5 }
/-- A request of wafer 1 to the last bytes of window 46 of tile 8191. -/
def toVat (typ : Nat) : Trans := { typ := typ, src := 1, tid := 9, addr := gaOf 0 0 (8191 * 2 ^ 22 + 65536 * 47 - 64), len := 64, client := 127, data := if typ = 1 then [] else List.replicate 64 5 }
/-- `net` with window 46 of tile 8191 DRY and owned by client 127. -/
def netVat (m : Trans) : State := { net m with tiles := [(8191, { windows := [(46, { state := .dry, owner := .record 127 (recKey 1 0) 0 })] })] }
/-- A request that is refused: no SPACE 3. -/
def toNone (typ : Nat) : Trans := { typ := typ, src := 1, tid := 9, addr := gaOf 0 3 0, len := 64, client := 127 }
/-- A response to request 9 of client 127. -/
def resp (typ status : Nat) : Trans := { typ := typ, src := 1, resp := true, tid := 9, client := 127, status := status }
/-- DESC_FWD of a FENCE image for partition 5 of wafer 1; `x` is its last word. -/
def fwd (x : Nat) : Trans := { typ := 4, src := 1, tid := 9, client := 127, len := 96, data := leBytes fenceDesc.toNat 64 ++ leBytes 0 8 ++ leBytes 5 4 ++ leBytes x 4 ++ List.replicate 16 0 }
/-- Partition 63 is lent to partition 5 of wafer 1, and has one working tile. -/
def lent (m : Trans) : State :=
  let s := net m
  { s with parts := [(63, { strips := BitVec.twoPow 512 511, homeEn := true, homeWafer := 1, homePart := 5 })]
           frm := { s.frm with colmaps := [(511, { cols := 0 :: List.replicate 15 0x1F })] } }
/-- A LOT_SYNC of wafer 1 about tag 7 of client 127. -/
def sync (sub : Nat) (data : List Byte) : Trans := { typ := 7, src := 1, tid := 9, arg := BitVec.ofNat 64 sub, client := 127, len := 4 + data.length, data := leBytes 7 4 ++ data }
/-- `op1` to which wafer 1 contributes. -/
def op1Home : CUnit := { op1 with others := [1], waitReady := [1] }
/-- `op1` forwarded by wafer 1. -/
def op1Away : CUnit := { op1 with home := some (1, 4) }
/-- A fabric result of wafer 1 for `op1Home`, stream base 3, row 4, word 5. -/
def fabIn : Trans := { typ := 3, src := 1, tid := 9, addr := gaOf 0 0 fabricAddr, client := 127, data := leBytes 7 4 ++ leBytes 1 4 ++ leBytes 0 8 ++ leBytes 3 8 ++ leBytes 4 8 ++ leBytes 2 4 ++ leBytes 5 4, len := 40 }
/-- An ADMIT of sequence 5 under tag 7, with a period of 1 s. -/
def admitDesc1 : BitVec 512 := BitVec.ofNat 512 (7 + kSEQ * 2 ^ 32 + (1 + 5 * 2 ^ 8 + 1000000 * 2 ^ 32) * 2 ^ 384)
/-- The ADMIT, accepted and started. -/
def adAdmit : ADesc := { adW with desc := admitDesc1, state := .started 0 }
/-- A client whose ADMIT waits for the lead. -/
def admitClient : Client := { ctx127 with winSeq := 1, quota := 4, areas := { hi := 2 ^ 20, spillSize := 65536 }, q1 := { fetchQ with accepted := [adAdmit], cbaseLoc := 1 }, admits := [{ q := 1, tag := 7, since := 0, tid := 9 }] }
/-- A beacon of lead 0 to wafer 2. -/
def beacon : Trans := { typ := 8, src := 0, dst := 2, len := 16, arg := 500, data := leBytes 7 2 ++ List.replicate 14 0 }
/-- An identity block of wafer 1 with flags `x`: bit 0 CLAIM, bit 1 lead. -/
def ident (x : Nat) : List Byte := leBytes 1 2 ++ leBytes 0 1 ++ leBytes 1 1 ++ leBytes 77 4 ++ leBytes x 4 ++ leBytes 0xFF 4 ++ leBytes 5 2 ++ List.replicate 46 0
/-- A HANDOFF to wafer 1 with tag 7 and no operands. -/
def handDesc : BitVec 512 := BitVec.ofNat 512 (7 + kHANDOFF * 2 ^ 32 + 1 * 2 ^ 384)
/-- It waits in queue 1. -/
def adHand : ADesc := { adW with desc := handDesc }
/-- `withQ`, linked to wafer 1 by port 7. -/
def netQ (q : Queue) : State := { withQ q with
  frm := { live.frm with role := 1, members := 3, stack := { members := [0, 1], routes := [{ dst := 1, primary := 7, alternate := none }] } }
  ports := [(7, { state := .active, farEp := some 1 })] }
/-- A HANDOFF in progress to wafer 1. -/
def hand1 : HandoffRun := { partner := 1, tid := 9, firstSend := 1, outstanding := true }
/-- The commit unit of the HANDOFF. -/
def uHand (h : HandoffRun) : CUnit := { op1 with kind := kHANDOFF, stages := [{ desc := handDesc, handles := [none, none, none, none] }], tiles := [], handoff := some h, ordinal := 1 }
/-- `netQ` with the HANDOFF's unit, its descriptor in the queue, and `m` arrived. -/
def handNet (u : CUnit) (m : List Trans) : State :=
  let s := netQ { fetchQ with accepted := [{ adHand with state := .started 1 }], cbaseLoc := 1 }
  { s with units := [u], nextUnit := 2, inbox := m, stk := { requests := [(9, 1, 1, some 7)], nextTid := 10 } }
/-- A HANDOFF transaction of wafer 1 for stage slot 63. -/
def handIn : Trans := { typ := 5, src := 1, tid := 9, addr := 63, data := List.replicate 192 0 }
/-- A stage slot with a template OP that takes no operands. -/
def slot63 : StageSlot := { client := 127, en := true, template := BitVec.ofNat 512 (kOP * 2 ^ 32) }
/-- A chain whose first stage is the HANDOFF, on tile 8191. -/
def uLotHand : CUnit := { uHand hand1 with kind := kLOT, tiles := [8191], handoff := none }
/-- A dense FP32 record handle of 4 bytes. -/
def hnd1 : Handle := { index := 1, readonly := false, cls := 0, dist := 0, fmt := 1, rank := 1, dims := [1], strides := [4], base := 0, rslot := 0, scale := 0, bound := false, margin := 0, amax := 0 }
/-- The HANDOFF's unit with operand A. -/
def uFmt : CUnit := { uHand { hand1 with outstanding := false } with stages := [{ desc := handDesc, handles := [some hnd1, none, none, none] }] }

/-- The partition of strip 511. -/
def part63 : Part := { strips := BitVec.twoPow 512 511, laidOut := [8176] }
/-- A READY sequence of client `n`. -/
def ready (n dl : Nat) : Entry := { client := n, state := .ready, deadline := dl }
/-- Partition 63 with client `r` resident; clients 126 and 127 are bound to it; 127 has a READY sequence with deadline `e`, 126 those of `l`. -/
def schedS (now : Nat) (r : Option Nat) (e : Nat) (l : Tab Entry) : State := { live with
  now := now, parts := [(63, { part63 with resident := r })], clients := [(126, { ctx127 with resident := r == some 126 }), (127, { ctx127 with resident := false })]
  north := (5, ready 127 e) :: l }
/-- A switch of partition 63 from client 127 to client 126, at phase `x`. -/
def switchS (now : Nat) (x : SwPhase) : State := { live with
  now := now, parts := [(63, { part63 with resident := some 127, switch := some { out := some 127, incoming := some 126, phase := x, since := 0, idle := false } })]
  clients := [(126, { ctx127 with resident := false }), (127, ctx127)] }
/-- A context whose areas pass every check. -/
def areasOk : Areas := { lo := 0, hi := 0x10000, recs := 0x400000, park := 0x800000, parkSize := 0x10000, spill := 0x810000, spillSize := 0x10000 }
/-- `withQ` with descriptor `d` waiting, and client 127 changed by `f`. -/
def rimS (d : BitVec 512) (f : Client → Client) : State :=
  let s := withQ {}
  { s with clients := [(127, f { ctx127 with func := okFunc, q1 := { fetchQ with accepted := [{ adW with desc := d }] } })] }
/-- A MARK with VALUE 5. -/
def markDesc : BitVec 512 := BitVec.ofNat 512 (7 + kMARK * 2 ^ 32 + 5 * 2 ^ 384)
/-- A RECORD of the one image at byte 0x40, for record 7. -/
def recDesc : BitVec 512 := BitVec.ofNat 512 (7 + kRECORD * 2 ^ 32 + 1 * 2 ^ 48 + 0x40 * 2 ^ 64 + 7 * 2 ^ 128)
/-- A record image at `a`: HBM_LOCAL, FP32, `dim` elements, at byte 256 × `base`. -/
def recAt (a base dim : Nat) : Bytes := [(a, 1), (a + 1, 0x11), (a + 9, BitVec.ofNat 8 base), (a + 16, BitVec.ofNat 8 dim)]
/-- The RECORD waits; the record it replaces has generation 9. -/
def recS : State := { rimS recDesc fun c => { c with areas := areasOk } with hbm := recAt 0x40 2 4 ++ [(0x400000 + 64 * 7 + 2, 9)] }
/-- A SEQ of sequence 5. -/
def seqDesc (sub arg dl : Nat) : BitVec 512 := BitVec.ofNat 512 (7 + kSEQ * 2 ^ 32 + (sub + 5 * 2 ^ 8 + arg * 2 ^ 32) * 2 ^ 384 + dl * 2 ^ 448)
/-- The SEQ waits; sequence 5 of client 127 is in state `x`. -/
def seqS (d : BitVec 512) (x : LState) : State := { rimS d id with north := [(5, { client := 127, state := x })] }
/-- The ADMIT waits. -/
def admitS (f : Client → Client) : State := rimS admitDesc1 fun c => f { c with winSeq := 1, quota := 4, areas := { hi := 2 ^ 20, spillSize := 65536 } }
/-- An ADMIT of sequence 5 of wafer 2. -/
def admitDesc2 : BitVec 512 := BitVec.ofNat 512 (7 + kSEQ * 2 ^ 32 + (1 + (5 + 2 * 2 ^ 17) * 2 ^ 8 + 1000000 * 2 ^ 32) * 2 ^ 384)
/-- Descriptor of kind `k` with operands A and D, records 7 and 8, and PARAM `p`. -/
def adDesc (k p : Nat) : BitVec 512 := BitVec.ofNat 512 (7 + k * 2 ^ 32 + 7 * 2 ^ 128 + 8 * 2 ^ 224 + p * 2 ^ 384)
/-- HBM with records 7 and 8. -/
def hbm78 : Bytes := recAt (0x400000 + 64 * 7) 2 4 ++ recAt (0x400000 + 64 * 8) 3 4
/-- `s` with records 7 and 8 of client 127, whose areas pass every check, and its tiles clocked. -/
def withRecs (s : State) : State := { s with
  hbm := hbm78, clients := s.clients.map fun x => (x.1, { x.2 with areas := areasOk }), pwr := { ({} : Pwr) with doms := [(15, activeDom)] } }
/-- A HANDOFF that waits, with operands A and D. -/
def handAD : State := withRecs (netQ { fetchQ with accepted := [{ adW with desc := adDesc kHANDOFF 1 }] })
/-- A stage slot whose template OP runs one long word. -/
def slotOk : StageSlot := { slot63 with template := BitVec.ofNat 512 (kOP * 2 ^ 32 + 2 ^ 48) }
/-- Descriptor of kind `k` with operand A, record 7, B, record 8 where `b`, one long word and PARAM `p`. -/
def abDesc (k : Nat) (b : Bool) (p : Nat) : BitVec 512 := BitVec.ofNat 512 (7 + k * 2 ^ 32 + 2 ^ 48 + 7 * 2 ^ 128 + (if b then 8 * 2 ^ 160 else 0) + p * 2 ^ 384)
/-- An OP of one long word. -/
def opDesc : BitVec 512 := BitVec.ofNat 512 (7 + kOP * 2 ^ 32 + 2 ^ 48)
/-- Descriptor `d` waits; records 7 and 8 are valid, its tiles clocked. -/
def recQ (d : BitVec 512) : State := withRecs (withQ { fetchQ with accepted := [{ adW with desc := d }] })
/-- `recQ` where record 7 is an I8 tensor of `n` elements of class `cls` at `base`. -/
def imgQ (d : BitVec 512) (cls n base : Nat) : State :=
  { recQ d with hbm := memPutAll [] ((leBytes (cls + 0x1600 + base * 2 ^ 64 + n * 2 ^ 128) 64).zipIdx.map fun x => (0x400000 + 64 * 7 + x.2, x.1)) }
/-- Handle `i` of client 127 in `s`. -/
def hndOf (s : State) (i : Nat) : Handle := s.handleOf 127 i false (s.trec 127 i)
/-- A LOT of one long word. -/
def lotDesc : BitVec 512 := BitVec.ofNat 512 (7 + kLOT * 2 ^ 32 + 2 ^ 48)
/-- Its run, and its build with the given placements. -/
def lotRun : LotRun := { q := 1, tag := 7, ordinal := 1, start := 0, stages := [{ desc := lotDesc, handles := [none, none, none, none] }] }
def build1 (l : List (Nat × Nat × Nat)) : Build := { tb := 0, q := 1, tag := 7, ordinal := 1, placed := l }
/-- The LOT is being built. -/
def lotS (l : List (Nat × Nat × Nat)) : State := { rimS lotDesc fun c => { c with
    build := some (build1 l), lots := [{ lotRun with building := true }], q1 := { c.q1 with accepted := [{ adW with desc := lotDesc, state := .started 0 }] } } with
  north := [(5, ready 127 1000000)] }
/-- A table of the one long word with slot word `w`, which MASK selects. -/
def lwBank (mask w : Nat) : Bytes := memPutAll [] ((leBytes (mask + w * 2 ^ 16) 6).zipIdx.map fun x => (x.2, x.1))
/-- `op1` with handles. -/
def uRun (h : List (Option Handle)) : CUnit := { op1 with stages := [{ desc := opDesc, handles := h }] }
/-- Unit `u` on tile 8191, which is in cycle 1000, with run `r` and table `bank`. -/
def issueS (r : TileRun) (u : CUnit) (bank : Bytes) : State := { opLive r u with
  tiles := [(8191, { run := some r, tbl := { bank0 := bank }, windows := [(45, { state := .wet, owner := .record 127 (recKey 1 0) 0, unit := 1 }), (46, { state := .dry, owner := .record 127 (recKey 2 0) 0 })] })]
  pwr := { ({} : Pwr) with doms := [(15, { activeDom with ticks := 20000 })] } }
/-- `hnd1` as record 2, and in HBM at byte 512. -/
def hnd2 : Handle := { hnd1 with index := 2, readonly := true }
def hndH : Handle := { hnd1 with cls := 1, base := 512, readonly := true }
/-- A run with result `w` in flight, due in cycle `t`. -/
def flies (w : Write) (t : Nat) : TileRun := { run1 with inflight := [{ due := t, slot := .ari, w := w }] }
/-- A run that has ended its table. -/
def ended1 : TileRun := { run1 with ended := true }
/-- A run that waits at barrier 3. -/
def atBarrier : TileRun := { run1 with stall := some (.barrier 3 0 0) }
/-- A run that waits to issue a SYN A2V of register 31. -/
def a2v : TileRun := { run1 with stall := some (.syn 0x1F1 0 0 0) }
/-- A run that waits for `n` bytes from `x`. -/
def reads (x : ReadFrom) (n : Nat) : TileRun := { run1 with stall := some (.remote x n none 0) }
/-- `uRun` on tile 8176. -/
def uRead : CUnit := { uRun [] with tiles := [8176] }
/-- `uRead` reads with run `r`; record 2 is a VAT tensor whose window lies on tile 8191, in state `x`. -/
def vatS (r : TileRun) (x : WinState) : State := { opLive r uRead with
  hbm := [(129, 0x11), (144, 1)], clients := [(127, ctx127)], tiles := [(8176, { run := some r }), (8191, { windows := [(46, { state := x, owner := .record 127 (recKey 2 0) 0 })] })] }
/-- A stream of one row, and the result of the row on its way to it. -/
def stream1 : Machine.Stream := { acc := 64, op := 0, hnd := 0, fmt := 1, chain := false, k := 1, rows := 1, b := 0, count := 1, r0 := 0, g64 := false }
def msg1 : FabricMsg := { src := 8190, dst := 8191, unit := 1, acc := 64, row := 0, body := .result 9 }
/-- A placed member of sequence 5 on tile 8191. -/
def uMem : CUnit := { op1 with kind := kLOT, phase := .placed, member := some { entry := 5, deadline := 9, step := 0 }, stages := lotRun.stages }
/-- The member waits on tile 8191, whose windows are `w` and whose trap is in phase `x`; sequence 6 has windows as well. -/
def memS (w : Tab Window) (x : SpillPhase) (f : Option (Nat × Nat)) : State := { opLive run1 uMem with
  tiles := [(8191, { queue := [1], windows := w, spill := x, trapFor := f })], clients := [(127, { ctx127 with winSeq := 1 })]
  north := [(5, { client := 127, state := .running }), (6, ready 127 9)], pwr := { ({} : Pwr) with doms := [(15, { activeDom with ticks := 20000 })] } }
/-- 46 DRY windows of records; the last is owned as given. -/
def full (o : Owner) : Tab Window := ((upTo 46).map fun i => (i, { state := .dry, owner := .record 127 1 i })) ++ [(46, { state := .dry, owner := o })]
/-- A run that is ready, on side `d` with flags `f`. -/
def readyRun (d : Side) (f : BitVec 8) : TileRun := { run1 with ended := true, ready := true, side := d, flags := f }
/-- `uRun` in phase `x`. -/
def uPh (x : Phase) : CUnit := { uRun [] with phase := x, ordinal := 1 }
/-- The member runs, ready, on tile 8191. -/
def memReady : State := { memS [(0, { state := .wet, owner := .seq 127 5 0, unit := 1 })] .idle none with
  units := [{ uMem with phase := .ready }], tiles := [(8191, { run := some (readyRun .main 0), windows := [(0, { state := .wet, owner := .seq 127 5 0, unit := 1 })] })] }
/-- The unit has committed and drains. -/
def drainS (u : CUnit) : State := { rimS opDesc fun c => { c with q1 := { c.q1 with accepted := [{ adW with desc := opDesc, state := .started 1 }], tags := [{ tag := 7, accepted := 0, ordinal := 1 }] } } with units := [u], nextUnit := 2 }
/-- A paired unit on tiles 8191 and 8190. -/
def uPair (x : Phase) : CUnit := { uPh x with pairTiles := [8190] }
/-- Its sides are ready, with different flags; the arbiter is partition 62 where `e`. -/
def pairS (u : CUnit) (e : Bool) : State := { opLive run1 u with
  tiles := [(8189, { run := if u.thirdTiles = [] then none else some (readyRun .third 2) }), (8190, { run := some (readyRun .pair 1) }), (8191, { run := some (readyRun .main 0) })]
  flt := { live.flt with arbEn := e, arbPart := 62, thirds := if u.phase = .third then [1] else [] }
  parts := [(62, { strips := BitVec.twoPow 512 510 }), (63, { part63 with resident := some 127 })] }
/-- Its third run is ready on tile 8189. -/
def uThird (d : Option W64) : CUnit := { uPair .third with thirdTiles := [8189], digest := d, pairDigest := some 1 }
/-- A paired unit waits for its third run. -/
def pairWaits : State := { pairS (uPair .third) true with
  tiles := [(8190, { run := some (readyRun .pair 1) }), (8191, { run := some (readyRun .main 0) })]
  pwr := { ({} : Pwr) with doms := [(15, activeDom)] } }
/-- A killed OP. -/
def killedS : State := { withRecs (withQ {}) with units := [{ uPh .killed with stages := [{ desc := opDesc, handles := [] }] }], nextUnit := 2 }
/-- Tile 8191 with an eligible bank in each of its stores. -/
def bankS (r : Option TileRun) : State := { live with tiles := [(8191, { run := r, pal := { pending := true, since := 5 }, tbl := { pending := true, since := 5 } })] }

/-! ### A valid ledger slot -/

/-- The CRC register after zero bytes. -/
theorem crc_zeros_add (c n m : Nat) : (leBytes 0 (n + m)).foldl crcByte c = (leBytes 0 m).foldl crcByte ((leBytes 0 n).foldl crcByte c) := by
  induction n generalizing c with
  | zero => simp [leBytes]
  | succ n ih => rw [Nat.succ_add]; simpa [leBytes] using ih (crcByte c 0)

/-- The low bytes of a multiple of a higher power are zero. -/
theorem leBytes_mul_pow (w n k : Nat) : leBytes (w * 256 ^ (n + k)) n = leBytes 0 n := by
  induction n with
  | zero => rfl
  | succ n ih =>
    have e : w * 256 ^ (n + 1 + k) = w * 256 ^ (n + k) * 256 := by rw [show n + 1 + k = (n + k) + 1 by omega, Nat.pow_succ, Nat.mul_assoc]
    simp only [leBytes, e, Nat.mul_div_cancel _ (by decide : 0 < 256), ih, Nat.zero_div]
    congr 1
    apply BitVec.eq_of_toNat_eq
    simp [BitVec.toNat_ofNat]

/-- A ledger slot with no units in its map: its marker and its CRC. -/
def okSlot : SlotBits := BitVec.ofNat 10240 (0xA5 * 2 ^ 16 + 0x13CF708C * 2 ^ 10144)

theorem crc_zeros_100 : (leBytes 0 100).foldl crcByte 0xffffffff = 0x66773935 := by decide +kernel
theorem crc_zeros_200 : (leBytes 0 100).foldl crcByte 0x66773935 = 0x368e5789 := by decide +kernel
theorem crc_zeros_300 : (leBytes 0 100).foldl crcByte 0x368e5789 = 0x4acb702d := by decide +kernel
theorem crc_zeros_400 : (leBytes 0 100).foldl crcByte 0x4acb702d = 0xb9ddf2f3 := by decide +kernel
theorem crc_zeros_500 : (leBytes 0 100).foldl crcByte 0xb9ddf2f3 = 0xfd7c4685 := by decide +kernel
theorem crc_zeros_600 : (leBytes 0 100).foldl crcByte 0xfd7c4685 = 0x88125ddc := by decide +kernel
theorem crc_zeros_700 : (leBytes 0 100).foldl crcByte 0x88125ddc = 0xb551879a := by decide +kernel
theorem crc_zeros_800 : (leBytes 0 100).foldl crcByte 0xb551879a = 0x97705d1c := by decide +kernel
theorem crc_zeros_900 : (leBytes 0 100).foldl crcByte 0x97705d1c = 0x2a484313 := by decide +kernel
theorem crc_zeros_1000 : (leBytes 0 100).foldl crcByte 0x2a484313 = 0xf9f4e87f := by decide +kernel
theorem crc_zeros_1100 : (leBytes 0 100).foldl crcByte 0xf9f4e87f = 0x54885fd4 := by decide +kernel
theorem crc_zeros_1200 : (leBytes 0 100).foldl crcByte 0x54885fd4 = 0xf3b1b596 := by decide +kernel
theorem crc_zeros_1268 : (leBytes 0 68).foldl crcByte 0xf3b1b596 = 0xec308f73 := by decide +kernel

/-- The CRC of its bytes is the one it holds. -/
theorem okSlot_valid : slotValid okSlot = true := by
  have e : setBits okSlot.toNat 23 16 0 = 0x13CF708C * 256 ^ (1268 + 0) := by decide +kernel
  have z : (leBytes 0 1268).foldl crcByte 0xFFFFFFFF = 0xec308f73 := by
    rw [show 1268 = 100 + 1168 from rfl, crc_zeros_add, crc_zeros_100,
      show 1168 = 100 + 1068 from rfl, crc_zeros_add, crc_zeros_200,
      show 1068 = 100 + 968 from rfl, crc_zeros_add, crc_zeros_300,
      show 968 = 100 + 868 from rfl, crc_zeros_add, crc_zeros_400,
      show 868 = 100 + 768 from rfl, crc_zeros_add, crc_zeros_500,
      show 768 = 100 + 668 from rfl, crc_zeros_add, crc_zeros_600,
      show 668 = 100 + 568 from rfl, crc_zeros_add, crc_zeros_700,
      show 568 = 100 + 468 from rfl, crc_zeros_add, crc_zeros_800,
      show 468 = 100 + 368 from rfl, crc_zeros_add, crc_zeros_900,
      show 368 = 100 + 268 from rfl, crc_zeros_add, crc_zeros_1000,
      show 268 = 100 + 168 from rfl, crc_zeros_add, crc_zeros_1100,
      show 168 = 100 + 68 from rfl, crc_zeros_add, crc_zeros_1200,
      crc_zeros_1268]
  have c : crc32 (leBytes (setBits okSlot.toNat 23 16 0) 1268) = 0x13CF708C := by
    rw [e, leBytes_mul_pow, crc32, z]; decide +kernel
  have h : (bits okSlot.toNat 23 16 == 0xA5 && 0x13CF708C == bits okSlot.toNat 10175 10144) = true := by decide +kernel
  rw [slotValid, c]; exact h

/-- It is the newest slot of a ledger that holds no other. -/
theorem okSlot_newest (f : Machine.Frm) (h : f.ledger = [(0, okSlot)]) : f.newest = some 0 := by
  have h0 : f.slot 0 = okSlot := by simp [Frm.slot, h, tabGet]
  have hk : ∀ k, k ∈ (upTo 24).tail → slotValid (f.slot k) = false := by
    intro k hk
    have : f.slot k = 0 := by
      have : k ≠ 0 := by intro e; subst e; revert hk; decide
      simp [Frm.slot, h, tabGet, this]
    rw [this]; decide +kernel
  have e : (upTo 24).reverse = (upTo 24).tail.reverse ++ [0] := by decide
  rw [Frm.newest, e, List.find?_append, List.find?_eq_none.2 (by simpa using hk)]
  simp [h0, okSlot_valid]

/-! ### The hypotheses of the statements can be met -/

/-- The hypotheses of each clause of Obligations.stepRunsFront can be met. -/
theorem test_stepRunsFront_met :
    ∃ c : Instr, ∃ r : List Instr, ∃ s : State, (s.pending = c :: r) :=
  ⟨.timeBeacon, [.getTid], { live with pending := [.timeBeacon, .getTid] }, by decide +kernel⟩

/-- The hypotheses of each clause of Obligations.idleStep can be met. -/
theorem test_idleStep_met :
    (∃ s : State, (s.pending = []) ∧ (s.power = false))
    ∧ (∃ s : State, (s.pending = []) ∧ (s.power = true)) :=
  ⟨⟨{ live with power := false }, by decide +kernel⟩,
   ⟨withDom 15 activeDom, by decide +kernel⟩⟩

/-- The hypotheses of each clause of Obligations.everyCommandAnswers can be met. -/
theorem test_everyCommandAnswers_met :
    ∃ c : Instr, ∃ s : State, (s.power = false) ∧ ((∀ x, c ≠ .powerGood x)) :=
  ⟨.getTid, { live with power := false }, rfl, (by intro x h; cases h)⟩

/-- The hypotheses of each clause of Obligations.ceilingOnlyFalls can be met. -/
theorem test_ceilingOnlyFalls_met :
    ∃ s : State, ∃ t : State, (CeilingOk s) ∧ (step s = .next t) :=
  ⟨{ live with pending := [.ceilingProgrammed], pwr := { ({} : Pwr) with fuses := [5000], lowering := some 4000 } }, { live with pwr := { ({} : Pwr) with fuses := [5000, 4000], cap := 4000 } }, by decide, rfl⟩

/-- The hypotheses of each clause of Obligations.ledgerOnlyGrows can be met. -/
theorem test_ledgerOnlyGrows_met :
    ∃ s : State, ∃ t : State, (step s = .next t) :=
  ⟨live, { live with now := 1 }, rfl⟩

/-- The hypotheses of each clause of Obligations.timeNeverFalls can be met. -/
theorem test_timeNeverFalls_met :
    ∃ s : State, ∃ t : State, ((∀ x r, s.pending ≠ .powerGood x :: r)) ∧ ((∀ r, s.pending ≠ .powerGoodLoss :: r)) ∧ ((∀ x r, s.pending ≠ .stackFormDone x :: r)) ∧ (step s = .next t) :=
  ⟨live, { live with now := 1 }, (by intro x r h; cases h), (by intro r h; cases h), (by intro x r h; cases h), rfl⟩

/-- The hypotheses of each clause of Obligations.watermarkRules can be met. -/
theorem test_watermarkRules_met :
    ∃ w : Wm, (WmOk w) :=
  ⟨{}, by decide +kernel⟩

/-- The hypotheses of each clause of Obligations.loadThenStore can be met. -/
theorem test_loadThenStore_met :
    ∃ w : Nat, ∃ bs : List Byte, (w = 4 ∨ w = 8 ∨ w = 16 ∨ w = 32) ∧ (8 * bs.length ≤ 2048) ∧ (w ∣ 8 * bs.length) :=
  ⟨4, [1, 2, 3], by decide +kernel⟩

/-- The hypotheses of each clause of Obligations.watermarkClear can be met. -/
theorem test_watermarkClear_met :
    (∃ w : WmId, ∃ s : State, (s.power = true) ∧ (s.wmOpen w = true) ∧ (((s.wmGet w).mark = 0 ∨ (s.wmGet w).level ≤ (s.wmGet w).mark)))
    ∧ (∃ w : WmId, ∃ s : State, (s.power = true) ∧ (s.wmOpen w = true) ∧ ((s.wmGet w).mark ≠ 0) ∧ ((s.wmGet w).mark < (s.wmGet w).level)) :=
  ⟨⟨.slowdown 63, live, by decide +kernel⟩,
   ⟨.power, { live with pwr := { ({} : Pwr) with wmPower := wm1 } }, by decide +kernel⟩⟩

/-- The hypotheses of each clause of Obligations.watermarkMarkAndWindows can be met. -/
theorem test_watermarkMarkAndWindows_met :
    (∃ w : WmId, ∃ m : W32, ∃ s : State, (s.power = true) ∧ (s.wmOpen w = true) ∧ ((wmMark w m = 0 ∨ (s.wmGet w).level ≤ wmMark w m)))
    ∧ (∃ w : WmId, ∃ m : W32, ∃ s : State, (s.power = true) ∧ (s.wmOpen w = true) ∧ ((s.wmGet w).crossed = false) ∧ ((s.wmGet w).count < 0xFFFF) ∧ (wmMark w m ≠ 0) ∧ (wmMark w m < (s.wmGet w).level) ∧ ((s.wmGet w).level ≤ (s.wmGet w).mark))
    ∧ (∃ n : Nat, ∃ s : State, (Live s) ∧ (n < 128) ∧ (s.now % 10000000 = 0) ∧ ((s.client n).deferEnd ≠ s.now))
    ∧ (∃ s : State, (Live s) ∧ (s.now % 1000000000 = 0) ∧ (s.flt.upsetEnd ≠ s.now)) :=
  ⟨⟨.temp, 0xFFFF, live, by decide +kernel⟩,
   ⟨.lotOcc, 4, { live with wmLot := { level := 5, peak := 5, mark := 5, count := 0xFFFE } }, by decide +kernel⟩,
   ⟨127, { live with now := 10000000, clients := [(127, { deferNow := 3 })] }, by decide +kernel⟩,
   ⟨{ live with now := 1000000000, flt := { upsetNow := 7 } }, by decide +kernel⟩⟩

/-- The hypotheses of each clause of Obligations.smbusAnswers can be met. -/
theorem test_smbusAnswers_met :
    (∃ s : State, (s.power = true))
    ∧ (∃ typ : Nat, ∃ s : State, (s.power = true) ∧ ((typ = 0 ∨ typ = 2)))
    ∧ (∃ typ : Nat, ∃ s : State, (s.power = true) ∧ (typ ≠ 0) ∧ (typ ≠ 2))
    ∧ (∃ k : Nat, ∃ s : State, (s.power = true) ∧ (k < 68)) :=
  ⟨⟨live, by decide +kernel⟩,
   ⟨2, live, by decide +kernel⟩,
   ⟨1, live, by decide +kernel⟩,
   ⟨67, live, by decide +kernel⟩⟩

/-- The hypotheses of each clause of Obligations.jtag can be met. -/
theorem test_jtag_met :
    (∃ s : State, (s.power = true))
    ∧ (∃ s : State, (s.power = true) ∧ (s.frm.resetReq = none))
    ∧ (∃ s : State, ∃ r : Nat, (s.power = true) ∧ (s.frm.resetReq = some r))
    ∧ (∃ a : Nat, ∃ o : Nat, ∃ n : Nat, ∃ s : State, (s.power = true) ∧ (a < 8192) ∧ (o + n ≤ 65536 * 48))
    ∧ (∃ a : Nat, ∃ o : Nat, ∃ l : List Byte, ∃ s : State, (s.power = true) ∧ (a < 8192) ∧ (o + l.length ≤ 65536 * 48))
    ∧ (∃ a : Nat, ∃ l : List Byte, ∃ s : State, (s.power = true) ∧ (a + l.length ≤ s.hbmTop) ∧ (s.frm.unmapped = []))
    ∧ (∃ k : Nat, ∃ s : State, (s.power = true) ∧ (k < 24)) :=
  ⟨⟨live, by decide +kernel⟩,
   ⟨live, by decide +kernel⟩,
   ⟨{ live with frm := { live.frm with resetReq := some 4 } }, 4, by decide +kernel⟩,
   ⟨8191, 3145727, 1, live, by decide +kernel⟩,
   ⟨8191, 3145727, [7], live, by decide +kernel⟩,
   ⟨0, [7], live, by decide +kernel⟩,
   ⟨23, live, by decide +kernel⟩⟩

/-- The hypotheses of each clause of Obligations.domains can be met. -/
theorem test_domains_met :
    (∃ d : Nat, ∃ c : Nat, ∃ s : State, (s.power = true) ∧ (s.pwrOpen = true) ∧ (d < 16) ∧ (c ≤ 18))
    ∧ (∃ x : Dom, (x.state = .active) ∧ (x.step = .none) ∧ (x.eff < x.code))
    ∧ (∃ x : Dom, (x.state = .active) ∧ (x.step = .none) ∧ (x.code < x.eff))
    ∧ (∃ d : Nat, ∃ c : Nat, ∃ s : State, (s.power = true) ∧ ((s.dom d).step = .rising c) ∧ (c ≤ (s.dom d).eff) ∧ (c ≠ (s.dom d).code))
    ∧ (∃ d : Nat, ∃ c : Nat, ∃ s : State, (s.power = true) ∧ ((s.dom d).step = .changing c) ∧ ((s.dom d).eff = c))
    ∧ (∃ d : Nat, ∃ s : State, (s.power = true) ∧ (s.pwrOpen = true) ∧ (d < 16) ∧ (s.offOk d = false))
    ∧ (∃ d : Nat, ∃ x : Nat, ∃ s : State, (s.power = true) ∧ (s.frm.state = .ready) ∧ (d < 16) ∧ (0 < x) ∧ (x < 4) ∧ ((s.dom d).trans = none) ∧ ((s.dom d).bist = false) ∧ ((s.dom d).state = .active))
    ∧ (∃ d : Nat, ∃ s : State, (s.power = true) ∧ (s.frm.state = .ready) ∧ (d < 16) ∧ ((s.dom d).trans = none) ∧ ((s.dom d).bist = false) ∧ ((s.dom d).state = .off))
    ∧ (∃ d : Nat, ∃ s : State, (Live s) ∧ ((s.dom d).state = .active) ∧ ((s.dom d).trans = none) ∧ (s.hasDemand d = false) ∧ ((s.dom d).quiet + 1000 * s.pwr.retainDelay ≤ s.now) ∧ ((s.dom d).target = 1))
    ∧ (∃ d : Nat, ∃ s : State, (Live s) ∧ ((s.dom d).state = .active) ∧ ((s.dom d).trans = none) ∧ (s.hasDemand d = false) ∧ ((s.dom d).quiet + 1000 * s.pwr.retainDelay ≤ s.now) ∧ ((s.dom d).target = 2))
    ∧ (∃ d : Nat, ∃ s : State, (s.power = true) ∧ (((s.dom d).state = .idle ∨ (s.dom d).state = .retain)) ∧ ((s.dom d).trans = none) ∧ (s.hasDemand d = true))
    ∧ (∃ d : Nat, ∃ t0 : Nat, ∃ s : State, (s.power = true) ∧ ((s.dom d).state = .active) ∧ ((s.dom d).trans = some (.retain, t0)) ∧ ((s.dom d).target = 1) ∧ (s.frm.state = .ready) ∧ ((s.dom d).bist = false))
    ∧ (∃ d : Nat, ∃ t0 : Nat, ∃ s : State, (Live s) ∧ (d < 16) ∧ ((s.dom d).state = .off) ∧ ((s.dom d).trans = some (.active, t0)) ∧ ((s.dom d).bist = false) ∧ (t0 + 2000000 ≤ s.now))
    ∧ (∃ d : Nat, ∃ s : State, (Live s) ∧ ((s.dom d).bist = true) ∧ ((s.dom d).target ≠ 0) ∧ ((s.dom d).step = .none) ∧ ((s.dom d).eff = (s.dom d).code)) :=
  ⟨⟨15, 18, withDom 15 activeDom, by decide +kernel⟩,
   ⟨{ activeDom with freq := 11 }, by decide +kernel⟩,
   ⟨{ activeDom with freq := 13 }, by decide +kernel⟩,
   ⟨15, 12, withDom 15 { activeDom with code := 11, step := .rising 12 }, by decide +kernel⟩,
   ⟨15, 12, withDom 15 { activeDom with code := 13, step := .changing 12 }, by decide +kernel⟩,
   ⟨15, { withDom 15 activeDom with parts := [(63, { strips := BitVec.twoPow 512 (stripOfDom 15 0) })] }, by decide +kernel⟩,
   ⟨15, 3, withDom 15 activeDom, by decide +kernel⟩,
   ⟨15, withDom 15 {}, by decide +kernel⟩,
   ⟨0, { withDom 0 { activeDom with target := 1 } with now := 1000000 }, by decide +kernel⟩,
   ⟨0, { withDom 0 { activeDom with target := 2 } with now := 1000000 }, by decide +kernel⟩,
   ⟨0, { withDom 0 { activeDom with state := .retain } with parts := [(63, { strips := 1, rebuilding := true })] }, by decide +kernel⟩,
   ⟨15, 0, withDom 15 { activeDom with target := 1, trans := some (.retain, 0) }, by decide +kernel⟩,
   ⟨15, 0, { withDom 15 { trans := some (.active, 0) } with now := 2000000 }, by decide +kernel⟩,
   ⟨15, withDom 15 { bist := true, code := 12 }, by decide +kernel⟩⟩

/-- The hypotheses of each clause of Obligations.powerControl can be met. -/
theorem test_powerControl_met :
    (∃ s : State, (s.power = true) ∧ (s.now % 1000 = 0) ∧ (¬ s.out.contains (.timeBeacon s.now)))
    ∧ (∃ s : State, (s.power = true) ∧ (s.now % 100000 = 0) ∧ (s.pwr.lastWindow ≠ some s.now))
    ∧ (∃ x : Dom, ∃ p : Nat, ∃ cap : Nat, (x.state = .active) ∧ (cap < p) ∧ (10 * p ≤ 11 * cap))
    ∧ (∃ s : State, (s.power = true) ∧ (s.pwr.pausing = true) ∧ (s.pwr.pauseStart + 1000 * s.pwr.pause ≤ s.now))
    ∧ (∃ k : Nat, ∃ r : Nat, ∃ s : State, (s.power = true) ∧ (k < 68) ∧ (392 ≤ r) ∧ (r < 1024) ∧ (s.frm.resetReq = none))
    ∧ (∃ via : Via, ∃ v : W32, ∃ s : State, (s.power = true) ∧ (s.frmOpen via = true) ∧ (bits v.toNat 31 16 = 0x4345) ∧ (4000 ≤ bits v.toNat 15 0) ∧ (bits v.toNat 15 0 < s.pwr.ceiling) ∧ (s.pwr.lowerings ≠ 0) ∧ (s.pwr.lowering = none))
    ∧ (∃ via : Via, ∃ v : W32, ∃ s : State, (s.power = true) ∧ (s.frmOpen via = true) ∧ ((bits v.toNat 31 16 ≠ 0x4345 ∨ bits v.toNat 15 0 < 4000 ∨ s.pwr.ceiling ≤ bits v.toNat 15 0 ∨ s.pwr.lowerings = 0)))
    ∧ (∃ v : Nat, ∃ s : State, (s.power = true) ∧ (s.pwr.lowering = some v) ∧ (4000 ≤ v) ∧ (v < s.pwr.ceiling) ∧ (s.pwr.lowerings ≠ 0)) :=
  ⟨⟨{ live with now := 1000 }, by decide +kernel⟩,
   ⟨{ live with now := 100000 }, by decide +kernel⟩,
   ⟨activeDom, 11, 10, by decide +kernel⟩,
   ⟨{ live with now := 1000, pwr := { ({} : Pwr) with pausing := true, pause := 1 } }, by decide +kernel⟩,
   ⟨67, 392, live, by decide +kernel⟩,
   ⟨.pf 0, 0x43454E1F, live, by decide +kernel⟩,
   ⟨.pf 0, 0x43454E20, live, by decide +kernel⟩,
   ⟨4000, { live with pwr := { ({} : Pwr) with fuses := [19999, 5000, 4001], lowering := some 4000 } }, by decide +kernel⟩⟩

/-- The hypotheses of each clause of Obligations.repairs can be met. -/
theorem test_repairs_met :
    (∃ via : Via, ∃ v : W32, ∃ s : State, (s.power = true) ∧ (s.frmOpen via = true) ∧ (s.frm.state = .ready) ∧ (bit v.toNat 0 = true) ∧ (bits v.toNat 31 16 = 0x4C47) ∧ (reasonOk (bits v.toNat 15 8) = true) ∧ (s.frm.ledgerOp = none))
    ∧ (∃ via : Via, ∃ v : W32, ∃ s : State, (s.power = true) ∧ (s.frmOpen via = true) ∧ ((bit v.toNat 0 = false ∨ bits v.toNat 31 16 ≠ 0x4C47 ∨ reasonOk (bits v.toNat 15 8) = false ∨ s.frm.state ≠ .ready)))
    ∧ (∃ o : LedgerOp, ∃ k : Nat, ∃ r : List Nat, ∃ s : State, (s.power = true) ∧ (s.frm.ledgerOp = some o) ∧ (s.frm.emptySlots = k :: r) ∧ (s.frm.newest = none) ∧ (o.again = false))
    ∧ (∃ o : LedgerOp, ∃ s : State, (s.power = true) ∧ (s.frm.ledgerOp = some o) ∧ (s.frm.emptySlots = []) ∧ (o.again = false))
    ∧ (∃ v : W32, ∃ k : Nat, ∃ s : State, (s.power = true) ∧ (s.frm.state ≠ .frameBoot) ∧ (bit v.toNat 31 = true) ∧ (bits v.toNat 17 16 ≠ 1) ∧ (bits v.toNat 13 0 < classSize (bits v.toNat 17 16)) ∧ (s.isRetired (bits v.toNat 17 16) (bits v.toNat 13 0) = true) ∧ (s.probeOf (bits v.toNat 17 16) (bits v.toNat 13 0) = none) ∧ (((upTo 16).find? fun k => (tabGet ({} : Probe) s.frm.probes k).state != 1) = some k))
    ∧ (∃ v : W32, ∃ s : State, (s.power = true) ∧ (s.frm.state ≠ .frameBoot) ∧ (bit v.toNat 31 = true) ∧ (s.isRetired (bits v.toNat 17 16) (bits v.toNat 13 0) = false))
    ∧ (∃ k : Nat, ∃ p : Probe, ∃ s : State, (s.power = true) ∧ (k < 16) ∧ (tabGet ({} : Probe) s.frm.probes k = p) ∧ (p.state = 1) ∧ (p.cls ≠ 0) ∧ (s.probeReady p = true) ∧ (p.steps + 1 < s.frm.probeSteps))
    ∧ (∃ k : Nat, ∃ p : Probe, ∃ u : CUnit, ∃ a : Nat, ∃ s : State, (s.power = true) ∧ (k < 16) ∧ (tabGet ({} : Probe) s.frm.probes k = p) ∧ (p.state = 1) ∧ (p.cls = 0) ∧ (s.probeReady p = true) ∧ (p.steps + 1 < s.frm.probeSteps) ∧ (u ∈ s.units) ∧ (u.phase = .committed) ∧ (p.next ≤ u.commitNo) ∧ (a ∈ u.allTiles) ∧ (s.working a = true) ∧ (swatchOf (a / 16) = swatchOf (p.unit / 17)))
    ∧ (∃ k : Nat, ∃ p : Probe, ∃ s : State, (s.power = true) ∧ (tabGet ({} : Probe) s.frm.probes k = p) ∧ (p.cls = 0) ∧ (s.units = []))
    ∧ (∃ s : State, (s.power = true))
    ∧ (∃ k : Nat, ∃ p : Probe, ∃ s : State, (s.power = true) ∧ (k < 16) ∧ (tabGet ({} : Probe) s.frm.probes k = p) ∧ (p.state = 1) ∧ (p.cls = 2) ∧ (p.unit < 768) ∧ ((s.ctl (p.unit / 32)).up = true) ∧ (s.frm.probeSteps ≤ p.steps + 1) ∧ (s.frm.unmapped.contains p.unit = true))
    ∧ (∃ k : Nat, ∃ p : Probe, ∃ s : State, (s.power = true) ∧ (k < 16) ∧ (tabGet ({} : Probe) s.frm.probes k = p) ∧ (p.state = 1) ∧ (p.cls = 2) ∧ ((s.ctl (p.unit / 32)).up = true)) :=
  ⟨⟨.pf 3, 0x4C470401, withFrm fun f => { f with rPch := 1 }, by decide +kernel⟩,
   ⟨.pf 0, 0x4C470501, live, by decide +kernel⟩,
   ⟨{ reason := 1, force := false, time := 5, tiles := 1, lanes := 0, pch := 0 }, 0, (live.frm.emptySlots.drop 1), withFrm fun f => { f with ledgerOp := some { reason := 1, force := false, time := 5, tiles := 1, lanes := 0, pch := 0 } }, by decide +kernel⟩,
   ⟨{ reason := 1, force := false, time := 5, tiles := 1, lanes := 0, pch := 0 }, withFrm fun f => { f with ledger := (upTo 24).map fun k => (k, 1), ledgerOp := some { reason := 1, force := false, time := 5, tiles := 1, lanes := 0, pch := 0 } }, by decide +kernel⟩,
   ⟨0x800202FF, 0, withFrm fun f => { f with unmapped := [767], rPch := BitVec.twoPow 768 767 }, by decide +kernel⟩,
   ⟨0x800202FF, live, by decide +kernel⟩,
   ⟨15, { unit := 767, cls := 2, state := 1, steps := 9998 }, { (withFrm fun f => { f with unmapped := [767], rPch := BitVec.twoPow 768 767, probes := [(15, { unit := 767, cls := 2, state := 1, steps := 9998 })] }) with hbmCtl := [(23, { up := true })] }, by decide +kernel⟩,
   ⟨15, { unit := 8703, cls := 0, state := 1, steps := 9, next := 5 }, { op1 with phase := .committed, commitNo := 5 }, 8191, { live with frm := { live.frm with probes := [(15, { unit := 8703, cls := 0, state := 1, steps := 9, next := 5 })] }, units := [{ op1 with phase := .committed, commitNo := 5 }], pwr := { live.pwr with doms := [(15, activeDom)] } }, by decide +kernel⟩,
   ⟨15, { unit := 8703, cls := 0, state := 1, steps := 9, next := 5 }, { live with frm := { live.frm with probes := [(15, { unit := 8703, cls := 0, state := 1, steps := 9, next := 5 })] } }, by decide +kernel⟩,
   ⟨live, by decide +kernel⟩,
   ⟨15, { unit := 767, cls := 2, state := 1, steps := 9999 }, { (withFrm fun f => { f with unmapped := [767], rPch := BitVec.twoPow 768 767, probes := [(15, { unit := 767, cls := 2, state := 1, steps := 9999 })] }) with hbmCtl := [(23, { up := true })] }, by decide +kernel⟩,
   ⟨15, { unit := 767, cls := 2, state := 1, steps := 9999 }, { (withFrm fun f => { f with unmapped := [767], rPch := BitVec.twoPow 768 767, probes := [(15, { unit := 767, cls := 2, state := 1, steps := 9999 })] }) with hbmCtl := [(23, { up := true })] }, by decide +kernel⟩⟩

/-- The hypotheses of each clause of Obligations.memoryErrors can be met. -/
theorem test_memoryErrors_met :
    (∃ s : State, (s.power = true))
    ∧ (∃ cls : Nat, ∃ n : Nat, ∃ x : Nat × Nat, ∃ s : State, (s.power = true) ∧ ((s.flt.readbacks.find? fun y => sourceClass y.1 == cls && y.2 == n) = some x))
    ∧ (∃ n : Nat, ∃ x : Nat × Nat, ∃ s : State, (s.power = true) ∧ ((s.flt.readbacks.find? fun y => sourceClass y.1 == 3 && y.2 == n) = some x) ∧ (Steady s 3 n))
    ∧ (∃ a : Nat, ∃ s : State, (s.power = true) ∧ (a < s.hbmTop) ∧ (s.frm.unmapped = []) ∧ (Steady s 2 (pcOf a)))
    ∧ (∃ a : Nat, ∃ s : State, (s.power = true) ∧ (s.flt.reissues.contains a = true))
    ∧ (∃ a : Nat, ∃ s : State, (s.power = true) ∧ (s.flt.reissues.contains a = true) ∧ (s.ownerAt a = none))
    ∧ (∃ i : Nat, ∃ s : State, (s.power = true) ∧ (i < 131072) ∧ (s.flt.rimBad = []) ∧ (Steady s 3 (i / 8192)))
    ∧ (∃ pt : Nat, ∃ w : Nat, ∃ s : State, (Live s) ∧ (pt < 8704) ∧ (w < 48) ∧ ((s.dom (domOfStrip (pt / 17))).state ≠ .off) ∧ (((pt, w) = s.scrubbing (pt / 136) ∨ (pt, w) = scrubNext (s.scrubbing (pt / 136)))))
    ∧ (∃ a : Nat, ∃ s : State, (Live s) ∧ (a < Config.hbmBytes) ∧ ((s.ctl (pcOf a / 32)).up = true) ∧ ((s.ctl (pcOf a / 32)).retraining = false) ∧ (s.frm.copying = []) ∧ (s.frm.unmapped = []))
    ∧ (∃ m : Nat, ∃ s : State, (Live s) ∧ (m < 24) ∧ (s.copyingOn m = false))
    ∧ (∃ m : Nat, ∃ s : State, (Live s) ∧ (m < 24) ∧ (s.copyingOn m = true))
    ∧ (∃ m : Nat, ∃ s : State, (s.power = true) ∧ ((s.ctl m).retraining = true))
    ∧ (∃ pc : Nat, ∃ s : State, (s.power = true) ∧ (pc ∈ s.frm.copying) ∧ ((s.ctl (pc / 32)).retrainPend = false))
    ∧ (∃ pc : Nat, ∃ s : State, (s.power = true) ∧ (pc ∈ s.frm.copying) ∧ ((s.ctl (pc / 32)).retrainPend = true) ∧ ((∀ x ∈ s.frm.copying, x / 32 = pc / 32 → x = pc))) :=
  ⟨⟨live, by decide +kernel⟩,
   ⟨3, 31, (0x0C, 31), { live with flt := { readbacks := [(0x0C, 31)] } }, by decide +kernel⟩,
   ⟨31, (0x0C, 31), { live with flt := { readbacks := [(0x0C, 31)] } }, by decide +kernel⟩,
   ⟨0, live, by decide +kernel⟩,
   ⟨5, { live with flt := { reissues := [5] } }, by decide +kernel⟩,
   ⟨5, { live with flt := { reissues := [5] } }, by decide +kernel⟩,
   ⟨131071, live, by decide +kernel⟩,
   ⟨8703, 46, { withDom 15 activeDom with flt := { scrubAt := [(63, (8703, 46))] } }, by decide +kernel⟩,
   ⟨Config.hbmBytes - 1, { live with hbmCtl := [(23, { up := true })] }, by decide +kernel⟩,
   ⟨23, live, by decide +kernel⟩,
   ⟨23, withFrm fun f => { f with copying := [767] }, by decide +kernel⟩,
   ⟨23, { live with hbmCtl := [(23, { up := true, retraining := true })] }, by decide +kernel⟩,
   ⟨767, withFrm fun f => { f with copying := [767] }, by decide +kernel⟩,
   ⟨767, { (withFrm fun f => { f with copying := [767] }) with hbmCtl := [(23, { up := true, retrainPend := true })] }, by decide +kernel⟩⟩

/-- The hypotheses of each clause of Obligations.tileErrors can be met. -/
theorem test_tileErrors_met :
    (∃ pt : Nat, ∃ a : Nat, ∃ s : State, (s.power = true) ∧ (s.activeOf pt = some a) ∧ ((s.tile a).run = none) ∧ (Steady s 0 pt))
    ∧ (∃ pt : Nat, ∃ s : State, (s.power = true) ∧ (pt < 8704) ∧ (Steady s 0 pt))
    ∧ (∃ pt : Nat, ∃ w : Nat, ∃ s : State, (s.power = true) ∧ (pt < 8704) ∧ (w < 48) ∧ (s.activeOf pt = none) ∧ (Steady s 0 pt))
    ∧ (∃ a : Nat, ∃ b : Nat, ∃ s : State, (s.power = true) ∧ (s.working a = true) ∧ (s.working b = true) ∧ (s.partOfTile b = s.partOfTile a) ∧ (s.activeOf (s.physTile a) = some a) ∧ ((s.tile a).run = none) ∧ (Steady s 0 (s.physTile a)))
    ∧ (∃ pt : Nat, ∃ a : Nat, ∃ r : TileRun, ∃ u : CUnit, ∃ s : State, (s.power = true) ∧ (s.activeOf pt = some a) ∧ ((s.tile a).run = some r) ∧ (s.unit? r.unit = some u) ∧ (u.pairTiles = []) ∧ (u.phase = .running) ∧ ((s.client u.client).dbg.halted = false) ∧ (((s.partOfTile a).bind fun p => (s.part p).switch) = none) ∧ (Steady s 0 pt))
    ∧ (∃ pt : Nat, ∃ a : Nat, ∃ r : TileRun, ∃ u : CUnit, ∃ s : State, (s.power = true) ∧ (s.activeOf pt = some a) ∧ ((s.tile a).run = some r) ∧ (s.unit? r.unit = some u) ∧ ((s.client u.client).dbg.halted = true) ∧ (((s.partOfTile a).bind fun p => (s.part p).switch) = none) ∧ (Steady s 0 pt)) :=
  ⟨⟨8702, 8191, live, by decide +kernel⟩,
   ⟨8703, live, by decide +kernel⟩,
   ⟨8703, 47, live, by decide +kernel⟩,
   ⟨8191, 8190, { live with parts := [(63, { strips := BitVec.twoPow 512 511 })], tiles := [(8190, { pal := { bank0 := [(5, 7)] } })] }, by decide +kernel⟩,
   ⟨8702, 8191, run1, op1, opLive run1 op1, by decide +kernel⟩,
   ⟨8702, 8191, run1, op1, { opLive run1 op1 with clients := [(127, { dbg := { halted := true } })] }, by decide +kernel⟩⟩

/-- The hypotheses of each clause of Obligations.stripAndPartitionUpkeep can be met. -/
theorem test_stripAndPartitionUpkeep_met :
    (∃ p : Nat, ∃ s : State, (s.power = true) ∧ ((s.part p).bist = true))
    ∧ (∃ k : Nat, ∃ s : State, (Live s) ∧ (k < 512) ∧ (tabHas s.flt.retrims k = false) ∧ ((tilesOfStrip k).any s.tileBusy = false))
    ∧ (∃ k : Nat, ∃ s : State, (Live s) ∧ (k < 512) ∧ (tabHas s.flt.retrims k = false) ∧ (tabGet s.frm.stateTime s.flt.lastRetrim k + 1000000 * s.flt.retrimMax ≤ s.now))
    ∧ (∃ k : Nat, ∃ t0 : Nat, ∃ s : State, (s.power = true) ∧ (s.flt.retrims = [(k, t0)]) ∧ (t0 + 2000 ≤ s.now))
    ∧ (∃ a : Nat, ∃ r : TileRun, ∃ u : CUnit, ∃ t0 : Nat, ∃ s : State, (s.power = true) ∧ ((s.tile a).run = some r) ∧ (r.waitSince = some t0) ∧ (s.unit? r.unit = some u) ∧ (u.phase ≠ .committed) ∧ ((s.client u.client).dbg.halted = false) ∧ (tabHas s.flt.retrims (a / 16) = false) ∧ (t0 + 1000 * s.flt.syncTimeout ≤ s.now)) :=
  ⟨⟨63, { live with parts := [(63, { bist := true })] }, by decide +kernel⟩,
   ⟨511, live, by decide +kernel⟩,
   ⟨511, { opLive run1 op1 with now := 10000000000 }, by decide +kernel⟩,
   ⟨511, 0, { live with now := 2000, flt := { retrims := [(511, 0)] } }, by decide +kernel⟩,
   ⟨8191, { run1 with stall := some (.barrier 0 0 0) }, op1, 0, { opLive { run1 with stall := some (.barrier 0 0 0) } op1 with now := 1000000 }, by decide +kernel⟩⟩

/-- The hypotheses of each clause of Obligations.functions can be met. -/
theorem test_functions_met :
    (∃ n : Nat, ∃ s : State, (s.power = true) ∧ (funOf n ≠ 0) ∧ (n < 128) ∧ (s.functionExists n = true))
    ∧ (∃ s : State, (s.power = true))
    ∧ (∃ p : Nat, ∃ s : State, (s.power = true) ∧ (p < 4))
    ∧ (∃ p : Nat, ∃ k : Nat, ∃ s : State, (s.power = true) ∧ (p < 4) ∧ (k < 32) ∧ (tabGet 0 s.numVfs p ≤ k))
    ∧ (∃ p : Nat, ∃ k : Nat, ∃ s : State, (s.power = true) ∧ (p < 4) ∧ (k < 32))
    ∧ (∃ n : Nat, ∃ on : Bool, ∃ s : State, (s.power = true) ∧ (n < 128) ∧ (s.functionExists n = true) ∧ ((on = false ∨ (s.client n).func.held = [])))
    ∧ (∃ n : Nat, ∃ d3 : Bool, ∃ s : State, (s.power = true) ∧ (n < 128) ∧ (s.functionExists n = true) ∧ ((d3 = true ∨ (s.client n).func.held = [])))
    ∧ (∃ n : Nat, ∃ v : Nat, ∃ s : State, (s.power = true) ∧ (n < 128) ∧ (s.functionExists n = true) ∧ ((s.client n).func.held = [.msix v]) ∧ ((s.client n).func.funcMask = false) ∧ (v ∉ (s.client n).func.masked) ∧ (tabGet false s.linkUp (portOf n) = true) ∧ ((s.client n).func.d3hot = false)) :=
  ⟨⟨127, { withClient 127 { ctx127 with acct := { lots := 3 }, wmDefer := wm1 } with numVfs := [(3, 31)] }, by decide +kernel⟩,
   ⟨withClient 127 { func := { flr := true } }, by decide +kernel⟩,
   ⟨3, { withClient 127 ctx127 with numVfs := [(3, 31)] }, by decide +kernel⟩,
   ⟨3, 31, { live with numVfs := [(3, 5)] }, by decide +kernel⟩,
   ⟨3, 0, { withClient 127 ctx127 with numVfs := [(3, 31)] }, by decide +kernel⟩,
   ⟨96, true, live, by decide +kernel⟩,
   ⟨96, true, withClient 96 { func := { held := [.msix 0] } }, by decide +kernel⟩,
   ⟨96, 7, { withClient 96 { func := { masked := [0], held := [.msix 7] } } with linkUp := [(3, true)] }, by decide +kernel⟩⟩

/-- The hypotheses of each clause of Obligations.hostAccesses can be met. -/
theorem test_hostAccesses_met :
    (∃ p : Nat, ∃ o : Nat, ∃ n : Nat, ∃ s : State, (Live s) ∧ (p < 4) ∧ (s.memOk (32 * p) = true) ∧ (o + n ≤ 2 ^ 36) ∧ (2 ^ 30 * tabGet 0 s.frm.bar2Base p + o + n ≤ s.hbmTop))
    ∧ (∃ p : Nat, ∃ o : Nat, ∃ l : List Byte, ∃ s : State, (Live s) ∧ (p < 4) ∧ (s.memOk (32 * p) = true) ∧ (o + l.length ≤ 2 ^ 36) ∧ (2 ^ 30 * tabGet 0 s.frm.bar2Base p + o + l.length ≤ s.hbmTop) ∧ (s.frm.unmapped = []))
    ∧ (∃ p : Nat, ∃ o : Nat, ∃ x : Access, ∃ s : State, (Live s) ∧ (p < 4) ∧ (s.memOk (32 * p) = true) ∧ (o + accessLen x ≤ 2 ^ 36) ∧ (s.hbmTop < 2 ^ 30 * tabGet 0 s.frm.bar2Base p + o + accessLen x))
    ∧ (∃ n : Nat, ∃ o : Nat, ∃ k : Nat, ∃ s : State, (Live s) ∧ (funOf n ≠ 0) ∧ (n < 128) ∧ (s.memOk n = true) ∧ (o + k ≤ 2 ^ 32) ∧ ((s.client n).areas.lo + o + k ≤ (s.client n).areas.hi) ∧ ((s.client n).areas.lo + o + k ≤ s.hbmTop))
    ∧ (∃ n : Nat, ∃ o : Nat, ∃ l : List Byte, ∃ s : State, (Live s) ∧ (funOf n ≠ 0) ∧ (n < 128) ∧ (s.memOk n = true) ∧ (o + l.length ≤ 2 ^ 32) ∧ ((s.client n).areas.lo + o + l.length ≤ (s.client n).areas.hi) ∧ ((s.client n).areas.lo + o + l.length ≤ s.hbmTop) ∧ (s.frm.unmapped = []))
    ∧ (∃ n : Nat, ∃ o : Nat, ∃ x : Access, ∃ s : State, (Live s) ∧ (funOf n ≠ 0) ∧ (n < 128) ∧ (s.memOk n = true) ∧ (o + accessLen x ≤ 2 ^ 32) ∧ (((s.client n).areas.hi < (s.client n).areas.lo + o + accessLen x ∨ s.hbmTop < (s.client n).areas.lo + o + accessLen x)))
    ∧ (∃ p : Nat, ∃ o : Nat, ∃ x : Access, ∃ s : State, (s.power = true) ∧ (s.frm.state ≠ .ready) ∧ (p < 4) ∧ (s.memOk (32 * p) = true) ∧ (o + accessLen x ≤ 2 ^ 36))
    ∧ (∃ p : Nat, ∃ o : Nat, ∃ x : Access, ∃ s : State, (s.power = true) ∧ (p < 4) ∧ (s.memOk (32 * p) = false) ∧ (o + accessLen x ≤ 2 ^ 36))
    ∧ (∃ n : Nat, ∃ s : State, (s.power = true) ∧ (n < 128) ∧ (s.functionExists n = true))
    ∧ (∃ p : Nat, ∃ s : State, (s.power = true) ∧ (p < 4) ∧ (s.frm.state ≠ .frameBoot) ∧ ((∀ f, f < 32 → (s.client (32 * p + f)).func.bme = false)))
    ∧ (∃ p : Nat, ∃ s : State, (Live s) ∧ (p < 4))
    ∧ (∃ p : Nat, ∃ s : State, (s.power = true) ∧ (s.frm.state ≠ .ready) ∧ (p < 4))
    ∧ (∃ p : Nat, ∃ s : State, (s.power = true) ∧ (p < 4))
    ∧ (∃ n : Nat, ∃ s : State, (s.power = true) ∧ (n < 128) ∧ (tabGet false s.linkUp (portOf n) = true) ∧ (100000000 ≤ s.now) ∧ (s.frm.state ≠ .frameBoot) ∧ (s.functionExists n = true))
    ∧ (∃ n : Nat, ∃ s : State, (s.power = true) ∧ (n < 128) ∧ (tabGet false s.linkUp (portOf n) = true) ∧ (100000000 ≤ s.now) ∧ (s.frm.state = .frameBoot) ∧ (s.frm.afterWarm = false)) :=
  ⟨⟨3, 8, 8, { live with linkUp := links, hbm := [(9, 5)] }, by decide +kernel⟩,
   ⟨3, 2 ^ 36 - 1, [5], { live with linkUp := links }, by decide +kernel⟩,
   ⟨3, 2 ^ 36 - 1, .write [5], { live with linkUp := links, frm := { live.frm with withdrawn := 750 } }, by decide +kernel⟩,
   ⟨127, 2 ^ 32 - 1, 1, { withClient 127 { areas := { lo := 4096, hi := 2 ^ 32 + 4096 } } with linkUp := links, numVfs := [(3, 31)] }, by decide +kernel⟩,
   ⟨127, 0, [5, 6], { withClient 127 { areas := { lo := 4096, hi := 4098 } } with linkUp := links, numVfs := [(3, 31)] }, by decide +kernel⟩,
   ⟨127, 0, .read 3, { withClient 127 { areas := { lo := 4096, hi := 4098 } } with linkUp := links, numVfs := [(3, 31)] }, by decide +kernel⟩,
   ⟨3, 2 ^ 36 - 1, .write [5], { live with frm := { live.frm with state := .stackForm }, linkUp := links }, by decide +kernel⟩,
   ⟨3, 0, .read 4, { withClient 96 { func := { d3hot := true } } with linkUp := links }, by decide +kernel⟩,
   ⟨96, live, by decide +kernel⟩,
   ⟨3, { live with linkUp := [] }, by decide +kernel⟩,
   ⟨3, withClient 127 ctx127, by decide +kernel⟩,
   ⟨3, { State.reset with linkUp := links }, by decide +kernel⟩,
   ⟨3, withClient 127 ctx127, by decide +kernel⟩,
   ⟨96, { live with now := 100000000, linkUp := links }, by decide +kernel⟩,
   ⟨96, { State.reset with now := 100000000, linkUp := links }, by decide +kernel⟩⟩

/-- The hypotheses of each clause of Obligations.debugging can be met. -/
theorem test_debugging_met :
    (∃ n : Nat, ∃ s : State, (s.power = true) ∧ (s.dbgOpen n = true) ∧ ((s.client n).dbg.halted = false) ∧ ((s.client n).dbg.breaking = false))
    ∧ (∃ n : Nat, ∃ s : State, (s.power = true) ∧ ((s.client n).dbg.breaking = true) ∧ ((s.client n).dbg.halted = false) ∧ (s.haltReady n = true))
    ∧ (∃ n : Nat, ∃ q : Nat, ∃ x : ADesc, ∃ s : State, (s.power = true) ∧ (s.dbgOpen n = true) ∧ ((s.client n).dbg.halted = true) ∧ ((s.client n).dbg.stepping = false) ∧ (s.nextHeld n = some (q, x)) ∧ ((∀ u ∈ s.units, u.handoff.bind (fun h : HandoffRun => h.held) = none)))
    ∧ (∃ n : Nat, ∃ q : Nat, ∃ x : ADesc, ∃ s : State, (s.power = true) ∧ (s.dbgOpen n = true) ∧ ((s.client n).dbg.halted = true) ∧ ((s.client n).dbg.stepping = false) ∧ (s.runsOf n = []) ∧ (s.nextHeld n = some (q, x)))
    ∧ (∃ n : Nat, ∃ a : Nat, ∃ r : TileRun, ∃ s : State, (s.power = true) ∧ (s.dbgOpen n = true) ∧ ((s.client n).dbg.halted = true) ∧ ((s.client n).dbg.stepping = false) ∧ (s.runsOf n = [(a, r)]) ∧ (r.ready = false) ∧ ((s.tile a).run = some r) ∧ ((∀ u ∈ s.units, u.handoff.bind (fun h : HandoffRun => h.held) = none)))
    ∧ (∃ n : Nat, ∃ s : State, (s.power = true) ∧ ((s.client n).dbg.halted = true) ∧ ((s.client n).dbg.stepping = true) ∧ ((s.client n).dbg.stepDesc = none) ∧ ((s.client n).dbg.pass = none) ∧ (s.haltReady n = true))
    ∧ (∃ n : Nat, ∃ s : State, (s.power = true) ∧ (s.dbgOpen n = true) ∧ ((s.client n).dbg.halted = true) ∧ ((∀ u ∈ s.units, u.handoff.bind (fun h : HandoffRun => h.held) = none)) ∧ ((∀ a ∈ s.seatTiles n, (s.tile a).heldUpset = false)))
    ∧ (∃ n : Nat, ∃ a : Nat, ∃ r : TileRun, ∃ s : State, (s.power = true) ∧ (s.dbgOpen n = true) ∧ ((s.client n).dbg.halted = true) ∧ ((∀ u ∈ s.units, u.handoff.bind (fun h : HandoffRun => h.held) = none)) ∧ ((∀ a ∈ s.seatTiles n, (s.tile a).heldUpset = false)) ∧ (s.runsOf n = [(a, r)]) ∧ ((s.tile a).run = some r))
    ∧ (∃ s : State, (Live s)) :=
  ⟨⟨127, live, by decide +kernel⟩,
   ⟨127, withClient 127 { ctx127 with dbg := { breaking := true } }, by decide +kernel⟩,
   ⟨127, 1, adW, withClient 127 { ctx127 with dbg := { halted := true }, q1 := { state := .running, accepted := [adW] } }, by decide +kernel⟩,
   ⟨127, 1, adW, withClient 127 { ctx127 with dbg := { halted := true }, q1 := { state := .running, accepted := [adW] } }, by decide +kernel⟩,
   ⟨127, 8191, { run1 with stopped := true }, { opLive { run1 with stopped := true } op1 with clients := [(127, { ctx127 with dbg := { halted := true } })] }, by decide +kernel⟩,
   ⟨127, withClient 127 { ctx127 with dbg := { halted := true, stepping := true } }, by decide +kernel⟩,
   ⟨127, withClient 127 { ctx127 with dbg := { halted := true }, q1 := { state := .running, accepted := [adW] } }, by decide +kernel⟩,
   ⟨127, 8191, { run1 with stopped := true }, { opLive { run1 with stopped := true } op1 with clients := [(127, { ctx127 with dbg := { halted := true } })] }, by decide +kernel⟩,
   ⟨live, by decide +kernel⟩⟩

/-- The hypotheses of each clause of Obligations.accounting can be met. -/
theorem test_accounting_met :
    (∃ n : Nat, ∃ v : W32, ∃ s : State, (Live s) ∧ (n < 128) ∧ (bit v.toNat 0 = true))
    ∧ (∃ s : State, (s.power = true))
    ∧ (∃ via : Via, ∃ a : Nat, ∃ s : State, (s.power = true) ∧ (a < viaSize via) ∧ (a % 4 = 0) ∧ (s.viaOk via = true) ∧ ((∀ l ∈ s.latches, l.via = via → l.addr ≠ a)) ∧ ((viaPlace via a).wide = false))
    ∧ (∃ via : Via, ∃ a : Nat, ∃ s : State, (s.power = true) ∧ (a < viaSize via) ∧ (a % 4 = 0) ∧ (s.viaOk via = true) ∧ ((∀ l ∈ s.latches, l.via = via → l.addr ≠ a)) ∧ ((viaPlace via a).wide = true))
    ∧ (∃ via : Via, ∃ a : Nat, ∃ v : W32, ∃ s : State, (s.power = true) ∧ (a < viaSize via) ∧ (a % 4 = 0) ∧ (s.viaOk via = true) ∧ ((s.latches.find? fun l => l.via == via && l.addr == a) = some { via := via, addr := a, value := v }))
    ∧ (∃ via : Via, ∃ a : Nat, ∃ s : State, (s.power = true) ∧ (a < viaSize via) ∧ (a % 8 = 0) ∧ (s.viaOk via = true))
    ∧ (∃ via : Via, ∃ a : Nat, ∃ size : Nat, ∃ s : State, (s.power = true) ∧ (a < viaSize via) ∧ (((size ≠ 4 ∧ size ≠ 8) ∨ a % size ≠ 0 ∨ s.viaOk via = false)))
    ∧ (∃ p : Nat, ∃ s : State, (Live s) ∧ (p < 64) ∧ (s.now % 10000000 = 0) ∧ ((s.part p).sdEnd ≠ s.now))
    ∧ (∃ p : Nat, ∃ s : State, (Live s) ∧ (p < 64) ∧ (s.now % 10000000 = 0) ∧ ((s.part p).sdEnd ≠ s.now) ∧ (s.tiles = []))
    ∧ (∃ p : Nat, ∃ tot : Nat, ∃ f : Nat, ∃ hbm : Nat, ∃ tx : Nat, ∃ fab : Nat, ∃ lt : Nat, ∃ s : State, (s.power = true) ∧ ((s.part p).sdClosed = some (tot, f, hbm, tx, fab, lt)) ∧ (tot < 2 ^ 64) ∧ (f < 2 ^ 64))
    ∧ (∃ n : Nat, ∃ i : Nat, ∃ s : State, (Live s) ∧ (n < 128) ∧ (i < 1024)) :=
  ⟨⟨127, 1, withClient 127 { acct := { lots := 3 } }, by decide +kernel⟩,
   ⟨withClient 127 { acct := { lots := 3 } }, by decide +kernel⟩,
   ⟨.jtag, 0, live, by decide +kernel⟩,
   ⟨.jtag, 0x400A30, live, by decide +kernel⟩,
   ⟨.jtag, 0xA34, 5, { live with latches := [{ via := .jtag, addr := 0xA34, value := 5 }] }, by decide +kernel⟩,
   ⟨.jtag, 0x400A30, live, by decide +kernel⟩,
   ⟨.jtag, 1, 4, live, by decide +kernel⟩,
   ⟨63, { opLive run1 op1 with now := 10000000 }, by decide +kernel⟩,
   ⟨63, { live with parts := [(63, { strips := BitVec.twoPow 512 511, wBusy := 7 })], now := 10000000 }, by decide +kernel⟩,
   ⟨63, 100, 50, 10, 10, 10, 20, { live with parts := [(63, { sdClosed := some (100, 50, 10, 10, 10, 20) })] }, by decide +kernel⟩,
   ⟨127, 1023, withClient 127 { rslots := [(1023, { amax := 5 })] }, by decide +kernel⟩⟩

/-- The hypotheses of each clause of Obligations.registerWrites can be met. -/
theorem test_registerWrites_met :
    (∃ p : Nat, ∃ k : Nat, ∃ s : State, (Live s) ∧ (k < 4) ∧ (s.memOk (32 * k) = true) ∧ (p < 64))
    ∧ (∃ n : Nat, ∃ k : Nat, ∃ s : State, (Live s) ∧ (k < 4) ∧ (s.memOk (32 * k) = true) ∧ (n < 128))
    ∧ (∃ via : Via, ∃ a : Nat, ∃ size : Nat, ∃ s : State, (s.power = true) ∧ (a < viaSize via) ∧ (s.viaOk via = true) ∧ (¬((size = 4 ∨ size = 8) ∧ a % size = 0)) ∧ (inDoorbells (viaPlace via a) = false))
    ∧ (∃ via : Via, ∃ a : Nat, ∃ size : Nat, ∃ s : State, (s.power = true) ∧ (¬((size = 4 ∨ size = 8) ∧ a % size = 0)) ∧ (inDoorbells (viaPlace via a) = true)) :=
  ⟨⟨63, 3, { live with linkUp := links }, by decide +kernel⟩,
   ⟨127, 3, { live with linkUp := links }, by decide +kernel⟩,
   ⟨.jtag, 0, 2, live, by decide +kernel⟩,
   ⟨.vf 127, 0xF001, 4, live, by decide +kernel⟩⟩

/-- The hypotheses of each clause of Obligations.doorbellsAndMessages can be met. -/
theorem test_doorbellsAndMessages_met :
    (∃ n : Nat, ∃ q : Nat, ∃ pc : W32, ∃ s : State, (Live s) ∧ (((s.queue n q).state = .running ∨ (s.queue n q).state = .stopped)) ∧ ((pc - (s.queue n q).cc).toNat ≤ 2 ^ (s.queue n q).log2) ∧ ((pc - (s.queue n q).pc).toNat ≤ 2 ^ (s.queue n q).log2))
    ∧ (∃ n : Nat, ∃ q : Nat, ∃ pc : W32, ∃ s : State, (Live s) ∧ (((s.queue n q).state = .running ∨ (s.queue n q).state = .stopped)) ∧ ((2 ^ (s.queue n q).log2 < (pc - (s.queue n q).cc).toNat ∨ 2 ^ (s.queue n q).log2 < (pc - (s.queue n q).pc).toNat)))
    ∧ (∃ n : Nat, ∃ q : Nat, ∃ c : W32, ∃ s : State, (Live s) ∧ (((s.queue n q).state = .running ∨ (s.queue n q).state = .stopped)) ∧ ((c - (s.queue n q).consumed).toNat ≤ ((s.queue n q).ccount - (s.queue n q).consumed).toNat))
    ∧ (∃ n : Nat, ∃ q : Nat, ∃ c : W32, ∃ s : State, (Live s) ∧ (((s.queue n q).state = .running ∨ (s.queue n q).state = .stopped)) ∧ (((s.queue n q).ccount - (s.queue n q).consumed).toNat < (c - (s.queue n q).consumed).toNat))
    ∧ (∃ n : Nat, ∃ c : W32, ∃ s : State, (Live s) ∧ ((s.client n).out.enable = true) ∧ ((c - (s.client n).out.consumed).toNat ≤ ((s.client n).out.count - (s.client n).out.consumed).toNat) ∧ ((s.client n).lostSeqs = []))
    ∧ (∃ n : Nat, ∃ v : Nat, ∃ s : State, (s.power = true) ∧ ((s.client n).func.pendingBits = [v]) ∧ ((s.client n).func.funcMask = false) ∧ (s.canDma n = true))
    ∧ (∃ n : Nat, ∃ s : State, (s.power = true) ∧ ((s.client n).func.pendingBits = []))
    ∧ (∃ n : Nat, ∃ v : Nat, ∃ s : State, (s.power = true) ∧ ((s.client n).func.pendingBits = [v]) ∧ (v ∉ (s.client n).func.masked) ∧ (s.canDma n = true))
    ∧ (∃ n : Nat, ∃ q : Nat, ∃ s : State, (s.power = true) ∧ (q < 2) ∧ ((s.queue n q).pend ≠ 0) ∧ ((s.queue n q).coalTime ≠ 0) ∧ ((s.queue n q).oldest + 1000 * (s.queue n q).coalTime ≤ s.now) ∧ ((s.client n).func.funcMask = false) ∧ (q ∉ (s.client n).func.masked) ∧ (s.canDma n = true))
    ∧ (∃ n : Nat, ∃ s : State, (s.power = true) ∧ ((s.client n).out.pend ≠ 0) ∧ ((s.client n).out.coalTime ≠ 0) ∧ ((s.client n).out.oldest + 1000 * (s.client n).out.coalTime ≤ s.now) ∧ ((s.client n).func.funcMask = false) ∧ (2 ∉ (s.client n).func.masked) ∧ (s.canDma n = true)) :=
  ⟨⟨127, 1, 64, withClient 127 { q1 := { state := .running, log2 := 6, clog2 := 6 } }, by decide +kernel⟩,
   ⟨127, 1, 65, withClient 127 { q1 := { state := .stopped, log2 := 6, clog2 := 6 } }, by decide +kernel⟩,
   ⟨127, 1, 5, withClient 127 { q1 := { state := .running, log2 := 6, clog2 := 6, ccount := 5 } }, by decide +kernel⟩,
   ⟨127, 1, 6, withClient 127 { q1 := { state := .running, log2 := 6, clog2 := 6, ccount := 5 } }, by decide +kernel⟩,
   ⟨127, 1024, withClient 127 { out := { enable := true, log2 := 10, count := 1024 } }, by decide +kernel⟩,
   ⟨127, 3, { withClient 127 { func := { bme := true, pendingBits := [3] } } with linkUp := links }, by decide +kernel⟩,
   ⟨127, live, by decide +kernel⟩,
   ⟨96, 7, { withClient 96 { func := { bme := true, masked := [], funcMask := true, pendingBits := [7] } } with linkUp := links }, by decide +kernel⟩,
   ⟨127, 1, { withClient 127 { func := okFunc, q1 := { pend := 1, coalTime := 1 } } with linkUp := links, now := 1000 }, by decide +kernel⟩,
   ⟨127, { withClient 127 { func := okFunc, out := { pend := 1, coalTime := 65535 } } with linkUp := links, now := 65535000 }, by decide +kernel⟩⟩

/-- The hypotheses of each clause of Obligations.fetchAndAcceptance can be met. -/
theorem test_fetchAndAcceptance_met :
    (∃ n : Nat, ∃ q : Nat, ∃ s : State, (s.power = true) ∧ (s.canFetch n q = true) ∧ ((s.queue n q).fetchFail = none) ∧ ((s.queue n q).baseLoc = 0))
    ∧ (∃ n : Nat, ∃ q : Nat, ∃ s : State, (s.power = true) ∧ (s.canFetch n q = true) ∧ ((s.queue n q).fetchFail = none) ∧ ((s.queue n q).baseLoc = 1) ∧ ((s.queue n q).fetchAddr + 64 * (s.queue n q).fetchCount ≤ s.hbmTop))
    ∧ (∃ n : Nat, ∃ q : Nat, ∃ c : Nat, ∃ t0 : Nat, ∃ s : State, (s.power = true) ∧ (s.canFetch n q = true) ∧ ((s.queue n q).fetchFail = some { cause := c, at_ := t0 }) ∧ (t0 + 1000000 ≤ s.now) ∧ ((s.queue n q).baseLoc = 0))
    ∧ (∃ n : Nat, ∃ q : Nat, ∃ d : BitVec 512, ∃ r : List (BitVec 512), ∃ s : State, (s.power = true) ∧ (s.canAccept n q = true) ∧ ((s.queue n q).fetched = d :: r) ∧ ((∀ a ∈ (s.queue n q).accepted, a.fault = 0 ∧ a.chainOpen = false)) ∧ (acceptCodes (s.queue n q) d 0 = []) ∧ (dChain d = false))
    ∧ (∃ n : Nat, ∃ q : Nat, ∃ d : BitVec 512, ∃ r : List (BitVec 512), ∃ c : Nat, ∃ e : List Nat, ∃ s : State, (s.power = true) ∧ (s.canAccept n q = true) ∧ ((s.queue n q).fetched = d :: r) ∧ ((s.queue n q).accepted = []) ∧ (acceptCodes (s.queue n q) d 0 = c :: e) ∧ ((∀ x ∈ c :: e, x ≠ 0)) ∧ (dChain d = false) ∧ (((s.queue n q).cbaseLoc = 1 ∨ s.canDma n = true)) ∧ ((s.client n).func.held = []))
    ∧ (∃ n : Nat, ∃ q : Nat, ∃ tag : W32, ∃ d : ADesc, ∃ k : Nat, ∃ s : State, (s.power = true) ∧ (s.waiting? n q tag = some d) ∧ (d.timer + 1000 * (s.client n).depTimeout ≤ s.now) ∧ (k < 3) ∧ (s.depState n q d.desc k = .unseen) ∧ ((s.client n).dbg.halted = false) ∧ (((s.queue n q).cbaseLoc = 1 ∨ s.canDma n = true)) ∧ ((s.client n).func.held = [])) :=
  ⟨⟨127, 1, withQ fetchQ, by decide +kernel⟩,
   ⟨127, 1, withQ { fetchQ with baseLoc := 1 }, by decide +kernel⟩,
   ⟨127, 1, 2, 0, { withQ { fetchQ with fetchFail := some { cause := 2, at_ := 0 } } with now := 1000000 }, by decide +kernel⟩,
   ⟨127, 1, fenceDesc, [], withQ { fetchQ with fetched := [fenceDesc] }, by decide +kernel⟩,
   ⟨127, 1, 11 * 2 ^ 32, [], (acceptCodes fetchQ (11 * 2 ^ 32) 0).headD 0, (acceptCodes fetchQ (11 * 2 ^ 32) 0).tail, withQ { fetchQ with fetched := [11 * 2 ^ 32] }, by decide +kernel⟩,
   ⟨127, 1, 7, { adW with desc := adW.desc + 5 * 2 ^ 256 }, 0, { withQ { fetchQ with accepted := [{ adW with desc := adW.desc + 5 * 2 ^ 256 }] } with now := 1000000000 }, by decide +kernel⟩⟩

/-- The hypotheses of each clause of Obligations.queueControl can be met. -/
theorem test_queueControl_met :
    (∃ n : Nat, ∃ q : Nat, ∃ cfg : W32, ∃ s : State, (Live s) ∧ ((s.queue n q).state = .disabled) ∧ (6 ≤ bits cfg.toNat 4 0) ∧ (bits cfg.toNat 4 0 ≤ 16) ∧ (6 ≤ bits cfg.toNat 12 8) ∧ (bits cfg.toNat 12 8 ≤ 16))
    ∧ (∃ n : Nat, ∃ q : Nat, ∃ s : State, (Live s) ∧ (((s.queue n q).state = .running ∨ (s.queue n q).state = .stopped)) ∧ ((s.queue n q).accepted = []))
    ∧ (∃ n : Nat, ∃ q : Nat, ∃ s : State, (Live s) ∧ (((s.queue n q).state = .running ∨ (s.queue n q).state = .stopped)) ∧ ((s.queue n q).accepted ≠ []) ∧ ((∀ a ∈ (s.queue n q).accepted, a.state ≠ .waiting)))
    ∧ (∃ n : Nat, ∃ q : Nat, ∃ s : State, (Live s) ∧ ((s.queue n q).state = .tornDown))
    ∧ (∃ n : Nat, ∃ cfg : W32, ∃ s : State, (Live s) ∧ ((s.client n).out.enable = false) ∧ (10 ≤ bits cfg.toNat 4 0) ∧ (bits cfg.toNat 4 0 ≤ 20))
    ∧ (∃ s : State, (Live s))
    ∧ (∃ n : Nat, ∃ q : Nat, ∃ s : State, (s.power = true) ∧ ((s.queue n q).state = .stopped))
    ∧ (∃ n : Nat, ∃ q : Nat, ∃ s : State, (s.power = true) ∧ ((s.queue n q).state = .stopped) ∧ ((∀ a ∈ (s.queue n q).accepted, a.state ≠ .waiting)))
    ∧ (∃ n : Nat, ∃ q : Nat, ∃ d : ADesc, ∃ s : State, (s.power = true) ∧ ((s.queue n q).state = .stopped) ∧ ((s.queue n q).accepted = [d]) ∧ (d.state = .waiting) ∧ (((s.queue n q).cbaseLoc = 1 ∨ s.canDma n = true)) ∧ ((s.client n).func.held = [])) :=
  ⟨⟨127, 1, 0x1006, live, by decide +kernel⟩,
   ⟨127, 1, withQ { fetchQ with state := .stopped }, by decide +kernel⟩,
   ⟨127, 1, withQ { fetchQ with accepted := [{ adW with state := .started 1 }] }, by decide +kernel⟩,
   ⟨127, 1, withQ { state := .tornDown }, by decide +kernel⟩,
   ⟨127, 20, live, by decide +kernel⟩,
   ⟨live, by decide +kernel⟩,
   ⟨127, 1, withQ { fetchQ with state := .stopped }, by decide +kernel⟩,
   ⟨127, 1, withQ { fetchQ with state := .stopped, accepted := [{ adW with state := .started 1 }] }, by decide +kernel⟩,
   ⟨127, 1, adW, withQ { fetchQ with state := .stopped, accepted := [adW] }, by decide +kernel⟩⟩

/-- The hypotheses of each clause of Obligations.coldStart can be met. -/
theorem test_coldStart_met :
    (∃ s : State, (s.power = false))
    ∧ (∃ s : State, (s.power = true))
    ∧ (∃ s : State, (s.power = true) ∧ (s.frm.ledgerOp = none))
    ∧ (∃ a : BootImage, ∃ s : State, (s.power = true) ∧ (s.frm.state = .frameBoot) ∧ (imageValid a = true))
    ∧ (∃ a : BootImage, ∃ b : BootImage, ∃ s : State, (s.power = true) ∧ (s.frm.state = .frameBoot) ∧ (imageValid a = false) ∧ (imageValid b = true))
    ∧ (∃ a : BootImage, ∃ b : BootImage, ∃ s : State, (s.power = true) ∧ (s.frm.state = .frameBoot) ∧ (imageValid a = false) ∧ (imageValid b = false))
    ∧ (∃ d : Nat, ∃ s : State, (s.power = true) ∧ (s.frm.state = .domainUp) ∧ (d = s.frm.switched) ∧ (d < 16) ∧ (s.frm.stateTime + 50000000 * d ≤ s.now))
    ∧ (∃ r : Nat, ∃ l : List Nat, ∃ s : State, (s.power = true) ∧ (s.frm.state = .tileBist) ∧ (r = s.frm.rounds) ∧ (r < 3) ∧ ((∀ pt ∈ l, pt < 8704 ∧ domOfStrip (pt / 17) / 4 = r)))
    ∧ (∃ l : List Nat, ∃ s : State, (s.power = true) ∧ (s.frm.state = .tileBist) ∧ (s.frm.rounds = 3) ∧ ((∀ pt ∈ l, pt < 8704 ∧ domOfStrip (pt / 17) / 4 = 3)))
    ∧ (∃ k : Nat, ∃ s : State, (s.power = true) ∧ (s.frm.state = .ledgerMerge) ∧ (s.frm.newest = some k))
    ∧ (∃ s : State, (s.power = true) ∧ (s.frm.state = .ledgerMerge) ∧ (s.frm.newest = none) ∧ (s.frm.bistFailed = [])) :=
  ⟨⟨{ live with power := false, frm := { live.frm with ledger := [(0, 5)] } }, by decide +kernel⟩,
   ⟨live, by decide +kernel⟩,
   ⟨opLive run1 op1, by decide +kernel⟩,
   ⟨okImage, State.reset, by decide +kernel⟩,
   ⟨{ okImage with magic := 0 }, okImage, State.reset, by decide +kernel⟩,
   ⟨{ okImage with magic := 0 }, { okImage with version := 2, crc := 1 }, State.reset, by decide +kernel⟩,
   ⟨15, { State.reset with now := 750000000, frm := { State.reset.frm with state := .domainUp, switched := 15 } }, by decide +kernel⟩,
   ⟨2, [], { inState .tileBist with frm := { (inState .tileBist).frm with rounds := 2 } }, by decide +kernel⟩,
   ⟨[8703], { inState .tileBist with frm := { (inState .tileBist).frm with rounds := 3 } }, by decide +kernel⟩,
   ⟨0, { inState .ledgerMerge with frm := { (inState .ledgerMerge).frm with ledger := [(0, okSlot)] } }, rfl, rfl, okSlot_newest _ rfl⟩,
   ⟨inState .ledgerMerge, by decide +kernel⟩⟩

/-- The hypotheses of each clause of Obligations.trainingAndResets can be met. -/
theorem test_trainingAndResets_met :
    (∃ s : State, (s.power = true) ∧ (s.frm.state = .hbmTrain) ∧ (s.frm.rPch = 0))
    ∧ (∃ s : State, (s.power = true) ∧ (s.frm.state = .hbmTrain))
    ∧ (∃ s : State, (s.power = true) ∧ (s.frm.state = .txTrain) ∧ ((∀ p, p < 8 → (s.port p).state = .down)))
    ∧ (∃ p : Nat, ∃ e : Nat, ∃ s : State, (s.power = true) ∧ (s.frm.state = .txTrain) ∧ (p < 8) ∧ ((s.port p).state = .active) ∧ ((s.port p).farEp = some e) ∧ ((∀ k, k < 8 → k ≠ p → (s.port k).state = .down)))
    ∧ (∃ s : State, (s.power = true) ∧ (s.frm.state = .stackForm) ∧ (s.leadSeen = none) ∧ (s.otherWafers = []))
    ∧ (∃ s : State, (s.power = true) ∧ (s.frm.state = .stackForm) ∧ (s.isLead = false) ∧ (s.leadSeen = none) ∧ (s.otherWafers ≠ []) ∧ (s.frm.stateTime + 10000000000 ≤ s.now))
    ∧ (∃ m : Nat, ∃ s : State, (s.power = true) ∧ (startupMax s.frm.state = some m) ∧ (s.frm.stateTime + m < s.now))
    ∧ (∃ v : W32, ∃ s : State, (s.power = true) ∧ (s.frm.state ≠ .frameBoot) ∧ (bits v.toNat 15 0 = 0x5752) ∧ (bit v.toNat 16 = true) ∧ (s.frm.resetReq = none))
    ∧ (∃ s : State, (s.power = true))
    ∧ (∃ r : Nat, ∃ s : State, (s.power = true) ∧ (s.frm.resetReq = some r) ∧ (s.frm.ledgerOp = none) ∧ (s.pwr.lowering = none)) :=
  ⟨⟨inState .hbmTrain, by decide +kernel⟩,
   ⟨inState .hbmTrain, by decide +kernel⟩,
   ⟨inState .txTrain, by decide +kernel⟩,
   ⟨7, 1, { inState .txTrain with ports := [(7, { state := .active, farEp := some 1 })] }, by decide +kernel⟩,
   ⟨inState .stackForm, by decide +kernel⟩,
   ⟨{ inState .stackForm with now := 10000000000, frm := { (inState .stackForm).frm with waferId := 2, lead := false, stack := { members := [0, 2] } } }, by decide +kernel⟩,
   ⟨752000000, { inState .domainUp with now := 752000001 }, by decide +kernel⟩,
   ⟨0x15752, live, by decide +kernel⟩,
   ⟨live, by decide +kernel⟩,
   ⟨2, { opLive run1 op1 with frm := { live.frm with resetReq := some 2, guard := 7 } }, by decide +kernel⟩⟩

/-- The hypotheses of each clause of Obligations.portTraining can be met. -/
theorem test_portTraining_met :
    (∃ n : Nat, ∃ l : List Nat, ∃ s : State, (s.power = true) ∧ ((s.port n).state = .detect) ∧ (16 ≤ (sortUp (l.filter (· < 68))).length))
    ∧ (∃ n : Nat, ∃ s : State, (s.power = true) ∧ ((s.port n).state = .equalize))
    ∧ (∃ n : Nat, ∃ s : State, (s.power = true) ∧ ((s.port n).state = .fecLock))
    ∧ (∃ n : Nat, ∃ s : State, (s.power = true) ∧ ((s.port n).state = .laneTest) ∧ ((s.port n).since + 100000000 ≤ s.now))
    ∧ (∃ n : Nat, ∃ l : Nat, ∃ s : State, (s.power = true) ∧ (n < 8) ∧ (l < 68) ∧ ((s.port n).state = .equalize))
    ∧ (∃ n : Nat, ∃ l : Nat, ∃ s : State, (s.power = true) ∧ (n < 8) ∧ (l < 68) ∧ ((s.port n).state = .fecLock))
    ∧ (∃ n : Nat, ∃ s : State, (s.power = true) ∧ (n < 8) ∧ ((s.port n).state = .laneMap) ∧ ((∀ l, l < 68 → s.isRetired 1 (68 * n + l) = false ∧ s.probeOf 1 (68 * n + l) = none)) ∧ ((s.port n).pass = BitVec.allOnes 68))
    ∧ (∃ n : Nat, ∃ s : State, (s.power = true) ∧ (n < 8) ∧ ((s.port n).state = .laneMap))
    ∧ (∃ n : Nat, ∃ s : State, (s.power = true) ∧ ((s.port n).state = .deskew))
    ∧ (∃ n : Nat, ∃ s : State, (s.power = true) ∧ (trainMax (s.port n).state ≠ 0) ∧ ((s.port n).recSince = none) ∧ ((s.port n).since + trainMax (s.port n).state < s.now))
    ∧ (∃ n : Nat, ∃ t0 : Nat, ∃ s : State, (s.power = true) ∧ ((s.port n).recSince = some t0) ∧ (t0 + 1000000 ≤ s.now))
    ∧ (∃ n : Nat, ∃ s : State, (Live s) ∧ ((s.port n).state = .down) ∧ ((s.port n).enable = true) ∧ ((s.port n).lastTry + 1000000000 ≤ s.now)) :=
  ⟨⟨7, upTo 16, withPort { state := .detect }, by decide +kernel⟩,
   ⟨7, withPort { state := .equalize }, by decide +kernel⟩,
   ⟨7, withPort { state := .fecLock }, by decide +kernel⟩,
   ⟨7, { withPort { state := .laneTest } with now := 100000000 }, by decide +kernel⟩,
   ⟨7, 67, withPort { state := .equalize }, by decide +kernel⟩,
   ⟨7, 67, withPort { state := .fecLock }, by decide +kernel⟩,
   ⟨7, withPort { state := .laneMap }, by decide +kernel⟩,
   ⟨7, withPort { state := .laneMap }, by decide +kernel⟩,
   ⟨7, withPort { state := .deskew }, by decide +kernel⟩,
   ⟨7, { withPort { state := .laneMap } with now := 10000001 }, by decide +kernel⟩,
   ⟨7, 0, { withPort { state := .detect, recSince := some 0 } with now := 1000000 }, by decide +kernel⟩,
   ⟨7, { withPort { state := .down } with now := 1000000000 }, by decide +kernel⟩⟩

/-- The hypotheses of each clause of Obligations.flits can be met. -/
theorem test_flits_met :
    (∃ n : Nat, ∃ v : BitVec 2048, ∃ f : Flit, ∃ s : State, (s.power = true) ∧ ((s.port n).state = .init) ∧ (flitOf v = (f, true, true)) ∧ (initGood (f, true, true) = true) ∧ (bit (leVal (f.payload.take 4) % 2 ^ 32) 25 = false))
    ∧ (∃ n : Nat, ∃ v : BitVec 2048, ∃ f : Flit, ∃ s : State, (s.power = true) ∧ ((s.port n).state = .init) ∧ ((s.port n).resetting = false) ∧ (s.stk.unsent = []) ∧ (flitOf v = (f, true, true)) ∧ (initGood (f, true, true) = true) ∧ (bit (leVal (f.payload.take 4) % 2 ^ 32) 25 = true) ∧ (bit (leVal (f.payload.take 4) % 2 ^ 32) 24 = false))
    ∧ (∃ n : Nat, ∃ v : BitVec 2048, ∃ s : State, (s.power = true) ∧ ((s.port n).state = .init) ∧ ((flitOf v).2.1 = false))
    ∧ (∃ n : Nat, ∃ v : BitVec 2048, ∃ f : Flit, ∃ s : State, (s.power = true) ∧ ((s.port n).state = .active) ∧ (flitOf v = (f, true, true)) ∧ (f.kind = 0) ∧ (f.len = 0) ∧ (f.nak = false) ∧ ((s.port n).held = []) ∧ ((s.port n).retireWait = none))
    ∧ (∃ n : Nat, ∃ v : BitVec 2048, ∃ l : Nat, ∃ k : Nat, ∃ s : State, (s.power = true) ∧ (n < 8) ∧ (l < 68) ∧ (0 < k) ∧ ((s.port n).state = .active) ∧ ((flitOf v).2.1 = false) ∧ (Steady s 1 (68 * n + l)))
    ∧ (∃ n : Nat, ∃ v : BitVec 2048, ∃ s : State, (s.power = true) ∧ ((s.port n).state = .active) ∧ ((flitOf v).2.1 = false))
    ∧ (∃ n : Nat, ∃ v : BitVec 2048, ∃ s : State, (s.power = true) ∧ ((s.port n).state = .active) ∧ ((flitOf v).2.1 = false) ∧ ((s.port n).episode = false))
    ∧ (∃ n : Nat, ∃ v : BitVec 2048, ∃ f : Flit, ∃ s : State, (s.power = true) ∧ ((s.port n).state = .active) ∧ (flitOf v = (f, true, true)) ∧ (f.kind = 1) ∧ (1 ≤ f.len) ∧ (f.len ≤ 240) ∧ (f.vc < 4) ∧ (f.seq = (s.port n).expect) ∧ (f.nak = false) ∧ ((s.port n).held = []) ∧ ((s.port n).retireWait = none) ∧ ((s.port n).rx = [none, none, none, none]) ∧ (f.sot = true) ∧ (f.eot = false))
    ∧ (∃ n : Nat, ∃ v : BitVec 2048, ∃ f : Flit, ∃ l : Nat, ∃ s : State, (s.power = true) ∧ (n < 8) ∧ (l < 68) ∧ ((s.port n).state = .active) ∧ (flitOf v = (f, true, true)) ∧ (f.kind = 2) ∧ (1 ≤ f.len) ∧ (f.len ≤ 240) ∧ (f.seq = (s.port n).expect) ∧ (f.nak = false) ∧ ((s.port n).held = []) ∧ ((s.port n).retireWait = none) ∧ (f.payload = [0x10, BitVec.ofNat 8 l]) ∧ (s.isRetired 1 (68 * n + l) = false) ∧ (s.probeOf 1 (68 * n + l) = none))
    ∧ (∃ n : Nat, ∃ s : State, (s.power = true) ∧ ((s.port n).state = .active) ∧ ((s.port n).replay = none) ∧ ((s.port n).held.length < 512) ∧ ((s.port n).ctrlQ = []) ∧ ((s.port n).nextVc = none) ∧ ((s.port n).nak = false))
    ∧ (∃ n : Nat, ∃ v : Nat, ∃ c : Chunk, ∃ r : List Chunk, ∃ s : State, (s.power = true) ∧ ((s.port n).state = .active) ∧ ((s.port n).replay = none) ∧ ((s.port n).held.length < 512) ∧ ((s.port n).ctrlQ = []) ∧ ((s.port n).nextVc = some v) ∧ (v < 4) ∧ ((s.port n).vcQ.getD v [] = c :: r) ∧ ((s.port n).vcQ.length = 4) ∧ ((s.port n).sent.length = 4))
    ∧ (∃ n : Nat, ∃ h : Held, ∃ r : List Held, ∃ s : State, (s.power = true) ∧ ((s.port n).state = .active) ∧ ((s.port n).held = h :: r) ∧ ((s.port n).replay = some h.seq) ∧ ((∀ x ∈ r, x.seq ≠ h.seq)))
    ∧ (∃ n : Nat, ∃ s : State, (s.power = true) ∧ ((s.port n).state = .init) ∧ ((s.port n).lastInit + 1000 ≤ s.now))
    ∧ (∃ n : Nat, ∃ s : State, (s.power = true) ∧ ((s.port n).episode = true) ∧ ((s.port n).nak = false) ∧ ((s.port n).nakAt + 1000 ≤ s.now))
    ∧ (∃ n : Nat, ∃ h : Held, ∃ r : List Held, ∃ s : State, (s.power = true) ∧ ((s.port n).state = .active) ∧ ((s.port n).held = h :: r) ∧ ((s.port n).replay = none) ∧ (h.sentAt + (s.port n).ackTimeout ≤ s.now) ∧ ((s.port n).replayOf ≠ h.seq) ∧ ((s.port n).replayLimit ≠ 0))
    ∧ (∃ n : Nat, ∃ h : Held, ∃ r : List Held, ∃ s : State, (s.power = true) ∧ ((s.port n).state = .active) ∧ ((s.port n).held = h :: r) ∧ ((s.port n).replay = none) ∧ (h.sentAt + (s.port n).ackTimeout ≤ s.now) ∧ ((s.port n).replayOf = h.seq) ∧ ((s.port n).replayLimit ≤ (s.port n).replays)) :=
  ⟨⟨7, flitBits initU, (flitOf (flitBits initU)).1, withPort { state := .init }, by decide +kernel⟩,
   ⟨7, flitBits initV, (flitOf (flitBits initV)).1, withPort { state := .init, resetting := false, sendSeq := 9 }, by decide +kernel⟩,
   ⟨7, 5, withPort { state := .init }, by decide +kernel⟩,
   ⟨7, flitBits idleF, (flitOf (flitBits idleF)).1, withPort { state := .active }, by decide +kernel⟩,
   ⟨7, 5, 67, 1, withPort { state := .active }, by decide +kernel⟩,
   ⟨7, 5, withPort { state := .active }, by decide +kernel⟩,
   ⟨7, 5, withPort { state := .active }, by decide +kernel⟩,
   ⟨7, flitBits dataF, (flitOf (flitBits dataF)).1, withPort { state := .active, expect := 5 }, by decide +kernel⟩,
   ⟨7, flitBits laneF, (flitOf (flitBits laneF)).1, 67, withPort { state := .active, expect := 5 }, by decide +kernel⟩,
   ⟨7, withPort { state := .active }, by decide +kernel⟩,
   ⟨7, 3, { len := 1, sot := true, eot := true, payload := [9] }, [], withPort { state := .active, vcQ := [[], [], [], [{ len := 1, sot := true, eot := true, payload := [9] }]], peerCred := [4, 4, 4, 4], peer := 5 }, by decide +kernel⟩,
   ⟨7, held1, [], withPort { state := .active, held := [held1], replay := some 5 }, by decide +kernel⟩,
   ⟨7, { withPort { state := .init } with now := 1000 }, by decide +kernel⟩,
   ⟨7, { withPort { state := .active, episode := true } with now := 1000 }, by decide +kernel⟩,
   ⟨7, held1, [], { withPort { state := .active, held := [held1] } with now := 2000 }, by decide +kernel⟩,
   ⟨7, held1, [], { withPort { state := .active, held := [held1], replayOf := 5, replays := 4 } with now := 2000 }, by decide +kernel⟩⟩

/-- The hypotheses of each clause of Obligations.portControl can be met. -/
theorem test_portControl_met :
    (∃ n : Nat, ∃ l : Nat, ∃ s : State, (s.power = true) ∧ (n < 8) ∧ (l < 68) ∧ ((s.port n).state ≠ .active) ∧ (Steady s 1 (68 * n + l)))
    ∧ (∃ n : Nat, ∃ l : Nat, ∃ s : State, (s.power = true) ∧ (n < 8) ∧ (l < 68) ∧ ((s.port n).state = .active) ∧ (((s.port n).lane l).state = .active) ∧ ((s.port n).episode = false) ∧ (Steady s 1 (68 * n + l)))
    ∧ (∃ n : Nat, ∃ l : Nat, ∃ s : State, (s.power = true) ∧ (n < 8) ∧ (l < 68) ∧ (((s.port n).lane l).state ≠ .active) ∧ (Steady s 1 (68 * n + l)))
    ∧ (∃ n : Nat, ∃ l : Nat, ∃ s : State, (s.power = true) ∧ (n < 8) ∧ (l < 68) ∧ ((s.port n).state = .active) ∧ (((s.port n).lane l).state = .active) ∧ (Steady s 1 (68 * n + l)))
    ∧ (∃ n : Nat, ∃ q : Nat, ∃ t0 : Nat, ∃ s : State, (s.power = true) ∧ ((s.port n).retireWait = some (q, t0)) ∧ (t0 + 2000 ≤ s.now) ∧ ((s.port n).needsRecovery = false))
    ∧ (∃ n : Nat, ∃ q : Nat, ∃ t0 : Nat, ∃ s : State, (s.power = true) ∧ ((s.port n).state = .active) ∧ ((s.port n).retireWait = some (q, t0)) ∧ (t0 + 2000 ≤ s.now) ∧ ((s.port n).needsRecovery = true))
    ∧ (∃ n : Nat, ∃ s : State, (Live s) ∧ (n < 8) ∧ ((s.port n).enable = true) ∧ ((∀ r ∈ s.stk.requests, r.2.2.2 ≠ some n)))
    ∧ (∃ n : Nat, ∃ s : State, (Live s) ∧ (n < 8) ∧ ((s.port n).state = .active))
    ∧ (∃ n : Nat, ∃ s : State, (Live s) ∧ (n < 8) ∧ ((s.port n).enable = false))
    ∧ (∃ n : Nat, ∃ s : State, (Live s) ∧ (n < 8) ∧ ((s.port n).enable = true)) :=
  ⟨⟨7, 67, withPort {}, by decide +kernel⟩,
   ⟨7, 67, withPort { state := .active, lanes := [(67, { state := .active })] }, by decide +kernel⟩,
   ⟨7, 67, withPort {}, by decide +kernel⟩,
   ⟨7, 67, withPort { state := .active, lanes := [(67, { state := .active })] }, by decide +kernel⟩,
   ⟨7, 5, 0, { withPort { state := .active, retireWait := some (5, 0) } with now := 2000 }, by decide +kernel⟩,
   ⟨7, 5, 0, { withPort { state := .active, retireWait := some (5, 0), lanes := [(67, { state := .retired, logical := some 3 })], width := 64 } with now := 2000 }, by decide +kernel⟩,
   ⟨7, withPort { state := .active }, by decide +kernel⟩,
   ⟨7, withPort { state := .active }, by decide +kernel⟩,
   ⟨7, withPort { enable := false }, by decide +kernel⟩,
   ⟨7, withPort { state := .active }, by decide +kernel⟩⟩

/-- The hypotheses of each clause of Obligations.remoteAccesses can be met. -/
theorem test_remoteAccesses_met :
    (∃ m : Sys2Proof.Trans, ∃ a : Nat, ∃ s : State, (s.power = true) ∧ (Here s m) ∧ (m.typ = 1) ∧ (m.resp = false) ∧ (s.target m = .hbm a) ∧ (s.hbmWaits a m.len = false))
    ∧ (∃ m : Sys2Proof.Trans, ∃ a : Nat, ∃ o : Nat, ∃ s : State, (s.power = true) ∧ (Here s m) ∧ (m.typ = 1) ∧ (m.resp = false) ∧ (s.target m = .vat a o) ∧ ((s.partOfTile a).any s.flipWaits = false))
    ∧ (∃ m : Sys2Proof.Trans, ∃ s : State, (s.power = true) ∧ (Here s m) ∧ (m.typ = 1) ∧ (m.resp = false) ∧ (s.target m = .refused))
    ∧ (∃ m : Sys2Proof.Trans, ∃ p : Nat, ∃ s : State, (s.power = true) ∧ (s.firstIn m = true) ∧ (m.dst ≠ s.frm.waferId) ∧ (m.typ = 1) ∧ (m.resp = false) ∧ (s.route m.dst = some p))
    ∧ (∃ m : Sys2Proof.Trans, ∃ a : Nat, ∃ k : Nat, ∃ since : Nat, ∃ r : TileRun, ∃ u : CUnit, ∃ s : State, (s.power = true) ∧ (Here s m) ∧ (m.typ = 1) ∧ (m.resp = true) ∧ (m.status = 0) ∧ (Awaits s m u) ∧ ((∀ x ∈ u.waitMerge, x.1 ≠ m.tid.toNat)) ∧ ((∀ x ∈ u.waitRd, x.1 ≠ m.tid.toNat)) ∧ (u.allTiles = [a]) ∧ ((s.tile a).run = some r) ∧ (r.unit = u.id) ∧ (r.stall = some (.remote (.wafer m.tid.toNat) k none since)))
    ∧ (∃ m : Sys2Proof.Trans, ∃ u : CUnit, ∃ s : State, (s.power = true) ∧ (Here s m) ∧ (m.typ = 1) ∧ (m.resp = true) ∧ (m.status ≠ 0) ∧ (Awaits s m u) ∧ (u.phase ≠ .committed))
    ∧ (∃ m : Sys2Proof.Trans, ∃ u : CUnit, ∃ s : State, (s.power = true) ∧ (Here s m) ∧ (m.typ = 1) ∧ (m.resp = true) ∧ (m.status ≠ 0) ∧ (Awaits s m u) ∧ (u.phase = .committed))
    ∧ (∃ m : Sys2Proof.Trans, ∃ a : Nat, ∃ s : State, (s.power = true) ∧ (Here s m) ∧ (m.typ = 2) ∧ (m.resp = false) ∧ (s.target m = .hbm a) ∧ (s.hbmWaits a m.len = false))
    ∧ (∃ m : Sys2Proof.Trans, ∃ a : Nat, ∃ o : Nat, ∃ s : State, (s.power = true) ∧ (Here s m) ∧ (m.typ = 2) ∧ (m.resp = false) ∧ (s.target m = .vat a o) ∧ ((s.partOfTile a).any s.flipWaits = false))
    ∧ (∃ m : Sys2Proof.Trans, ∃ s : State, (s.power = true) ∧ (Here s m) ∧ (m.typ = 2) ∧ (m.resp = false) ∧ (s.target m = .refused))
    ∧ (∃ m : Sys2Proof.Trans, ∃ u : CUnit, ∃ s : State, (s.power = true) ∧ (Here s m) ∧ (m.typ = 2) ∧ (m.resp = true) ∧ (Awaits s m u))
    ∧ (∃ m : Sys2Proof.Trans, ∃ a : Nat, ∃ s : State, (s.power = true) ∧ (Here s m) ∧ (m.typ = 3) ∧ (s.target m = .hbm a) ∧ (isFabric m = false) ∧ (s.hbmWaits a m.len = false))
    ∧ (∃ m : Sys2Proof.Trans, ∃ s : State, (s.power = true) ∧ (Here s m) ∧ (m.typ = 3) ∧ (s.target m = .refused) ∧ (isFabric m = false))
    ∧ (∃ m : Sys2Proof.Trans, ∃ u : CUnit, ∃ d : Nat, ∃ s : State, (s.power = true) ∧ (Here s m) ∧ (m.typ = 3) ∧ (s.target m = .refused) ∧ (isFabric m = true) ∧ (s.fabricUnit m = some u) ∧ (u.first = 0) ∧ (u.tiles = [d]) ∧ (leVal ((m.data.drop 12).take 4) = 0) ∧ (leVal ((m.data.drop 32).take 1) = 2)) :=
  ⟨⟨toHbm 1, 4032, net (toHbm 1) hbmClient, by decide +kernel⟩,
   ⟨toVat 1, 8191, 65536 * 47 - 64, netVat (toVat 1), by decide +kernel⟩,
   ⟨toNone 1, net (toNone 1), by decide +kernel⟩,
   ⟨{ toHbm 1 with src := 0, dst := 1 }, 7, net { toHbm 1 with src := 0, dst := 1 }, by decide +kernel⟩,
   ⟨{ resp 1 0 with data := List.replicate 64 5 }, 8191, 64, 0, { run1 with stall := some (.remote (.wafer 9) 64 none 0) }, op1, netOp { resp 1 0 with data := List.replicate 64 5 } { run1 with stall := some (.remote (.wafer 9) 64 none 0) } op1 [(9, 1, 1, some 7)], by decide +kernel⟩,
   ⟨resp 1 1, op1, netOp (resp 1 1) { run1 with stall := some (.remote (.wafer 9) 64 none 0) } op1 [(9, 1, 1, some 7)], by decide +kernel⟩,
   ⟨resp 1 1, { op1 with phase := .committed }, netOp (resp 1 1) run1 { op1 with phase := .committed } [(9, 1, 1, some 7)], by decide +kernel⟩,
   ⟨toHbm 2, 4032, net (toHbm 2) hbmClient, by decide +kernel⟩,
   ⟨toVat 2, 8191, 65536 * 47 - 64, netVat (toVat 2), by decide +kernel⟩,
   ⟨toNone 2, net (toNone 2), by decide +kernel⟩,
   ⟨resp 2 1, { op1 with phase := .committed, waitWr := [9] }, netOp (resp 2 1) run1 { op1 with phase := .committed, waitWr := [9] } [(9, 1, 1, some 7)], by decide +kernel⟩,
   ⟨toHbm 3, 4032, net (toHbm 3) hbmClient, by decide +kernel⟩,
   ⟨toNone 3, net (toNone 3), by decide +kernel⟩,
   ⟨fabIn, op1Home, 8191, netOp fabIn run1 op1Home, by decide +kernel⟩⟩

/-- The hypotheses of each clause of Obligations.forwardedUnits can be met. -/
theorem test_forwardedUnits_met :
    (∃ m : Sys2Proof.Trans, ∃ s : State, (s.power = true) ∧ (Here s m) ∧ (m.typ = 4) ∧ (m.resp = false) ∧ (s.lentPart m.src (leVal (((m.data.drop 64).drop 8).take 1) % 64) = none))
    ∧ (∃ m : Sys2Proof.Trans, ∃ p : Nat, ∃ a : Nat, ∃ s : State, (s.power = true) ∧ (Here s m) ∧ (m.typ = 4) ∧ (m.resp = false) ∧ (s.lentPart m.src (leVal (((m.data.drop 64).drop 8).take 1) % 64) = some p) ∧ (m.data.length = 96) ∧ (s.startCodes m.client [BitVec.ofNat 512 (leVal (m.data.take 64))] = []) ∧ (bit (leVal (((m.data.drop 64).drop 12).take 4)) 31 = true) ∧ (s.tilesOf p = [a]))
    ∧ (∃ m : Sys2Proof.Trans, ∃ p : Nat, ∃ s : State, (s.power = true) ∧ (Here s m) ∧ (m.typ = 4) ∧ (m.resp = false) ∧ (s.lentPart m.src (leVal (((m.data.drop 64).drop 8).take 1) % 64) = some p) ∧ (m.data.length = 96) ∧ (s.startCodes m.client [BitVec.ofNat 512 (leVal (m.data.take 64))] = []) ∧ (bit (leVal (((m.data.drop 64).drop 12).take 4)) 31 = false) ∧ ((s.part p).rebuilding = true) ∧ (s.unit? s.nextUnit = none))
    ∧ (∃ m : Sys2Proof.Trans, ∃ u : CUnit, ∃ s : State, (s.power = true) ∧ (Here s m) ∧ (m.typ = 4) ∧ (m.resp = true) ∧ (Awaits s m u) ∧ ((m.status = 0 ∨ u.phase = .committed ∨ u.phase = .killed)))
    ∧ (∃ m : Sys2Proof.Trans, ∃ u : CUnit, ∃ s : State, (s.power = true) ∧ (Here s m) ∧ (m.typ = 4) ∧ (m.resp = true) ∧ (Awaits s m u) ∧ (m.status ≠ 0) ∧ (u.phase ≠ .committed) ∧ (u.phase ≠ .killed)) :=
  ⟨⟨fwd 0, net (fwd 0), by decide +kernel⟩,
   ⟨fwd (2 ^ 31 + 5), 63, 8176, lent (fwd (2 ^ 31 + 5)), by decide +kernel⟩,
   ⟨fwd 0, 63, { lent (fwd 0) with parts := [(63, { strips := BitVec.twoPow 512 511, homeEn := true, homeWafer := 1, homePart := 5, rebuilding := true })] }, by decide +kernel⟩,
   ⟨resp 4 0, op1, netOp (resp 4 0) run1 op1 [(9, 1, 1, some 7)], by decide +kernel⟩,
   ⟨resp 4 1, op1, netOp (resp 4 1) run1 op1 [(9, 1, 1, some 7)], by decide +kernel⟩⟩

/-- The hypotheses of each clause of Obligations.memberSignals can be met. -/
theorem test_memberSignals_met :
    (∃ m : Sys2Proof.Trans, ∃ u : CUnit, ∃ s : State, (s.power = true) ∧ (Here s m) ∧ (isSync m 4 = true) ∧ (s.homeUnit m (some (leVal ((m.data.drop 8).take 4))) = some u) ∧ ((u.phase = .running ∨ u.phase = .ready ∨ u.phase = .saved)) ∧ (m.src ∈ u.waitReady))
    ∧ (∃ m : Sys2Proof.Trans, ∃ u : CUnit, ∃ s : State, (s.power = true) ∧ (Here s m) ∧ (isSync m 5 = true) ∧ (s.homeUnit m none = some u) ∧ ((u.phase = .running ∨ u.phase = .saved)) ∧ ((m.src, leVal ((m.data.drop 4).take 1)) ∉ u.waitBarrier))
    ∧ (∃ m : Sys2Proof.Trans, ∃ u : CUnit, ∃ a : Nat, ∃ b : Nat, ∃ c : Nat, ∃ r : TileRun, ∃ s : State, (s.power = true) ∧ (Here s m) ∧ (isSync m 6 = true) ∧ (s.awayUnit m none = some u) ∧ (u.tiles = [a]) ∧ ((s.tile a).run = some r) ∧ (r.unit = u.id) ∧ (r.stall = some (.barrier (leVal ((m.data.drop 4).take 1)) b c)))
    ∧ (∃ m : Sys2Proof.Trans, ∃ u : CUnit, ∃ s : State, (s.power = true) ∧ (Here s m) ∧ (isSync m 7 = true) ∧ (s.homeUnit m none = some u) ∧ (u.phase = .running) ∧ ((s.sideRuns u .main).all (fun x => x.2.pass == 2) = false))
    ∧ (∃ m : Sys2Proof.Trans, ∃ u : CUnit, ∃ a : Nat, ∃ r : TileRun, ∃ s : State, (s.power = true) ∧ (Here s m) ∧ (isSync m 8 = true) ∧ (s.awayUnit m none = some u) ∧ (s.unit? u.id = some u) ∧ (u.tiles = [a]) ∧ ((s.tile a).run = some r) ∧ (r.unit = u.id) ∧ (r.ready = true) ∧ (r.pass = 1))
    ∧ (∃ m : Sys2Proof.Trans, ∃ s : State, (s.power = true) ∧ (Here s m) ∧ (isSync m 9 = true) ∧ (s.awayUnit m (some (leVal ((m.data.drop 8).take 4))) = none))
    ∧ (∃ m : Sys2Proof.Trans, ∃ u : CUnit, ∃ s : State, (s.power = true) ∧ (Here s m) ∧ (isSync m 9 = true) ∧ (s.awayUnit m (some (leVal ((m.data.drop 8).take 4))) = some u) ∧ (u.phase ≠ .committed) ∧ (u.phase ≠ .ready) ∧ (bit (leVal ((m.data.drop 4).take 1)) 0 = true))
    ∧ (∃ m : Sys2Proof.Trans, ∃ u : CUnit, ∃ s : State, (s.power = true) ∧ (Here s m) ∧ (isSync m 9 = true) ∧ (s.awayUnit m (some (leVal ((m.data.drop 8).take 4))) = some u) ∧ (u.phase ≠ .committed) ∧ (bit (leVal ((m.data.drop 4).take 1)) 0 = false))
    ∧ (∃ m : Sys2Proof.Trans, ∃ u : CUnit, ∃ s : State, (s.power = true) ∧ (Here s m) ∧ (m.typ = 7) ∧ (m.resp = true) ∧ (bits m.arg.toNat 7 0 = 9) ∧ (Awaits s m u)) :=
  ⟨⟨sync 4 (leBytes 0 12), op1Home, netOp (sync 4 (leBytes 0 12)) run1 op1Home, by decide +kernel⟩,
   ⟨sync 5 (leBytes 3 4), op1Home, netOp (sync 5 (leBytes 3 4)) run1 op1Home, by decide +kernel⟩,
   ⟨sync 6 (leBytes 3 4), op1Away, 8191, 0, 0, { run1 with stall := some (.barrier 3 0 0) }, netOp (sync 6 (leBytes 3 4)) { run1 with stall := some (.barrier 3 0 0) } op1Away, by decide +kernel⟩,
   ⟨sync 7 (leBytes 0 4), op1Home, netOp (sync 7 (leBytes 0 4)) { run1 with pass := 1 } op1Home, by decide +kernel⟩,
   ⟨sync 8 (leBytes 0 4), op1Away, 8191, { run1 with pass := 1, ready := true }, netOp (sync 8 (leBytes 0 4)) { run1 with pass := 1, ready := true } op1Away, by decide +kernel⟩,
   ⟨sync 9 (leBytes 1 12), net (sync 9 (leBytes 1 12)), by decide +kernel⟩,
   ⟨sync 9 (leBytes 1 12), op1Away, netOp (sync 9 (leBytes 1 12)) run1 op1Away, by decide +kernel⟩,
   ⟨sync 9 (leBytes 0 12), op1Away, netOp (sync 9 (leBytes 0 12)) run1 op1Away, by decide +kernel⟩,
   ⟨{ resp 7 0 with arg := 9 }, { op1 with phase := .committed, waitFlip := [1] }, netOp { resp 7 0 with arg := 9 } run1 { op1 with phase := .committed, waitFlip := [1] } [(9, 1, 1, some 7)], by decide +kernel⟩⟩

/-- The hypotheses of each clause of Obligations.stackAdmissions can be met. -/
theorem test_stackAdmissions_met :
    (∃ m : Sys2Proof.Trans, ∃ n : Nat, ∃ s : State, (s.power = true) ∧ (Here s m) ∧ (isSync m 1 = true) ∧ (s.frm.role = 1) ∧ (m.src < 16) ∧ (s.stk.rebuilding = none) ∧ (leVal ((m.data.drop 4).take 1) % 128 = n) ∧ (s.stackCount n < (s.client n).stackQuota))
    ∧ (∃ m : Sys2Proof.Trans, ∃ n : Nat, ∃ s : State, (s.power = true) ∧ (Here s m) ∧ (isSync m 1 = true) ∧ (s.frm.role = 1) ∧ (m.src < 16) ∧ (s.stk.rebuilding = none) ∧ (leVal ((m.data.drop 4).take 1) % 128 = n) ∧ ((s.client n).stackQuota ≤ s.stackCount n))
    ∧ (∃ m : Sys2Proof.Trans, ∃ s : State, (s.power = true) ∧ (Here s m) ∧ (isSync m 1 = true) ∧ (s.frm.role = 1) ∧ (m.src < 16) ∧ (s.stk.rebuilding ≠ none))
    ∧ (∃ m : Sys2Proof.Trans, ∃ s : State, (s.power = true) ∧ (Here s m) ∧ (isSync m 1 = true) ∧ ((s.frm.role ≠ 1 ∨ 16 ≤ m.src)))
    ∧ (∃ m : Sys2Proof.Trans, ∃ n : Nat, ∃ s : State, (s.power = true) ∧ (Here s m) ∧ (isSync m 2 = true) ∧ (s.frm.role = 1) ∧ (m.src < 16) ∧ (leVal ((m.data.drop 4).take 1) % 128 = n))
    ∧ (∃ m : Sys2Proof.Trans, ∃ s : State, (s.power = true) ∧ (Here s m) ∧ (isSync m 3 = true) ∧ (s.frm.role = 1) ∧ (m.src < 16))
    ∧ (∃ t0 : Nat, ∃ s : State, (s.power = true) ∧ (s.stk.rebuilding = some ([], t0)) ∧ (s.stk.waitingReqs = []) ∧ ((∀ n, n < 128 → (s.client n).admits = [])))
    ∧ (∃ m : Sys2Proof.Trans, ∃ w : AdmitWait, ∃ d : ADesc, ∃ s : State, (s.power = true) ∧ (Here s m) ∧ (m.typ = 7) ∧ (m.resp = true) ∧ (bits m.arg.toNat 7 0 = 1) ∧ (m.status = 0) ∧ (s.awaited m = some 0) ∧ ((s.client m.client).admits = [w]) ∧ (w.tid = m.tid.toNat) ∧ (w.answer = none) ∧ (s.admitDesc m.client w.q w.tag = some d) ∧ (dTag d.desc = w.tag) ∧ (s.refusal m.client d = 0) ∧ ((s.client m.client).build = none) ∧ (s.recordsDone m.client w.q = true) ∧ ((s.client m.client).dbg.stepDesc = none))
    ∧ (∃ m : Sys2Proof.Trans, ∃ w : AdmitWait, ∃ d : ADesc, ∃ s : State, (s.power = true) ∧ (Here s m) ∧ (m.typ = 7) ∧ (m.resp = true) ∧ (bits m.arg.toNat 7 0 = 1) ∧ (m.status ≠ 0) ∧ (s.awaited m = some 0) ∧ ((s.client m.client).admits = [w]) ∧ (w.tid = m.tid.toNat) ∧ (w.answer = none) ∧ (s.admitDesc m.client w.q w.tag = some d) ∧ (dTag d.desc = w.tag) ∧ ((s.client m.client).build = none) ∧ (s.recordsDone m.client w.q = true))
    ∧ (∃ m : Sys2Proof.Trans, ∃ w : AdmitWait, ∃ s : State, (s.power = true) ∧ (Here s m) ∧ (m.typ = 7) ∧ (m.resp = true) ∧ (bits m.arg.toNat 7 0 = 1) ∧ (s.awaited m = some 0) ∧ ((s.client m.client).admits = [w]) ∧ (w.tid = m.tid.toNat) ∧ (w.answer = none) ∧ ((s.client m.client).build ≠ none))
    ∧ (∃ n : Nat, ∃ w : AdmitWait, ∃ d : ADesc, ∃ s : State, (s.power = true) ∧ ((s.client n).admits = [w]) ∧ (w.answer = none) ∧ (w.since + 1000 * s.frm.leadLoss + 20000000 ≤ s.now) ∧ (s.admitDesc n w.q w.tag = some d) ∧ (dTag d.desc = w.tag) ∧ ((s.client n).build = none) ∧ (s.recordsDone n w.q = true)) :=
  ⟨⟨{ sync 1 [] with data := leBytes 5 4 ++ leBytes 127 4 }, 127, net { sync 1 [] with data := leBytes 5 4 ++ leBytes 127 4 }, by decide +kernel⟩,
   ⟨{ sync 1 [] with data := leBytes 5 4 ++ leBytes 127 4 }, 127, net { sync 1 [] with data := leBytes 5 4 ++ leBytes 127 4 } { stackQuota := 0 }, by decide +kernel⟩,
   ⟨sync 1 [], { net (sync 1 []) with stk := { rebuilding := some ([1], 0) } }, by decide +kernel⟩,
   ⟨sync 1 [], { net (sync 1 []) with frm := live.frm, ports := [] }, by decide +kernel⟩,
   ⟨{ sync 2 [] with data := leBytes 5 4 ++ leBytes 127 4 }, 127, { net { sync 2 [] with data := leBytes 5 4 ++ leBytes 127 4 } with stk := { counts := [(255, 3)] } }, by decide +kernel⟩,
   ⟨{ sync 3 [] with data := (upTo 128).flatMap fun n => leBytes n 4 }, { net { sync 3 [] with data := (upTo 128).flatMap fun n => leBytes n 4 } with stk := { rebuilding := some ([1], 0) } }, by decide +kernel⟩,
   ⟨0, { live with stk := { rebuilding := some ([], 0) } }, by decide +kernel⟩,
   ⟨{ resp 7 0 with arg := 1 }, { q := 1, tag := 7, since := 0, tid := 9 }, adAdmit, net { resp 7 0 with arg := 1 } admitClient [(9, 1, 0, some 7)], by decide +kernel⟩,
   ⟨{ resp 7 1 with arg := 1 }, { q := 1, tag := 7, since := 0, tid := 9 }, adAdmit, net { resp 7 1 with arg := 1 } admitClient [(9, 1, 0, some 7)], by decide +kernel⟩,
   ⟨{ resp 7 0 with arg := 1 }, { q := 1, tag := 7, since := 0, tid := 9 }, net { resp 7 0 with arg := 1 } { admitClient with build := some { tb := 0, q := 0, tag := 9, ordinal := 3, placed := [] } } [(9, 1, 0, some 7)], by decide +kernel⟩,
   ⟨127, { q := 1, tag := 7, since := 0, tid := 9 }, adAdmit, { withClient 127 admitClient with now := 25000000 }, by decide +kernel⟩⟩

/-- The hypotheses of each clause of Obligations.leadership can be met. -/
theorem test_leadership_met :
    (∃ w : Nat, ∃ s : State, (s.power = true) ∧ (s.frm.role = 2) ∧ (s.stk.lost = false) ∧ (s.stk.lastBeacon + 1000 * s.frm.leadLoss ≤ s.now) ∧ (s.deputyOf = some w) ∧ (w ≠ s.frm.waferId))
    ∧ (∃ s : State, (s.power = true) ∧ (s.frm.role = 2) ∧ (s.stk.lost = false) ∧ (s.stk.lastBeacon + 1000 * s.frm.leadLoss ≤ s.now) ∧ (s.deputyOf = some s.frm.waferId) ∧ (s.mapWafers.length < 2 * (s.mapWafers.filter s.reach).length))
    ∧ (∃ w : Nat, ∃ s : State, (s.power = true) ∧ (s.frm.role = 2) ∧ (s.stk.lost = true) ∧ (s.stk.claimSince + 1000 * s.frm.leadLoss ≤ s.now) ∧ (s.frm.deputy ≠ s.frm.waferId) ∧ ((s.leaveMap s.frm.deputy).deputyOf = some w) ∧ (w ≠ s.frm.waferId))
    ∧ (∃ m : Sys2Proof.Trans, ∃ s : State, (s.power = true) ∧ (Here s m) ∧ (m.typ = 10) ∧ (m.resp = false) ∧ (m.data.length = 64) ∧ (leVal (m.data.take 2) = 1) ∧ ((peerOf m.data).lead = false) ∧ ((bit (leVal ((m.data.drop 8).take 1)) 0 = false ∨ s.frm.role ≠ 2 ∨ s.stk.lost = false ∨ m.src ≠ s.frm.deputy)))
    ∧ (∃ m : Sys2Proof.Trans, ∃ s : State, (s.power = true) ∧ (Here s m) ∧ (m.typ = 10) ∧ (m.resp = false) ∧ (bit (leVal ((m.data.drop 8).take 1)) 0 = true) ∧ (s.frm.role = 2) ∧ (s.stk.lost = true) ∧ (m.src = s.frm.deputy))
    ∧ (∃ m : Sys2Proof.Trans, ∃ s : State, (s.power = true) ∧ (Here s m) ∧ (m.typ = 10) ∧ (m.resp = true) ∧ (s.awaited m ≠ none) ∧ (m.data.length = 64) ∧ (leVal (m.data.take 2) = 1) ∧ ((peerOf m.data).lead = false))
    ∧ (∃ m : Sys2Proof.Trans, ∃ s : State, (s.power = true) ∧ (Here s m) ∧ (m.typ = 10) ∧ (m.resp = true) ∧ (s.awaited m ≠ none) ∧ (m.data.length = 64) ∧ (leVal (m.data.take 2) = 1) ∧ ((peerOf m.data).lead = true) ∧ ((peerOf m.data).kindEp = 0) ∧ (s.leading = false)) :=
  ⟨⟨1, { follower with now := 5000000 }, by decide +kernel⟩,
   ⟨{ follower with now := 5000000, frm := { follower.frm with members := 5 } }, by decide +kernel⟩,
   ⟨2, { follower with now := 5000000, stk := { lost := true }, frm := { follower.frm with waferId := 3, deputy := 1, members := 15, stack := { members := [0, 1, 2, 3], routes := [{ dst := 2, primary := 1, alternate := none }] } } }, by decide +kernel⟩,
   ⟨{ typ := 10, src := 1, tid := 9, len := 64, data := ident 0 }, net { typ := 10, src := 1, tid := 9, len := 64, data := ident 0 }, by decide +kernel⟩,
   ⟨{ typ := 10, src := 1, dst := 2, tid := 9, len := 64, data := ident 1 }, { follower with inbox := [{ typ := 10, src := 1, dst := 2, tid := 9, len := 64, data := ident 1 }], stk := { lost := true }, frm := { follower.frm with deputy := 1 } }, by decide +kernel⟩,
   ⟨{ resp 10 0 with data := ident 0 }, net { resp 10 0 with data := ident 0 } {} [(9, 1, 0, some 7)], by decide +kernel⟩,
   ⟨{ resp 10 0 with src := 0, dst := 2, data := ident 2 }, { follower with inbox := [{ resp 10 0 with src := 0, dst := 2, data := ident 2 }], stk := { requests := [(9, 0, 0, some 0)] } }, by decide +kernel⟩⟩

/-- The hypotheses of each clause of Obligations.claimOnlyByDeputy can be met. -/
theorem test_claimOnlyByDeputy_met :
    (∃ w : Nat, ∃ s : State, (s.power = true) ∧ (s.frm.role = 2) ∧ (s.deputyOf = some w) ∧ (w ≠ s.frm.waferId))
    ∧ (∃ m : Sys2Proof.Trans, ∃ s : State, (s.power = true) ∧ (s.frm.role = 2) ∧ (s.stk.lost = true) ∧ (Here s m) ∧ (m.typ = 10) ∧ (m.resp = false) ∧ (bit (leVal ((m.data.drop 8).take 1)) 0 = true) ∧ (m.src ≠ s.frm.deputy)) :=
  ⟨⟨1, follower, by decide +kernel⟩,
   ⟨{ typ := 10, src := 3, len := 64, data := List.replicate 8 0 ++ [1] ++ List.replicate 55 0 }, { (withFrm fun f => { f with role := 2, deputy := 1 }) with stk := { lost := true }, inbox := [{ typ := 10, src := 3, len := 64, data := List.replicate 8 0 ++ [1] ++ List.replicate 55 0 }] }, by decide +kernel⟩⟩

/-- The hypotheses of each clause of Obligations.stackTimeAndNotices can be met. -/
theorem test_stackTimeAndNotices_met :
    (∃ s : State, (s.power = true) ∧ (s.leading = true) ∧ ((s.stk.lastBeacon = 0 ∨ s.stk.lastBeacon + 100000 ≤ s.now)))
    ∧ (∃ e : Nat, ∃ p : Nat, ∃ s : State, (s.power = true) ∧ (s.leading = true) ∧ ((s.stk.lastBeacon = 0 ∨ s.stk.lastBeacon + 100000 ≤ s.now)) ∧ (s.beaconTo = [e]) ∧ (s.route e = some p))
    ∧ (∃ m : Sys2Proof.Trans, ∃ s : State, (s.power = true) ∧ (Here s m) ∧ (m.typ = 8) ∧ (m.resp = false) ∧ (m.len = 16) ∧ (m.src < 16) ∧ (s.frm.role = 2) ∧ (m.src = s.frm.leadId))
    ∧ (∃ m : Sys2Proof.Trans, ∃ s : State, (s.power = true) ∧ (Here s m) ∧ (m.typ = 8) ∧ (m.resp = false) ∧ (m.len = 16) ∧ (m.src < 16) ∧ (s.frm.state = .stackForm) ∧ (s.frm.role = 0) ∧ (s.stk.leadTime = none))
    ∧ (∃ e : Nat, ∃ p : Nat, ∃ s : State, (s.power = true) ∧ (s.frm.role = 2) ∧ (s.stk.lastSync + 100000 ≤ s.now) ∧ (s.nearer = some e) ∧ (s.route e = some p))
    ∧ (∃ m : Sys2Proof.Trans, ∃ s : State, (s.power = true) ∧ (Here s m) ∧ (m.typ = 8) ∧ (m.resp = false) ∧ (m.len = 0) ∧ (m.src < 16))
    ∧ (∃ m : Sys2Proof.Trans, ∃ s : State, (s.power = true) ∧ (Here s m) ∧ (m.typ = 8) ∧ (m.resp = true) ∧ (m.status = 0) ∧ (s.awaited m ≠ none) ∧ (s.stk.syncT1 = some m.arg.toNat))
    ∧ (∃ m : Sys2Proof.Trans, ∃ s : State, (s.power = true) ∧ (Here s m) ∧ (m.typ = 9) ∧ (m.resp = false) ∧ (s.frm.role ≠ 2) ∧ (s.ntc.route = 0))
    ∧ (∃ m : Sys2Proof.Trans, ∃ s : State, (s.power = true) ∧ (Here s m) ∧ (m.typ = 9) ∧ (m.resp = false) ∧ (s.frm.role ≠ 2) ∧ (s.ntc.route = 1) ∧ (4 ∉ (s.client 0).func.masked) ∧ ((s.client 0).func.funcMask = false) ∧ (s.canDma 0 = true))
    ∧ (∃ e : NtcEntry, ∃ r : List NtcEntry, ∃ s : State, (s.power = true) ∧ (s.ntc.toForward = e :: r) ∧ (s.frm.role = 2) ∧ (s.stk.lost = false))
    ∧ (∃ s : State, (s.power = true) ∧ (s.stk.lost = true)) :=
  ⟨⟨{ net (toHbm 1) with now := 100000 }, by decide +kernel⟩,
   ⟨1, 7, { net (toHbm 1) with now := 100000 }, by decide +kernel⟩,
   ⟨beacon, { follower with inbox := [beacon] }, by decide +kernel⟩,
   ⟨beacon, { follower with inbox := [beacon], frm := { follower.frm with role := 0, state := .stackForm } }, by decide +kernel⟩,
   ⟨0, 0, { follower with now := 100000 }, by decide +kernel⟩,
   ⟨{ typ := 8, src := 1, tid := 4 }, net { typ := 8, src := 1, tid := 4 }, by decide +kernel⟩,
   ⟨{ resp 8 0 with arg := 100, data := leBytes 150 8 ++ leBytes 160 8 }, { net { resp 8 0 with arg := 100, data := leBytes 150 8 ++ leBytes 160 8 } with now := 210, stk := { requests := [(9, 1, 0, some 7)], syncT1 := some 100 } }, by decide +kernel⟩,
   ⟨{ typ := 9, src := 1, len := 16, arg := 0x12, data := List.replicate 16 0 }, { net { typ := 9, src := 1, len := 16, arg := 0x12, data := List.replicate 16 0 } with ntc := { route := 0 } }, by decide +kernel⟩,
   ⟨{ typ := 9, src := 1, len := 16, arg := 0x12, data := List.replicate 16 0 }, { net { typ := 9, src := 1, len := 16, arg := 0x12, data := List.replicate 16 0 } with clients := [(0, { func := okFunc })], linkUp := links }, by decide +kernel⟩,
   ⟨{ time := 5, code := 0x12, wafer := 2, forwarded := false, index := 0, value := 0 }, [], { follower with ntc := { toForward := [{ time := 5, code := 0x12, wafer := 2, forwarded := false, index := 0, value := 0 }] } }, by decide +kernel⟩,
   ⟨{ follower with stk := { lost := true } }, by decide +kernel⟩⟩

/-- The hypotheses of each clause of Obligations.handoffs can be met. -/
theorem test_handoffs_met :
    (∃ n : Nat, ∃ q : Nat, ∃ tag : W32, ∃ d : ADesc, ∃ p : Nat, ∃ s : State, ((CanStart s n q tag kHANDOFF d) ∧ (s.roomForUnit n = true) ∧ (s.unit? s.nextUnit = none) ∧ ((unitOf s n q d).others = []) ∧ (((unitOf s n q d).stageAt 0).handles.all (fun o => match o with | some h => (h.cls != 2 && h.cls != 3) || h.wafer == s.frm.waferId | none => true) = true) ∧ (s.fmtsOk (unitOf s n q d) 0 = true) ∧ (s.handoffsTo (handoffPartner d.desc) < s.maxOut (handoffPartner d.desc)) ∧ (s.route (handoffPartner d.desc) = some p)) ∧ Fits s (unitOf s n q d))
    ∧ (∃ uid : Nat, ∃ u : CUnit, ∃ k : Nat, ∃ s : State, (s.power = true) ∧ (s.unit? uid = some u) ∧ (u.kind = kLOT) ∧ (s.handoffStage u = k) ∧ (dKind (u.stageAt k).desc = kHANDOFF) ∧ (u.phase = .running) ∧ (s.atStage u k = true) ∧ (u.handoff.any (fun h => h.stage == k) = false) ∧ ((s.sideRuns u .main).any (fun x => x.2.stopped) = false) ∧ (s.fmtsOk u k = true))
    ∧ (∃ uid : Nat, ∃ u : CUnit, ∃ h : HandoffRun, ∃ p : Nat, ∃ s : State, (s.power = true) ∧ (s.unit? uid = some u) ∧ (u.handoff = some h) ∧ (h.outstanding = false) ∧ (h.answered = false) ∧ (h.busyAt = none) ∧ (u.waitRd = []) ∧ (u.phase = .running) ∧ (((s.client u.client).dbg.halted = false ∨ (s.client u.client).dbg.stepping = true)) ∧ (s.fmtsOk u h.stage = true) ∧ (s.handoffsTo h.partner < s.maxOut h.partner) ∧ (s.route h.partner = some p))
    ∧ (∃ uid : Nat, ∃ u : CUnit, ∃ h : HandoffRun, ∃ b : Nat, ∃ s : State, (s.power = true) ∧ (s.unit? uid = some u) ∧ (u.handoff = some h) ∧ (h.outstanding = false) ∧ (h.answered = false) ∧ (h.busyAt = some b) ∧ (b + 10000 ≤ s.now) ∧ (u.waitRd = []) ∧ (u.phase = .running) ∧ (((s.client u.client).dbg.halted = false ∨ (s.client u.client).dbg.stepping = true)) ∧ (s.fmtsOk u h.stage = true) ∧ (s.handoffsTo h.partner < s.maxOut h.partner))
    ∧ (∃ uid : Nat, ∃ u : CUnit, ∃ h : HandoffRun, ∃ s : State, (s.power = true) ∧ (s.unit? uid = some u) ∧ (u.handoff = some h) ∧ (h.outstanding = false) ∧ (h.answered = false) ∧ (h.busyAt = none) ∧ (u.waitRd = []) ∧ (u.phase = .running) ∧ ((s.client u.client).dbg.halted = false) ∧ (s.fmtsOk u h.stage = false))
    ∧ (∃ m : Sys2Proof.Trans, ∃ u : CUnit, ∃ h : HandoffRun, ∃ s : State, (s.power = true) ∧ (Here s m) ∧ (m.typ = 6) ∧ (s.handedTo m = some (u, h)) ∧ (s.unit? u.id = some u) ∧ (((s.client u.client).dbg.halted = false ∨ (s.client u.client).dbg.stepping = true)) ∧ (m.status = 0) ∧ (u.kind = kHANDOFF) ∧ (m.data.length = (match (u.stageAt h.stage).handles.getD 3 none with | some d => d.bytes | none => 0)))
    ∧ (∃ m : Sys2Proof.Trans, ∃ u : CUnit, ∃ h : HandoffRun, ∃ s : State, (s.power = true) ∧ (Here s m) ∧ (m.typ = 6) ∧ (s.handedTo m = some (u, h)) ∧ (s.unit? u.id = some u) ∧ (((s.client u.client).dbg.halted = false ∨ (s.client u.client).dbg.stepping = true)) ∧ (m.status ≠ 2) ∧ ((m.status = 0 → m.data.length ≠ (match (u.stageAt h.stage).handles.getD 3 none with | some d => d.bytes | none => 0))))
    ∧ (∃ m : Sys2Proof.Trans, ∃ u : CUnit, ∃ h : HandoffRun, ∃ s : State, (s.power = true) ∧ (Here s m) ∧ (m.typ = 6) ∧ (s.handedTo m = some (u, h)) ∧ (((s.client u.client).dbg.halted = false ∨ (s.client u.client).dbg.stepping = true)) ∧ (m.status = 2))
    ∧ (∃ m : Sys2Proof.Trans, ∃ u : CUnit, ∃ h : HandoffRun, ∃ s : State, (s.power = true) ∧ (Here s m) ∧ (m.typ = 6) ∧ (s.handedTo m = some (u, h)) ∧ ((s.client u.client).dbg.halted = true) ∧ ((s.client u.client).dbg.stepping = false))
    ∧ (∃ m : Sys2Proof.Trans, ∃ s : State, (s.power = true) ∧ (Here s m) ∧ (m.typ = 6) ∧ (s.handedTo m = none))
    ∧ (∃ uid : Nat, ∃ u : CUnit, ∃ h : HandoffRun, ∃ s : State, (s.power = true) ∧ (s.unit? uid = some u) ∧ (u.handoff = some h) ∧ (h.answered = false) ∧ (h.firstSend ≠ 0) ∧ (h.held = none) ∧ ((s.client u.client).dbg.halted = false) ∧ (h.firstSend + s.handoffLimit h.partner ≤ s.now))
    ∧ (∃ uid : Nat, ∃ u : CUnit, ∃ a : Nat, ∃ m : Sys2Proof.Trans, ∃ s : State, (s.power = true) ∧ (s.unit? uid = some u) ∧ (u.phase ≠ .committed) ∧ ((a, uid, m) ∈ s.stk.unsent) ∧ (a + 1000000 * s.frm.routeTimeout ≤ s.now) ∧ (s.route m.dst = none)) :=
  ⟨⟨127, 1, 7, { adW with desc := adDesc kHANDOFF 1 }, 7, handAD, by decide +kernel, fits_of_rooms _ _ (by decide +kernel)⟩,
   ⟨1, uLotHand, 0, { handNet uLotHand [] with tiles := [(8191, { run := some run1 })] }, by decide +kernel⟩,
   ⟨1, uHand { hand1 with outstanding := false, firstSend := 0 }, { hand1 with outstanding := false, firstSend := 0 }, 7, handNet (uHand { hand1 with outstanding := false, firstSend := 0 }) [], by decide +kernel⟩,
   ⟨1, uHand { hand1 with outstanding := false, busyAt := some 5 }, { hand1 with outstanding := false, busyAt := some 5 }, 5, { handNet (uHand { hand1 with outstanding := false, busyAt := some 5 }) [] with now := 10005 }, by decide +kernel⟩,
   ⟨1, uFmt, { hand1 with outstanding := false }, { handNet uFmt [] with stk := { peers := [(1, { fmts := 0 })] } }, by decide +kernel⟩,
   ⟨resp 6 0, uHand hand1, hand1, handNet (uHand hand1) [resp 6 0], by decide +kernel⟩,
   ⟨resp 6 3, uHand hand1, hand1, handNet (uHand hand1) [resp 6 3], by decide +kernel⟩,
   ⟨resp 6 2, uHand hand1, hand1, handNet (uHand hand1) [resp 6 2], by decide +kernel⟩,
   ⟨resp 6 0, uHand hand1, hand1, { handNet (uHand hand1) [resp 6 0] with clients := [(127, { ctx127 with dbg := { halted := true } })] }, by decide +kernel⟩,
   ⟨resp 6 0, net (resp 6 0), by decide +kernel⟩,
   ⟨1, uHand hand1, hand1, { handNet (uHand hand1) [] with now := 10000001 }, by decide +kernel⟩,
   ⟨1, uHand hand1, 0, { handIn with dst := 2 }, { handNet (uHand hand1) [] with now := 10000000, stk := { unsent := [(0, 1, { handIn with dst := 2 })] } }, by decide +kernel⟩⟩

/-- The hypotheses of each clause of Obligations.handoffsReceived can be met. -/
theorem test_handoffsReceived_met :
    (∃ m : Sys2Proof.Trans, ∃ s : State, (s.power = true) ∧ (Here s m) ∧ (m.typ = 5) ∧ (16 ≤ m.src))
    ∧ (∃ m : Sys2Proof.Trans, ∃ s : State, (s.power = true) ∧ (Here s m) ∧ (m.typ = 5) ∧ (m.src < 16) ∧ ((s.stageSlot (bits m.addr.toNat 5 0)).en = false))
    ∧ (∃ m : Sys2Proof.Trans, ∃ x : StageSlot, ∃ s : State, (s.power = true) ∧ (Here s m) ∧ (m.typ = 5) ∧ (m.src < 16) ∧ (s.stageSlot (bits m.addr.toNat 5 0) = x) ∧ (x.en = true) ∧ ((dKind x.template ≠ kOP ∨ s.stageMatch x.client (dHandle x.template 0) (m.data.take 64) = false ∨ s.stageMatch x.client (dHandle x.template 1) ((m.data.drop 64).take 64) = false)))
    ∧ (∃ m : Sys2Proof.Trans, ∃ x : StageSlot, ∃ s : State, (s.power = true) ∧ (Here s m) ∧ (m.typ = 5) ∧ (m.src < 16) ∧ (s.stageSlot (bits m.addr.toNat 5 0) = x) ∧ (x.en = true) ∧ (dKind x.template = kOP) ∧ (s.stageMatch x.client (dHandle x.template 0) (m.data.take 64) = true) ∧ (s.stageMatch x.client (dHandle x.template 1) ((m.data.drop 64).take 64) = true) ∧ (m.data.length = 192 + (if dHandle x.template 0 = 0 then 0 else (parseRec (leVal (m.data.take 64))).bytes)
        + (if dHandle x.template 1 = 0 then 0 else (parseRec (leVal ((m.data.drop 64).take 64))).bytes)) ∧ (s.templateCodes x.client x.template = [])) :=
  ⟨⟨{ handIn with src := 16 }, net { handIn with src := 16 }, by decide +kernel⟩,
   ⟨handIn, net handIn, by decide +kernel⟩,
   ⟨handIn, { slot63 with template := fenceDesc }, { net handIn with stageSlots := [(63, { slot63 with template := fenceDesc })] }, by decide +kernel⟩,
   ⟨handIn, slotOk, { net handIn with stageSlots := [(63, slotOk)], parts := [(63, { strips := BitVec.twoPow 512 511 })], clients := [(127, ctx127)] }, by decide +kernel⟩⟩

/-- The hypotheses of each clause of Obligations.tileDescriptors can be met. -/
theorem test_tileDescriptors_met :
    (∃ n : Nat, ∃ q : Nat, ∃ tag : W32, ∃ d : ADesc, ∃ s : State, ((CanStart s n q tag kOP d) ∧ (s.roomForUnit n = true) ∧ (s.allIdle (s.seatTiles n) = true) ∧ ((∀ a ∈ s.seatTiles n, (s.tile a).pal.pending = false ∧ (s.tile a).tbl.pending = false ∧ (s.tile a).queue = [])) ∧ (s.unit? s.nextUnit = none)) ∧ Fits s (unitOf s n q d))
    ∧ (∃ n : Nat, ∃ q : Nat, ∃ tag : W32, ∃ d : ADesc, ∃ s : State, ((CanStart s n q tag kMOVE d) ∧ (s.roomForUnit n = true) ∧ (s.unit? s.nextUnit = none)) ∧ Fits s (unitOf s n q d))
    ∧ (∃ n : Nat, ∃ q : Nat, ∃ tag : W32, ∃ d : ADesc, ∃ a : Handle, ∃ b : Handle, ∃ s : State, ((CanStart s n q tag kMOVE d) ∧ (s.roomForUnit n = true) ∧ (s.unit? s.nextUnit = none) ∧ (s.trace.en = false) ∧ ((unitOf s n q d).others = []) ∧ (((unitOf s n q d).stageAt 0).handles.getD 0 none = some a) ∧ (((unitOf s n q d).stageAt 0).handles.getD 1 none = some b) ∧ (a.cls = 1) ∧ (b.cls = 1) ∧ (b.dense = true)) ∧ Fits s (unitOf s n q d))
    ∧ (∃ n : Nat, ∃ q : Nat, ∃ tag : W32, ∃ d : ADesc, ∃ h : Handle, ∃ s : State, (CanStart s n q tag kPALETTE d) ∧ (s.roomForUnit n = true) ∧ (s.storeBusy n true = false) ∧ (s.unit? s.nextUnit = none) ∧ (s.trace.en = false) ∧ (((unitOf s n q d).stageAt 0).handles.getD 0 none = some h) ∧ ((h.cls = 2 ∨ h.cls = 3 → h.wafer = s.frm.waferId)) ∧ (palImageOk (s.operand { unitOf s n q d with image := memPutAll [] ((s.tensorOf n h (moveSeq d.desc)).map fun x => (2 ^ 48 * 0 + x.1, x.2)) } 0 h) = true))
    ∧ (∃ n : Nat, ∃ q : Nat, ∃ tag : W32, ∃ d : ADesc, ∃ h : Handle, ∃ s : State, (CanStart s n q tag kTABLE d) ∧ (s.roomForUnit n = true) ∧ (s.storeBusy n false = false) ∧ (s.unit? s.nextUnit = none) ∧ (s.trace.en = false) ∧ (((unitOf s n q d).stageAt 0).handles.getD 0 none = some h) ∧ ((h.cls = 2 ∨ h.cls = 3 → h.wafer = s.frm.waferId)))
    ∧ (∃ n : Nat, ∃ q : Nat, ∃ tag : W32, ∃ d : ADesc, ∃ h : Handle, ∃ s : State, ((CanStart s n q tag kPALETTE d ∧ s.storeBusy n true = false)) ∧ (s.roomForUnit n = true) ∧ (s.unit? s.nextUnit = none) ∧ (((unitOf s n q d).stageAt 0).handles.getD 0 none = some h) ∧ (h.cls = 3) ∧ (h.wafer ≠ s.frm.waferId) ∧ (0 < h.extent)) :=
  ⟨⟨127, 1, 7, { adW with desc := opDesc }, recQ opDesc, by decide +kernel, fits_of_rooms _ _ (by decide +kernel)⟩,
   ⟨127, 1, 7, { adW with desc := abDesc kMOVE true 0 }, recQ (abDesc kMOVE true 0), by decide +kernel, fits_of_rooms _ _ (by decide +kernel)⟩,
   ⟨127, 1, 7, { adW with desc := abDesc kMOVE true 0 }, hndOf (recQ (abDesc kMOVE true 0)) 7, hndOf (recQ (abDesc kMOVE true 0)) 8, recQ (abDesc kMOVE true 0), by decide +kernel, fits_of_rooms _ _ (by decide +kernel)⟩,
   ⟨127, 1, 7, { adW with desc := abDesc kPALETTE false 0 }, hndOf (imgQ (abDesc kPALETTE false 0) 1 8192 0x1000) 7, imgQ (abDesc kPALETTE false 0) 1 8192 0x1000, by decide +kernel⟩,
   ⟨127, 1, 7, { adW with desc := abDesc kTABLE false 1 }, hndOf (imgQ (abDesc kTABLE false 1) 1 16384 0x1000) 7, imgQ (abDesc kTABLE false 1) 1 16384 0x1000, by decide +kernel⟩,
   ⟨127, 1, 7, { adW with desc := abDesc kPALETTE false 0 }, hndOf { imgQ (abDesc kPALETTE false 0) 3 8192 (1 * 2 ^ 52) with frm := (netQ {}).frm, ports := (netQ {}).ports } 7, { imgQ (abDesc kPALETTE false 0) 3 8192 (1 * 2 ^ 52) with frm := (netQ {}).frm, ports := (netQ {}).ports }, by decide +kernel⟩⟩

/-- The hypotheses of each clause of Obligations.lotBuilds can be met. -/
theorem test_lotBuilds_met :
    (∃ n : Nat, ∃ q : Nat, ∃ tag : W32, ∃ d : ADesc, ∃ s : State, (CanStart s n q tag kLOT d) ∧ ((s.client n).build = none) ∧ ((∀ x, (s.client n).lastBuild = some x → x + 1000 * (s.client n).lotInterval ≤ s.now)) ∧ (s.lot? n q d.ordinal = none))
    ∧ (∃ n : Nat, ∃ q : Nat, ∃ tag : W32, ∃ d : ADesc, ∃ i : Nat, ∃ e : Entry, ∃ a : Nat, ∃ w : Nat, ∃ s : State, (CanStart s n q tag kLOT d) ∧ ((s.client n).build = none) ∧ ((∀ x, (s.client n).lastBuild = some x → x + 1000 * (s.client n).lotInterval ≤ s.now)) ∧ (s.lot? n q d.ordinal = none) ∧ ((s.client n).out.enable = false) ∧ (s.candidates n = [(i, e)]) ∧ (s.decide1 n (s.tilesOf (s.client n).bindPart) (s.farTiles (s.client n).bindPart) s.now { load := (s.tilesOf (s.client n).bindPart ++ s.farTiles (s.client n).bindPart).map fun t => (t, s.load t) } e = .place a w))
    ∧ (∃ n : Nat, ∃ b : Build, ∃ l : LotRun, ∃ i : Nat, ∃ a : Nat, ∃ dl : Nat, ∃ s : State, (s.power = true) ∧ ((s.client n).build = some b) ∧ (s.lot? n b.q b.ordinal = some l) ∧ (b.placed = [(i, a, dl)]) ∧ (a < 8192) ∧ (s.pairTile n i a = []))
    ∧ (∃ n : Nat, ∃ b : Build, ∃ l : LotRun, ∃ s : State, (s.power = true) ∧ ((s.client n).build = some b) ∧ (s.lot? n b.q b.ordinal = some l) ∧ (b.placed = []) ∧ (l.members = []) ∧ (l.awaitSave = false) ∧ (Unheld s n)) :=
  ⟨⟨127, 1, 7, { adW with desc := lotDesc }, recQ lotDesc, by decide +kernel⟩,
   ⟨127, 1, 7, { adW with desc := lotDesc }, 5, ready 127 1000000, 8176, 0, { recQ lotDesc with north := [(5, ready 127 1000000)] }, by decide +kernel⟩,
   ⟨127, build1 [(5, 8191, 1000000)], { lotRun with building := true }, 5, 8191, 1000000, lotS [(5, 8191, 1000000)], by decide +kernel⟩,
   ⟨127, build1 [], { lotRun with building := true }, lotS [], by decide +kernel⟩⟩

/-- The hypotheses of each clause of Obligations.rimDescriptors can be met. -/
theorem test_rimDescriptors_met :
    (∃ n : Nat, ∃ q : Nat, ∃ tag : W32, ∃ d : ADesc, ∃ s : State, (CanStart s n q tag kFENCE d) ∧ (s.recordsDone n q = true) ∧ (Unheld s n))
    ∧ (∃ n : Nat, ∃ q : Nat, ∃ tag : W32, ∃ d : ADesc, ∃ s : State, (CanStart s n q tag kMARK d) ∧ (s.recordsDone n q = true) ∧ (Unheld s n))
    ∧ (∃ n : Nat, ∃ q : Nat, ∃ tag : W32, ∃ d : ADesc, ∃ s : State, (CanStart s n q tag kRECORD d) ∧ (s.recordsDone n q = true) ∧ (Unheld s n) ∧ (s.trace.en = false) ∧ ((s.queue n q).cbaseLoc = 0))
    ∧ (∃ n : Nat, ∃ q : Nat, ∃ tag : W32, ∃ d : ADesc, ∃ s : State, (CanStart s n q tag kRECORD d) ∧ (s.recordsDone n q = true) ∧ (Unheld s n) ∧ (s.trace.en = false) ∧ ((s.queue n q).cbaseLoc = 0) ∧ (s.frm.unmapped = []) ∧ ((s.client n).areas.recs + 64 * (bits (dHandle d.desc 0) 15 0 + dTableLen d.desc) ≤ s.hbmTop)) :=
  ⟨⟨127, 1, 7, { adW with desc := fenceDesc }, rimS fenceDesc id, by decide +kernel⟩,
   ⟨127, 1, 7, { adW with desc := markDesc }, rimS markDesc id, by decide +kernel⟩,
   ⟨127, 1, 7, { adW with desc := recDesc }, recS, by decide +kernel⟩,
   ⟨127, 1, 7, { adW with desc := recDesc }, recS, by decide +kernel⟩⟩

/-- The hypotheses of each clause of Obligations.sequenceCommands can be met. -/
theorem test_sequenceCommands_met :
    (∃ n : Nat, ∃ q : Nat, ∃ tag : W32, ∃ d : ADesc, ∃ i : Nat, ∃ s : State, (CanStart s n q tag kSEQ d) ∧ (seqSub d.desc = 2) ∧ (s.recordsDone n q = true) ∧ ((s.client n).build = none) ∧ (((s.client n).out.enable = false ∨ (s.client n).out.free ≠ 0)) ∧ (Unheld s n) ∧ (seqIdOf d.desc % 2 ^ 17 = i) ∧ ((s.entry i).state ≠ .retiring))
    ∧ (∃ n : Nat, ∃ q : Nat, ∃ tag : W32, ∃ d : ADesc, ∃ i : Nat, ∃ s : State, (CanStart s n q tag kSEQ d) ∧ (seqSub d.desc = 3) ∧ (s.recordsDone n q = true) ∧ ((s.client n).build = none) ∧ (Unheld s n) ∧ (seqIdOf d.desc % 2 ^ 17 = i) ∧ ((s.entry i).state ≠ .retiring))
    ∧ (∃ n : Nat, ∃ q : Nat, ∃ tag : W32, ∃ d : ADesc, ∃ i : Nat, ∃ s : State, (CanStart s n q tag kSEQ d) ∧ (seqSub d.desc = 4) ∧ (s.recordsDone n q = true) ∧ ((s.client n).build = none) ∧ (Unheld s n) ∧ (seqIdOf d.desc % 2 ^ 17 = i) ∧ ((s.entry i).state ≠ .retiring))
    ∧ (∃ n : Nat, ∃ q : Nat, ∃ tag : W32, ∃ d : ADesc, ∃ i : Nat, ∃ s : State, (CanStart s n q tag kSEQ d) ∧ (seqSub d.desc = 5) ∧ (s.recordsDone n q = true) ∧ ((s.client n).build = none) ∧ (Unheld s n) ∧ (seqIdOf d.desc % 2 ^ 17 = i) ∧ ((s.entry i).state ≠ .retiring))
    ∧ (∃ n : Nat, ∃ q : Nat, ∃ tag : W32, ∃ d : ADesc, ∃ i : Nat, ∃ s : State, (CanStart s n q tag kSEQ d) ∧ (seqSub d.desc = 6) ∧ (s.recordsDone n q = true) ∧ ((s.client n).build = none) ∧ (Unheld s n) ∧ (seqIdOf d.desc % 2 ^ 17 = i) ∧ ((s.entry i).state ≠ .retiring)) :=
  ⟨⟨127, 1, 7, { adW with desc := seqDesc 2 0 0 }, 5, seqS (seqDesc 2 0 0) .running, by decide +kernel⟩,
   ⟨127, 1, 7, { adW with desc := seqDesc 3 0 77 }, 5, seqS (seqDesc 3 0 77) .running, by decide +kernel⟩,
   ⟨127, 1, 7, { adW with desc := seqDesc 4 0 77 }, 5, seqS (seqDesc 4 0 77) .running, by decide +kernel⟩,
   ⟨127, 1, 7, { adW with desc := seqDesc 5 9 0 }, 5, seqS (seqDesc 5 9 0) .ready, by decide +kernel⟩,
   ⟨127, 1, 7, { adW with desc := seqDesc 6 0x20003 0 }, 5, seqS (seqDesc 6 0x20003 0) .ready, by decide +kernel⟩⟩

/-- The hypotheses of each clause of Obligations.admissions can be met. -/
theorem test_admissions_met :
    (∃ n : Nat, ∃ q : Nat, ∃ tag : W32, ∃ d : ADesc, ∃ a : Nat, ∃ s : State, (CanStart s n q tag kSEQ d) ∧ (seqSub d.desc = 1) ∧ (s.recordsDone n q = true) ∧ ((s.client n).admits = []) ∧ ((s.client n).build = none) ∧ (((s.client n).out.enable = false ∨ (s.client n).out.free ≠ 0)) ∧ (s.stk.rebuilding = none) ∧ (Unheld s n) ∧ (s.refusal n d = 0) ∧ (s.spillArea n = some a) ∧ (s.frm.role ≠ 2) ∧ (s.stackCount n < (s.client n).stackQuota))
    ∧ (∃ n : Nat, ∃ q : Nat, ∃ tag : W32, ∃ d : ADesc, ∃ why : Nat, ∃ s : State, (CanStart s n q tag kSEQ d) ∧ (seqSub d.desc = 1) ∧ (s.recordsDone n q = true) ∧ ((s.client n).admits = []) ∧ ((s.client n).build = none) ∧ (((s.client n).out.enable = false ∨ (s.client n).out.free ≠ 0)) ∧ (s.stk.rebuilding = none) ∧ (Unheld s n) ∧ ((s.refusal n d = why ∧ why ≠ 0 ∨ s.refusal n d = 0 ∧ s.frm.role ≠ 2 ∧ (s.client n).stackQuota ≤ s.stackCount n ∧ why = 7)))
    ∧ (∃ n : Nat, ∃ q : Nat, ∃ tag : W32, ∃ d : ADesc, ∃ s : State, (CanStart s n q tag kSEQ d) ∧ (seqSub d.desc = 1) ∧ (s.recordsDone n q = true) ∧ ((s.client n).admits = []) ∧ ((s.client n).build = none) ∧ (((s.client n).out.enable = false ∨ (s.client n).out.free ≠ 0)) ∧ (s.stk.rebuilding = none) ∧ (s.refusal n d = 0) ∧ (s.frm.role = 2)) :=
  ⟨⟨127, 1, 7, { adW with desc := admitDesc1 }, 0, admitS id, by decide +kernel⟩,
   ⟨127, 1, 7, { adW with desc := admitDesc1 }, 4, admitS fun c => { c with quota := 0 }, by decide +kernel⟩,
   ⟨127, 1, 7, { adW with desc := admitDesc2 }, { rimS admitDesc2 fun c => { c with winSeq := 1, quota := 4, areas := { hi := 2 ^ 20, spillSize := 65536 } } with frm := follower.frm, ports := follower.ports }, by decide +kernel⟩⟩

/-- The hypotheses of each clause of Obligations.lotTableUpkeep can be met. -/
theorem test_lotTableUpkeep_met :
    (∃ i : Nat, ∃ s : State, (s.power = true) ∧ ((s.entry i).state = .retiring) ∧ (s.inSpill i = false))
    ∧ (∃ i : Nat, ∃ e : Entry, ∃ s : State, (s.power = true) ∧ (s.flt.rimBad.contains (ltBank i) = false) ∧ (s.flt.rimBad.contains (16 + ltBank i) = false) ∧ (tabGet {} s.north i = e) ∧ (tabGet {} s.south i = e))
    ∧ (∃ i : Nat, ∃ e : Entry, ∃ s : State, (s.power = true) ∧ (s.flt.rimBad.contains (ltBank i) = false) ∧ (s.flt.rimBad.contains (16 + ltBank i) = false) ∧ (tabGet {} s.south i = e) ∧ (Steady s 3 (ltBank i)))
    ∧ (∃ i : Nat, ∃ e : Entry, ∃ s : State, (s.power = true) ∧ (s.flt.rimBad.contains (ltBank i) = false) ∧ (s.flt.rimBad.contains (16 + ltBank i) = false) ∧ (tabGet {} s.north i = e) ∧ (Steady s 3 (16 + ltBank i)))
    ∧ (∃ i : Nat, ∃ x : Entry, ∃ e : Entry, ∃ s : State, (s.power = true) ∧ (s.flt.rimBad.contains (ltBank i) = false) ∧ (s.flt.rimBad.contains (16 + ltBank i) = false) ∧ (tabGet {} s.north i = x) ∧ (tabGet {} s.south i = e) ∧ (x.used (s.client x.client).winSeq = e.used (s.client e.client).winSeq))
    ∧ (∃ i : Nat, ∃ x : Entry, ∃ e : Entry, ∃ s : State, (s.power = true) ∧ (s.flt.rimBad.contains (ltBank i) = false) ∧ (s.flt.rimBad.contains (16 + ltBank i) = false) ∧ (tabGet {} s.north i = x) ∧ (tabGet {} s.south i = e) ∧ (x.used (s.client x.client).winSeq ≠ e.used (s.client e.client).winSeq) ∧ (Steady s 3 (ltBank i)))
    ∧ (∃ n : Nat, ∃ v : W32, ∃ s : State, (Live s) ∧ ((s.entry (bits v.toNat 16 0)).state ≠ .free) ∧ ((s.entry (bits v.toNat 16 0)).client = n))
    ∧ (∃ n : Nat, ∃ v : W32, ∃ s : State, (Live s) ∧ (((s.entry (bits v.toNat 16 0)).state = .free ∨ (s.entry (bits v.toNat 16 0)).client ≠ n))) :=
  ⟨⟨5, { live with north := [(5, { client := 127, state := .retiring })], tiles := [(8191, { windows := [(46, { state := .dry, owner := .seq 127 5 0 })] })] }, by decide +kernel⟩,
   ⟨5, ready 127 9, { live with north := [(5, ready 127 9)], south := [(5, ready 127 9)] }, by decide +kernel⟩,
   ⟨5, ready 127 9, { live with north := [(5, ready 127 8)], south := [(5, ready 127 9)] }, by decide +kernel⟩,
   ⟨5, ready 127 9, { live with north := [(5, ready 127 9)], south := [(5, ready 127 8)] }, by decide +kernel⟩,
   ⟨5, { ready 127 9 with win := [0, 62, 62, 62, 62, 62, 62, 1] }, ready 127 9, { live with north := [(5, { ready 127 9 with win := [0, 62, 62, 62, 62, 62, 62, 1] })], south := [(5, ready 127 9)] }, by decide +kernel⟩,
   ⟨5, ready 127 8, ready 127 9, { live with north := [(5, ready 127 8)], south := [(5, ready 127 9)] }, by decide +kernel⟩,
   ⟨127, 0x1FFFF, { live with north := [(0x1FFFF, ready 127 9)] }, by decide +kernel⟩,
   ⟨126, 0x1FFFF, { live with north := [(0x1FFFF, ready 127 9)] }, by decide +kernel⟩⟩

/-- The hypotheses of each clause of Obligations.scheduling can be met. -/
theorem test_scheduling_met :
    (∃ p : Nat, ∃ e : Nat, ∃ c : Nat, ∃ r : List (Nat × Nat), ∃ s : State, (Due s p) ∧ (s.contenders p = (e, c) :: r) ∧ ((s.part p).resident = none) ∧ ((s.client c).pairEn = false))
    ∧ (∃ p : Nat, ∃ e : Nat, ∃ c : Nat, ∃ o : Nat, ∃ r : List (Nat × Nat), ∃ s : State, (Due s p) ∧ (s.contenders p = (e, c) :: r) ∧ ((s.part p).resident = some o) ∧ ((s.client o).dbg.halted = false) ∧ (s.isIdle o = true) ∧ ((s.client c).pairEn = false))
    ∧ (∃ p : Nat, ∃ e : Nat, ∃ c : Nat, ∃ o : Nat, ∃ d : Nat, ∃ r : List (Nat × Nat), ∃ s : State, (Due s p) ∧ (s.contenders p = (e, c) :: r) ∧ ((s.part p).resident = some o) ∧ ((s.client o).dbg.halted = false) ∧ (s.isIdle o = false) ∧ ((s.client c).pairEn = false) ∧ (s.erdOf o = some d) ∧ (e ≤ s.switchEstOf p + s.dOf c + (s.part p).horizon + s.now) ∧ ((s.part p).since + 1000 * (s.part p).minQuantum ≤ s.now) ∧ (e < d) ∧ (s.now + 2 * s.switchEstOf p + s.dOf c + s.dOf o ≤ d))
    ∧ (∃ p : Nat, ∃ e : Nat, ∃ c : Nat, ∃ o : Nat, ∃ d : Nat, ∃ r : List (Nat × Nat), ∃ s : State, (Due s p) ∧ (s.contenders p = (e, c) :: r) ∧ ((s.part p).resident = some o) ∧ ((s.client o).dbg.halted = false) ∧ (s.isIdle o = false) ∧ (s.erdOf o = some d) ∧ (e ≤ s.switchEstOf p + s.dOf c + (s.part p).horizon + s.now) ∧ ((s.now < (s.part p).since + 1000 * (s.part p).minQuantum ∨ d ≤ e ∨ d < s.now + 2 * s.switchEstOf p + s.dOf c + s.dOf o)))
    ∧ (∃ p : Nat, ∃ e : Nat, ∃ c : Nat, ∃ o : Nat, ∃ r : List (Nat × Nat), ∃ s : State, (Due s p) ∧ (s.contenders p = (e, c) :: r) ∧ ((s.part p).resident = some o) ∧ ((s.client o).dbg.halted = false) ∧ (s.isIdle o = false) ∧ (s.switchEstOf p + s.dOf c + (s.part p).horizon + s.now < e))
    ∧ (∃ p : Nat, ∃ e : Nat, ∃ c : Nat, ∃ r : List (Nat × Nat), ∃ s : State, (Due s p) ∧ (s.contenders p = (e, c) :: r) ∧ ((s.part p).resident = none) ∧ ((s.client c).pairEn = true) ∧ ((∃ x ∈ s.seats c, x ≠ p ∧ ∀ i, (s.part x).pairChoice ≠ some (s.now, c, i)))) :=
  ⟨⟨63, 500, 127, [], schedS 0 none 500 [], by decide +kernel⟩,
   ⟨63, 500, 127, 126, [], schedS 0 (some 126) 500 [], by decide +kernel⟩,
   ⟨63, 500, 127, 126, 30000000, [], schedS 20000000 (some 126) 500 [(6, ready 126 30000000)], by decide +kernel⟩,
   ⟨63, 500, 127, 126, 30000000, [], schedS 0 (some 126) 500 [(6, ready 126 30000000)], by decide +kernel⟩,
   ⟨63, 1520001, 127, 126, [], schedS 0 (some 126) 1520001 [(6, ready 126 30000000)], by decide +kernel⟩,
   ⟨63, 500, 127, [], { schedS 0 none 500 [] with clients := [(127, { ctx127 with resident := false, pairEn := true, pairPart := 62 })] }, by decide +kernel⟩⟩

/-- The hypotheses of each clause of Obligations.switching can be met. -/
theorem test_switching_met :
    (∃ p : Nat, ∃ w : Switch, ∃ n : Nat, ∃ k : Nat, ∃ s : State, (s.power = true) ∧ ((s.part p).switch = some w) ∧ (w.phase = .stopping) ∧ (w.out = some n) ∧ (w.stopAt = some k) ∧ (s.stopped n = true))
    ∧ (∃ p : Nat, ∃ w : Switch, ∃ n : Nat, ∃ c : Nat, ∃ s : State, (s.power = true) ∧ ((s.part p).switch = some w) ∧ (w.phase = .saving) ∧ (w.out = some n) ∧ (w.incoming = some c) ∧ (p ∈ s.seats n) ∧ (s.transferDone (s.client n).bindPart (s.saveSize n) w.since = true))
    ∧ (∃ p : Nat, ∃ w : Switch, ∃ n : Nat, ∃ s : State, (s.power = true) ∧ ((s.part p).switch = some w) ∧ (w.phase = .restoring) ∧ (w.incoming = some n) ∧ ((∀ r ∈ s.seats n, ∃ x, (s.part r).switch = some x ∧ x.incoming = some n ∧ x.phase = .restoring ∧ x.since = w.since)) ∧ (p ∈ s.seats n) ∧ (s.transferDone (s.client n).bindPart (if (s.client n).parked.complete then s.hbmVal ((s.client n).areas.park + 24) 8 else 53248) w.since = true)) :=
  ⟨⟨63, { out := some 127, incoming := some 126, phase := .stopping, since := 0, idle := false, stopAt := some 3 }, 127, 3, { switchS 5 .stopping with parts := [(63, { part63 with resident := some 127, switch := some { out := some 127, incoming := some 126, phase := .stopping, since := 0, idle := false, stopAt := some 3 } })] }, by decide +kernel⟩,
   ⟨63, { out := some 127, incoming := some 126, phase := .saving, since := 0, idle := false }, 127, 126, switchS 100000000 .saving, by decide +kernel⟩,
   ⟨63, { out := some 127, incoming := some 126, phase := .restoring, since := 0, idle := false }, 126, switchS 100000000 .restoring, by decide +kernel⟩⟩

/-- The hypotheses of each clause of Obligations.strips can be met. -/
theorem test_strips_met :
    (∃ p : Nat, ∃ w : Nat, ∃ v : W32, ∃ s : State, (Live s) ∧ (p < Config.partitions) ∧ (w < 16) ∧ (s.bound p = []) ∧ ((∀ r, r < Config.partitions → r ≠ p → ((s.part r).strips ||| (s.part r).adding) &&& stripsWrite (s.part p).strips w v = 0)) ∧ ((∀ i, i < 32 → (stripsWrite (s.part p).strips w v).getLsbD (32 * w + i) = true →
        (s.colmap (32 * w + i)).retired = false ∧ (s.dom (domOfStrip (32 * w + i))).state ≠ .off ∧ (s.dom (domOfStrip (32 * w + i))).target ≠ 0)) ∧ ((s.part p).strips &&& ~~~(stripsWrite (s.part p).strips w v) ≠ 0) ∧ (s.frm.rowChanges = []))
    ∧ (∃ p : Nat, ∃ w : Nat, ∃ v : W32, ∃ s : State, (Live s) ∧ (p < Config.partitions) ∧ (w < 16) ∧ ((∀ r, r < Config.partitions → r ≠ p → ((s.part r).strips ||| (s.part r).adding) &&& stripsWrite (s.part p).strips w v = 0)) ∧ ((∀ i, i < 32 → (stripsWrite (s.part p).strips w v).getLsbD (32 * w + i) = true →
        (s.colmap (32 * w + i)).retired = false ∧ (s.dom (domOfStrip (32 * w + i))).state ≠ .off ∧ (s.dom (domOfStrip (32 * w + i))).target ≠ 0)) ∧ ((s.part p).strips &&& ~~~(stripsWrite (s.part p).strips w v) = 0) ∧ (stripsWrite (s.part p).strips w v &&& ~~~(s.part p).strips ≠ 0) ∧ ((∀ n ∈ s.bound p, parkNeed (stripCount (stripsWrite (s.part p).strips w v ||| (s.part p).adding)) ≤ (s.client n).areas.parkSize)))
    ∧ (∃ p : Nat, ∃ w : Nat, ∃ v : W32, ∃ s : State, (Live s) ∧ (s.bound p ≠ []) ∧ ((s.part p).strips &&& ~~~(stripsWrite (s.part p).strips w v) ≠ 0))
    ∧ (∃ p : Nat, ∃ w : Nat, ∃ v : W32, ∃ r : Nat, ∃ s : State, (Live s) ∧ (r < Config.partitions) ∧ (r ≠ p) ∧ (((s.part r).strips ||| (s.part r).adding) &&& stripsWrite (s.part p).strips w v ≠ 0))
    ∧ (∃ p : Nat, ∃ s : State, (Live s) ∧ (p < Config.partitions))
    ∧ (∃ p : Nat, ∃ s : State, (s.power = true) ∧ ((s.part p).rebuildPend = true) ∧ ((s.part p).rebuilding = false) ∧ ((s.part p).switch = none) ∧ (s.unitsIn p = false))
    ∧ (∃ p : Nat, ∃ s : State, (s.power = true) ∧ ((s.part p).rebuilding = true) ∧ ((∀ n, (s.part p).resident = some n → p ∈ s.seats n))) :=
  ⟨⟨63, 15, 0, { live with parts := [(63, part63)] }, by decide +kernel⟩,
   ⟨63, 15, 0xC0000000, { withDom 15 activeDom with parts := [(63, part63)], clients := [(127, { ctx127 with areas := { parkSize := 0x10000000 } })] }, by decide +kernel⟩,
   ⟨63, 15, 0, { live with parts := [(63, part63)], clients := [(127, ctx127)] }, by decide +kernel⟩,
   ⟨62, 15, 0x80000000, 63, { live with parts := [(63, part63)] }, by decide +kernel⟩,
   ⟨63, live, by decide +kernel⟩,
   ⟨63, { live with parts := [(63, { part63 with rebuildPend := true })] }, by decide +kernel⟩,
   ⟨63, { live with parts := [(63, { part63 with rebuilding := true, resident := some 127 })], clients := [(127, ctx127)] }, by decide +kernel⟩⟩

/-- The hypotheses of each clause of Obligations.contexts can be met. -/
theorem test_contexts_met :
    (∃ n : Nat, ∃ v : W32, ∃ s : State, (Live s) ∧ (n < Config.clients) ∧ ((s.client n).en = false) ∧ (bit v.toNat 31 = true) ∧ ((s.bindFields n v.toNat).functionExists n = true) ∧ ((s.bindFields n v.toNat).hbmCheck n = 0))
    ∧ (∃ n : Nat, ∃ v : W32, ∃ e : Nat, ∃ s : State, (Live s) ∧ (n < Config.clients) ∧ ((s.client n).en = false) ∧ (bit v.toNat 31 = true) ∧ ((s.bindFields n v.toNat).functionExists n = true) ∧ ((s.bindFields n v.toNat).hbmCheck n = e) ∧ (e ≠ 0))
    ∧ (∃ n : Nat, ∃ v : W32, ∃ s : State, (Live s) ∧ ((s.client n).en = true) ∧ (bit v.toNat 31 = false))
    ∧ (∃ n : Nat, ∃ v : W32, ∃ s : State, (Live s) ∧ ((s.client n).en = true) ∧ (bit v.toNat 31 = false) ∧ (s.unitsOf n = []) ∧ (s.flt.rimBad = [])) :=
  ⟨⟨96, 0x8000003F, { withClient 96 { areas := areasOk } with frm := { live.frm with hbmLimit := 0x1000000 } }, by decide +kernel⟩,
   ⟨127, 0x8000003F, 2, { withClient 127 {} with numVfs := [(3, 31)] }, by decide +kernel⟩,
   ⟨127, 0x3F, { withClient 127 ctx127 with parts := [(63, { part63 with resident := some 127 })] }, by decide +kernel⟩,
   ⟨127, 0x3F, { withClient 127 ctx127 with parts := [(63, { part63 with resident := some 127 })], north := [(5, ready 127 9)] }, by decide +kernel⟩⟩

/-- The hypotheses of each clause of Obligations.longWords can be met. -/
theorem test_longWords_met :
    (∃ a : Nat, ∃ r : TileRun, ∃ u : CUnit, ∃ l : LongWord, ∃ s : State, (MayIssue s a r u l) ∧ (l = bare l))
    ∧ (∃ a : Nat, ∃ r : TileRun, ∃ u : CUnit, ∃ l : LongWord, ∃ w : Nat, ∃ s : State, (MayIssue s a r u l) ∧ (l = { bare l with ari := some w }) ∧ ((ariOut (s.ctx a r u) r (r.issueAt l) w).decode = []) ∧ ((ariOut (s.ctx a r u) r (r.issueAt l) w).codes = []) ∧ (clashes r [] (ariOut (s.ctx a r u) r (r.issueAt l) w).flights = false))
    ∧ (∃ a : Nat, ∃ r : TileRun, ∃ u : CUnit, ∃ l : LongWord, ∃ w : Nat, ∃ s : State, (MayIssue s a r u l) ∧ (l = { bare l with st := some w }) ∧ ((stOut (s.ctx a r u) r r.nextCyc r.rho w).codes = []) ∧ (clashes r [] (stOut (s.ctx a r u) r r.nextCyc r.rho w).flights = false))
    ∧ (∃ a : Nat, ∃ r : TileRun, ∃ u : CUnit, ∃ l : LongWord, ∃ w : Nat, ∃ h : Handle, ∃ x : List Byte, ∃ b : Nat, ∃ s : State, (MayIssue s a r u l) ∧ (l = { bare l with ld := some w }) ∧ ((s.ctx a r u).handle (ldHnd w) = some h) ∧ (ldStBlock (s.ctx a r u) r w r.rho h = (b, true)) ∧ (s.ldFrom (s.ctx a r u) r u h (ldHnd w) b (ldStBytes w) = .data x))
    ∧ (∃ a : Nat, ∃ r : TileRun, ∃ u : CUnit, ∃ l : LongWord, ∃ w : Nat, ∃ h : Handle, ∃ x : Nat, ∃ b : Nat, ∃ s : State, (MayIssue s a r u l) ∧ (l = { bare l with ld := some w }) ∧ ((s.ctx a r u).handle (ldHnd w) = some h) ∧ (ldStBlock (s.ctx a r u) r w r.rho h = (b, true)) ∧ (s.ldFrom (s.ctx a r u) r u h (ldHnd w) b (ldStBytes w) = .remote (.hbm x)))
    ∧ (∃ a : Nat, ∃ r : TileRun, ∃ u : CUnit, ∃ l : LongWord, ∃ w : Nat, ∃ s : State, (MayIssue s a r u l) ∧ (l = { bare l with syn := some w }) ∧ (synOp w = 4))
    ∧ (∃ a : Nat, ∃ r : TileRun, ∃ u : CUnit, ∃ l : LongWord, ∃ c : Nat, ∃ s : State, (s.power = true) ∧ ((s.tile a).run = some r) ∧ (s.unit? r.unit = some u) ∧ (s.canIssue a r u = true) ∧ (longWord (s.tile a).tbl.bank r.off = l) ∧ (r.issueAt l ≤ s.cycle a) ∧ (r.inflight = []) ∧ ((s.tile a).bankHits = []) ∧ (u.phase ≠ .committed) ∧ (c ∈ l.decodeCodes (fun i => ((s.ctx a r u).handle i).isSome) r.loops (s.ctx a r u).len r.pos)) :=
  ⟨⟨8191, run1, uRun [], longWord [] 0, issueS run1 (uRun []) [], by decide +kernel⟩,
   ⟨8191, run1, uRun [], longWord (lwBank 2 0) 0, 0, issueS run1 (uRun []) (lwBank 2 0), by decide +kernel⟩,
   ⟨8191, run1, uRun [some hnd1], longWord (lwBank 64 0) 0, 0, issueS run1 (uRun [some hnd1]) (lwBank 64 0), by decide +kernel⟩,
   ⟨8191, run1, uRun [some hnd2], longWord (lwBank 1 0) 0, 0, hnd2, List.replicate 64 0, 0, issueS run1 (uRun [some hnd2]) (lwBank 1 0), by decide +kernel⟩,
   ⟨8191, run1, uRun [some hndH], longWord (lwBank 1 0) 0, 0, hndH, 512, 0, issueS run1 (uRun [some hndH]) (lwBank 1 0), by decide +kernel⟩,
   ⟨8191, run1, uRun [], longWord (lwBank 128 0x34) 0, 0x34, issueS run1 (uRun []) (lwBank 128 0x34), by decide +kernel⟩,
   ⟨8191, run1, uRun [], longWord (lwBank 1 0) 0, cNO_HANDLE, issueS run1 (uRun []) (lwBank 1 0), by decide +kernel⟩⟩

/-- The hypotheses of each clause of Obligations.tileResults can be met. -/
theorem test_tileResults_met :
    (∃ a : Nat, ∃ r : TileRun, ∃ u : CUnit, ∃ v : Nat, ∃ sel : BitVec 2048, ∃ b : BitVec 2048, ∃ tag : Nat, ∃ f : Flight, ∃ s : State, (s.power = true) ∧ ((s.tile a).run = some r) ∧ (s.unit? r.unit = some u) ∧ (r.inflight = [f]) ∧ (f.due ≤ s.cycle a) ∧ (f.w = .vreg v sel b tag))
    ∧ (∃ a : Nat, ∃ r : TileRun, ∃ u : CUnit, ∃ m : Nat, ∃ sel : W64, ∃ b : W64, ∃ f : Flight, ∃ s : State, (s.power = true) ∧ ((s.tile a).run = some r) ∧ (s.unit? r.unit = some u) ∧ (r.inflight = [f]) ∧ (f.due ≤ s.cycle a) ∧ (f.w = .mreg m sel b) ∧ (m ≠ 0))
    ∧ (∃ a : Nat, ∃ r : TileRun, ∃ u : CUnit, ∃ e : Nat, ∃ x : W32, ∃ fmt : Nat, ∃ f : Flight, ∃ s : State, (s.power = true) ∧ ((s.tile a).run = some r) ∧ (s.unit? r.unit = some u) ∧ (r.inflight = [f]) ∧ (f.due ≤ s.cycle a) ∧ (f.w = .acc e [x] fmt))
    ∧ (∃ a : Nat, ∃ r : TileRun, ∃ u : CUnit, ∃ h : Handle, ∃ i : Nat, ∃ o : Nat, ∃ sel : Byte, ∃ v : Byte, ∃ f : Flight, ∃ w : Nat, ∃ s : State, (s.power = true) ∧ ((s.tile a).run = some r) ∧ (s.unit? r.unit = some u) ∧ (r.inflight = [f]) ∧ (f.due ≤ s.cycle a) ∧ (f.w = .store i [(o, sel, v)]) ∧ ((s.ctx a r u).handle i = some h) ∧ ((s.tile a).findWet u.id ((s.ctx a r u).slotOf u h i o).1 = some w))
    ∧ (∃ a : Nat, ∃ r : TileRun, ∃ f : Flight, ∃ s : State, (s.power = true) ∧ ((s.tile a).run = some r) ∧ (r.inflight = [f]) ∧ (s.cycle a < f.due))
    ∧ (∃ a : Nat, ∃ r : TileRun, ∃ u : CUnit, ∃ w : W32, ∃ rho : Nat, ∃ b : Nat, ∃ e : Nat, ∃ s : State, (s.power = true) ∧ ((s.tile a).run = some r) ∧ (s.unit? r.unit = some u) ∧ (r.inflight = []) ∧ (r.stall = some (.syn w rho b e)) ∧ (r.synWaits w.toNat rho = false) ∧ (r.nextCyc ≤ s.cycle a) ∧ (r.lastRed ≤ r.nextCyc) ∧ ((s.tile a).bankHits = []) ∧ (s.slotMay a r u = true) ∧ (clashes r [] (r.synFlight r.nextCyc w.toNat rho) = false))
    ∧ (∃ uid : Nat, ∃ u : CUnit, ∃ n : Nat, ∃ s : State, (s.power = true) ∧ (s.unit? uid = some u) ∧ (u.home = none) ∧ (u.others = []) ∧ (u.pairTiles = []) ∧ (u.thirdTiles = []) ∧ (u.tiles ≠ []) ∧ ((∀ a ∈ u.tiles, (s.tile a).barrier? uid = some n)))
    ∧ (∃ uid : Nat, ∃ u : CUnit, ∃ a : Nat, ∃ s : State, (s.power = true) ∧ (s.unit? uid = some u) ∧ (u.pairTiles = []) ∧ (u.thirdTiles = []) ∧ (a ∈ u.tiles) ∧ ((s.tile a).barrier? uid = none))
    ∧ (∃ a : Nat, ∃ r : TileRun, ∃ u : CUnit, ∃ s : State, (s.power = true) ∧ ((s.tile a).run = some r) ∧ (s.unit? r.unit = some u) ∧ (r.inflight = []) ∧ (r.ended = true) ∧ (r.ready = false) ∧ (r.stall = none) ∧ (r.stopped = false) ∧ (dKind (u.stageAt r.stage).desc ≠ kHANDOFF) ∧ (u.stages.length ≤ r.stage + 1) ∧ (r.pass ≠ 1) ∧ (u.phase = .running) ∧ (u.tiles = [a]) ∧ (u.pairTiles = []) ∧ (u.home = none))
    ∧ (∃ a : Nat, ∃ b : Nat, ∃ r : TileRun, ∃ u : CUnit, ∃ s : State, (s.power = true) ∧ ((s.tile a).run = some r) ∧ (s.unit? r.unit = some u) ∧ (r.inflight = []) ∧ (r.ended = true) ∧ (r.ready = false) ∧ (r.stall = none) ∧ (r.stopped = false) ∧ (dKind (u.stageAt r.stage).desc ≠ kHANDOFF) ∧ ((u.stages.length ≤ r.stage + 1 ∨ r.pass = 1)) ∧ (b ∈ u.tiles) ∧ (b ≠ a) ∧ ((∀ x, (s.tile b).run = some x → x.ready = false)))
    ∧ (∃ a : Nat, ∃ r : TileRun, ∃ u : CUnit, ∃ s : State, (s.power = true) ∧ ((s.tile a).run = some r) ∧ (s.unit? r.unit = some u) ∧ (r.inflight = []) ∧ (r.ended = true) ∧ (r.ready = false) ∧ (r.stall = none) ∧ (r.stopped = false) ∧ (dKind (u.stageAt r.stage).desc ≠ kHANDOFF) ∧ (r.stage + 1 < u.stages.length) ∧ (r.pass ≠ 1) ∧ (dKind (u.stageAt (r.stage + 1)).desc ≠ kHANDOFF)) :=
  ⟨⟨8191, flies (.vreg 31 0xF0F 0xAAA 1) 5, uRun [], 31, 0xF0F, 0xAAA, 1, { due := 5, slot := .ari, w := .vreg 31 0xF0F 0xAAA 1 }, issueS (flies (.vreg 31 0xF0F 0xAAA 1) 5) (uRun []) [], by decide +kernel⟩,
   ⟨8191, flies (.mreg 7 0xF0F 0xAAA) 5, uRun [], 7, 0xF0F, 0xAAA, { due := 5, slot := .ari, w := .mreg 7 0xF0F 0xAAA }, issueS (flies (.mreg 7 0xF0F 0xAAA) 5) (uRun []) [], by decide +kernel⟩,
   ⟨8191, flies (.acc 100 [9] 1) 5, uRun [], 100, 9, 1, { due := 5, slot := .ari, w := .acc 100 [9] 1 }, issueS (flies (.acc 100 [9] 1) 5) (uRun []) [], by decide +kernel⟩,
   ⟨8191, flies (.store 0 [(3, 0x0F, 0xA5)]) 5, uRun [some hnd1], hnd1, 0, 3, 0x0F, 0xA5, { due := 5, slot := .ari, w := .store 0 [(3, 0x0F, 0xA5)] }, 45, issueS (flies (.store 0 [(3, 0x0F, 0xA5)]) 5) (uRun [some hnd1]) [], by decide +kernel⟩,
   ⟨8191, flies (.acc 100 [9] 1) 1001, { due := 1001, slot := .ari, w := .acc 100 [9] 1 }, issueS (flies (.acc 100 [9] 1) 1001) (uRun []) [], by decide +kernel⟩,
   ⟨8191, a2v, uRun [], 0x1F1, 0, 0, 0, issueS a2v (uRun []) [], by decide +kernel⟩,
   ⟨1, uRun [], 3, issueS atBarrier (uRun []) [], by decide +kernel⟩,
   ⟨1, uRun [], 8191, issueS run1 (uRun []) [], by decide +kernel⟩,
   ⟨8191, ended1, uRun [], issueS ended1 (uRun []) [], by decide +kernel⟩,
   ⟨8191, 8190, ended1, { uRun [] with tiles := [8190, 8191] }, { opLive ended1 { uRun [] with tiles := [8190, 8191] } with tiles := [(8190, { run := some run1 }), (8191, { run := some ended1 })] }, by decide +kernel⟩,
   ⟨8191, ended1, { uRun [] with kind := kLOT, stages := [{ desc := lotDesc, handles := [] }, { desc := lotDesc, handles := [] }] }, issueS ended1 { uRun [] with kind := kLOT, stages := [{ desc := lotDesc, handles := [] }, { desc := lotDesc, handles := [] }] } [], by decide +kernel⟩⟩

/-- The hypotheses of each clause of Obligations.fabricTraffic can be met. -/
theorem test_fabricTraffic_met :
    (∃ a : Nat, ∃ r : TileRun, ∃ u : CUnit, ∃ x : Nat, ∃ cl : Nat, ∃ k : Nat, ∃ b : Nat, ∃ n : Nat, ∃ since : Nat, ∃ o : Nat, ∃ w : Nat, ∃ off : Nat, ∃ s : State, (s.power = true) ∧ ((s.tile a).run = some r) ∧ (s.unit? r.unit = some u) ∧ (r.stall = some (.remote (.tile x cl k b) n none since)) ∧ (s.locateVat cl k b = some (o, w, off)) ∧ (s.readFirst a = true) ∧ ((s.partOfTile o).any s.flipWaits = false))
    ∧ (∃ a : Nat, ∃ r : TileRun, ∃ u : CUnit, ∃ x : Nat, ∃ cl : Nat, ∃ k : Nat, ∃ b : Nat, ∃ n : Nat, ∃ since : Nat, ∃ s : State, (s.power = true) ∧ ((s.tile a).run = some r) ∧ (s.unit? r.unit = some u) ∧ (r.stall = some (.remote (.tile x cl k b) n none since)) ∧ (s.locateVat cl k b = none) ∧ (s.readFirst a = true) ∧ (u.phase ≠ .committed))
    ∧ (∃ a : Nat, ∃ r : TileRun, ∃ u : CUnit, ∃ x : Nat, ∃ n : Nat, ∃ since : Nat, ∃ l : LongWord, ∃ w : Nat, ∃ h : Handle, ∃ b : Nat, ∃ s : State, (s.power = true) ∧ ((s.tile a).run = some r) ∧ (s.unit? r.unit = some u) ∧ (r.stall = some (.remote (.hbm x) n none since)) ∧ (s.flt.reissues = []) ∧ (s.hbmWaits x n = false) ∧ (s.slotMay a r u = true) ∧ (r.inflight = []) ∧ ((s.tile a).bankHits = []) ∧ (since ≤ s.cycle a) ∧ (r.nextCyc ≤ s.cycle a) ∧ (longWord (s.tile a).tbl.bank r.off = l) ∧ (l = { bare l with ld := some w }) ∧ (l.decodeCodes (fun i => ((s.ctx a r u).handle i).isSome) r.loops (s.ctx a r u).len r.pos = []) ∧ ((s.ctx a r u).handle (ldHnd w) = some h) ∧ (ldStBlock (s.ctx a r u) r w r.rho h = (b, true)) ∧ (s.ldFrom (s.ctx a r u) r u h (ldHnd w) b (ldStBytes w) = .remote (.hbm x)))
    ∧ (∃ a : Nat, ∃ r : TileRun, ∃ u : CUnit, ∃ src : ReadFrom, ∃ n : Nat, ∃ since : Nat, ∃ s : State, (s.power = true) ∧ ((s.tile a).run = some r) ∧ (s.unit? r.unit = some u) ∧ (r.stall = some (.remote src n none since)) ∧ ((∀ x, src ≠ .hbm x)))
    ∧ (∃ src : Nat, ∃ dst : Nat, ∃ m : FabricMsg, ∃ rest : List FabricMsg, ∃ r : TileRun, ∃ u : CUnit, ∃ st : Machine.Stream, ∃ s : State, (s.power = true) ∧ (takeMsg src dst s.fabric = some (m, rest)) ∧ ((s.tile dst).run = some r) ∧ (s.unit? r.unit = some u) ∧ (r.unit = m.unit) ∧ (r.stream? m.acc = some st) ∧ (m.body ≠ .read) ∧ ((s.tile dst).bankGrant = none) ∧ (r.stall = none)) :=
  ⟨⟨8176, reads (.tile 0 127 2 0) 64, uRead, 0, 127, 2, 0, 64, 0, 8191, 46, 0, vatS (reads (.tile 0 127 2 0) 64) .dry, by decide +kernel⟩,
   ⟨8176, reads (.tile 0 127 2 0) 64, uRead, 0, 127, 2, 0, 64, 0, vatS (reads (.tile 0 127 2 0) 64) .free, by decide +kernel⟩,
   ⟨8191, reads (.hbm 512) 64, uRun [some hndH], 512, 64, 0, longWord (lwBank 1 0) 0, 0, hndH, 0, issueS (reads (.hbm 512) 64) (uRun [some hndH]) (lwBank 1 0), by decide +kernel⟩,
   ⟨8176, reads (.tile 0 127 2 0) 64, uRead, .tile 0 127 2 0, 64, 0, vatS (reads (.tile 0 127 2 0) 64) .dry, by decide +kernel, by decide +kernel, by decide +kernel, by decide +kernel, nofun⟩,
   ⟨8190, 8191, msg1, [], { run1 with streams := [stream1] }, uRun [some hnd2], stream1, { issueS { run1 with streams := [stream1] } (uRun [some hnd2]) [] with fabric := [msg1] }, by decide +kernel⟩⟩

/-- The hypotheses of each clause of Obligations.membersAndTrap can be met. -/
theorem test_membersAndTrap_met :
    (∃ a : Nat, ∃ uid : Nat, ∃ q : List Nat, ∃ u : CUnit, ∃ s : State, (s.power = true) ∧ ((s.tile a).queue = uid :: q) ∧ ((s.tile a).run = none) ∧ ((s.tile a).trapFor = none) ∧ (s.unit? uid = some u) ∧ (u.phase = .placed) ∧ (u.home = none) ∧ (u.tiles = [a]) ∧ (u.member ≠ none) ∧ ((s.tile a).bankOk (s.descOrder u) = true) ∧ (s.awaited? a = false) ∧ (s.gateAll u.client = true) ∧ (s.frm.state = .ready) ∧ ((s.dom (domOfTile a)).state = .active) ∧ (s.inSpill u.entry = false) ∧ (((s.tile a).lacking u (s.client u.client).winSeq).length ≤ (s.tile a).freeList.length))
    ∧ (∃ a : Nat, ∃ uid : Nat, ∃ q : List Nat, ∃ u : CUnit, ∃ c : Nat, ∃ i : Nat, ∃ k : Nat, ∃ w : Nat, ∃ l : List (Nat × Nat), ∃ s : State, (s.power = true) ∧ ((s.tile a).queue = uid :: q) ∧ ((s.tile a).run = none) ∧ ((s.tile a).trapFor = none) ∧ (s.unit? uid = some u) ∧ (u.phase = .placed) ∧ (u.home = none) ∧ ((s.tile a).bankOk (s.descOrder u) = true) ∧ (s.awaited? a = false) ∧ (s.gateAll u.client = true) ∧ (s.frm.state = .ready) ∧ ((s.dom (domOfTile a)).state = .active) ∧ (s.inSpill u.entry = false) ∧ ((s.tile a).freeList.length < ((s.tile a).lacking u (s.client u.client).winSeq).length) ∧ (((s.tile a).lacking u (s.client u.client).winSeq).length ≤ (s.tile a).freeList.length + total ((s.victims a u.client u.entry).map fun v => ((s.tile a).seqWins v.1 v.2).length)) ∧ ((s.tile a).spill = .idle) ∧ (s.victim a u.client u.entry = some (c, i)) ∧ ((s.tile a).seqWins c i = (k, w) :: l))
    ∧ (∃ a : Nat, ∃ uid : Nat, ∃ q : List Nat, ∃ u : CUnit, ∃ s : State, (s.power = true) ∧ ((s.tile a).queue = uid :: q) ∧ ((s.tile a).run = none) ∧ ((s.tile a).trapFor = none) ∧ (s.unit? uid = some u) ∧ (u.phase = .placed) ∧ (u.home = none) ∧ ((s.tile a).bankOk (s.descOrder u) = true) ∧ (s.awaited? a = false) ∧ (s.gateAll u.client = true) ∧ (s.frm.state = .ready) ∧ ((s.dom (domOfTile a)).state = .active) ∧ (s.inSpill u.entry = false) ∧ ((s.tile a).freeList.length + total ((s.victims a u.client u.entry).map fun v => ((s.tile a).seqWins v.1 v.2).length) < ((s.tile a).lacking u (s.client u.client).winSeq).length))
    ∧ (∃ a : Nat, ∃ w : Nat, ∃ e : Nat, ∃ k : Nat, ∃ b : Nat, ∃ s : State, (s.power = true) ∧ ((s.tile a).spill = .copying w e k b) ∧ (b + 256 ≤ s.cycle a) ∧ ((s.tile a).trapFor = none) ∧ (memWf (s.tile a).vat = true) ∧ (w < 47) ∧ (k < (s.entry e).win.length))
    ∧ (∃ a : Nat, ∃ w : Nat, ∃ e : Nat, ∃ k : Nat, ∃ b : Nat, ∃ uid : Nat, ∃ n : Nat, ∃ u : CUnit, ∃ j : Nat, ∃ l : List Nat, ∃ s : State, (s.power = true) ∧ ((s.tile a).spill = .copying w e k b) ∧ (b + 256 ≤ s.cycle a) ∧ ((s.tile a).trapFor = some (uid, n + 2)) ∧ (s.unit? uid = some u) ∧ (((s.tile a).freeWin w).lacking u (s.client u.client).winSeq = j :: l) ∧ (w < 47))
    ∧ (∃ a : Nat, ∃ e : Nat, ∃ k : Nat, ∃ b : Nat, ∃ s : State, (s.power = true) ∧ ((s.tile a).spill = .draining e k b) ∧ ((s.tile a).trapFor = none) ∧ (memWf (s.tile a).vat = true) ∧ (memWf s.hbm = true)) :=
  ⟨⟨8191, 1, [], uMem, memS [] .idle none, by decide +kernel⟩,
   ⟨8191, 1, [], uMem, 127, 6, 0, 46, [], memS (full (.seq 127 6 0)) .idle none, by decide +kernel⟩,
   ⟨8191, 1, [], uMem, memS (full (.record 127 1 46)) .idle none, by decide +kernel⟩,
   ⟨8191, 46, 6, 0, 0, memS (full (.seq 127 6 0)) (.copying 46 6 0 0) none, by decide +kernel⟩,
   ⟨8191, 46, 6, 0, 0, 1, 0, uMem, 0, [], memS (full (.seq 127 6 0)) (.copying 46 6 0 0) (some (1, 2)), by decide +kernel⟩,
   ⟨8191, 6, 0, 0, memS (full (.seq 127 6 0)) (.draining 6 0 0) none, by decide +kernel⟩⟩

/-- The hypotheses of each clause of Obligations.commits can be met. -/
theorem test_commits_met :
    (∃ uid : Nat, ∃ u : CUnit, ∃ s : State, (s.power = true) ∧ (s.unit? uid = some u) ∧ (u.phase = .ready) ∧ (u.waitReady = []) ∧ (u.home = none) ∧ (u.pairTiles = []) ∧ (u.thirdTiles = []) ∧ (u.kind ≠ kMOVE))
    ∧ (∃ uid : Nat, ∃ u : CUnit, ∃ m : Member, ∃ a : Nat, ∃ s : State, (s.power = true) ∧ (s.unit? uid = some u) ∧ (u.phase = .ready) ∧ (u.waitReady = []) ∧ (u.home = none) ∧ (u.pairTiles = []) ∧ (u.thirdTiles = []) ∧ (u.kind = kLOT) ∧ (u.member = some m) ∧ (u.tiles = [a]) ∧ (s.sideEos u .main = false) ∧ ((s.entry m.entry).retirePend = false))
    ∧ (∃ uid : Nat, ∃ u : CUnit, ∃ s : State, (s.power = true) ∧ (s.unit? uid = some u) ∧ (u.phase = .committed) ∧ (u.waitWr = []) ∧ (u.waitFlip = []) ∧ (u.others = []) ∧ (s.earlierCommit u = false) ∧ (u.waitMerge = []) ∧ (u.staged = []) ∧ (u.member = none) ∧ (u.home = none) ∧ (Unheld s u.client) ∧ ((s.client u.client).lots = []) ∧ ((s.queue u.client u.q).late = []) ∧ ((s.client u.client).admits = []) ∧ ((s.part (s.client u.client).bindPart).switch = none))
    ∧ (∃ uid : Nat, ∃ u : CUnit, ∃ k : Nat, ∃ v : Byte, ∃ s : State, (s.power = true) ∧ (s.unit? uid = some u) ∧ (u.phase = .committed) ∧ (u.waitWr = []) ∧ (u.waitFlip = []) ∧ (u.others = []) ∧ (s.earlierCommit u = false) ∧ (u.waitMerge = []) ∧ (u.staged = [(k, v)]) ∧ (u.halves = []) ∧ ((s.client u.client).lots = []) ∧ ((s.queue u.client u.q).late = []) ∧ ((s.client u.client).admits = []) ∧ ((s.part (s.client u.client).bindPart).switch = none) ∧ (u.member = none) ∧ (u.home = none) ∧ (keySpace k = 1) ∧ (keyWafer k = s.frm.waferId) ∧ (s.hbmWaits (bits k 51 0) 1 = false) ∧ (bits k 51 0 < s.hbmTop) ∧ (s.frm.unmapped = []) ∧ (s.trace.en = false) ∧ ((s.queue u.client u.q).cbaseLoc = 0)) :=
  ⟨⟨1, uPh .ready, issueS (readyRun .main 0) (uPh .ready) [], by decide +kernel⟩,
   ⟨1, { uMem with phase := .ready }, { entry := 5, deadline := 9, step := 0 }, 8191, memReady, by decide +kernel⟩,
   ⟨1, uPh .committed, drainS (uPh .committed), by decide +kernel⟩,
   ⟨1, { uPh .committed with staged := [(2 ^ 56 + 1280, 9)] }, 2 ^ 56 + 1280, 9, drainS { uPh .committed with staged := [(2 ^ 56 + 1280, 9)] }, by decide +kernel⟩⟩

/-- The hypotheses of each clause of Obligations.pairedUnits can be met. -/
theorem test_pairedUnits_met :
    (∃ uid : Nat, ∃ u : CUnit, ∃ s : State, (s.power = true) ∧ (s.unit? uid = some u) ∧ (u.phase = .ready) ∧ (u.waitReady = []) ∧ (u.home = none) ∧ (u.pairTiles ≠ []) ∧ (s.digestOf u .main ≠ s.digestOf u .pair) ∧ (s.flt.arbEn = true))
    ∧ (∃ uid : Nat, ∃ u : CUnit, ∃ s : State, (s.power = true) ∧ (s.unit? uid = some u) ∧ (u.phase = .ready) ∧ (u.waitReady = []) ∧ (u.home = none) ∧ (u.pairTiles ≠ []) ∧ (s.digestOf u .main ≠ s.digestOf u .pair) ∧ (s.flt.arbEn = false))
    ∧ (∃ uid : Nat, ∃ u : CUnit, ∃ s : State, ((s.power = true) ∧ (s.unit? uid = some u) ∧ (u.phase = .third) ∧ (s.flt.thirds.head? = some uid) ∧ (u.thirdTiles = []) ∧ (s.flt.arbEn = true) ∧ ((s.tilesOf s.flt.arbPart).all (fun a => (s.tile a).run.isNone) = true) ∧ (s.tilesOf s.flt.arbPart ≠ []) ∧ (s.awake (s.tilesOf s.flt.arbPart) = true) ∧ ((∀ i ∈ s.flt.thirds, ∀ v, s.unit? i = some v → v.thirdTiles = [])) ∧ (u.member = none)) ∧ ThirdFits s u)
    ∧ (∃ uid : Nat, ∃ u : CUnit, ∃ s : State, (s.power = true) ∧ (s.unit? uid = some u) ∧ (u.phase = .third) ∧ (u.thirdTiles ≠ []) ∧ (s.sideReady uid u.thirdTiles = true) ∧ (some (s.digestOf u .third) ≠ u.digest) ∧ (some (s.digestOf u .third) ≠ u.pairDigest))
    ∧ (∃ uid : Nat, ∃ u : CUnit, ∃ s : State, (s.power = true) ∧ (s.unit? uid = some u) ∧ (u.phase = .third) ∧ (u.thirdTiles ≠ []) ∧ (s.sideReady uid u.thirdTiles = true) ∧ (some (s.digestOf u .third) = u.digest) ∧ (u.home = none) ∧ ((∀ pt ∈ s.guilty u .pair, Steady s 0 pt)) ∧ ((s.guilty u .pair).Nodup)) :=
  ⟨⟨1, uPair .ready, pairS (uPair .ready) true, by decide +kernel⟩,
   ⟨1, uPair .ready, pairS (uPair .ready) false, by decide +kernel⟩,
   ⟨1, uPair .third, pairWaits, by decide +kernel, third_of_room _ _ (by decide +kernel)⟩,
   ⟨1, uThird (some 0), pairS (uThird (some 0)) true, by decide +kernel⟩,
   ⟨1, uThird (some ((pairS (uThird none) true).digestOf (uThird none) .third)), pairS (uThird (some ((pairS (uThird none) true).digestOf (uThird none) .third))) true, by decide +kernel⟩⟩

/-- The hypotheses of each clause of Obligations.rerunsAndSwaps can be met. -/
theorem test_rerunsAndSwaps_met :
    (∃ uid : Nat, ∃ u : CUnit, ∃ s : State, ((s.power = true) ∧ (s.unit? uid = some u) ∧ (u.phase = .killed) ∧ (u.member = none) ∧ (u.home = none) ∧ (u.waitFlip = []) ∧ (s.gateAll u.client = true) ∧ (s.frm.state = .ready) ∧ (u.kind = kOP) ∧ (u.pairTiles = []) ∧ (s.rerunLater u = false) ∧ (s.banksReady u (s.tilesOf u.part) = true) ∧ (s.allIdle (s.tilesOf u.part) = true) ∧ (s.awake (s.tilesOf u.part) = true)) ∧ Fits s { u with tiles := s.tilesOf u.part, pairTiles := [], first := spreadFirst (s.spread u.part) s.frm.waferId, total := spreadTotal (s.spread u.part), stages := s.resampleStages u.client u.stages })
    ∧ (∃ uid : Nat, ∃ u : CUnit, ∃ a : Nat, ∃ r : TileRun, ∃ s : State, (s.power = true) ∧ (s.unit? uid = some u) ∧ (u.tiles = [a]) ∧ (u.pairTiles = []) ∧ (u.thirdTiles = []) ∧ (u.home = none) ∧ (u.others = []) ∧ (u.merges = []) ∧ ((s.tile a).run = some r) ∧ (r.unit = uid) ∧ (r.ready = true) ∧ (r.pass = 1) ∧ ((s.modUnit uid fun x => { x with merges := [], merged := (x.merged.filter fun y => y.1 / 1024 != 0) ++ (s.passOne u .main).map fun y => (1024 * 0 + y.1, y.2) }).twoCodes (a, r)
        { u with merges := [], merged := (u.merged.filter fun y => y.1 / 1024 != 0) ++ (s.passOne u .main).map fun y => (1024 * 0 + y.1, y.2) } = []))
    ∧ (∃ a : Nat, ∃ s : State, (s.power = true) ∧ ((s.tile a).pal.pending = true) ∧ (s.bankInUse a (s.tile a).pal.since = false))
    ∧ (∃ a : Nat, ∃ s : State, (s.power = true) ∧ ((s.tile a).tbl.pending = true) ∧ (s.bankInUse a (s.tile a).tbl.since = false))
    ∧ (∃ a : Nat, ∃ s : State, (s.power = true) ∧ (s.bankInUse a (s.tile a).pal.since = true))
    ∧ (∃ a : Nat, ∃ s : State, (s.power = true) ∧ (s.bankInUse a (s.tile a).tbl.since = true)) :=
  ⟨⟨1, { uPh .killed with stages := [{ desc := opDesc, handles := [] }] }, killedS, by decide +kernel, fits_of_rooms _ _ (by decide +kernel)⟩,
   ⟨1, uRun [], 8191, { readyRun .main 4 with pass := 1 }, issueS { readyRun .main 4 with pass := 1 } (uRun []) [], by decide +kernel⟩,
   ⟨8191, bankS none, by decide +kernel⟩,
   ⟨8191, bankS none, by decide +kernel⟩,
   ⟨8191, bankS (some run1), by decide +kernel⟩,
   ⟨8191, bankS (some run1), by decide +kernel⟩⟩

-- A deep conjunction.
set_option maxRecDepth 4096 in
/-- The hypotheses of each clause of Obligations.everyCommandCompletes can be met: each is a clause of one of the theorems above. -/
theorem test_everyCommandCompletes_met :
    (∃ a : Nat, ∃ r : TileRun, ∃ u : CUnit, ∃ l : LongWord, ∃ s : State, (MayIssue s a r u l) ∧ (l = bare l) :)
    ∧ (∃ a : Nat, ∃ r : TileRun, ∃ u : CUnit, ∃ w : W32, ∃ rho : Nat, ∃ b : Nat, ∃ e : Nat, ∃ s : State, (s.power = true) ∧ ((s.tile a).run = some r) ∧ (s.unit? r.unit = some u) ∧ (r.inflight = []) ∧ (r.stall = some (.syn w rho b e)) ∧ (r.synWaits w.toNat rho = false) ∧ (r.nextCyc ≤ s.cycle a) ∧ (r.lastRed ≤ r.nextCyc) ∧ ((s.tile a).bankHits = []) ∧ (s.slotMay a r u = true) ∧ (clashes r [] (r.synFlight r.nextCyc w.toNat rho) = false) :)
    ∧ (∃ uid : Nat, ∃ u : CUnit, ∃ n : Nat, ∃ s : State, (s.power = true) ∧ (s.unit? uid = some u) ∧ (u.home = none) ∧ (u.others = []) ∧ (u.pairTiles = []) ∧ (u.thirdTiles = []) ∧ (u.tiles ≠ []) ∧ ((∀ a ∈ u.tiles, (s.tile a).barrier? uid = some n)) :)
    ∧ (∃ a : Nat, ∃ r : TileRun, ∃ u : CUnit, ∃ v : Nat, ∃ sel : BitVec 2048, ∃ b : BitVec 2048, ∃ tag : Nat, ∃ f : Flight, ∃ s : State, (s.power = true) ∧ ((s.tile a).run = some r) ∧ (s.unit? r.unit = some u) ∧ (r.inflight = [f]) ∧ (f.due ≤ s.cycle a) ∧ (f.w = .vreg v sel b tag) :)
    ∧ (∃ a : Nat, ∃ r : TileRun, ∃ u : CUnit, ∃ s : State, (s.power = true) ∧ ((s.tile a).run = some r) ∧ (s.unit? r.unit = some u) ∧ (r.inflight = []) ∧ (r.ended = true) ∧ (r.ready = false) ∧ (r.stall = none) ∧ (r.stopped = false) ∧ (dKind (u.stageAt r.stage).desc ≠ kHANDOFF) ∧ (u.stages.length ≤ r.stage + 1) ∧ (r.pass ≠ 1) ∧ (u.phase = .running) ∧ (u.tiles = [a]) ∧ (u.pairTiles = []) ∧ (u.home = none) :)
    ∧ (∃ a : Nat, ∃ r : TileRun, ∃ u : CUnit, ∃ x : Nat, ∃ cl : Nat, ∃ k : Nat, ∃ b : Nat, ∃ n : Nat, ∃ since : Nat, ∃ o : Nat, ∃ w : Nat, ∃ off : Nat, ∃ s : State, (s.power = true) ∧ ((s.tile a).run = some r) ∧ (s.unit? r.unit = some u) ∧ (r.stall = some (.remote (.tile x cl k b) n none since)) ∧ (s.locateVat cl k b = some (o, w, off)) ∧ (s.readFirst a = true) ∧ ((s.partOfTile o).any s.flipWaits = false) :)
    ∧ (∃ a : Nat, ∃ r : TileRun, ∃ u : CUnit, ∃ x : Nat, ∃ n : Nat, ∃ since : Nat, ∃ l : LongWord, ∃ w : Nat, ∃ h : Handle, ∃ b : Nat, ∃ s : State, (s.power = true) ∧ ((s.tile a).run = some r) ∧ (s.unit? r.unit = some u) ∧ (r.stall = some (.remote (.hbm x) n none since)) ∧ (s.flt.reissues = []) ∧ (s.hbmWaits x n = false) ∧ (s.slotMay a r u = true) ∧ (r.inflight = []) ∧ ((s.tile a).bankHits = []) ∧ (since ≤ s.cycle a) ∧ (r.nextCyc ≤ s.cycle a) ∧ (longWord (s.tile a).tbl.bank r.off = l) ∧ (l = { bare l with ld := some w }) ∧ (l.decodeCodes (fun i => ((s.ctx a r u).handle i).isSome) r.loops (s.ctx a r u).len r.pos = []) ∧ ((s.ctx a r u).handle (ldHnd w) = some h) ∧ (ldStBlock (s.ctx a r u) r w r.rho h = (b, true)) ∧ (s.ldFrom (s.ctx a r u) r u h (ldHnd w) b (ldStBytes w) = .remote (.hbm x)) :)
    ∧ (∃ src : Nat, ∃ dst : Nat, ∃ m : FabricMsg, ∃ rest : List FabricMsg, ∃ r : TileRun, ∃ u : CUnit, ∃ st : Machine.Stream, ∃ s : State, (s.power = true) ∧ (takeMsg src dst s.fabric = some (m, rest)) ∧ ((s.tile dst).run = some r) ∧ (s.unit? r.unit = some u) ∧ (r.unit = m.unit) ∧ (r.stream? m.acc = some st) ∧ (m.body ≠ .read) ∧ ((s.tile dst).bankGrant = none) ∧ (r.stall = none) :)
    ∧ (∃ a : Nat, ∃ uid : Nat, ∃ q : List Nat, ∃ u : CUnit, ∃ s : State, (s.power = true) ∧ ((s.tile a).queue = uid :: q) ∧ ((s.tile a).run = none) ∧ ((s.tile a).trapFor = none) ∧ (s.unit? uid = some u) ∧ (u.phase = .placed) ∧ (u.home = none) ∧ (u.tiles = [a]) ∧ (u.member ≠ none) ∧ ((s.tile a).bankOk (s.descOrder u) = true) ∧ (s.awaited? a = false) ∧ (s.gateAll u.client = true) ∧ (s.frm.state = .ready) ∧ ((s.dom (domOfTile a)).state = .active) ∧ (s.inSpill u.entry = false) ∧ (((s.tile a).lacking u (s.client u.client).winSeq).length ≤ (s.tile a).freeList.length) :)
    ∧ (∃ a : Nat, ∃ w : Nat, ∃ e : Nat, ∃ k : Nat, ∃ b : Nat, ∃ s : State, (s.power = true) ∧ ((s.tile a).spill = .copying w e k b) ∧ (b + 256 ≤ s.cycle a) ∧ ((s.tile a).trapFor = none) ∧ (memWf (s.tile a).vat = true) ∧ (w < 47) ∧ (k < (s.entry e).win.length) :)
    ∧ (∃ a : Nat, ∃ e : Nat, ∃ k : Nat, ∃ b : Nat, ∃ s : State, (s.power = true) ∧ ((s.tile a).spill = .draining e k b) ∧ ((s.tile a).trapFor = none) ∧ (memWf (s.tile a).vat = true) ∧ (memWf s.hbm = true) :)
    ∧ (∃ uid : Nat, ∃ u : CUnit, ∃ s : State, (s.power = true) ∧ (s.unit? uid = some u) ∧ (u.phase = .ready) ∧ (u.waitReady = []) ∧ (u.home = none) ∧ (u.pairTiles = []) ∧ (u.thirdTiles = []) ∧ (u.kind ≠ kMOVE) :)
    ∧ (∃ uid : Nat, ∃ u : CUnit, ∃ s : State, ((s.power = true) ∧ (s.unit? uid = some u) ∧ (u.phase = .third) ∧ (s.flt.thirds.head? = some uid) ∧ (u.thirdTiles = []) ∧ (s.flt.arbEn = true) ∧ ((s.tilesOf s.flt.arbPart).all (fun a => (s.tile a).run.isNone) = true) ∧ (s.tilesOf s.flt.arbPart ≠ []) ∧ (s.awake (s.tilesOf s.flt.arbPart) = true) ∧ ((∀ i ∈ s.flt.thirds, ∀ v, s.unit? i = some v → v.thirdTiles = [])) ∧ (u.member = none)) ∧ ThirdFits s u :)
    ∧ (∃ uid : Nat, ∃ u : CUnit, ∃ s : State, (s.power = true) ∧ (s.unit? uid = some u) ∧ (u.phase = .third) ∧ (u.thirdTiles ≠ []) ∧ (s.sideReady uid u.thirdTiles = true) ∧ (some (s.digestOf u .third) = u.digest) ∧ (u.home = none) ∧ ((∀ pt ∈ s.guilty u .pair, Steady s 0 pt)) ∧ ((s.guilty u .pair).Nodup) :)
    ∧ (∃ uid : Nat, ∃ u : CUnit, ∃ s : State, (s.power = true) ∧ (s.unit? uid = some u) ∧ (u.phase = .committed) ∧ (u.waitWr = []) ∧ (u.waitFlip = []) ∧ (u.others = []) ∧ (s.earlierCommit u = false) ∧ (u.waitMerge = []) ∧ (u.staged = []) ∧ (u.member = none) ∧ (u.home = none) ∧ (Unheld s u.client) ∧ ((s.client u.client).lots = []) ∧ ((s.queue u.client u.q).late = []) ∧ ((s.client u.client).admits = []) ∧ ((s.part (s.client u.client).bindPart).switch = none) :)
    ∧ (∃ n : Nat, ∃ q : Nat, ∃ s : State, (s.power = true) ∧ (q < 2) ∧ ((s.queue n q).pend ≠ 0) ∧ ((s.queue n q).coalTime ≠ 0) ∧ ((s.queue n q).oldest + 1000 * (s.queue n q).coalTime ≤ s.now) ∧ ((s.client n).func.funcMask = false) ∧ (q ∉ (s.client n).func.masked) ∧ (s.canDma n = true) :)
    ∧ (∃ uid : Nat, ∃ u : CUnit, ∃ s : State, ((s.power = true) ∧ (s.unit? uid = some u) ∧ (u.phase = .killed) ∧ (u.member = none) ∧ (u.home = none) ∧ (u.waitFlip = []) ∧ (s.gateAll u.client = true) ∧ (s.frm.state = .ready) ∧ (u.kind = kOP) ∧ (u.pairTiles = []) ∧ (s.rerunLater u = false) ∧ (s.banksReady u (s.tilesOf u.part) = true) ∧ (s.allIdle (s.tilesOf u.part) = true) ∧ (s.awake (s.tilesOf u.part) = true)) ∧ Fits s { u with tiles := s.tilesOf u.part, pairTiles := [], first := spreadFirst (s.spread u.part) s.frm.waferId, total := spreadTotal (s.spread u.part), stages := s.resampleStages u.client u.stages } :)
    ∧ (∃ uid : Nat, ∃ u : CUnit, ∃ a : Nat, ∃ r : TileRun, ∃ s : State, (s.power = true) ∧ (s.unit? uid = some u) ∧ (u.tiles = [a]) ∧ (u.pairTiles = []) ∧ (u.thirdTiles = []) ∧ (u.home = none) ∧ (u.others = []) ∧ (u.merges = []) ∧ ((s.tile a).run = some r) ∧ (r.unit = uid) ∧ (r.ready = true) ∧ (r.pass = 1) ∧ ((s.modUnit uid fun x => { x with merges := [], merged := (x.merged.filter fun y => y.1 / 1024 != 0) ++ (s.passOne u .main).map fun y => (1024 * 0 + y.1, y.2) }).twoCodes (a, r)
        { u with merges := [], merged := (u.merged.filter fun y => y.1 / 1024 != 0) ++ (s.passOne u .main).map fun y => (1024 * 0 + y.1, y.2) } = []) :)
    ∧ (∃ a : Nat, ∃ s : State, (s.power = true) ∧ ((s.tile a).pal.pending = true) ∧ (s.bankInUse a (s.tile a).pal.since = false) :)
    ∧ (∃ a : Nat, ∃ s : State, (s.power = true) ∧ ((s.tile a).tbl.pending = true) ∧ (s.bankInUse a (s.tile a).tbl.since = false) :)
    ∧ (∃ n : Nat, ∃ q : Nat, ∃ s : State, (s.power = true) ∧ (s.canFetch n q = true) ∧ ((s.queue n q).fetchFail = none) ∧ ((s.queue n q).baseLoc = 0) :)
    ∧ (∃ n : Nat, ∃ q : Nat, ∃ c : Nat, ∃ t0 : Nat, ∃ s : State, (s.power = true) ∧ (s.canFetch n q = true) ∧ ((s.queue n q).fetchFail = some { cause := c, at_ := t0 }) ∧ (t0 + 1000000 ≤ s.now) ∧ ((s.queue n q).baseLoc = 0) :)
    ∧ (∃ n : Nat, ∃ q : Nat, ∃ d : BitVec 512, ∃ r : List (BitVec 512), ∃ s : State, (s.power = true) ∧ (s.canAccept n q = true) ∧ ((s.queue n q).fetched = d :: r) ∧ ((∀ a ∈ (s.queue n q).accepted, a.fault = 0 ∧ a.chainOpen = false)) ∧ (acceptCodes (s.queue n q) d 0 = []) ∧ (dChain d = false) :)
    ∧ (∃ n : Nat, ∃ q : Nat, ∃ tag : W32, ∃ d : ADesc, ∃ k : Nat, ∃ s : State, (s.power = true) ∧ (s.waiting? n q tag = some d) ∧ (d.timer + 1000 * (s.client n).depTimeout ≤ s.now) ∧ (k < 3) ∧ (s.depState n q d.desc k = .unseen) ∧ ((s.client n).dbg.halted = false) ∧ (((s.queue n q).cbaseLoc = 1 ∨ s.canDma n = true)) ∧ ((s.client n).func.held = []) :)
    ∧ (∃ n : Nat, ∃ q : Nat, ∃ tag : W32, ∃ d : ADesc, ∃ s : State, ((CanStart s n q tag kOP d) ∧ (s.roomForUnit n = true) ∧ (s.allIdle (s.seatTiles n) = true) ∧ ((∀ a ∈ s.seatTiles n, (s.tile a).pal.pending = false ∧ (s.tile a).tbl.pending = false ∧ (s.tile a).queue = [])) ∧ (s.unit? s.nextUnit = none)) ∧ Fits s (unitOf s n q d) :)
    ∧ (∃ n : Nat, ∃ q : Nat, ∃ tag : W32, ∃ d : ADesc, ∃ s : State, ((CanStart s n q tag kMOVE d) ∧ (s.roomForUnit n = true) ∧ (s.unit? s.nextUnit = none)) ∧ Fits s (unitOf s n q d) :)
    ∧ (∃ n : Nat, ∃ q : Nat, ∃ tag : W32, ∃ d : ADesc, ∃ s : State, (CanStart s n q tag kLOT d) ∧ ((s.client n).build = none) ∧ ((∀ x, (s.client n).lastBuild = some x → x + 1000 * (s.client n).lotInterval ≤ s.now)) ∧ (s.lot? n q d.ordinal = none) :)
    ∧ (∃ n : Nat, ∃ q : Nat, ∃ tag : W32, ∃ d : ADesc, ∃ a : Nat, ∃ s : State, (CanStart s n q tag kSEQ d) ∧ (seqSub d.desc = 1) ∧ (s.recordsDone n q = true) ∧ ((s.client n).admits = []) ∧ ((s.client n).build = none) ∧ (((s.client n).out.enable = false ∨ (s.client n).out.free ≠ 0)) ∧ (s.stk.rebuilding = none) ∧ (Unheld s n) ∧ (s.refusal n d = 0) ∧ (s.spillArea n = some a) ∧ (s.frm.role ≠ 2) ∧ (s.stackCount n < (s.client n).stackQuota) :)
    ∧ (∃ n : Nat, ∃ q : Nat, ∃ tag : W32, ∃ d : ADesc, ∃ i : Nat, ∃ s : State, (CanStart s n q tag kSEQ d) ∧ (seqSub d.desc = 2) ∧ (s.recordsDone n q = true) ∧ ((s.client n).build = none) ∧ (((s.client n).out.enable = false ∨ (s.client n).out.free ≠ 0)) ∧ (Unheld s n) ∧ (seqIdOf d.desc % 2 ^ 17 = i) ∧ ((s.entry i).state ≠ .retiring) :)
    ∧ (∃ n : Nat, ∃ q : Nat, ∃ tag : W32, ∃ d : ADesc, ∃ i : Nat, ∃ s : State, (CanStart s n q tag kSEQ d) ∧ (seqSub d.desc = 3) ∧ (s.recordsDone n q = true) ∧ ((s.client n).build = none) ∧ (Unheld s n) ∧ (seqIdOf d.desc % 2 ^ 17 = i) ∧ ((s.entry i).state ≠ .retiring) :)
    ∧ (∃ n : Nat, ∃ q : Nat, ∃ tag : W32, ∃ d : ADesc, ∃ i : Nat, ∃ s : State, (CanStart s n q tag kSEQ d) ∧ (seqSub d.desc = 4) ∧ (s.recordsDone n q = true) ∧ ((s.client n).build = none) ∧ (Unheld s n) ∧ (seqIdOf d.desc % 2 ^ 17 = i) ∧ ((s.entry i).state ≠ .retiring) :)
    ∧ (∃ n : Nat, ∃ q : Nat, ∃ tag : W32, ∃ d : ADesc, ∃ i : Nat, ∃ s : State, (CanStart s n q tag kSEQ d) ∧ (seqSub d.desc = 5) ∧ (s.recordsDone n q = true) ∧ ((s.client n).build = none) ∧ (Unheld s n) ∧ (seqIdOf d.desc % 2 ^ 17 = i) ∧ ((s.entry i).state ≠ .retiring) :)
    ∧ (∃ n : Nat, ∃ q : Nat, ∃ tag : W32, ∃ d : ADesc, ∃ i : Nat, ∃ s : State, (CanStart s n q tag kSEQ d) ∧ (seqSub d.desc = 6) ∧ (s.recordsDone n q = true) ∧ ((s.client n).build = none) ∧ (Unheld s n) ∧ (seqIdOf d.desc % 2 ^ 17 = i) ∧ ((s.entry i).state ≠ .retiring) :)
    ∧ (∃ n : Nat, ∃ q : Nat, ∃ tag : W32, ∃ d : ADesc, ∃ h : Handle, ∃ s : State, (CanStart s n q tag kPALETTE d) ∧ (s.roomForUnit n = true) ∧ (s.storeBusy n true = false) ∧ (s.unit? s.nextUnit = none) ∧ (s.trace.en = false) ∧ (((unitOf s n q d).stageAt 0).handles.getD 0 none = some h) ∧ ((h.cls = 2 ∨ h.cls = 3 → h.wafer = s.frm.waferId)) ∧ (palImageOk (s.operand { unitOf s n q d with image := memPutAll [] ((s.tensorOf n h (moveSeq d.desc)).map fun x => (2 ^ 48 * 0 + x.1, x.2)) } 0 h) = true) :)
    ∧ (∃ n : Nat, ∃ q : Nat, ∃ tag : W32, ∃ d : ADesc, ∃ h : Handle, ∃ s : State, (CanStart s n q tag kTABLE d) ∧ (s.roomForUnit n = true) ∧ (s.storeBusy n false = false) ∧ (s.unit? s.nextUnit = none) ∧ (s.trace.en = false) ∧ (((unitOf s n q d).stageAt 0).handles.getD 0 none = some h) ∧ ((h.cls = 2 ∨ h.cls = 3 → h.wafer = s.frm.waferId)) :)
    ∧ (∃ n : Nat, ∃ q : Nat, ∃ tag : W32, ∃ d : ADesc, ∃ s : State, (CanStart s n q tag kFENCE d) ∧ (s.recordsDone n q = true) ∧ (Unheld s n) :)
    ∧ (∃ n : Nat, ∃ q : Nat, ∃ tag : W32, ∃ d : ADesc, ∃ s : State, (CanStart s n q tag kMARK d) ∧ (s.recordsDone n q = true) ∧ (Unheld s n) :)
    ∧ (∃ n : Nat, ∃ q : Nat, ∃ tag : W32, ∃ d : ADesc, ∃ s : State, (CanStart s n q tag kRECORD d) ∧ (s.recordsDone n q = true) ∧ (Unheld s n) ∧ (s.trace.en = false) ∧ ((s.queue n q).cbaseLoc = 0) :)
    ∧ (∃ n : Nat, ∃ q : Nat, ∃ tag : W32, ∃ d : ADesc, ∃ p : Nat, ∃ s : State, ((CanStart s n q tag kHANDOFF d) ∧ (s.roomForUnit n = true) ∧ (s.unit? s.nextUnit = none) ∧ ((unitOf s n q d).others = []) ∧ (((unitOf s n q d).stageAt 0).handles.all (fun o => match o with | some h => (h.cls != 2 && h.cls != 3) || h.wafer == s.frm.waferId | none => true) = true) ∧ (s.fmtsOk (unitOf s n q d) 0 = true) ∧ (s.handoffsTo (handoffPartner d.desc) < s.maxOut (handoffPartner d.desc)) ∧ (s.route (handoffPartner d.desc) = some p)) ∧ Fits s (unitOf s n q d) :)
    ∧ (∃ n : Nat, ∃ q : Nat, ∃ pc : W32, ∃ s : State, (Live s) ∧ (((s.queue n q).state = .running ∨ (s.queue n q).state = .stopped)) ∧ ((pc - (s.queue n q).cc).toNat ≤ 2 ^ (s.queue n q).log2) ∧ ((pc - (s.queue n q).pc).toNat ≤ 2 ^ (s.queue n q).log2) :)
    ∧ (∃ n : Nat, ∃ q : Nat, ∃ c : W32, ∃ s : State, (Live s) ∧ (((s.queue n q).state = .running ∨ (s.queue n q).state = .stopped)) ∧ ((c - (s.queue n q).consumed).toNat ≤ ((s.queue n q).ccount - (s.queue n q).consumed).toNat) :)
    ∧ (∃ n : Nat, ∃ c : W32, ∃ s : State, (Live s) ∧ ((s.client n).out.enable = true) ∧ ((c - (s.client n).out.consumed).toNat ≤ ((s.client n).out.count - (s.client n).out.consumed).toNat) ∧ ((s.client n).lostSeqs = []) :)
    ∧ (∃ n : Nat, ∃ q : Nat, ∃ cfg : W32, ∃ s : State, (Live s) ∧ ((s.queue n q).state = .disabled) ∧ (6 ≤ bits cfg.toNat 4 0) ∧ (bits cfg.toNat 4 0 ≤ 16) ∧ (6 ≤ bits cfg.toNat 12 8) ∧ (bits cfg.toNat 12 8 ≤ 16) :)
    ∧ (∃ n : Nat, ∃ q : Nat, ∃ s : State, (Live s) ∧ (((s.queue n q).state = .running ∨ (s.queue n q).state = .stopped)) ∧ ((s.queue n q).accepted = []) :)
    ∧ (∃ n : Nat, ∃ cfg : W32, ∃ s : State, (Live s) ∧ ((s.client n).out.enable = false) ∧ (10 ≤ bits cfg.toNat 4 0) ∧ (bits cfg.toNat 4 0 ≤ 20) :)
    ∧ (∃ n : Nat, ∃ q : Nat, ∃ s : State, (s.power = true) ∧ ((s.queue n q).state = .stopped) :)
    ∧ (∃ n : Nat, ∃ q : Nat, ∃ s : State, (s.power = true) ∧ ((s.queue n q).state = .stopped) ∧ ((∀ a ∈ (s.queue n q).accepted, a.state ≠ .waiting)) :)
    ∧ (∃ n : Nat, ∃ b : Build, ∃ l : LotRun, ∃ i : Nat, ∃ a : Nat, ∃ dl : Nat, ∃ s : State, (s.power = true) ∧ ((s.client n).build = some b) ∧ (s.lot? n b.q b.ordinal = some l) ∧ (b.placed = [(i, a, dl)]) ∧ (a < 8192) ∧ (s.pairTile n i a = []) :)
    ∧ (∃ i : Nat, ∃ s : State, (s.power = true) ∧ ((s.entry i).state = .retiring) ∧ (s.inSpill i = false) :)
    ∧ (∃ i : Nat, ∃ e : Entry, ∃ s : State, (s.power = true) ∧ (s.flt.rimBad.contains (ltBank i) = false) ∧ (s.flt.rimBad.contains (16 + ltBank i) = false) ∧ (tabGet {} s.south i = e) ∧ (Steady s 3 (ltBank i)) :)
    ∧ (∃ n : Nat, ∃ v : W32, ∃ s : State, (Live s) ∧ ((s.entry (bits v.toNat 16 0)).state ≠ .free) ∧ ((s.entry (bits v.toNat 16 0)).client = n) :)
    ∧ (∃ p : Nat, ∃ e : Nat, ∃ c : Nat, ∃ r : List (Nat × Nat), ∃ s : State, (Due s p) ∧ (s.contenders p = (e, c) :: r) ∧ ((s.part p).resident = none) ∧ ((s.client c).pairEn = false) :)
    ∧ (∃ p : Nat, ∃ w : Switch, ∃ n : Nat, ∃ k : Nat, ∃ s : State, (s.power = true) ∧ ((s.part p).switch = some w) ∧ (w.phase = .stopping) ∧ (w.out = some n) ∧ (w.stopAt = some k) ∧ (s.stopped n = true) :)
    ∧ (∃ p : Nat, ∃ w : Switch, ∃ n : Nat, ∃ c : Nat, ∃ s : State, (s.power = true) ∧ ((s.part p).switch = some w) ∧ (w.phase = .saving) ∧ (w.out = some n) ∧ (w.incoming = some c) ∧ (p ∈ s.seats n) ∧ (s.transferDone (s.client n).bindPart (s.saveSize n) w.since = true) :)
    ∧ (∃ p : Nat, ∃ w : Switch, ∃ n : Nat, ∃ s : State, (s.power = true) ∧ ((s.part p).switch = some w) ∧ (w.phase = .restoring) ∧ (w.incoming = some n) ∧ ((∀ r ∈ s.seats n, ∃ x, (s.part r).switch = some x ∧ x.incoming = some n ∧ x.phase = .restoring ∧ x.since = w.since)) ∧ (p ∈ s.seats n) ∧ (s.transferDone (s.client n).bindPart (if (s.client n).parked.complete then s.hbmVal ((s.client n).areas.park + 24) 8 else 53248) w.since = true) :)
    ∧ (∃ p : Nat, ∃ s : State, (Live s) ∧ (p < Config.partitions) :)
    ∧ (∃ p : Nat, ∃ s : State, (s.power = true) ∧ ((s.part p).rebuildPend = true) ∧ ((s.part p).rebuilding = false) ∧ ((s.part p).switch = none) ∧ (s.unitsIn p = false) :)
    ∧ (∃ p : Nat, ∃ s : State, (s.power = true) ∧ ((s.part p).rebuilding = true) ∧ ((∀ n, (s.part p).resident = some n → p ∈ s.seats n)) :)
    ∧ (∃ p : Nat, ∃ w : Nat, ∃ v : W32, ∃ s : State, (Live s) ∧ (p < Config.partitions) ∧ (w < 16) ∧ ((∀ r, r < Config.partitions → r ≠ p → ((s.part r).strips ||| (s.part r).adding) &&& stripsWrite (s.part p).strips w v = 0)) ∧ ((∀ i, i < 32 → (stripsWrite (s.part p).strips w v).getLsbD (32 * w + i) = true →
        (s.colmap (32 * w + i)).retired = false ∧ (s.dom (domOfStrip (32 * w + i))).state ≠ .off ∧ (s.dom (domOfStrip (32 * w + i))).target ≠ 0)) ∧ ((s.part p).strips &&& ~~~(stripsWrite (s.part p).strips w v) = 0) ∧ (stripsWrite (s.part p).strips w v &&& ~~~(s.part p).strips ≠ 0) ∧ ((∀ n ∈ s.bound p, parkNeed (stripCount (stripsWrite (s.part p).strips w v ||| (s.part p).adding)) ≤ (s.client n).areas.parkSize)) :)
    ∧ (∃ n : Nat, ∃ v : W32, ∃ s : State, (Live s) ∧ (n < Config.clients) ∧ ((s.client n).en = false) ∧ (bit v.toNat 31 = true) ∧ ((s.bindFields n v.toNat).functionExists n = true) ∧ ((s.bindFields n v.toNat).hbmCheck n = 0) :)
    ∧ (∃ n : Nat, ∃ v : W32, ∃ s : State, (Live s) ∧ ((s.client n).en = true) ∧ (bit v.toNat 31 = false) :)
    ∧ (∃ n : Nat, ∃ v : W32, ∃ s : State, (Live s) ∧ (n < 128) ∧ (bit v.toNat 0 = true) :)
    ∧ (∃ via : Via, ∃ a : Nat, ∃ s : State, (s.power = true) ∧ (a < viaSize via) ∧ (a % 4 = 0) ∧ (s.viaOk via = true) ∧ ((∀ l ∈ s.latches, l.via = via → l.addr ≠ a)) ∧ ((viaPlace via a).wide = true) :)
    ∧ (∃ p : Nat, ∃ s : State, (Live s) ∧ (p < 64) ∧ (s.now % 10000000 = 0) ∧ ((s.part p).sdEnd ≠ s.now) :)
    ∧ (∃ p : Nat, ∃ tot : Nat, ∃ f : Nat, ∃ hbm : Nat, ∃ tx : Nat, ∃ fab : Nat, ∃ lt : Nat, ∃ s : State, (s.power = true) ∧ ((s.part p).sdClosed = some (tot, f, hbm, tx, fab, lt)) ∧ (tot < 2 ^ 64) ∧ (f < 2 ^ 64) :)
    ∧ (∃ n : Nat, ∃ i : Nat, ∃ s : State, (Live s) ∧ (n < 128) ∧ (i < 1024) :)
    ∧ (∃ s : State, (s.power = true) :)
    ∧ (∃ cls : Nat, ∃ n : Nat, ∃ x : Nat × Nat, ∃ s : State, (s.power = true) ∧ ((s.flt.readbacks.find? fun y => sourceClass y.1 == cls && y.2 == n) = some x) :)
    ∧ (∃ pt : Nat, ∃ w : Nat, ∃ s : State, (s.power = true) ∧ (pt < 8704) ∧ (w < 48) ∧ (s.activeOf pt = none) ∧ (Steady s 0 pt) :)
    ∧ (∃ pt : Nat, ∃ a : Nat, ∃ r : TileRun, ∃ u : CUnit, ∃ s : State, (s.power = true) ∧ (s.activeOf pt = some a) ∧ ((s.tile a).run = some r) ∧ (s.unit? r.unit = some u) ∧ (u.pairTiles = []) ∧ (u.phase = .running) ∧ ((s.client u.client).dbg.halted = false) ∧ (((s.partOfTile a).bind fun p => (s.part p).switch) = none) ∧ (Steady s 0 pt) :)
    ∧ (∃ a : Nat, ∃ b : Nat, ∃ s : State, (s.power = true) ∧ (s.working a = true) ∧ (s.working b = true) ∧ (s.partOfTile b = s.partOfTile a) ∧ (s.activeOf (s.physTile a) = some a) ∧ ((s.tile a).run = none) ∧ (Steady s 0 (s.physTile a)) :)
    ∧ (∃ pt : Nat, ∃ s : State, (s.power = true) ∧ (pt < 8704) ∧ (Steady s 0 pt) :)
    ∧ (∃ a : Nat, ∃ s : State, (s.power = true) ∧ (a < s.hbmTop) ∧ (s.frm.unmapped = []) ∧ (Steady s 2 (pcOf a)) :)
    ∧ (∃ a : Nat, ∃ s : State, (s.power = true) ∧ (s.flt.reissues.contains a = true) :)
    ∧ (∃ i : Nat, ∃ s : State, (s.power = true) ∧ (i < 131072) ∧ (s.flt.rimBad = []) ∧ (Steady s 3 (i / 8192)) :)
    ∧ (∃ p : Nat, ∃ s : State, (s.power = true) ∧ ((s.part p).bist = true) :)
    ∧ (∃ a : Nat, ∃ r : TileRun, ∃ u : CUnit, ∃ t0 : Nat, ∃ s : State, (s.power = true) ∧ ((s.tile a).run = some r) ∧ (r.waitSince = some t0) ∧ (s.unit? r.unit = some u) ∧ (u.phase ≠ .committed) ∧ ((s.client u.client).dbg.halted = false) ∧ (tabHas s.flt.retrims (a / 16) = false) ∧ (t0 + 1000 * s.flt.syncTimeout ≤ s.now) :)
    ∧ (∃ pt : Nat, ∃ w : Nat, ∃ s : State, (Live s) ∧ (pt < 8704) ∧ (w < 48) ∧ ((s.dom (domOfStrip (pt / 17))).state ≠ .off) ∧ (((pt, w) = s.scrubbing (pt / 136) ∨ (pt, w) = scrubNext (s.scrubbing (pt / 136)))) :)
    ∧ (∃ k : Nat, ∃ s : State, (Live s) ∧ (k < 512) ∧ (tabHas s.flt.retrims k = false) ∧ ((tilesOfStrip k).any s.tileBusy = false) :)
    ∧ (∃ k : Nat, ∃ s : State, (Live s) ∧ (k < 512) ∧ (tabHas s.flt.retrims k = false) ∧ (tabGet s.frm.stateTime s.flt.lastRetrim k + 1000000 * s.flt.retrimMax ≤ s.now) :)
    ∧ (∃ k : Nat, ∃ t0 : Nat, ∃ s : State, (s.power = true) ∧ (s.flt.retrims = [(k, t0)]) ∧ (t0 + 2000 ≤ s.now) :)
    ∧ (∃ via : Via, ∃ v : W32, ∃ s : State, (s.power = true) ∧ (s.frmOpen via = true) ∧ (s.frm.state = .ready) ∧ (bit v.toNat 0 = true) ∧ (bits v.toNat 31 16 = 0x4C47) ∧ (reasonOk (bits v.toNat 15 8) = true) ∧ (s.frm.ledgerOp = none) :)
    ∧ (∃ o : LedgerOp, ∃ k : Nat, ∃ r : List Nat, ∃ s : State, (s.power = true) ∧ (s.frm.ledgerOp = some o) ∧ (s.frm.emptySlots = k :: r) ∧ (s.frm.newest = none) ∧ (o.again = false) :)
    ∧ (∃ v : W32, ∃ k : Nat, ∃ s : State, (s.power = true) ∧ (s.frm.state ≠ .frameBoot) ∧ (bit v.toNat 31 = true) ∧ (bits v.toNat 17 16 ≠ 1) ∧ (bits v.toNat 13 0 < classSize (bits v.toNat 17 16)) ∧ (s.isRetired (bits v.toNat 17 16) (bits v.toNat 13 0) = true) ∧ (s.probeOf (bits v.toNat 17 16) (bits v.toNat 13 0) = none) ∧ (((upTo 16).find? fun k => (tabGet ({} : Probe) s.frm.probes k).state != 1) = some k) :)
    ∧ (∃ k : Nat, ∃ p : Probe, ∃ s : State, (s.power = true) ∧ (k < 16) ∧ (tabGet ({} : Probe) s.frm.probes k = p) ∧ (p.state = 1) ∧ (p.cls ≠ 0) ∧ (s.probeReady p = true) ∧ (p.steps + 1 < s.frm.probeSteps) :)
    ∧ (∃ d : Nat, ∃ c : Nat, ∃ s : State, (s.power = true) ∧ (s.pwrOpen = true) ∧ (d < 16) ∧ (c ≤ 18) :)
    ∧ (∃ d : Nat, ∃ c : Nat, ∃ s : State, (s.power = true) ∧ ((s.dom d).step = .rising c) ∧ (c ≤ (s.dom d).eff) ∧ (c ≠ (s.dom d).code) :)
    ∧ (∃ d : Nat, ∃ c : Nat, ∃ s : State, (s.power = true) ∧ ((s.dom d).step = .changing c) ∧ ((s.dom d).eff = c) :)
    ∧ (∃ s : State, (s.power = true) ∧ (s.now % 1000 = 0) ∧ (¬ s.out.contains (.timeBeacon s.now)) :)
    ∧ (∃ d : Nat, ∃ x : Nat, ∃ s : State, (s.power = true) ∧ (s.frm.state = .ready) ∧ (d < 16) ∧ (0 < x) ∧ (x < 4) ∧ ((s.dom d).trans = none) ∧ ((s.dom d).bist = false) ∧ ((s.dom d).state = .active) :)
    ∧ (∃ d : Nat, ∃ s : State, (Live s) ∧ ((s.dom d).state = .active) ∧ ((s.dom d).trans = none) ∧ (s.hasDemand d = false) ∧ ((s.dom d).quiet + 1000 * s.pwr.retainDelay ≤ s.now) ∧ ((s.dom d).target = 1) :)
    ∧ (∃ d : Nat, ∃ s : State, (s.power = true) ∧ (((s.dom d).state = .idle ∨ (s.dom d).state = .retain)) ∧ ((s.dom d).trans = none) ∧ (s.hasDemand d = true) :)
    ∧ (∃ d : Nat, ∃ t0 : Nat, ∃ s : State, (s.power = true) ∧ ((s.dom d).state = .active) ∧ ((s.dom d).trans = some (.retain, t0)) ∧ ((s.dom d).target = 1) ∧ (s.frm.state = .ready) ∧ ((s.dom d).bist = false) :)
    ∧ (∃ d : Nat, ∃ t0 : Nat, ∃ s : State, (Live s) ∧ (d < 16) ∧ ((s.dom d).state = .off) ∧ ((s.dom d).trans = some (.active, t0)) ∧ ((s.dom d).bist = false) ∧ (t0 + 2000000 ≤ s.now) :)
    ∧ (∃ d : Nat, ∃ s : State, (Live s) ∧ ((s.dom d).bist = true) ∧ ((s.dom d).target ≠ 0) ∧ ((s.dom d).step = .none) ∧ ((s.dom d).eff = (s.dom d).code) :)
    ∧ (∃ s : State, (s.power = true) ∧ (s.now % 100000 = 0) ∧ (s.pwr.lastWindow ≠ some s.now) :)
    ∧ (∃ k : Nat, ∃ r : Nat, ∃ s : State, (s.power = true) ∧ (k < 68) ∧ (392 ≤ r) ∧ (r < 1024) ∧ (s.frm.resetReq = none) :)
    ∧ (∃ via : Via, ∃ v : W32, ∃ s : State, (s.power = true) ∧ (s.frmOpen via = true) ∧ (bits v.toNat 31 16 = 0x4345) ∧ (4000 ≤ bits v.toNat 15 0) ∧ (bits v.toNat 15 0 < s.pwr.ceiling) ∧ (s.pwr.lowerings ≠ 0) ∧ (s.pwr.lowering = none) :)
    ∧ (∃ v : Nat, ∃ s : State, (s.power = true) ∧ (s.pwr.lowering = some v) ∧ (4000 ≤ v) ∧ (v < s.pwr.ceiling) ∧ (s.pwr.lowerings ≠ 0) :)
    ∧ (∃ s : State, (s.power = false) :)
    ∧ (∃ s : State, (s.power = true) ∧ (s.frm.ledgerOp = none) :)
    ∧ (∃ a : BootImage, ∃ s : State, (s.power = true) ∧ (s.frm.state = .frameBoot) ∧ (imageValid a = true) :)
    ∧ (∃ d : Nat, ∃ s : State, (s.power = true) ∧ (s.frm.state = .domainUp) ∧ (d = s.frm.switched) ∧ (d < 16) ∧ (s.frm.stateTime + 50000000 * d ≤ s.now) :)
    ∧ (∃ r : Nat, ∃ l : List Nat, ∃ s : State, (s.power = true) ∧ (s.frm.state = .tileBist) ∧ (r = s.frm.rounds) ∧ (r < 3) ∧ ((∀ pt ∈ l, pt < 8704 ∧ domOfStrip (pt / 17) / 4 = r)) :)
    ∧ (∃ k : Nat, ∃ s : State, (s.power = true) ∧ (s.frm.state = .ledgerMerge) ∧ (s.frm.newest = some k) :)
    ∧ (∃ s : State, (s.power = true) ∧ (s.frm.state = .hbmTrain) ∧ (s.frm.rPch = 0) :)
    ∧ (∃ s : State, (s.power = true) ∧ (s.frm.state = .txTrain) ∧ ((∀ p, p < 8 → (s.port p).state = .down)) :)
    ∧ (∃ s : State, (s.power = true) ∧ (s.frm.state = .stackForm) ∧ (s.leadSeen = none) ∧ (s.otherWafers = []) :)
    ∧ (∃ m : Nat, ∃ s : State, (s.power = true) ∧ (startupMax s.frm.state = some m) ∧ (s.frm.stateTime + m < s.now) :)
    ∧ (∃ n : Nat, ∃ s : State, (s.power = true) ∧ (n < 128) ∧ (tabGet false s.linkUp (portOf n) = true) ∧ (100000000 ≤ s.now) ∧ (s.frm.state ≠ .frameBoot) ∧ (s.functionExists n = true) :)
    ∧ (∃ v : W32, ∃ s : State, (s.power = true) ∧ (s.frm.state ≠ .frameBoot) ∧ (bits v.toNat 15 0 = 0x5752) ∧ (bit v.toNat 16 = true) ∧ (s.frm.resetReq = none) :)
    ∧ (∃ r : Nat, ∃ s : State, (s.power = true) ∧ (s.frm.resetReq = some r) ∧ (s.frm.ledgerOp = none) ∧ (s.pwr.lowering = none) :)
    ∧ (∃ p : Nat, ∃ s : State, (s.power = true) ∧ (p < 4) :)
    ∧ (∃ m : Nat, ∃ s : State, (Live s) ∧ (m < 24) ∧ (s.copyingOn m = false) :)
    ∧ (∃ m : Nat, ∃ s : State, (s.power = true) ∧ ((s.ctl m).retraining = true) :)
    ∧ (∃ pc : Nat, ∃ s : State, (s.power = true) ∧ (pc ∈ s.frm.copying) ∧ ((s.ctl (pc / 32)).retrainPend = false) :)
    ∧ (∃ a : Nat, ∃ s : State, (Live s) ∧ (a < Config.hbmBytes) ∧ ((s.ctl (pcOf a / 32)).up = true) ∧ ((s.ctl (pcOf a / 32)).retraining = false) ∧ (s.frm.copying = []) ∧ (s.frm.unmapped = []) :)
    ∧ (∃ n : Nat, ∃ s : State, (s.power = true) ∧ (funOf n ≠ 0) ∧ (n < 128) ∧ (s.functionExists n = true) :)
    ∧ (∃ p : Nat, ∃ k : Nat, ∃ s : State, (s.power = true) ∧ (p < 4) ∧ (k < 32) :)
    ∧ (∃ n : Nat, ∃ on : Bool, ∃ s : State, (s.power = true) ∧ (n < 128) ∧ (s.functionExists n = true) ∧ ((on = false ∨ (s.client n).func.held = [])) :)
    ∧ (∃ n : Nat, ∃ d3 : Bool, ∃ s : State, (s.power = true) ∧ (n < 128) ∧ (s.functionExists n = true) ∧ ((d3 = true ∨ (s.client n).func.held = [])) :)
    ∧ (∃ p : Nat, ∃ o : Nat, ∃ n : Nat, ∃ s : State, (Live s) ∧ (p < 4) ∧ (s.memOk (32 * p) = true) ∧ (o + n ≤ 2 ^ 36) ∧ (2 ^ 30 * tabGet 0 s.frm.bar2Base p + o + n ≤ s.hbmTop) :)
    ∧ (∃ n : Nat, ∃ o : Nat, ∃ k : Nat, ∃ s : State, (Live s) ∧ (funOf n ≠ 0) ∧ (n < 128) ∧ (s.memOk n = true) ∧ (o + k ≤ 2 ^ 32) ∧ ((s.client n).areas.lo + o + k ≤ (s.client n).areas.hi) ∧ ((s.client n).areas.lo + o + k ≤ s.hbmTop) :)
    ∧ (∃ n : Nat, ∃ s : State, (s.power = true) ∧ (n < 128) ∧ (s.functionExists n = true) :)
    ∧ (∃ p : Nat, ∃ k : Nat, ∃ s : State, (Live s) ∧ (k < 4) ∧ (s.memOk (32 * k) = true) ∧ (p < 64) :)
    ∧ (∃ n : Nat, ∃ l : List Nat, ∃ s : State, (s.power = true) ∧ ((s.port n).state = .detect) ∧ (16 ≤ (sortUp (l.filter (· < 68))).length) :)
    ∧ (∃ n : Nat, ∃ s : State, (s.power = true) ∧ ((s.port n).state = .equalize) :)
    ∧ (∃ n : Nat, ∃ s : State, (s.power = true) ∧ ((s.port n).state = .fecLock) :)
    ∧ (∃ n : Nat, ∃ s : State, (s.power = true) ∧ ((s.port n).state = .laneTest) ∧ ((s.port n).since + 100000000 ≤ s.now) :)
    ∧ (∃ n : Nat, ∃ s : State, (s.power = true) ∧ (n < 8) ∧ ((s.port n).state = .laneMap) ∧ ((∀ l, l < 68 → s.isRetired 1 (68 * n + l) = false ∧ s.probeOf 1 (68 * n + l) = none)) ∧ ((s.port n).pass = BitVec.allOnes 68) :)
    ∧ (∃ n : Nat, ∃ s : State, (s.power = true) ∧ ((s.port n).state = .deskew) :)
    ∧ (∃ n : Nat, ∃ s : State, (s.power = true) ∧ (trainMax (s.port n).state ≠ 0) ∧ ((s.port n).recSince = none) ∧ ((s.port n).since + trainMax (s.port n).state < s.now) :)
    ∧ (∃ n : Nat, ∃ v : BitVec 2048, ∃ f : Flit, ∃ s : State, (s.power = true) ∧ ((s.port n).state = .init) ∧ (flitOf v = (f, true, true)) ∧ (initGood (f, true, true) = true) ∧ (bit (leVal (f.payload.take 4) % 2 ^ 32) 25 = false) :)
    ∧ (∃ n : Nat, ∃ s : State, (s.power = true) ∧ ((s.port n).state = .init) ∧ ((s.port n).lastInit + 1000 ≤ s.now) :)
    ∧ (∃ n : Nat, ∃ v : BitVec 2048, ∃ f : Flit, ∃ s : State, (s.power = true) ∧ ((s.port n).state = .active) ∧ (flitOf v = (f, true, true)) ∧ (f.kind = 0) ∧ (f.len = 0) ∧ (f.nak = false) ∧ ((s.port n).held = []) ∧ ((s.port n).retireWait = none) :)
    ∧ (∃ n : Nat, ∃ v : BitVec 2048, ∃ f : Flit, ∃ s : State, (s.power = true) ∧ ((s.port n).state = .active) ∧ (flitOf v = (f, true, true)) ∧ (f.kind = 1) ∧ (1 ≤ f.len) ∧ (f.len ≤ 240) ∧ (f.vc < 4) ∧ (f.seq = (s.port n).expect) ∧ (f.nak = false) ∧ ((s.port n).held = []) ∧ ((s.port n).retireWait = none) ∧ ((s.port n).rx = [none, none, none, none]) ∧ (f.sot = true) ∧ (f.eot = false) :)
    ∧ (∃ n : Nat, ∃ v : BitVec 2048, ∃ f : Flit, ∃ l : Nat, ∃ s : State, (s.power = true) ∧ (n < 8) ∧ (l < 68) ∧ ((s.port n).state = .active) ∧ (flitOf v = (f, true, true)) ∧ (f.kind = 2) ∧ (1 ≤ f.len) ∧ (f.len ≤ 240) ∧ (f.seq = (s.port n).expect) ∧ (f.nak = false) ∧ ((s.port n).held = []) ∧ ((s.port n).retireWait = none) ∧ (f.payload = [0x10, BitVec.ofNat 8 l]) ∧ (s.isRetired 1 (68 * n + l) = false) ∧ (s.probeOf 1 (68 * n + l) = none) :)
    ∧ (∃ n : Nat, ∃ v : Nat, ∃ c : Chunk, ∃ r : List Chunk, ∃ s : State, (s.power = true) ∧ ((s.port n).state = .active) ∧ ((s.port n).replay = none) ∧ ((s.port n).held.length < 512) ∧ ((s.port n).ctrlQ = []) ∧ ((s.port n).nextVc = some v) ∧ (v < 4) ∧ ((s.port n).vcQ.getD v [] = c :: r) ∧ ((s.port n).vcQ.length = 4) ∧ ((s.port n).sent.length = 4) :)
    ∧ (∃ n : Nat, ∃ s : State, (s.power = true) ∧ ((s.port n).episode = true) ∧ ((s.port n).nak = false) ∧ ((s.port n).nakAt + 1000 ≤ s.now) :)
    ∧ (∃ n : Nat, ∃ h : Held, ∃ r : List Held, ∃ s : State, (s.power = true) ∧ ((s.port n).state = .active) ∧ ((s.port n).held = h :: r) ∧ ((s.port n).replay = none) ∧ (h.sentAt + (s.port n).ackTimeout ≤ s.now) ∧ ((s.port n).replayOf ≠ h.seq) ∧ ((s.port n).replayLimit ≠ 0) :)
    ∧ (∃ n : Nat, ∃ l : Nat, ∃ s : State, (s.power = true) ∧ (n < 8) ∧ (l < 68) ∧ ((s.port n).state ≠ .active) ∧ (Steady s 1 (68 * n + l)) :)
    ∧ (∃ n : Nat, ∃ l : Nat, ∃ s : State, (s.power = true) ∧ (n < 8) ∧ (l < 68) ∧ (((s.port n).lane l).state ≠ .active) ∧ (Steady s 1 (68 * n + l)) :)
    ∧ (∃ n : Nat, ∃ t0 : Nat, ∃ s : State, (s.power = true) ∧ ((s.port n).recSince = some t0) ∧ (t0 + 1000000 ≤ s.now) :)
    ∧ (∃ n : Nat, ∃ s : State, (Live s) ∧ (n < 8) ∧ ((s.port n).enable = true) ∧ ((∀ r ∈ s.stk.requests, r.2.2.2 ≠ some n)) :)
    ∧ (∃ n : Nat, ∃ s : State, (Live s) ∧ (n < 8) ∧ ((s.port n).state = .active) :)
    ∧ (∃ n : Nat, ∃ s : State, (Live s) ∧ (n < 8) ∧ ((s.port n).enable = true) :)
    ∧ (∃ n : Nat, ∃ s : State, (Live s) ∧ ((s.port n).state = .down) ∧ ((s.port n).enable = true) ∧ ((s.port n).lastTry + 1000000000 ≤ s.now) :)
    ∧ (∃ m : Sys2Proof.Trans, ∃ a : Nat, ∃ s : State, (s.power = true) ∧ (Here s m) ∧ (m.typ = 1) ∧ (m.resp = false) ∧ (s.target m = .hbm a) ∧ (s.hbmWaits a m.len = false) :)
    ∧ (∃ m : Sys2Proof.Trans, ∃ a : Nat, ∃ k : Nat, ∃ since : Nat, ∃ r : TileRun, ∃ u : CUnit, ∃ s : State, (s.power = true) ∧ (Here s m) ∧ (m.typ = 1) ∧ (m.resp = true) ∧ (m.status = 0) ∧ (Awaits s m u) ∧ ((∀ x ∈ u.waitMerge, x.1 ≠ m.tid.toNat)) ∧ ((∀ x ∈ u.waitRd, x.1 ≠ m.tid.toNat)) ∧ (u.allTiles = [a]) ∧ ((s.tile a).run = some r) ∧ (r.unit = u.id) ∧ (r.stall = some (.remote (.wafer m.tid.toNat) k none since)) :)
    ∧ (∃ m : Sys2Proof.Trans, ∃ a : Nat, ∃ s : State, (s.power = true) ∧ (Here s m) ∧ (m.typ = 2) ∧ (m.resp = false) ∧ (s.target m = .hbm a) ∧ (s.hbmWaits a m.len = false) :)
    ∧ (∃ m : Sys2Proof.Trans, ∃ u : CUnit, ∃ s : State, (s.power = true) ∧ (Here s m) ∧ (m.typ = 2) ∧ (m.resp = true) ∧ (Awaits s m u) :)
    ∧ (∃ m : Sys2Proof.Trans, ∃ a : Nat, ∃ s : State, (s.power = true) ∧ (Here s m) ∧ (m.typ = 3) ∧ (s.target m = .hbm a) ∧ (isFabric m = false) ∧ (s.hbmWaits a m.len = false) :)
    ∧ (∃ m : Sys2Proof.Trans, ∃ p : Nat, ∃ a : Nat, ∃ s : State, (s.power = true) ∧ (Here s m) ∧ (m.typ = 4) ∧ (m.resp = false) ∧ (s.lentPart m.src (leVal (((m.data.drop 64).drop 8).take 1) % 64) = some p) ∧ (m.data.length = 96) ∧ (s.startCodes m.client [BitVec.ofNat 512 (leVal (m.data.take 64))] = []) ∧ (bit (leVal (((m.data.drop 64).drop 12).take 4)) 31 = true) ∧ (s.tilesOf p = [a]) :)
    ∧ (∃ m : Sys2Proof.Trans, ∃ u : CUnit, ∃ s : State, (s.power = true) ∧ (Here s m) ∧ (m.typ = 4) ∧ (m.resp = true) ∧ (Awaits s m u) ∧ ((m.status = 0 ∨ u.phase = .committed ∨ u.phase = .killed)) :)
    ∧ (∃ m : Sys2Proof.Trans, ∃ x : StageSlot, ∃ s : State, (s.power = true) ∧ (Here s m) ∧ (m.typ = 5) ∧ (m.src < 16) ∧ (s.stageSlot (bits m.addr.toNat 5 0) = x) ∧ (x.en = true) ∧ (dKind x.template = kOP) ∧ (s.stageMatch x.client (dHandle x.template 0) (m.data.take 64) = true) ∧ (s.stageMatch x.client (dHandle x.template 1) ((m.data.drop 64).take 64) = true) ∧ (m.data.length = 192 + (if dHandle x.template 0 = 0 then 0 else (parseRec (leVal (m.data.take 64))).bytes)
        + (if dHandle x.template 1 = 0 then 0 else (parseRec (leVal ((m.data.drop 64).take 64))).bytes)) ∧ (s.templateCodes x.client x.template = []) :)
    ∧ (∃ m : Sys2Proof.Trans, ∃ u : CUnit, ∃ h : HandoffRun, ∃ s : State, (s.power = true) ∧ (Here s m) ∧ (m.typ = 6) ∧ (s.handedTo m = some (u, h)) ∧ (s.unit? u.id = some u) ∧ (((s.client u.client).dbg.halted = false ∨ (s.client u.client).dbg.stepping = true)) ∧ (m.status = 0) ∧ (u.kind = kHANDOFF) ∧ (m.data.length = (match (u.stageAt h.stage).handles.getD 3 none with | some d => d.bytes | none => 0)) :)
    ∧ (∃ uid : Nat, ∃ u : CUnit, ∃ h : HandoffRun, ∃ p : Nat, ∃ s : State, (s.power = true) ∧ (s.unit? uid = some u) ∧ (u.handoff = some h) ∧ (h.outstanding = false) ∧ (h.answered = false) ∧ (h.busyAt = none) ∧ (u.waitRd = []) ∧ (u.phase = .running) ∧ (((s.client u.client).dbg.halted = false ∨ (s.client u.client).dbg.stepping = true)) ∧ (s.fmtsOk u h.stage = true) ∧ (s.handoffsTo h.partner < s.maxOut h.partner) ∧ (s.route h.partner = some p) :)
    ∧ (∃ uid : Nat, ∃ u : CUnit, ∃ h : HandoffRun, ∃ b : Nat, ∃ s : State, (s.power = true) ∧ (s.unit? uid = some u) ∧ (u.handoff = some h) ∧ (h.outstanding = false) ∧ (h.answered = false) ∧ (h.busyAt = some b) ∧ (b + 10000 ≤ s.now) ∧ (u.waitRd = []) ∧ (u.phase = .running) ∧ (((s.client u.client).dbg.halted = false ∨ (s.client u.client).dbg.stepping = true)) ∧ (s.fmtsOk u h.stage = true) ∧ (s.handoffsTo h.partner < s.maxOut h.partner) :)
    ∧ (∃ uid : Nat, ∃ u : CUnit, ∃ h : HandoffRun, ∃ s : State, (s.power = true) ∧ (s.unit? uid = some u) ∧ (u.handoff = some h) ∧ (h.answered = false) ∧ (h.firstSend ≠ 0) ∧ (h.held = none) ∧ ((s.client u.client).dbg.halted = false) ∧ (h.firstSend + s.handoffLimit h.partner ≤ s.now) :)
    ∧ (∃ uid : Nat, ∃ u : CUnit, ∃ a : Nat, ∃ m : Sys2Proof.Trans, ∃ s : State, (s.power = true) ∧ (s.unit? uid = some u) ∧ (u.phase ≠ .committed) ∧ ((a, uid, m) ∈ s.stk.unsent) ∧ (a + 1000000 * s.frm.routeTimeout ≤ s.now) ∧ (s.route m.dst = none) :)
    ∧ (∃ m : Sys2Proof.Trans, ∃ n : Nat, ∃ s : State, (s.power = true) ∧ (Here s m) ∧ (isSync m 1 = true) ∧ (s.frm.role = 1) ∧ (m.src < 16) ∧ (s.stk.rebuilding = none) ∧ (leVal ((m.data.drop 4).take 1) % 128 = n) ∧ (s.stackCount n < (s.client n).stackQuota) :)
    ∧ (∃ m : Sys2Proof.Trans, ∃ w : AdmitWait, ∃ d : ADesc, ∃ s : State, (s.power = true) ∧ (Here s m) ∧ (m.typ = 7) ∧ (m.resp = true) ∧ (bits m.arg.toNat 7 0 = 1) ∧ (m.status = 0) ∧ (s.awaited m = some 0) ∧ ((s.client m.client).admits = [w]) ∧ (w.tid = m.tid.toNat) ∧ (w.answer = none) ∧ (s.admitDesc m.client w.q w.tag = some d) ∧ (dTag d.desc = w.tag) ∧ (s.refusal m.client d = 0) ∧ ((s.client m.client).build = none) ∧ (s.recordsDone m.client w.q = true) ∧ ((s.client m.client).dbg.stepDesc = none) :)
    ∧ (∃ n : Nat, ∃ w : AdmitWait, ∃ d : ADesc, ∃ s : State, (s.power = true) ∧ ((s.client n).admits = [w]) ∧ (w.answer = none) ∧ (w.since + 1000 * s.frm.leadLoss + 20000000 ≤ s.now) ∧ (s.admitDesc n w.q w.tag = some d) ∧ (dTag d.desc = w.tag) ∧ ((s.client n).build = none) ∧ (s.recordsDone n w.q = true) :)
    ∧ (∃ m : Sys2Proof.Trans, ∃ n : Nat, ∃ s : State, (s.power = true) ∧ (Here s m) ∧ (isSync m 2 = true) ∧ (s.frm.role = 1) ∧ (m.src < 16) ∧ (leVal ((m.data.drop 4).take 1) % 128 = n) :)
    ∧ (∃ m : Sys2Proof.Trans, ∃ s : State, (s.power = true) ∧ (Here s m) ∧ (isSync m 3 = true) ∧ (s.frm.role = 1) ∧ (m.src < 16) :)
    ∧ (∃ t0 : Nat, ∃ s : State, (s.power = true) ∧ (s.stk.rebuilding = some ([], t0)) ∧ (s.stk.waitingReqs = []) ∧ ((∀ n, n < 128 → (s.client n).admits = [])) :)
    ∧ (∃ m : Sys2Proof.Trans, ∃ u : CUnit, ∃ s : State, (s.power = true) ∧ (Here s m) ∧ (isSync m 4 = true) ∧ (s.homeUnit m (some (leVal ((m.data.drop 8).take 4))) = some u) ∧ ((u.phase = .running ∨ u.phase = .ready ∨ u.phase = .saved)) ∧ (m.src ∈ u.waitReady) :)
    ∧ (∃ m : Sys2Proof.Trans, ∃ u : CUnit, ∃ s : State, (s.power = true) ∧ (Here s m) ∧ (isSync m 5 = true) ∧ (s.homeUnit m none = some u) ∧ ((u.phase = .running ∨ u.phase = .saved)) ∧ ((m.src, leVal ((m.data.drop 4).take 1)) ∉ u.waitBarrier) :)
    ∧ (∃ m : Sys2Proof.Trans, ∃ u : CUnit, ∃ a : Nat, ∃ b : Nat, ∃ c : Nat, ∃ r : TileRun, ∃ s : State, (s.power = true) ∧ (Here s m) ∧ (isSync m 6 = true) ∧ (s.awayUnit m none = some u) ∧ (u.tiles = [a]) ∧ ((s.tile a).run = some r) ∧ (r.unit = u.id) ∧ (r.stall = some (.barrier (leVal ((m.data.drop 4).take 1)) b c)) :)
    ∧ (∃ m : Sys2Proof.Trans, ∃ u : CUnit, ∃ s : State, (s.power = true) ∧ (Here s m) ∧ (isSync m 7 = true) ∧ (s.homeUnit m none = some u) ∧ (u.phase = .running) ∧ ((s.sideRuns u .main).all (fun x => x.2.pass == 2) = false) :)
    ∧ (∃ m : Sys2Proof.Trans, ∃ u : CUnit, ∃ a : Nat, ∃ r : TileRun, ∃ s : State, (s.power = true) ∧ (Here s m) ∧ (isSync m 8 = true) ∧ (s.awayUnit m none = some u) ∧ (s.unit? u.id = some u) ∧ (u.tiles = [a]) ∧ ((s.tile a).run = some r) ∧ (r.unit = u.id) ∧ (r.ready = true) ∧ (r.pass = 1) :)
    ∧ (∃ m : Sys2Proof.Trans, ∃ u : CUnit, ∃ s : State, (s.power = true) ∧ (Here s m) ∧ (isSync m 9 = true) ∧ (s.awayUnit m (some (leVal ((m.data.drop 8).take 4))) = some u) ∧ (u.phase ≠ .committed) ∧ (u.phase ≠ .ready) ∧ (bit (leVal ((m.data.drop 4).take 1)) 0 = true) :)
    ∧ (∃ m : Sys2Proof.Trans, ∃ u : CUnit, ∃ s : State, (s.power = true) ∧ (Here s m) ∧ (m.typ = 7) ∧ (m.resp = true) ∧ (bits m.arg.toNat 7 0 = 9) ∧ (Awaits s m u) :)
    ∧ (∃ e : Nat, ∃ p : Nat, ∃ s : State, (s.power = true) ∧ (s.leading = true) ∧ ((s.stk.lastBeacon = 0 ∨ s.stk.lastBeacon + 100000 ≤ s.now)) ∧ (s.beaconTo = [e]) ∧ (s.route e = some p) :)
    ∧ (∃ m : Sys2Proof.Trans, ∃ s : State, (s.power = true) ∧ (Here s m) ∧ (m.typ = 8) ∧ (m.resp = false) ∧ (m.len = 16) ∧ (m.src < 16) ∧ (s.frm.role = 2) ∧ (m.src = s.frm.leadId) :)
    ∧ (∃ e : Nat, ∃ p : Nat, ∃ s : State, (s.power = true) ∧ (s.frm.role = 2) ∧ (s.stk.lastSync + 100000 ≤ s.now) ∧ (s.nearer = some e) ∧ (s.route e = some p) :)
    ∧ (∃ m : Sys2Proof.Trans, ∃ s : State, (s.power = true) ∧ (Here s m) ∧ (m.typ = 8) ∧ (m.resp = false) ∧ (m.len = 0) ∧ (m.src < 16) :)
    ∧ (∃ m : Sys2Proof.Trans, ∃ s : State, (s.power = true) ∧ (Here s m) ∧ (m.typ = 8) ∧ (m.resp = true) ∧ (m.status = 0) ∧ (s.awaited m ≠ none) ∧ (s.stk.syncT1 = some m.arg.toNat) :)
    ∧ (∃ m : Sys2Proof.Trans, ∃ s : State, (s.power = true) ∧ (Here s m) ∧ (m.typ = 9) ∧ (m.resp = false) ∧ (s.frm.role ≠ 2) ∧ (s.ntc.route = 0) :)
    ∧ (∃ m : Sys2Proof.Trans, ∃ s : State, (s.power = true) ∧ (Here s m) ∧ (m.typ = 10) ∧ (m.resp = false) ∧ (m.data.length = 64) ∧ (leVal (m.data.take 2) = 1) ∧ ((peerOf m.data).lead = false) ∧ ((bit (leVal ((m.data.drop 8).take 1)) 0 = false ∨ s.frm.role ≠ 2 ∨ s.stk.lost = false ∨ m.src ≠ s.frm.deputy)) :)
    ∧ (∃ m : Sys2Proof.Trans, ∃ s : State, (s.power = true) ∧ (Here s m) ∧ (m.typ = 10) ∧ (m.resp = true) ∧ (s.awaited m ≠ none) ∧ (m.data.length = 64) ∧ (leVal (m.data.take 2) = 1) ∧ ((peerOf m.data).lead = false) :)
    ∧ (∃ w : Nat, ∃ s : State, (s.power = true) ∧ (s.frm.role = 2) ∧ (s.stk.lost = false) ∧ (s.stk.lastBeacon + 1000 * s.frm.leadLoss ≤ s.now) ∧ (s.deputyOf = some w) ∧ (w ≠ s.frm.waferId) :)
    ∧ (∃ w : Nat, ∃ s : State, (s.power = true) ∧ (s.frm.role = 2) ∧ (s.stk.lost = true) ∧ (s.stk.claimSince + 1000 * s.frm.leadLoss ≤ s.now) ∧ (s.frm.deputy ≠ s.frm.waferId) ∧ ((s.leaveMap s.frm.deputy).deputyOf = some w) ∧ (w ≠ s.frm.waferId) :)
    ∧ (∃ e : NtcEntry, ∃ r : List NtcEntry, ∃ s : State, (s.power = true) ∧ (s.ntc.toForward = e :: r) ∧ (s.frm.role = 2) ∧ (s.stk.lost = false) :)
    ∧ (∃ w : WmId, ∃ s : State, (s.power = true) ∧ (s.wmOpen w = true) ∧ (((s.wmGet w).mark = 0 ∨ (s.wmGet w).level ≤ (s.wmGet w).mark)) :)
    ∧ (∃ w : WmId, ∃ m : W32, ∃ s : State, (s.power = true) ∧ (s.wmOpen w = true) ∧ ((wmMark w m = 0 ∨ (s.wmGet w).level ≤ wmMark w m)) :)
    ∧ (∃ n : Nat, ∃ s : State, (Live s) ∧ (n < 128) ∧ (s.now % 10000000 = 0) ∧ ((s.client n).deferEnd ≠ s.now) :)
    ∧ (∃ s : State, (Live s) ∧ (s.now % 1000000000 = 0) ∧ (s.flt.upsetEnd ≠ s.now) :)
    ∧ (∃ typ : Nat, ∃ s : State, (s.power = true) ∧ ((typ = 0 ∨ typ = 2)) :)
    ∧ (∃ n : Nat, ∃ s : State, (s.power = true) ∧ ((s.client n).dbg.breaking = true) ∧ ((s.client n).dbg.halted = false) ∧ (s.haltReady n = true) :)
    ∧ (∃ n : Nat, ∃ s : State, (s.power = true) ∧ (s.dbgOpen n = true) ∧ ((s.client n).dbg.halted = false) ∧ ((s.client n).dbg.breaking = false) :)
    ∧ (∃ n : Nat, ∃ s : State, (s.power = true) ∧ (s.dbgOpen n = true) ∧ ((s.client n).dbg.halted = true) ∧ ((∀ u ∈ s.units, u.handoff.bind (fun h : HandoffRun => h.held) = none)) ∧ ((∀ a ∈ s.seatTiles n, (s.tile a).heldUpset = false)) :)
    ∧ (∃ n : Nat, ∃ q : Nat, ∃ x : ADesc, ∃ s : State, (s.power = true) ∧ (s.dbgOpen n = true) ∧ ((s.client n).dbg.halted = true) ∧ ((s.client n).dbg.stepping = false) ∧ (s.nextHeld n = some (q, x)) ∧ ((∀ u ∈ s.units, u.handoff.bind (fun h : HandoffRun => h.held) = none)) :)
    ∧ (∃ n : Nat, ∃ q : Nat, ∃ x : ADesc, ∃ s : State, (s.power = true) ∧ (s.dbgOpen n = true) ∧ ((s.client n).dbg.halted = true) ∧ ((s.client n).dbg.stepping = false) ∧ (s.runsOf n = []) ∧ (s.nextHeld n = some (q, x)) :)
    ∧ (∃ n : Nat, ∃ s : State, (s.power = true) ∧ ((s.client n).dbg.halted = true) ∧ ((s.client n).dbg.stepping = true) ∧ ((s.client n).dbg.stepDesc = none) ∧ ((s.client n).dbg.pass = none) ∧ (s.haltReady n = true) :)
    ∧ (∃ a : Nat, ∃ o : Nat, ∃ n : Nat, ∃ s : State, (s.power = true) ∧ (a < 8192) ∧ (o + n ≤ 65536 * 48) :)
    ∧ (∃ k : Nat, ∃ s : State, (s.power = true) ∧ (k < 24) :)
    ∧ (∃ s : State, (s.power = true) ∧ (s.frm.resetReq = none) :)
    ∧ (∃ s : State, (s.power = true) ∧ (s.pwr.pausing = true) ∧ (s.pwr.pauseStart + 1000 * s.pwr.pause ≤ s.now) :)
    ∧ (∃ p : Nat, ∃ s : State, (s.power = true) ∧ (p < 4) ∧ (s.frm.state ≠ .frameBoot) ∧ ((∀ f, f < 32 → (s.client (32 * p + f)).func.bme = false)) :)
    ∧ (∃ p : Nat, ∃ s : State, (Live s) ∧ (p < 4) :)
    ∧ (∃ n : Nat, ∃ q : Nat, ∃ t0 : Nat, ∃ s : State, (s.power = true) ∧ ((s.port n).state = .active) ∧ ((s.port n).retireWait = some (q, t0)) ∧ (t0 + 2000 ≤ s.now) ∧ ((s.port n).needsRecovery = true) :)
    ∧ (∃ n : Nat, ∃ v : Nat, ∃ s : State, (s.power = true) ∧ ((s.client n).func.pendingBits = [v]) ∧ ((s.client n).func.funcMask = false) ∧ (s.canDma n = true) :)
    ∧ (∃ s : State, (Live s) :) :=
  ⟨test_longWords_met.1,
   test_tileResults_met.2.2.2.2.2.1,
   test_tileResults_met.2.2.2.2.2.2.1,
   test_tileResults_met.1,
   test_tileResults_met.2.2.2.2.2.2.2.2.1,
   test_fabricTraffic_met.1,
   test_fabricTraffic_met.2.2.1,
   test_fabricTraffic_met.2.2.2.2,
   test_membersAndTrap_met.1,
   test_membersAndTrap_met.2.2.2.1,
   test_membersAndTrap_met.2.2.2.2.2,
   test_commits_met.1,
   test_pairedUnits_met.2.2.1,
   test_pairedUnits_met.2.2.2.2,
   test_commits_met.2.2.1,
   test_doorbellsAndMessages_met.2.2.2.2.2.2.2.2.1,
   test_rerunsAndSwaps_met.1,
   test_rerunsAndSwaps_met.2.1,
   test_rerunsAndSwaps_met.2.2.1,
   test_rerunsAndSwaps_met.2.2.2.1,
   test_fetchAndAcceptance_met.1,
   test_fetchAndAcceptance_met.2.2.1,
   test_fetchAndAcceptance_met.2.2.2.1,
   test_fetchAndAcceptance_met.2.2.2.2.2,
   test_tileDescriptors_met.1,
   test_tileDescriptors_met.2.1,
   test_lotBuilds_met.1,
   test_admissions_met.1,
   test_sequenceCommands_met.1,
   test_sequenceCommands_met.2.1,
   test_sequenceCommands_met.2.2.1,
   test_sequenceCommands_met.2.2.2.1,
   test_sequenceCommands_met.2.2.2.2,
   test_tileDescriptors_met.2.2.2.1,
   test_tileDescriptors_met.2.2.2.2.1,
   test_rimDescriptors_met.1,
   test_rimDescriptors_met.2.1,
   test_rimDescriptors_met.2.2.1,
   test_handoffs_met.1,
   test_doorbellsAndMessages_met.1,
   test_doorbellsAndMessages_met.2.2.1,
   test_doorbellsAndMessages_met.2.2.2.2.1,
   test_queueControl_met.1,
   test_queueControl_met.2.1,
   test_queueControl_met.2.2.2.2.1,
   test_queueControl_met.2.2.2.2.2.2.1,
   test_queueControl_met.2.2.2.2.2.2.2.1,
   test_lotBuilds_met.2.2.1,
   test_lotTableUpkeep_met.1,
   test_lotTableUpkeep_met.2.2.1,
   test_lotTableUpkeep_met.2.2.2.2.2.2.1,
   test_scheduling_met.1,
   test_switching_met.1,
   test_switching_met.2.1,
   test_switching_met.2.2,
   test_strips_met.2.2.2.2.1,
   test_strips_met.2.2.2.2.2.1,
   test_strips_met.2.2.2.2.2.2,
   test_strips_met.2.1,
   test_contexts_met.1,
   test_contexts_met.2.2.1,
   test_accounting_met.1,
   test_accounting_met.2.2.2.1,
   test_accounting_met.2.2.2.2.2.2.2.1,
   test_accounting_met.2.2.2.2.2.2.2.2.2.1,
   test_accounting_met.2.2.2.2.2.2.2.2.2.2,
   test_memoryErrors_met.1,
   test_memoryErrors_met.2.1,
   test_tileErrors_met.2.2.1,
   test_tileErrors_met.2.2.2.2.1,
   test_tileErrors_met.2.2.2.1,
   test_tileErrors_met.2.1,
   test_memoryErrors_met.2.2.2.1,
   test_memoryErrors_met.2.2.2.2.1,
   test_memoryErrors_met.2.2.2.2.2.2.1,
   test_stripAndPartitionUpkeep_met.1,
   test_stripAndPartitionUpkeep_met.2.2.2.2,
   test_memoryErrors_met.2.2.2.2.2.2.2.1,
   test_stripAndPartitionUpkeep_met.2.1,
   test_stripAndPartitionUpkeep_met.2.2.1,
   test_stripAndPartitionUpkeep_met.2.2.2.1,
   test_repairs_met.1,
   test_repairs_met.2.2.1,
   test_repairs_met.2.2.2.2.1,
   test_repairs_met.2.2.2.2.2.2.1,
   test_domains_met.1,
   test_domains_met.2.2.2.1,
   test_domains_met.2.2.2.2.1,
   test_powerControl_met.1,
   test_domains_met.2.2.2.2.2.2.1,
   test_domains_met.2.2.2.2.2.2.2.2.1,
   test_domains_met.2.2.2.2.2.2.2.2.2.2.1,
   test_domains_met.2.2.2.2.2.2.2.2.2.2.2.1,
   test_domains_met.2.2.2.2.2.2.2.2.2.2.2.2.1,
   test_domains_met.2.2.2.2.2.2.2.2.2.2.2.2.2,
   test_powerControl_met.2.1,
   test_powerControl_met.2.2.2.2.1,
   test_powerControl_met.2.2.2.2.2.1,
   test_powerControl_met.2.2.2.2.2.2.2,
   test_coldStart_met.1,
   test_coldStart_met.2.2.1,
   test_coldStart_met.2.2.2.1,
   test_coldStart_met.2.2.2.2.2.2.1,
   test_coldStart_met.2.2.2.2.2.2.2.1,
   test_coldStart_met.2.2.2.2.2.2.2.2.2.1,
   test_trainingAndResets_met.1,
   test_trainingAndResets_met.2.2.1,
   test_trainingAndResets_met.2.2.2.2.1,
   test_trainingAndResets_met.2.2.2.2.2.2.1,
   test_hostAccesses_met.2.2.2.2.2.2.2.2.2.2.2.2.2.1,
   test_trainingAndResets_met.2.2.2.2.2.2.2.1,
   test_trainingAndResets_met.2.2.2.2.2.2.2.2.2,
   test_hostAccesses_met.2.2.2.2.2.2.2.2.2.2.2.2.1,
   test_memoryErrors_met.2.2.2.2.2.2.2.2.2.1,
   test_memoryErrors_met.2.2.2.2.2.2.2.2.2.2.2.1,
   test_memoryErrors_met.2.2.2.2.2.2.2.2.2.2.2.2.1,
   test_memoryErrors_met.2.2.2.2.2.2.2.2.1,
   test_functions_met.1,
   test_functions_met.2.2.2.2.1,
   test_functions_met.2.2.2.2.2.1,
   test_functions_met.2.2.2.2.2.2.1,
   test_hostAccesses_met.1,
   test_hostAccesses_met.2.2.2.1,
   test_hostAccesses_met.2.2.2.2.2.2.2.2.1,
   test_registerWrites_met.1,
   test_portTraining_met.1,
   test_portTraining_met.2.1,
   test_portTraining_met.2.2.1,
   test_portTraining_met.2.2.2.1,
   test_portTraining_met.2.2.2.2.2.2.1,
   test_portTraining_met.2.2.2.2.2.2.2.2.1,
   test_portTraining_met.2.2.2.2.2.2.2.2.2.1,
   test_flits_met.1,
   test_flits_met.2.2.2.2.2.2.2.2.2.2.2.2.1,
   test_flits_met.2.2.2.1,
   test_flits_met.2.2.2.2.2.2.2.1,
   test_flits_met.2.2.2.2.2.2.2.2.1,
   test_flits_met.2.2.2.2.2.2.2.2.2.2.1,
   test_flits_met.2.2.2.2.2.2.2.2.2.2.2.2.2.1,
   test_flits_met.2.2.2.2.2.2.2.2.2.2.2.2.2.2.1,
   test_portControl_met.1,
   test_portControl_met.2.2.1,
   test_portTraining_met.2.2.2.2.2.2.2.2.2.2.1,
   test_portControl_met.2.2.2.2.2.2.1,
   test_portControl_met.2.2.2.2.2.2.2.1,
   test_portControl_met.2.2.2.2.2.2.2.2.2,
   test_portTraining_met.2.2.2.2.2.2.2.2.2.2.2,
   test_remoteAccesses_met.1,
   test_remoteAccesses_met.2.2.2.2.1,
   test_remoteAccesses_met.2.2.2.2.2.2.2.1,
   test_remoteAccesses_met.2.2.2.2.2.2.2.2.2.2.1,
   test_remoteAccesses_met.2.2.2.2.2.2.2.2.2.2.2.1,
   test_forwardedUnits_met.2.1,
   test_forwardedUnits_met.2.2.2.1,
   test_handoffsReceived_met.2.2.2,
   test_handoffs_met.2.2.2.2.2.1,
   test_handoffs_met.2.2.1,
   test_handoffs_met.2.2.2.1,
   test_handoffs_met.2.2.2.2.2.2.2.2.2.2.1,
   test_handoffs_met.2.2.2.2.2.2.2.2.2.2.2,
   test_stackAdmissions_met.1,
   test_stackAdmissions_met.2.2.2.2.2.2.2.1,
   test_stackAdmissions_met.2.2.2.2.2.2.2.2.2.2,
   test_stackAdmissions_met.2.2.2.2.1,
   test_stackAdmissions_met.2.2.2.2.2.1,
   test_stackAdmissions_met.2.2.2.2.2.2.1,
   test_memberSignals_met.1,
   test_memberSignals_met.2.1,
   test_memberSignals_met.2.2.1,
   test_memberSignals_met.2.2.2.1,
   test_memberSignals_met.2.2.2.2.1,
   test_memberSignals_met.2.2.2.2.2.2.1,
   test_memberSignals_met.2.2.2.2.2.2.2.2,
   test_stackTimeAndNotices_met.2.1,
   test_stackTimeAndNotices_met.2.2.1,
   test_stackTimeAndNotices_met.2.2.2.2.1,
   test_stackTimeAndNotices_met.2.2.2.2.2.1,
   test_stackTimeAndNotices_met.2.2.2.2.2.2.1,
   test_stackTimeAndNotices_met.2.2.2.2.2.2.2.1,
   test_leadership_met.2.2.2.1,
   test_leadership_met.2.2.2.2.2.1,
   test_leadership_met.1,
   test_leadership_met.2.2.1,
   test_stackTimeAndNotices_met.2.2.2.2.2.2.2.2.2.1,
   test_watermarkClear_met.1,
   test_watermarkMarkAndWindows_met.1,
   test_watermarkMarkAndWindows_met.2.2.1,
   test_watermarkMarkAndWindows_met.2.2.2,
   test_smbusAnswers_met.2.1,
   test_debugging_met.2.1,
   test_debugging_met.1,
   test_debugging_met.2.2.2.2.2.2.1,
   test_debugging_met.2.2.1,
   test_debugging_met.2.2.2.1,
   test_debugging_met.2.2.2.2.2.1,
   test_jtag_met.2.2.2.1,
   test_jtag_met.2.2.2.2.2.2,
   test_jtag_met.2.1,
   test_powerControl_met.2.2.2.1,
   test_hostAccesses_met.2.2.2.2.2.2.2.2.2.1,
   test_hostAccesses_met.2.2.2.2.2.2.2.2.2.2.1,
   test_portControl_met.2.2.2.2.2.1,
   test_doorbellsAndMessages_met.2.2.2.2.2.1,
   test_queueControl_met.2.2.2.2.2.1⟩

end Sys2Proof.Machine
end

/-! PROOFS. A register write takes three decisions in turn: whether its size and alignment are those of a register access (R212, R382), whether its address is half of a 64-bit register (R481), and what the register's own fields take (R6). Each has an equation here, and the obligation is read off them. -/

namespace Sys2Proof.Machine

open Sys2Proof

/-! ### Where an address lies (R478) -/

/-- The PRT blocks fill 0x200000 to 0x3FFFFF, one every 0x8000. -/
theorem placeOf_prt {p o : Nat} (hp : p < 64) (ho : o < 0x8000) : placeOf (0x200000 + 0x8000 * p + o) = .prt p o := by
  have hblock : (0x200000 + 0x8000 * p + o - 0x200000) / 0x8000 = p := by omega
  have hoffset : (0x200000 + 0x8000 * p + o) % 0x8000 = o := by omega
  unfold placeOf
  rw [if_neg (by omega), if_neg (by omega), if_pos (by omega), hblock, hoffset]

/-- The CLI blocks fill 0x400000 to 0xBFFFFF, one every 0x10000. -/
theorem placeOf_cli {n o : Nat} (hn : n < 128) (ho : o < 0x10000) : placeOf (0x400000 + 0x10000 * n + o) = .cli n o := by
  have hblock : (0x400000 + 0x10000 * n + o - 0x400000) / 0x10000 = n := by omega
  have hoffset : (0x400000 + 0x10000 * n + o) % 0x10000 = o := by omega
  unfold placeOf
  rw [if_neg (by omega), if_neg (by omega), if_neg (by omega), if_pos (by omega), hblock, hoffset]

/-! ### Whether a write is taken -/

/-- A PF that answers memory requests is a way that answers. -/
theorem State.viaOk_pf {s : State} {k : Nat} (hk : k < 4) (h : s.memOk (32 * k) = true) : s.viaOk (.pf k) = true := by
  have hclient : 32 * k < Config.clients := by simp only [Config.clients]; omega
  simp [State.viaOk, viaClient, h, hclient]

/-- At READY every way writes every place (R359, R474, R491). -/
theorem State.writable_ready {s : State} (h : s.frm.state = .ready) (via : Via) (x : Place) : s.writable via x = true := by
  cases via <;> simp [State.writable, h]

section
variable {via : Via} {a size : Nat} {s : State} (v : W64)

/-- A write of 4 bytes, aligned, by a way that answers. -/
theorem registerWrite_four (ha : a < viaSize via) (hok : s.viaOk via = true) (hal : a % 4 = 0) :
    registerWrite via a 4 v s = write4 via 4 a (v.setWidth 32) s := by
  simp [registerWrite, hok, hal, Nat.not_le.2 ha]

/-- A write of 8 bytes, aligned, by a way that answers. -/
theorem registerWrite_eight (ha : a < viaSize via) (hok : s.viaOk via = true) (hal : a % 8 = 0) :
    registerWrite via a 8 v s = write8 via a v s := by
  simp [registerWrite, hok, hal, Nat.not_le.2 ha]

/-- A write of another size or alignment outside the doorbell pages is refused (R382). -/
theorem registerWrite_refused (ha : a < viaSize via) (hok : s.viaOk via = true) (hbad : ¬((size = 4 ∨ size = 8) ∧ a % size = 0))
    (hdb : inDoorbells (viaPlace via a) = false) : registerWrite via a size v s = s.emit .unsupportedRequest := by
  have hreach : ¬(viaSize via ≤ a ∨ (!s.viaOk via) = true) := by simp [hok, Nat.not_le.2 ha]
  rw [registerWrite, if_neg hreach, if_neg hbad, hdb, if_neg Bool.false_ne_true]

/-- A write of another size or alignment in a doorbell page is ignored, and so is one by a way that does not answer (R212). -/
theorem registerWrite_ignored (hbad : ¬((size = 4 ∨ size = 8) ∧ a % size = 0)) (hdb : inDoorbells (viaPlace via a) = true) :
    registerWrite via a size v s = s := by
  rw [registerWrite, if_neg hbad, if_pos hdb, ite_self]

end

/-! ### Which register a write reaches (R481) -/

/-- A 4-byte write outside the 64-bit registers acts on its own 32-bit register. -/
theorem write4_narrow {via : Via} {size a : Nat} {s : State} (v : W32) (hw : s.writable via (viaPlace via a) = true)
    (hnarrow : ∀ whole, wideWrite via (viaPlace via (a / 8 * 8)) whole s = none) :
    write4 via size a v s = wordWrite via size (viaPlace via a) v s := by
  simp [write4, hw, hnarrow]

/-- An 8-byte write to a 64-bit register writes it as a whole. -/
theorem write8_wide {via : Via} {a : Nat} {s t : State} {v : W64} (hw : s.writable via (viaPlace via a) = true)
    (hwide : wideWrite via (viaPlace via a) v.toNat s = some t) : write8 via a v s = t := by
  simp [write8, hw, hwide]

/-- No register of a PRT block is written as a 64-bit one. -/
theorem wideWrite_prt (via : Via) (p o v : Nat) (s : State) : wideWrite via (.prt p o) v s = none := rfl

/-- CLI_QDEADLINE0 is written as a 64-bit register. -/
theorem wideWrite_qdeadline0 (via : Via) (n v : Nat) (s : State) :
    wideWrite via (.cli n 0x108) v s = some (s.modQueue n 0 fun x => { x with qdeadline := v }) := rfl

/-! ### What the registers take (R6) -/

/-- PRT_MIN_QUANTUM takes a value of at most 1,000,000 and keeps its own for any other. -/
theorem wordWrite_minQuantum (via : Via) (size p : Nat) (v : W32) (s : State) :
    wordWrite via size (.prt p 0x50) v s
      = s.modPart p fun x => { x with minQuantum := if v.toNat ≤ 1000000 then v.toNat else x.minQuantum } := by
  simp [wordWrite, prtWrite, field]

/-- A 4-byte write of PRT_MIN_QUANTUM through a PF at READY. -/
theorem registerWrite_minQuantum {k p : Nat} {s : State} (v : W64) (hready : s.frm.state = .ready) (hk : k < 4)
    (hmem : s.memOk (32 * k) = true) (hp : p < 64) :
    registerWrite (.pf k) (0x200000 + 0x8000 * p + 0x50) 4 v s
      = s.modPart p fun x => { x with minQuantum := if v.toNat % 2 ^ 32 ≤ 1000000 then v.toNat % 2 ^ 32 else x.minQuantum } := by
  have hplace : viaPlace (.pf k) (0x200000 + 0x8000 * p + 0x50) = .prt p 0x50 := placeOf_prt hp (by decide)
  have hbase : (0x200000 + 0x8000 * p + 0x50) / 8 * 8 = 0x200000 + 0x8000 * p + 0x50 := by omega
  have hrange : 0x200000 + 0x8000 * p + 0x50 < viaSize (.pf k) := by simp only [viaSize]; omega
  rw [registerWrite_four v hrange (State.viaOk_pf hk hmem) (by omega),
    write4_narrow _ (State.writable_ready hready _ _) (by simp only [hbase, hplace, wideWrite_prt, implies_true]),
    hplace, wordWrite_minQuantum, BitVec.toNat_setWidth]

/-- An 8-byte write of CLI_QDEADLINE0 through a PF at READY. -/
theorem registerWrite_qdeadline0 {k n : Nat} {s : State} (v : W64) (hready : s.frm.state = .ready) (hk : k < 4)
    (hmem : s.memOk (32 * k) = true) (hn : n < 128) :
    registerWrite (.pf k) (0x400000 + 0x10000 * n + 0x108) 8 v s = s.modQueue n 0 fun x => { x with qdeadline := v.toNat } := by
  have hplace : viaPlace (.pf k) (0x400000 + 0x10000 * n + 0x108) = .cli n 0x108 := placeOf_cli hn (by decide)
  have hrange : 0x400000 + 0x10000 * n + 0x108 < viaSize (.pf k) := by simp only [viaSize]; omega
  rw [registerWrite_eight v hrange (State.viaOk_pf hk hmem) (by omega)]
  exact write8_wide (State.writable_ready hready _ _) (by rw [hplace, wideWrite_qdeadline0])

/-! ### The obligation -/

/-- A powered REGISTER_WRITE answers its effect, where that leaves alone what every command keeps. -/
theorem exec_registerWrite {via : Via} {a size : Nat} {v : W64} {s t : State} (hp : s.power = true) (h : registerWrite via a size v s = t)
    (hkeep : s.keep t = t) : exec (.registerWrite via a size v) s = .next t :=
  exec_on hp rfl (by rw [h, hkeep])

/-- Settles O25: each clause is one of the four equations of registerWrite above. -/
theorem registerWrites : Obligations.registerWrites := by
  unfold Obligations.registerWrites
  refine ⟨?minQuantum, ?qdeadline0, ?refused, ?ignored⟩
  case minQuantum =>
    intro p k v s ⟨hp, hready⟩ hk hmem hpart
    exact exec_registerWrite hp (registerWrite_minQuantum v hready hk hmem hpart) rfl
  case qdeadline0 =>
    intro n k v s ⟨hp, hready⟩ hk hmem hn
    exact exec_registerWrite hp (registerWrite_qdeadline0 v hready hk hmem hn) rfl
  case refused =>
    intro via a size v s hp ha hok hbad hdb
    exact exec_registerWrite hp (registerWrite_refused v ha hok hbad hdb) rfl
  case ignored =>
    intro via a size v s hp hbad hdb
    exact exec_registerWrite hp (registerWrite_ignored v hbad hdb) rfl

end Sys2Proof.Machine

/-! PROOFS. A vector register holds its elements at places that do not overlap (R19), so that it gives back what an LD put into it (R146). -/

namespace Sys2Proof.Machine

open Sys2Proof

/-! ### Where the elements of a register lie (R19) -/

/-- An operand width of a vector register (R58). -/
abbrev OperandWidth (w : Nat) : Prop := w = 4 ∨ w = 8 ∨ w = 16 ∨ w = 32

/-- The element of width `w` to which bit `i` of a register belongs. -/
def elemOfBit (w i : Nat) : Nat := i / 32 + 64 * (i % 32 / w)

section
variable {w e i : Nat}

theorem elemPos_le_bit (hw : OperandWidth w) : elemPos w (elemOfBit w i) ≤ i ∨ 2048 ≤ i := by
  unfold elemPos elemOfBit
  obtain rfl | rfl | rfl | rfl := hw <;> omega

theorem elemOfBit_elemPos (hw : OperandWidth w) (he : e < 2048 / w) {k : Nat} (hk : k < w) : elemOfBit w (elemPos w e + k) = e := by
  unfold elemPos elemOfBit
  obtain rfl | rfl | rfl | rfl := hw <;> omega

theorem elemPos_add_lt (hw : OperandWidth w) (he : e < 2048 / w) {k : Nat} (hk : k < w) : elemPos w e + k < 2048 := by
  unfold elemPos
  obtain rfl | rfl | rfl | rfl := hw <;> omega

end

/-! ### Sums of elements -/

/-- A fold that adds up is a sum. -/
theorem foldl_upTo_add (f : Nat → Nat) (n : Nat) : (upTo n).foldl (fun a e => a + f e) 0 = ∑ e ∈ Finset.range n, f e := by
  induction n with
  | zero => rfl
  | succ n ih => simp [upTo, List.range_succ, ih, Finset.sum_range_succ]

/-- Digits of width `w` put side by side are the number they were taken from. -/
theorem sum_digits (v w n : Nat) : ∑ e ∈ Finset.range n, v / 2 ^ (w * e) % 2 ^ w * 2 ^ (w * e) = v % 2 ^ (w * n) := by
  induction n with
  | zero => simp [Nat.mod_one]
  | succ n ih => rw [Finset.sum_range_succ, ih, Nat.mul_succ, Nat.pow_add, Nat.mod_mul, Nat.mul_comm (2 ^ (w * n))]

/-- A bit of elements put into a register is the bit of the element that lies there: the elements do not overlap. -/
theorem getLsbD_sum_elems {w : Nat} (hw : OperandWidth w) (d : Nat → Nat) (hd : ∀ e, d e < 2 ^ w) :
    ∀ n ≤ 2048 / w, ∀ i < 2048, (BitVec.ofNat 2048 (∑ e ∈ Finset.range n, d e * 2 ^ elemPos w e)).getLsbD i
      = (decide (elemOfBit w i < n) && (d (elemOfBit w i)).testBit (i - elemPos w (elemOfBit w i))) := by
  have one : ∀ e < 2048 / w, ∀ i < 2048, (BitVec.ofNat 2048 (d e * 2 ^ elemPos w e)).getLsbD i
      = (decide (elemOfBit w i = e) && (d (elemOfBit w i)).testBit (i - elemPos w (elemOfBit w i))) := by
    intro e he i hi
    rw [BitVec.getLsbD_ofNat, Nat.testBit_mul_two_pow, decide_eq_true hi, Bool.true_and]
    by_cases h : elemOfBit w i = e
    · have hle : elemPos w e ≤ i := h ▸ (elemPos_le_bit hw).resolve_right (by omega)
      rw [h, decide_eq_true hle, decide_eq_true rfl]
    · rw [decide_eq_false h, Bool.false_and, Bool.and_eq_false_imp]
      intro hle
      have hle := of_decide_eq_true hle
      refine Nat.testBit_lt_two_pow (lt_of_lt_of_le (hd e) (Nat.pow_le_pow_right (by omega) ?_))
      by_contra hlt
      exact h (by simpa [Nat.add_sub_cancel' hle] using elemOfBit_elemPos hw he (k := i - elemPos w e) (by omega))
  intro n
  induction n with
  | zero => intro _ i _; simp
  | succ n ih =>
    intro hn i hi
    have apart : BitVec.ofNat 2048 (∑ e ∈ Finset.range n, d e * 2 ^ elemPos w e) &&& BitVec.ofNat 2048 (d n * 2 ^ elemPos w n) = 0#2048 := by
      refine BitVec.eq_of_getLsbD_eq fun j hj => ?_
      rw [BitVec.getLsbD_and, ih (by omega) j hj, one n (by omega) j hj, BitVec.getLsbD_zero]
      by_cases h : elemOfBit w j = n <;> simp [h]
    rw [Finset.sum_range_succ, BitVec.ofNat_add, BitVec.add_eq_or_of_and_eq_zero _ _ apart, BitVec.getLsbD_or, ih (by omega) i hi, one n (by omega) i hi]
    by_cases h : elemOfBit w i = n
    · simp [h]
    · simp [h, show (elemOfBit w i < n + 1) = (elemOfBit w i < n) from propext (by omega)]

/-- An element read from a register is the one that was put there. -/
theorem vElem_sum_elems {w : Nat} (hw : OperandWidth w) (d : Nat → Nat) (hd : ∀ e, d e < 2 ^ w) {n j : Nat} (hn : n ≤ 2048 / w) (hj : j < n) :
    vElem (BitVec.ofNat 2048 (∑ e ∈ Finset.range n, d e * 2 ^ elemPos w e)) w j = d j := by
  refine Nat.eq_of_testBit_eq fun k => ?_
  rw [vElem, Nat.testBit_mod_two_pow, Nat.testBit_div_two_pow, Nat.add_comm k, ← BitVec.getLsbD]
  by_cases hk : k < w
  · have hj' : j < 2048 / w := by omega
    rw [getLsbD_sum_elems hw d hd n hn _ (elemPos_add_lt hw hj' hk), elemOfBit_elemPos hw hj' hk]
    simp [hk, hj]
  · rw [decide_eq_false hk, Bool.false_and]
    exact (Nat.testBit_lt_two_pow (lt_of_lt_of_le (hd j) (Nat.pow_le_pow_right (by omega) (by omega)))).symm

/-! ### Bytes and their value (R2) -/

theorem leVal_lt (bs : List Byte) : leVal bs < 2 ^ (8 * bs.length) := by
  induction bs with
  | nil => decide
  | cons b r ih =>
    have hb := b.isLt
    rw [leVal, List.length_cons, Nat.mul_succ, Nat.pow_add]
    omega

/-- Bytes are recovered from their value. -/
theorem leBytes_leVal (bs : List Byte) : leBytes (leVal bs) bs.length = bs := by
  induction bs with
  | nil => rfl
  | cons b r ih =>
    have hb := b.isLt
    have hlow : BitVec.ofNat 8 (b.toNat + 256 * leVal r) = b := BitVec.eq_of_toNat_eq (by rw [BitVec.toNat_ofNat]; omega)
    have hhigh : (b.toNat + 256 * leVal r) / 256 = leVal r := by omega
    rw [leVal, List.length_cons, leBytes, hlow, hhigh, ih]

/-! ### The obligation -/

/-- Settles O10: each element of the loaded register is a digit of the bytes' value, and the digits put side by side are that value. -/
theorem loadThenStore : Obligations.loadThenStore := by
  unfold Obligations.loadThenStore
  intro w bs hw hlen hdvd
  obtain ⟨n, hn⟩ := hdvd
  have hpos : 0 < w := by omega
  have hcount : bs.length * 8 / w = n := by rw [Nat.mul_comm, hn, Nat.mul_div_cancel_left n hpos]
  have hroom : n ≤ 2048 / w := (Nat.le_div_iff_mul_le hpos).2 (by rw [Nat.mul_comm, ← hn]; exact hlen)
  have hdigit : ∀ e ∈ Finset.range n, vElem (vLoad w bs) w e * 2 ^ (w * e) = leVal bs / 2 ^ (w * e) % 2 ^ w * 2 ^ (w * e) := by
    intro e he
    rw [vLoad, hcount, foldl_upTo_add, vElem_sum_elems hw _ (fun _ => Nat.mod_lt _ (by positivity)) hroom (Finset.mem_range.1 he)]
  rw [vStore, hcount, foldl_upTo_add, Finset.sum_congr rfl hdigit, sum_digits, ← hn, Nat.mod_eq_of_lt (leVal_lt bs), leBytes_leVal]

end Sys2Proof.Machine

/-! PROOFS. The record of a unit that has committed does not always follow at the end of its drain: under the status of a teardown it waits for every other unit of its queue that has committed, the later ones too (State.putLate). -/

namespace Sys2Proof.Machine

open Sys2Proof Sys2Proof.Safety

/-- A unit past its commit instant that carries the status TEARDOWN (5). -/
def tornUnit : CUnit := { uPh .committed with status := 5 }

/-- `tornUnit` has nothing left to drain; unit 2 of the same queue has committed after it. -/
def tornDrain : State := { drainS tornUnit with units := [tornUnit, { tornUnit with id := 2, ordinal := 2, commitNo := 1 }] }

/-- The drain of `tornUnit` ends without its record: the ring's count stays. -/
theorem tornDrain_ccount : ∃ t, exec (.postCommitDrainDone 1) tornDrain = .next t ∧ (t.queue 127 1).ccount = (tornDrain.queue 127 1).ccount :=
  ⟨_, exec_on rfl rfl rfl, by decide +kernel⟩

/-- Refutes O57: its third clause says of every committed unit with nothing left to drain that one record more is written, and lets the unit's status be anything. In `tornDrain` the status is that of a teardown and a later unit of the queue has still its record to come, so the record is put aside (R225) and COUNT stays. -/
theorem not_commits : ¬ Obligations.commits := by
  unfold Obligations.commits
  rintro ⟨-, -, hdrain, -⟩
  have hheld : Unheld tornDrain tornUnit.client := ⟨by decide +kernel, rfl⟩
  obtain ⟨t, hexec, ⟨-, hrecord⟩, -⟩ :=
    hdrain 1 tornUnit tornDrain rfl (by decide +kernel) rfl rfl rfl rfl (by decide +kernel) rfl rfl rfl rfl hheld rfl rfl rfl rfl
  obtain ⟨t', hexec', hsame⟩ := tornDrain_ccount
  obtain rfl : t = t' := Host.Outcome.next.inj (hexec.symm.trans hexec')
  obtain ⟨hcount, -⟩ := hrecord rfl rfl hheld
  exact absurd (hcount.symm.trans hsame) (by decide +kernel)

end Sys2Proof.Machine

/-! PROOFS. What counting cycles, discarding a unit and writing its record do to the state: the layer on which the statements about tiles rest. -/

namespace Sys2Proof.Machine

open Sys2Proof Sys2Proof.Safety

/-! ### What a command answers -/

/-- A powered command that goes through `run` answers what its effect makes of the state. -/
theorem answers_on {c : Instr} {s : State} {f : State → State} {P : State → Prop} (hp : s.power = true) (e : exec c s = run f s)
    (h : P (s.keep (f s))) : Answers c s P :=
  ⟨_, exec_on hp e rfl, h⟩

/-! ### Tables -/

/-- What a key of a table holds is listed there, or is the default. -/
theorem tabGet_mem {α : Type} (d : α) (t : Tab α) (i : Nat) : tabGet d t i = d ∨ (i, tabGet d t i) ∈ t := by
  induction t with
  | nil => exact .inl rfl
  | cons p r ih =>
    obtain ⟨k, v⟩ := p
    unfold tabGet
    split
    · next h => subst h; exact .inr (List.mem_cons_self ..)
    · exact ih.imp id (List.mem_cons_of_mem _)

/-- A table whose values are changed one by one, the default staying what it is. -/
theorem tabGet_map {α : Type} (d : α) (t : Tab α) (f : Nat → α → α) (hd : ∀ i, f i d = d) (i : Nat) :
    tabGet d (t.map fun x => (x.1, f x.1 x.2)) i = f i (tabGet d t i) := by
  induction t with
  | nil => exact (hd i).symm
  | cons p r ih =>
    obtain ⟨k, v⟩ := p
    simp only [List.map_cons, tabGet]
    split
    · next h => rw [h]
    · exact ih

/-- The unit that is found once a unit has been changed. -/
theorem State.modUnit_found (s : State) {id : Nat} {u : CUnit} {f : CUnit → CUnit} (hu : s.unit? id = some u)
    (hf : ∀ u, (f u).id = u.id := by intro _; rfl) : (s.modUnit id f).unit? id = some (f u) := by
  rw [s.modUnit_unit? id f fun u h => (hf u).trans h, hu, Option.map_some]

/-! ### Counting cycles (R292, R294) -/

/-- A tile with its BUSY and stall counters moved on (R294). -/
def Tile.counting (t : Tile) (n st cls : Nat) : Tile :=
  { t with busy := t.busy + n, stall := t.stall + st, fstall := if cls = 0 then t.fstall else t.fstall + st }

section
variable (s : State) (a : Nat)

theorem State.countBusy_eq (n st cls : Nat) : ∃ Q, s.countBusy a n st cls = { s.modTile a fun t => t.counting n st cls with parts := Q } := by
  unfold State.countBusy
  dsimp only
  split <;> exact ⟨_, rfl⟩

/-- Counting busy cycles changes of its tile the three counters only. -/
theorem State.countBusy_self (n st cls : Nat) : (s.countBusy a n st cls).tile a = (s.tile a).counting n st cls := by
  obtain ⟨Q, h⟩ := s.countBusy_eq a n st cls
  rw [h]
  exact s.modTile_self a fun t => t.counting n st cls

theorem State.countBusy_ne {b : Nat} (hb : b ≠ a) (n st cls : Nat) : (s.countBusy a n st cls).tile b = s.tile b := by
  obtain ⟨Q, h⟩ := s.countBusy_eq a n st cls
  rw [h]
  exact s.modTile_ne a b (fun t => t.counting n st cls) hb

/-- Charging a run up to cycle `t` moves its COUNTED on and counts the cycles on its tile. -/
theorem State.chargeTo_self {r : TileRun} (hrun : (s.tile a).run = some r) (t st cls : Nat) :
    (s.chargeTo a t st cls).tile a =
      { (s.tile a).counting (t - r.counted) st cls with run := some { r with counted := if r.counted < t then t else r.counted } } := by
  simp only [State.chargeTo, hrun, State.countBusy_self, State.modTile_self, Option.map_some]
  rfl

theorem State.chargeTo_ne {b : Nat} (hb : b ≠ a) (t st cls : Nat) : (s.chargeTo a t st cls).tile b = s.tile b := by
  unfold State.chargeTo
  split
  · rfl
  · rw [State.countBusy_ne _ _ hb, State.modTile_ne _ _ _ _ hb]

/-- Counting a tile's open cycles changes of the tile the three counters and its run's COUNTED only. -/
theorem State.settle_self {r : TileRun} (hrun : (s.tile a).run = some r) : ∃ n b st fs, (s.settle a).tile a = { s.tile a with
    run := some { r with counted := n }, busy := b, stall := st, fstall := fs } := by
  unfold State.settle
  dsimp only
  split
  · exact ⟨r.counted, (s.tile a).busy, (s.tile a).stall, (s.tile a).fstall, by rw [← hrun]⟩
  · exact ⟨_, _, _, _, s.chargeTo_self a hrun _ _ _⟩

theorem State.settle_ne {b : Nat} (hb : b ≠ a) : (s.settle a).tile b = s.tile b := by
  unfold State.settle
  dsimp only
  split
  · rfl
  · exact s.chargeTo_ne a hb _ _ _

/-- Counting cycles leaves the windows of every tile alone. -/
theorem State.settle_windows (b : Nat) : ((s.settle a).tile b).windows = (s.tile b).windows := by
  by_cases hb : b = a
  · subst hb
    unfold State.settle State.chargeTo
    dsimp only
    split
    · rfl
    · split
      · rfl
      · rw [State.countBusy_self, State.modTile_self]
        rfl
  · rw [s.settle_ne a hb]

end

/-! ### Freeing windows (R24, R48) -/

section
variable (t : Tile)

theorem Tile.freeWin_windows (w : Nat) : (t.freeWin w).windows = tabDel t.windows w := rfl

/-- Only windows that were listed stay listed. -/
theorem Tile.freeWins_sub (l : List Nat) : ∀ x ∈ (l.foldl Tile.freeWin t).windows, x ∈ t.windows ∧ x.1 ∉ l := by
  induction l generalizing t with
  | nil => exact fun x hx => ⟨hx, List.not_mem_nil⟩
  | cons w r ih =>
    intro x hx
    obtain ⟨hmem, hout⟩ := ih (t.freeWin w) x hx
    rw [Tile.freeWin_windows, tabDel, List.mem_filter] at hmem
    exact ⟨hmem.1, by simpa [hout] using hmem.2⟩

/-- No window that satisfies `p` is left where those that do have been freed. -/
theorem Tile.freeWhere_not (p : Window → Bool) : ∀ x ∈ (t.freeWhere p).windows, p x.2 = false := by
  intro x hx
  obtain ⟨hmem, hout⟩ := Tile.freeWins_sub t _ x hx
  by_contra hp
  exact hout (List.mem_map_of_mem (List.mem_filter.2 ⟨hmem, by simpa using hp⟩))

/-- A tile that a unit has left holds no WET window of it (R48). -/
theorem Tile.dropUnit_not_wet (uid : Nat) : ∀ x ∈ (t.dropUnit uid).windows, x.2.wetOf uid = false := Tile.freeWhere_not t _

/-- Where no listed window is WET for a unit, no window reads so. -/
theorem Tile.win_not_wet {uid : Nat} (h : ∀ x ∈ t.windows, x.2.wetOf uid = false) (w : Nat) : (t.win w).wetOf uid = false := by
  obtain hd | hm := tabGet_mem ({} : Window) t.windows w
  · rw [Tile.win, hd]; rfl
  · exact h _ hm

end

/-! ### What records leave alone -/

/-- What no write of a record, an outcome, a trace or a transaction touches: units, the windows of each tile, the Lot Table, FLT, and the DEFERRED count of each client. -/
def State.beyondRecords (s : State) : List CUnit × (Nat → Tab Window) × Tab Entry × Tab Entry × Flt × (Nat → W64) :=
  (s.units, fun b => (s.tile b).windows, s.north, s.south, s.flt, fun n => (s.client n).acct.deferred)

/-- Changing a client otherwise than in its DEFERRED count. -/
theorem State.modClient_beyond (s : State) (n : Nat) (f : Client → Client) (hf : ∀ c, (f c).acct.deferred = c.acct.deferred := by intro _; rfl) :
    (s.modClient n f).beyondRecords = s.beyondRecords := by
  have h : (fun m => ((s.modClient n f).client m).acct.deferred) = fun m => (s.client m).acct.deferred := by
    funext m
    by_cases hm : m = n
    · rw [hm, State.modClient_self, hf]
    · rw [State.modClient_ne _ _ _ _ hm]
  simp only [State.beyondRecords, h, State.modClient_tile', State.modClient_units, State.modClient_north, State.modClient_south, State.modClient_flt]

theorem State.modQueue_beyond (s : State) (n q : Nat) (f : Queue → Queue) : (s.modQueue n q f).beyondRecords = s.beyondRecords :=
  s.modClient_beyond n _ fun c => by rw [Client.modQueue_eq]

section
variable (s : State)

theorem State.when_beyond (c : Bool) (f : State → State) (h : (f s).beyondRecords = s.beyondRecords) : (s.when c f).beyondRecords = s.beyondRecords :=
  State.when_ind (P := fun t => t.beyondRecords = s.beyondRecords) s c f h rfl

@[simp] theorem State.msix_beyond (n v : Nat) : (s.msix n v).beyondRecords = s.beyondRecords := by
  have h : (fun m => ((s.msix n v).client m).acct.deferred) = fun m => (s.client m).acct.deferred :=
    funext fun m => s.msix_client (fun c => c.acct.deferred) (fun _ _ => rfl) n v m
  simp [State.beyondRecords, h]

@[simp] theorem State.notice_beyond (code i v : Nat) (cl : Option Nat) : (s.notice code i v cl).beyondRecords = s.beyondRecords := by
  have h : (fun m => ((s.notice code i v cl).client m).acct.deferred) = fun m => (s.client m).acct.deferred :=
    funext fun m => s.notice_client (fun c => c.acct.deferred) (fun _ _ => rfl) code i v cl m
  simp [State.beyondRecords, h]

@[simp] theorem State.wmQueue_beyond (n q : Nat) : (s.wmQueue n q).beyondRecords = s.beyondRecords := by
  unfold State.wmQueue
  dsimp only
  have h (w : Wm) : (s.modClient n fun c => if q = 0 then { c with wmQ0 := w } else { c with wmQ1 := w }).beyondRecords = s.beyondRecords :=
    s.modClient_beyond n _ fun c => by split <;> rfl
  exact State.when_ind (P := fun t => t.beyondRecords = s.beyondRecords) _ _ _ ((State.notice_beyond _ _ _ _ _).trans (h _)) (h _)

@[simp] theorem State.ringWrite_beyond (n loc a : Nat) (bs : List Byte) : (s.ringWrite n loc a bs).beyondRecords = s.beyondRecords := by
  obtain ⟨H, O, h⟩ := s.ringWrite_eq n loc a bs
  rw [h]; rfl

@[simp] theorem State.trace1_beyond (r : TraceRec) : (s.trace1 r).beyondRecords = s.beyondRecords := by
  obtain ⟨H, T, h⟩ := s.trace1_eq r
  rw [h]; rfl

@[simp] theorem State.outcomeTrace_beyond (n q tag i p out : Nat) : (s.outcomeTrace n q tag i p out).beyondRecords = s.beyondRecords := by
  obtain ⟨H, T, h⟩ := s.traceMember_eq n q tag (s.seqId i) p out
  rw [State.outcomeTrace, h]; rfl

@[simp] theorem State.tellOthers_beyond (u : CUnit) (go : Bool) : (s.tellOthers u go).beyondRecords = s.beyondRecords := by
  obtain ⟨P, K, h⟩ := s.tell_eq u go u.others
  rw [State.tellOthers, h]; rfl

/-- An answer to the sender of forwarded work changes only ports and the stack-wide work. -/
theorem State.failReply_eq (u : CUnit) : ∃ P K, s.failReply u = { s with ports := P, stk := K } := by
  have home : ∃ P K, (match u.home with
      | some (w, tid) => s.send { typ := tDESC, dst := w, resp := true, tid := BitVec.ofNat 32 tid, client := u.client, status := 5 }
      | none => s) = { s with ports := P, stk := K } := by
    cases u.home with
    | none => exact ⟨_, _, rfl⟩
    | some x => exact s.send_eq _
  obtain ⟨P, K, h⟩ := home
  unfold State.failReply
  cases u.answers with
  | none => exact ⟨P, K, h⟩
  | some x =>
    obtain ⟨P', K', h'⟩ := State.send_eq { s with ports := P, stk := K } { typ := tHANDBACK, dst := x.1, tid := BitVec.ofNat 32 x.2, client := u.client, status := 5 }
    exact ⟨P', K', by rw [← h] at h'; exact h'.trans (by rw [h])⟩

theorem State.stopRuns_tile (n b : Nat) : (s.stopRuns n).tile b = { s.tile b with
    run := (s.tile b).run.map fun r => if (s.unit? r.unit).any (fun u => u.client == n) then { r with stopped := true } else r } :=
  tabGet_map ({} : Tile) s.tiles
    (fun _ t => { t with run := t.run.map fun r => if (s.unit? r.unit).any (fun u => u.client == n) then { r with stopped := true } else r }) (fun _ => rfl) b

theorem State.stopRuns_beyond (n : Nat) : (s.stopRuns n).beyondRecords = s.beyondRecords := by
  have h : (fun b => ((s.stopRuns n).tile b).windows) = fun b => (s.tile b).windows := by
    funext b
    rw [State.stopRuns_tile]
  simp only [State.beyondRecords, h]
  rfl

theorem State.ringSignal_beyond (n q : Nat) : (s.ringSignal n q).beyondRecords = s.beyondRecords :=
  (State.msix_beyond _ _ _).trans (s.modQueue_beyond n q _)

@[simp] theorem State.recWrite_beyond (n : Nat) (r : Rec) : (s.recWrite n r).beyondRecords = s.beyondRecords := by
  unfold State.recWrite
  extract_lets x r' s1 gone rest fail s2 s3 s4 y
  have e3 : s3.beyondRecords = s.beyondRecords :=
    (State.wmQueue_beyond _ _ _).trans ((s1.modQueue_beyond _ _ _).trans (s.ringWrite_beyond _ _ _ _))
  have e4 : s4.beyondRecords = s.beyondRecords :=
    (s3.when_beyond _ _ ((State.stopRuns_beyond _ _).trans (s3.modClient_beyond _ _))).trans e3
  exact (s4.when_beyond _ _ (s4.ringSignal_beyond _ _)).trans e4

@[simp] theorem State.putRec_beyond (n : Nat) (r : Rec) : (s.putRec n r).beyondRecords = s.beyondRecords := by
  unfold State.putRec
  split
  · exact (State.modClient_beyond _ _ _).trans (s.modQueue_beyond _ _ _)
  · exact s.recWrite_beyond n r

@[simp] theorem State.putLate_beyond (n : Nat) (reset : Bool) (r : Rec) : (s.putLate n reset r).beyondRecords = s.beyondRecords := by
  unfold State.putLate
  split
  · exact s.modQueue_beyond _ _ _
  · exact s.putRec_beyond n r

@[simp] theorem State.outWrite_beyond (n : Nat) (e : OutE) : (s.outWrite n e).beyondRecords = s.beyondRecords := by
  unfold State.outWrite
  extract_lets o s1 s2 p
  have e2 : s2.beyondRecords = s.beyondRecords := (s1.modClient_beyond _ _).trans (s.ringWrite_beyond _ _ _ _)
  exact (s2.when_beyond _ _ ((State.msix_beyond _ _ _).trans (s2.modClient_beyond _ _))).trans e2

@[simp] theorem State.putOut_beyond (n : Nat) (e : OutE) : (s.putOut n e).beyondRecords = s.beyondRecords := by
  unfold State.putOut
  dsimp only
  split
  · rfl
  · split
    · exact s.modClient_beyond _ _
    · exact s.outWrite_beyond n e

@[simp] theorem State.outRelease_beyond (n ring k : Nat) : (s.outRelease n ring k).beyondRecords = s.beyondRecords :=
  s.modClient_beyond n _ fun c => by split <;> rfl

theorem Acct.outcome_deferred (x : Acct) (o : Nat) : (x.outcome o).deferred = if o = 3 then x.deferred + 1 else x.deferred := by
  unfold Acct.outcome
  split <;> simp_all

@[simp] theorem State.outcome_beyond (n i ring out detail time : Nat) (h : out ≠ 3) : (s.outcome n i ring out detail time).beyondRecords = s.beyondRecords := by
  have h3 : (out == 3) = false := by simpa using h
  have hacct : (s.modAcct n fun x => x.outcome out).beyondRecords = s.beyondRecords :=
    s.modClient_beyond n _ fun c => by rw [Acct.outcome_deferred, if_neg h]
  simp only [State.outcome, h3, State.when_false, State.putOut_beyond, hacct]

@[simp] theorem State.lotDrop_beyond (u : CUnit) (f : LotRun → LotRun) : (s.lotDrop u f).beyondRecords = s.beyondRecords :=
  s.modClient_beyond _ _

@[simp] theorem State.lotRecord_beyond (n : Nat) (l : LotRun) (status : Nat) : (s.lotRecord n l status).beyondRecords = s.beyondRecords := by
  unfold State.lotRecord
  dsimp only
  exact (State.putLate_beyond _ _ _ _).trans ((State.trace1_beyond _ _).trans
    ((State.modClient_beyond _ _ _).trans (s.modClient_beyond _ _)))

@[simp] theorem State.lotCheck_beyond (n q ord : Nat) : (s.lotCheck n q ord).beyondRecords = s.beyondRecords := by
  unfold State.lotCheck
  split
  · rfl
  · exact iteInduction (motive := fun t : State => t.beyondRecords = s.beyondRecords) (fun _ => rfl) fun _ => s.lotRecord_beyond n _ _

end

end Sys2Proof.Machine

/-! PROOFS. Results that land on a tile, and a tile's way from its last long word to ready (R29, R44, R115, R137, R157, R194). -/

namespace Sys2Proof.Machine

open Sys2Proof Sys2Proof.Safety

/-! ### States with the same tiles -/

/-- Two states that differ at most in how their tiles are listed. -/
def State.SameTiles (s t : State) : Prop := (∃ T, t = { s with tiles := T }) ∧ ∀ b, t.tile b = s.tile b

theorem State.SameTiles.refl (s : State) : s.SameTiles s := ⟨⟨_, rfl⟩, fun _ => rfl⟩

section
variable {s t : State} (h : s.SameTiles t)
include h

theorem State.SameTiles.tile (b : Nat) : t.tile b = s.tile b := h.2 b

theorem State.SameTiles.units : t.units = s.units := by obtain ⟨⟨T, rfl⟩, -⟩ := h; rfl

theorem State.SameTiles.unit? (id : Nat) : t.unit? id = s.unit? id := by obtain ⟨⟨T, rfl⟩, -⟩ := h; rfl

theorem State.SameTiles.cycle (a : Nat) : t.cycle a = s.cycle a := by obtain ⟨⟨T, rfl⟩, -⟩ := h; rfl

theorem State.SameTiles.ctx (a : Nat) (r : TileRun) (u : CUnit) : t.ctx a r u = s.ctx a r u := by obtain ⟨⟨T, rfl⟩, -⟩ := h; rfl

theorem State.SameTiles.slotMay (a : Nat) (r : TileRun) (u : CUnit) : t.slotMay a r u = s.slotMay a r u := by obtain ⟨⟨T, rfl⟩, -⟩ := h; rfl

end

theorem State.SameTiles.trans {s t v : State} (h : s.SameTiles t) (h' : t.SameTiles v) : s.SameTiles v := by
  obtain ⟨⟨T, rfl⟩, ht⟩ := h
  obtain ⟨⟨T', rfl⟩, ht'⟩ := h'
  exact ⟨⟨_, rfl⟩, fun b => (ht' b).trans (ht b)⟩

/-! ### Runs -/

section
variable (s : State) (a : Nat)

theorem State.onRun_eq {r : TileRun} {u : CUnit} (hrun : (s.tile a).run = some r) (hu : s.unit? r.unit = some u) (f : TileRun → CUnit → State) :
    s.onRun a f = f r u := by
  simp only [State.onRun, hrun, hu]

theorem State.modTile_congr {f g : Tile → Tile} (h : f (s.tile a) = g (s.tile a)) : s.modTile a f = s.modTile a g :=
  congrArg (fun T => { s with tiles := T }) (tabMod_congr h)

theorem State.modRun_tile {r : TileRun} (hrun : (s.tile a).run = some r) (f : TileRun → TileRun) :
    (s.modRun a f).tile a = { s.tile a with run := some (f r) } := by
  rw [State.modRun, State.modTile_self, hrun, Option.map_some]

theorem State.modRun_run {r : TileRun} (hrun : (s.tile a).run = some r) (f : TileRun → TileRun) : ((s.modRun a f).tile a).run = some (f r) := by
  rw [s.modRun_tile a hrun]

theorem State.modRun_ne {b : Nat} (hb : b ≠ a) (f : TileRun → TileRun) : (s.modRun a f).tile b = s.tile b := s.modTile_ne a b _ hb

theorem State.settle_run {r : TileRun} (hrun : (s.tile a).run = some r) : ∃ n, ((s.settle a).tile a).run = some { r with counted := n } := by
  obtain ⟨n, b, st, fs, h⟩ := s.settle_self a hrun
  exact ⟨n, congrArg Tile.run h⟩

/-! ### Landing (R29) -/

/-- Where nothing in flight is due, nothing lands. -/
theorem State.landDue_nothing {r : TileRun} (hrun : (s.tile a).run = some r) {t : Nat} (hdue : ∀ f ∈ r.inflight, t < f.due) :
    s.SameTiles (s.landDue a t) := by
  unfold State.landDue
  simp only [hrun]
  split
  · exact .refl s
  · have hnone : (r.inflight.filter fun f => decide (f.due ≤ t)) = [] :=
      List.filter_eq_nil_iff.2 fun f hf => by simpa using hdue f hf
    have hall : (r.inflight.filter fun f => decide (t < f.due)) = r.inflight :=
      List.filter_eq_self.2 fun f hf => by simpa using hdue f hf
    rw [hnone]
    refine ⟨⟨_, rfl⟩, fun b => ?_⟩
    by_cases hb : b = a
    · subst hb
      show (s.modRun b _).tile b = _
      rw [s.modRun_tile b hrun, hall, ← hrun]
    · exact s.modRun_ne a hb _

/-- The only result in flight lands once it is due. -/
theorem State.landDue_one {r : TileRun} {u : CUnit} {f : Flight} (hrun : (s.tile a).run = some r) (hu : s.unit? r.unit = some u)
    (hf : r.inflight = [f]) {t : Nat} (hdue : f.due ≤ t) :
    s.landDue a t = (s.modRun a fun r => { r with inflight := [] }).landOne a (s.ctx a r u) u r.side f := by
  have hleft : (s.modRun a fun r => { r with inflight := r.inflight.filter fun f => decide (t < f.due) }) = s.modRun a fun r => { r with inflight := [] } :=
    s.modTile_congr a (by simp [hrun, hf, Nat.not_lt.2 hdue])
  unfold State.landDue
  simp only [hrun, hu, hleft]
  simp [hf, hdue, sortBy, insertBy]

end

/-! ### Waiting for streams and barriers (R115, R157) -/

theorem TileRun.synEnd_eq (r : TileRun) (w e : Nat) : ∃ l, r.synEnd w e = { r with streams := l } := by
  unfold TileRun.synEnd
  split <;> exact ⟨_, rfl⟩

/-- A tile that waits at a barrier for a unit, or goes on already. -/
def State.AtBarrier (s : State) (uid a : Nat) : Prop :=
  ∃ r, (s.tile a).run = some r ∧ r.unit = uid ∧ (r.stall = none ∨ ∃ n w g, r.stall = some (.barrier n w g))

/-- A tile that runs a unit and is not stalled. -/
def State.Goes (s : State) (uid a : Nat) : Prop := ∃ r, (s.tile a).run = some r ∧ r.unit = uid ∧ r.stall = none

/-- Releases one tile from its barrier. -/
def State.barrierGoOne (s : State) (a : Nat) : State := s.barrierGo [a]

theorem State.barrierGo_cons (s : State) (a : Nat) (l : List Nat) : s.barrierGo (a :: l) = (s.barrierGoOne a).barrierGo l := rfl

section
variable (s : State) (uid a : Nat)

theorem State.atBarrier_of_barrier? {n : Nat} (h : (s.tile a).barrier? uid = some n) : s.AtBarrier uid a := by
  unfold Tile.barrier? at h
  split at h
  · next r hr =>
    split at h
    · next hu =>
      split at h
      · next n w g hs => exact ⟨r, hr, hu, .inr ⟨n, w, g, hs⟩⟩
      · cases h
    · cases h
  · cases h

theorem State.barrierGoOne_eq : ∃ T Q, s.barrierGoOne a = { s with tiles := T, parts := Q } := by
  unfold State.barrierGoOne State.barrierGo State.onRun
  simp only [State.each_cons, State.each_nil]
  split
  · exact ⟨_, _, rfl⟩
  · split
    · exact ⟨_, _, rfl⟩
    · split
      · obtain ⟨T, Q, h⟩ := s.settle_eq a
        rw [h]; exact ⟨_, _, rfl⟩
      · exact ⟨_, _, rfl⟩

theorem State.barrierGoOne_ne {b : Nat} (hb : b ≠ a) : (s.barrierGoOne a).tile b = s.tile b := by
  unfold State.barrierGoOne State.barrierGo State.onRun
  simp only [State.each_cons, State.each_nil]
  split
  · rfl
  · split
    · rfl
    · split
      · rw [State.modRun_ne _ _ hb, s.settle_ne a hb]
      · rfl

/-- A tile at its barrier goes on. -/
theorem State.barrierGoOne_goes {u : CUnit} (hu : s.unit? uid = some u) (h : s.AtBarrier uid a) : (s.barrierGoOne a).Goes uid a := by
  obtain ⟨r, hrun, hunit, hstall⟩ := h
  subst hunit
  have step : s.barrierGoOne a = match r.stall with
      | some (.barrier _ _ _) =>
        (s.settle a).modRun a fun r => { r with stall := none, nextCyc := if r.nextCyc < s.cycle a then s.cycle a else r.nextCyc }
      | _ => s := s.onRun_eq a hrun hu _
  obtain hnone | ⟨n, w, g, hbar⟩ := hstall
  · rw [step, hnone]
    exact ⟨r, hrun, rfl, hnone⟩
  · obtain ⟨cnt, hset⟩ := s.settle_run a hrun
    rw [step, hbar]
    exact ⟨_, State.modRun_run _ a hset _, rfl, rfl⟩

/-- A release leaves the other tiles of the unit at their barrier, and those that go on going. -/
theorem State.barrierGoOne_others {u : CUnit} (hu : s.unit? uid = some u) (b : Nat) :
    (s.AtBarrier uid b → (s.barrierGoOne a).AtBarrier uid b) ∧ (s.Goes uid b → (s.barrierGoOne a).Goes uid b) := by
  by_cases hb : b = a
  · subst hb
    refine ⟨fun h => ?_, fun ⟨r, hrun, hunit, hstall⟩ => s.barrierGoOne_goes uid b hu ⟨r, hrun, hunit, .inl hstall⟩⟩
    obtain ⟨r, hrun, hunit, hstall⟩ := s.barrierGoOne_goes uid b hu h
    exact ⟨r, hrun, hunit, .inl hstall⟩
  · unfold State.AtBarrier State.Goes
    rw [s.barrierGoOne_ne a hb]
    exact ⟨id, id⟩

end

/-- Every tile of a side that waits at its barrier goes on once it is released (R157). -/
theorem State.barrierGo_goes (uid : Nat) (l : List Nat) : ∀ (s : State) (u : CUnit), s.unit? uid = some u → (∀ a ∈ l, s.AtBarrier uid a) →
    (∀ a ∈ l, (s.barrierGo l).Goes uid a) ∧ ∀ b, s.Goes uid b → (s.barrierGo l).Goes uid b := by
  induction l with
  | nil => exact fun s u _ _ => ⟨fun a ha => absurd ha List.not_mem_nil, fun b hb => hb⟩
  | cons a l ih =>
    intro s u hu hwait
    obtain ⟨T, Q, heq⟩ := s.barrierGoOne_eq a
    have hu' : (s.barrierGoOne a).unit? uid = some u := by rw [heq]; exact hu
    obtain ⟨hgo, hstay⟩ := ih (s.barrierGoOne a) u hu' fun b hb => (s.barrierGoOne_others uid a hu b).1 (hwait b (List.mem_cons_of_mem _ hb))
    rw [State.barrierGo_cons]
    refine ⟨fun b hb => ?_, fun b hb => hstay b ((s.barrierGoOne_others uid a hu b).2 hb)⟩
    obtain rfl | hb := List.mem_cons.1 hb
    · exact hstay b (s.barrierGoOne_goes uid b hu (hwait b List.mem_cons_self))
    · exact hgo b hb

/-- Every tile of a side waits at one number exactly where each waits at it. -/
theorem State.barrierMet_some (s : State) (uid n : Nat) {l : List Nat} (hne : l ≠ []) (h : ∀ a ∈ l, (s.tile a).barrier? uid = some n) :
    s.barrierMet uid l = some n := by
  cases l with
  | nil => exact absurd rfl hne
  | cons a r =>
    have hrest : (r.all fun b => (s.tile b).barrier? uid == some n) = true := by simpa using fun b hb => h b (List.mem_cons_of_mem _ hb)
    simp only [State.barrierMet, h a List.mem_cons_self, hrest, if_true]

theorem State.barrierMet_none (s : State) (uid : Nat) {a : Nat} {l : List Nat} (ha : a ∈ l) (h : (s.tile a).barrier? uid = none) :
    s.barrierMet uid l = none := by
  cases l with
  | nil => rfl
  | cons b r =>
    simp only [State.barrierMet]
    split
    · rfl
    · next n hb =>
      rw [if_neg]
      intro hall
      obtain rfl | ha := List.mem_cons.1 ha
      · rw [h] at hb; cases hb
      · simpa [h] using List.all_eq_true.1 hall a ha

/-- A command that changes nothing. -/
theorem exec_idle {c : Instr} {s : State} {f : State → State} (hp : s.power = true) (e : exec c s = run f s) (h : f s = s) : exec c s = .next s :=
  exec_on hp e (by rw [h]; exact State.keep_of s s rfl rfl rfl rfl rfl rfl)

/-! ### What a tile has gathered is complete (R44, R94, R137) -/

/-- The effect of SLOT_COMPLETE where one result is in flight and due. -/
theorem slotComplete_lands {a : Nat} {r : TileRun} {u : CUnit} {f : Flight} {s : State} {P : State → Prop} (hp : s.power = true)
    (hrun : (s.tile a).run = some r) (hu : s.unit? r.unit = some u) (hf : r.inflight = [f]) (hdue : f.due ≤ s.cycle a)
    (h : P (s.keep ((s.modRun a fun r => { r with inflight := [] }).landOne a (s.ctx a r u) u r.side f))) :
    Answers (.slotComplete a) s P :=
  answers_on (f := fun s => s.landDue a (s.cycle a)) hp rfl (by rw [s.landDue_one a hrun hu hf hdue]; exact h)

/-- A byte stored into a WET window of the unit: the selected bits are new (R142). -/
theorem State.storeWet_vat (s : State) (a : Nat) {c : Ctx} {u : CUnit} {i o w : Nat} {sel v : Byte} {h : Handle} (hh : c.handle i = some h)
    (hwet : (s.tile a).findWet u.id (c.slotOf u h i o).1 = some w) :
    ((s.storeWet a c u i [(o, sel, v)]).tile a).vat = memPut (s.tile a).vat (65536 * w + (c.slotOf u h i o).2)
      ((memGet (s.tile a).vat (65536 * w + (c.slotOf u h i o).2) &&& ~~~sel) ||| (v &&& sel)) := by
  simp only [State.storeWet, hh, State.each_cons, State.each_nil, hwet, State.modTile_self]

section Landing
variable {a : Nat} {r : TileRun} {u : CUnit} {f : Flight} {s : State} (hp : s.power = true) (hrun : (s.tile a).run = some r)
  (hu : s.unit? r.unit = some u) (hf : r.inflight = [f]) (hdue : f.due ≤ s.cycle a)
include hp hrun hu hf hdue

theorem slotComplete_vreg {v sel b tag} (hw : f.w = .vreg v sel b tag) : 
      Answers (.slotComplete a) s fun t => ∃ r', (t.tile a).run = some r' ∧ r'.inflight = [] ∧ r'.v v = (r.v v &&& ~~~sel) ||| (b &&& sel) ∧ r'.tag v = tag ∧ (∀ x, x ≠ v → r'.v x = r.v x) ∧ r'.acc = r.acc ∧ r'.mask = r.mask := by
  refine slotComplete_lands hp hrun hu hf hdue ?_
  simp only [State.landOne, hw]
  exact ⟨_, State.modRun_run _ a (State.modRun_run s a hrun _) _, rfl, tabGet_tabPut_self .., tabGet_tabPut_self .., fun x hx => tabGet_tabPut_ne _ _ _ hx, rfl, rfl⟩

theorem slotComplete_mreg {m sel b} (hw : f.w = .mreg m sel b) (hm : m ≠ 0) :
      Answers (.slotComplete a) s fun t => ∃ r', (t.tile a).run = some r' ∧ r'.m m = (r.m m &&& ~~~sel) ||| (b &&& sel) ∧ (∀ x, x ≠ m → r'.m x = r.m x) ∧ r'.vreg = r.vreg := by
  refine slotComplete_lands hp hrun hu hf hdue ?_
  simp only [State.landOne, hw, if_neg hm]
  refine ⟨_, State.modRun_run _ a (State.modRun_run s a hrun _) _, ?_, fun x hx => ?_, rfl⟩
  · simp [TileRun.m, hm]
  · simp [TileRun.m, tabGet_tabPut_ne _ _ _ hx]

theorem slotComplete_acc {e x fmt} (hw : f.w = .acc e [x] fmt) :
      Answers (.slotComplete a) s fun t => ∃ r', (t.tile a).run = some r' ∧ tabGet 0 r'.acc e = x ∧ r'.vreg = r.vreg := by
  refine slotComplete_lands hp hrun hu hf hdue ?_
  simp only [State.landOne, hw]
  refine ⟨_, State.modRun_run _ a (State.modRun_run s a hrun _) _, ?_, rfl⟩
  simp [TileRun.putAcc]

theorem slotComplete_store {h i o sel v w} (hw : f.w = .store i [(o, sel, v)]) (hh : (s.ctx a r u).handle i = some h)
    (hwet : (s.tile a).findWet u.id ((s.ctx a r u).slotOf u h i o).1 = some w) :
      Answers (.slotComplete a) s fun t => memGet (t.tile a).vat (65536 * w + ((s.ctx a r u).slotOf u h i o).2)
          = (memGet (s.tile a).vat (65536 * w + ((s.ctx a r u).slotOf u h i o).2) &&& ~~~sel) ||| (v &&& sel)
        ∧ ∀ p, p ≠ 65536 * w + ((s.ctx a r u).slotOf u h i o).2 → memGet (t.tile a).vat p = memGet (s.tile a).vat p := by
  refine slotComplete_lands hp hrun hu hf hdue ?_
  have htile := s.modRun_tile a hrun fun r => { r with inflight := [] }
  have hwet' : ((s.modRun a fun r => { r with inflight := [] }).tile a).findWet u.id ((s.ctx a r u).slotOf u h i o).1 = some w := by
    rw [htile]; exact hwet
  simp only [State.landOne, hw, State.keep_tile, State.storeWet_vat _ a hh hwet', htile]
  exact ⟨memGet_memPut_self .., fun p hp => memGet_memPut_ne _ _ hp⟩

end Landing

theorem slotComplete_waits {a r f s} (hp : s.power = true) (hrun : (s.tile a).run = some r) (hf : r.inflight = [f]) (hdue : s.cycle a < f.due) :
    Answers (.slotComplete a) s fun t => ∃ r', (t.tile a).run = some r' ∧ r'.inflight = [f] ∧ r'.vreg = r.vreg := by
  have hsame := s.landDue_nothing a hrun (t := s.cycle a) (by simpa [hf] using hdue)
  refine answers_on (f := fun s => s.landDue a (s.cycle a)) hp rfl ⟨r, ?_, hf, rfl⟩
  rw [State.keep_tile, hsame.tile, hrun]

theorem synDeferred_issues {a r u w rho b e s} (hp : s.power = true) (hrun : (s.tile a).run = some r) (hu : s.unit? r.unit = some u) (hf : r.inflight = [])
    (hstall : r.stall = some (.syn w rho b e)) (hw : r.synWaits w.toNat rho = false) (hcyc : r.nextCyc ≤ s.cycle a) (hred : r.lastRed ≤ r.nextCyc)
    (hbank : (s.tile a).bankHits = []) (hmay : s.slotMay a r u = true) (hclash : clashes r [] (r.synFlight r.nextCyc w.toNat rho) = false) :
    Answers (.synDeferredIssue a) s fun t => ∃ r', (t.tile a).run = some r' ∧ r'.stall = none ∧ r'.inflight = r.synFlight r.nextCyc w.toNat rho ∧ r'.nextCyc = r.nextCyc + 1 := by
  have hsame := s.landDue_nothing a hrun (t := s.cycle a) (by simp [hf])
  refine answers_on hp rfl ?_
  unfold synDeferred
  dsimp only
  generalize s.landDue a (s.cycle a) = s' at hsame ⊢
  have hrun' : (s'.tile a).run = some r := by rw [hsame.tile]; exact hrun
  rw [s'.onRun_eq a hrun' (by rw [hsame.unit?]; exact hu)]
  simp only [hstall, hsame.tile, hbank, hsame.slotMay, hmay, hsame.cycle, hw, if_neg (Nat.not_lt.2 hred), bankWait, hf, hclash, List.length_nil]
  rw [if_neg (by simpa using hcyc)]
  simp only [Bool.false_eq_true, if_false, List.nil_append]
  obtain ⟨l, hl⟩ := TileRun.synEnd_eq { r with inflight := r.synFlight r.nextCyc w.toNat rho, stall := none, stepOne := false, nextCyc := r.nextCyc + 1 } w.toNat rho
  rw [hl]
  exact ⟨_, congrArg Tile.run (State.chargeTo_self _ a (by rw [State.modTile_self]) _ _ _), rfl, rfl, rfl⟩

theorem State.barrierMet_nil (s : State) (uid : Nat) : s.barrierMet uid [] = none := rfl

theorem barrierRelease_goes {uid u n s} (hp : s.power = true) (hu : s.unit? uid = some u) (hhome : u.home = none) (hothers : u.others = []) (hpair : u.pairTiles = [])
    (hthird : u.thirdTiles = []) (hne : u.tiles ≠ []) (hall : ∀ a ∈ u.tiles, (s.tile a).barrier? uid = some n) :
    Answers (.barrierRelease uid) s fun t => ∀ a ∈ u.tiles, ∃ r, (t.tile a).run = some r ∧ r.unit = uid ∧ r.stall = none := by
  refine answers_on hp rfl ?_
  simp only [barrierRelease, hu, hpair, hthird, State.barrierMet_nil, s.barrierMet_some uid n hne hall, hhome, ite_self, hothers, List.all_nil, if_true, State.each_nil]
  refine (State.barrierGo_goes uid u.tiles _ { u with waitBarrier := u.waitBarrier.filter fun x => x.2 != n } ?_ ?_).1
  · exact s.modUnit_found hu
  · exact fun a ha => s.atBarrier_of_barrier? uid a (hall a ha)

theorem barrierRelease_waits {uid u a s} (hp : s.power = true) (hu : s.unit? uid = some u) (hpair : u.pairTiles = [])
    (hthird : u.thirdTiles = []) (ha : a ∈ u.tiles) (hnone : (s.tile a).barrier? uid = none) : exec (.barrierRelease uid) s = .next s := by
  refine exec_idle hp rfl ?_
  simp only [barrierRelease, hu, hpair, hthird, State.barrierMet_nil, s.barrierMet_none uid ha hnone]

/-- A tile whose table has ended and whose slots have completed, of a stage that is no HANDOFF. -/
structure TableDone (s : State) (a : Nat) (r : TileRun) (u : CUnit) : Prop where
  run : (s.tile a).run = some r
  unit : s.unit? r.unit = some u
  inflight : r.inflight = []
  ended : r.ended = true
  ready : r.ready = false
  stall : r.stall = none
  stopped : r.stopped = false
  kind : dKind (u.stageAt r.stage).desc ≠ kHANDOFF

/-- What TILE_READY does with such a tile: on to the next stage, or ready. -/
theorem TableDone.tileReady_eq {s : State} {a : Nat} {r : TileRun} {u : CUnit} (h : TableDone s a r u) : ∃ s', s.SameTiles s' ∧ tileReady a s =
    if r.pass != 1 && decide (r.stage + 1 < u.stages.length) then 
      if dKind (u.stageAt (r.stage + 1)).desc = kHANDOFF then s'.modTile a fun t => { t with run := some { r with ranges := r.allRanges, stage := r.stage + 1, pass := 0, preRanges := [] } }
      else s'.modTile a fun t => { t with run := some (s'.stageBegin a { r with ranges := r.allRanges, stage := r.stage + 1, pass := 0 } u) }
    else ((s'.settle a).modRun a fun r => { r with ready := true, stepOne := false }).readyCheck u.id := by
  have hsame := s.landDue_nothing a h.run (t := s.cycle a) (by simp [h.inflight])
  have hkind : (dKind (u.stageAt r.stage).desc == kHANDOFF) = false := by simpa using h.kind
  refine ⟨s.landDue a (s.cycle a), hsame, ?_⟩
  unfold tileReady
  dsimp only
  generalize s.landDue a (s.cycle a) = s' at hsame ⊢
  rw [s'.onRun_eq a (by rw [hsame.tile]; exact h.run) (by rw [hsame.unit?]; exact h.unit)]
  simp [h.inflight, h.ended, h.ready, h.stall, h.stopped, hkind]

section
variable {a : Nat} {r : TileRun} {u : CUnit} {s : State} (hp : s.power = true) (h : TableDone s a r u)
include hp h

/-- The tile goes on to the next stage of its chain, its registers as they are (R194). -/
theorem TableDone.next (hmore : r.stage + 1 < u.stages.length) (hpass : r.pass ≠ 1) (hnext : dKind (u.stageAt (r.stage + 1)).desc ≠ kHANDOFF) :
    Answers (.tileReady a) s fun t => ∃ r', (t.tile a).run = some r' ∧ r'.stage = r.stage + 1 ∧ r'.pos = 0 ∧ r'.rho = 0 ∧ r'.ended = false
      ∧ r'.off = dTableAddr (u.stageAt (r.stage + 1)).desc ∧ r'.vreg = r.vreg ∧ r'.acc = r.acc := by
  obtain ⟨s', hsame, heq⟩ := h.tileReady_eq
  refine answers_on (f := tileReady a) hp rfl ?_
  rw [heq, if_pos (by simp [hmore, hpass]), if_neg hnext]
  exact ⟨s'.stageBegin a { r with ranges := r.allRanges, stage := r.stage + 1, pass := 0 } u, by rw [State.keep_tile, State.modTile_self],
    rfl, rfl, rfl, rfl, rfl, rfl, rfl⟩

omit hp in
/-- The tile signals ready, and the unit is looked at. -/
theorem TableDone.signals (hlast : u.stages.length ≤ r.stage + 1 ∨ r.pass = 1) : ∃ s' : State, s'.units = s.units ∧ s'.unit? r.unit = some u
    ∧ (∃ r' : TileRun, (s'.tile a).run = some r' ∧ r' = { r with ready := true, stepOne := false, counted := r'.counted })
    ∧ (∀ b, b ≠ a → s'.tile b = s.tile b) ∧ tileReady a s = s'.readyCheck r.unit := by
  obtain ⟨s', hsame, heq⟩ := h.tileReady_eq
  obtain ⟨T, Q, hset⟩ := s'.settle_eq a
  obtain ⟨n, hrun⟩ := s'.settle_run a (r := r) (by rw [hsame.tile]; exact h.run)
  rw [if_neg (by simp; omega), (s.unit?_id _ _ h.unit).1] at heq
  refine ⟨_, ?_, ?_, ⟨_, State.modRun_run _ a hrun _, rfl⟩, fun b hb => ?_, heq⟩
  · rw [hset]; exact hsame.units
  · rw [hset]; exact (hsame.unit? _).trans h.unit
  · rw [State.modRun_ne _ a hb, s'.settle_ne a hb, hsame.tile]

/-- When the only tile is ready the unit is (R44 step 1). -/
theorem TableDone.allReady (hlast : u.stages.length ≤ r.stage + 1) (hpass : r.pass ≠ 1) (hphase : u.phase = .running) (htiles : u.tiles = [a])
    (hpair : u.pairTiles = []) (hhome : u.home = none) :
    Answers (.tileReady a) s fun t => ∃ r' v, (t.tile a).run = some r' ∧ r'.ready = true ∧ r'.vreg = r.vreg ∧ t.unit? r.unit = some v ∧ v.phase = .ready := by
  obtain ⟨s', -, hunit, ⟨r', hrun, hr'⟩, -, heq⟩ := h.signals (.inl hlast)
  have hside : s'.sideReady r.unit (u.tiles ++ u.pairTiles) = true := by
    simp only [htiles, hpair, State.sideReady, List.append_nil, List.all_cons, List.all_nil, hrun]
    rw [hr']
    simpa using hpass
  refine answers_on (f := tileReady a) hp rfl ?_
  simp only [heq, State.readyCheck, hunit, hphase, hside, State.sendReady, hhome]
  refine ⟨r', { u with phase := .ready }, hrun, by rw [hr'], by rw [hr'], ?_, rfl⟩
  exact s'.modUnit_found hunit

/-- As long as another tile is not ready the unit waits. -/
theorem TableDone.someReady {b : Nat} (hlast : u.stages.length ≤ r.stage + 1 ∨ r.pass = 1) (hb : b ∈ u.tiles) (hba : b ≠ a)
    (hnot : ∀ x, (s.tile b).run = some x → x.ready = false) :
    Answers (.tileReady a) s fun t => ∃ r', (t.tile a).run = some r' ∧ r'.ready = true ∧ t.units = s.units := by
  obtain ⟨s', hunits, hunit, ⟨r', hrun, hr'⟩, hother, heq⟩ := h.signals hlast
  have hside : s'.sideReady r.unit (u.tiles ++ u.pairTiles) = false := by
    rw [State.sideReady, List.all_eq_false]
    refine ⟨b, List.mem_append_left _ hb, ?_⟩
    rw [hother b hba]
    split
    · next x hx => simp [hnot x hx]
    · simp
  refine answers_on (f := tileReady a) hp rfl ?_
  simp only [heq, State.readyCheck, hunit, hside, Bool.and_false]
  exact ⟨r', hrun, by rw [hr'], hunits⟩

end
/-- Settles O54: SLOT_COMPLETE by what a result writes, the deferred SYN and barriers by what they wait for, TILE_READY by whether the stage is the last. -/
theorem tileResults : Obligations.tileResults := by
  unfold Obligations.tileResults
  refine ⟨?_, ?_, ?_, ?_, ?_, ?_, ?_, ?_, ?_, ?_, ?_⟩
  · intro a r u v sel b tag f s hp hrun hu hf hdue hw
    exact slotComplete_vreg hp hrun hu hf hdue hw
  · intro a r u m sel b f s hp hrun hu hf hdue hw hm
    exact slotComplete_mreg hp hrun hu hf hdue hw hm
  · intro a r u e x fmt f s hp hrun hu hf hdue hw
    exact slotComplete_acc hp hrun hu hf hdue hw
  · intro a r u h i o sel v f w s hp hrun hu hf hdue hw hh hwet
    exact slotComplete_store hp hrun hu hf hdue hw hh hwet
  · intro a r f s hp hrun hf hdue
    exact slotComplete_waits hp hrun hf hdue
  · intro a r u w rho b e s hp hrun hu hf hstall hw hcyc hred hbank hmay hclash
    exact synDeferred_issues hp hrun hu hf hstall hw hcyc hred hbank hmay hclash
  · intro uid u n s hp hu hhome hothers hpair hthird hne hall
    exact barrierRelease_goes hp hu hhome hothers hpair hthird hne hall
  · intro uid u a s hp hu hpair hthird ha hnone
    exact barrierRelease_waits hp hu hpair hthird ha hnone
  · intro a r u s hp hrun hu hf hend hready hstall hstop hkind hlast hpass hphase htiles hpair hhome
    exact TableDone.allReady hp ⟨hrun, hu, hf, hend, hready, hstall, hstop, hkind⟩ hlast hpass hphase htiles hpair hhome
  · intro a b r u s hp hrun hu hf hend hready hstall hstop hkind hlast hb hba hnot
    exact TableDone.someReady hp ⟨hrun, hu, hf, hend, hready, hstall, hstop, hkind⟩ hlast hb hba hnot
  · intro a r u s hp hrun hu hf hend hready hstall hstop hkind hmore hpass hnext
    exact TableDone.next hp ⟨hrun, hu, hf, hend, hready, hstall, hstop, hkind⟩ hmore hpass hnext

end Sys2Proof.Machine

/-! PROOFS. Issue of a long word: what a repetition leaves of its run, and which of the ways of State.issueAt it takes (R29, R30, R33, R138, R139). -/

namespace Sys2Proof.Machine

open Sys2Proof Sys2Proof.Safety

/-! ### Moving on in the table (R137, R160) -/

/-- A run without its place in the table: its position, its loops and their counters. -/
def TileRun.placeless (r : TileRun) : TileRun :=
  { r with pos := 0, off := 0, rho := 0, lastOff := 0, lastRho := 0, loops := [], x0 := 0, x1 := 0, x2 := 0, x3 := 0, ended := false }

theorem TileRun.bump_placeless (r : TileRun) (c : Nat) : (r.bump c).placeless = r.placeless := by
  unfold TileRun.bump
  split <;> rfl

theorem TileRun.leave_placeless (p off : Nat) (ls : List Loop) : ∀ r : TileRun, (r.leave p off ls).placeless = r.placeless := by
  induction ls with
  | nil => exact fun r => rfl
  | cons l ls ih =>
    intro r
    unfold TileRun.leave
    split
    · dsimp only
      split
      · exact (ih _).trans (r.bump_placeless _)
      · exact r.bump_placeless _
    · rfl

/-- Moving on changes nothing of a run but its place in the table. -/
theorem TileRun.advance_placeless (r : TileRun) (bank : Bytes) (len : Nat) (l : LongWord) : (r.advance bank len l).placeless = r.placeless := by
  unfold TileRun.advance
  extract_lets r1 next r2
  split
  · rfl
  · show r2.placeless = r1.placeless
    unfold r2
    split
    · split
      · dsimp only
        split
        · exact TileRun.leave_placeless _ _ _ r1
        · rfl
      · exact TileRun.leave_placeless _ _ _ r1
    · exact TileRun.leave_placeless _ _ _ r1

/-- A repetition that is not the last leaves the position (R138). -/
theorem TileRun.advance_repeat (r : TileRun) (bank : Bytes) (len : Nat) (l : LongWord) (h : r.rho < l.rep) :
    r.advance bank len l = { r with lastOff := r.off, lastRho := r.rho, rho := r.rho + 1 } := if_pos h

/-- The last repetition moves on to the next word (R137). -/
theorem TileRun.advance_next (r : TileRun) (bank : Bytes) (len : Nat) (l : LongWord) (h : l.rep ≤ r.rho) (hsyn : l.syn = none) (hloops : r.loops = []) :
    r.advance bank len l = { r with lastOff := r.off, lastRho := r.rho, rho := 0, pos := r.pos + 1, off := r.off + l.size
                                    ended := decide (len ≤ r.pos + 1) } := by
  unfold TileRun.advance
  simp only [if_neg (Nat.not_lt.2 h), hsyn, hloops, TileRun.leave]

/-! ### What an issue leaves -/

theorem least_nil : least [] = none := rfl

/-- The run with the results of a repetition issued in cycle `t` in flight, and with its flags (R29, R30). -/
def TileRun.holding (r : TileRun) (c : Ctx) (l : LongWord) (t : Nat) (fl : List Flight) (flg : BitVec 8) : TileRun :=
  { r with
    inflight := r.inflight ++ fl, flags := r.flags ||| flg, nextCyc := t + 1, stepOne := false, stall := none
    ariFree := (l.ari.map fun w => t + ariBusy c r w).getD r.ariFree }

/-- The run after that repetition has moved on, stalled where its SYN is a BARRIER (R33, R137, R157). -/
def TileRun.issued (r : TileRun) (c : Ctx) (l : LongWord) (bank : Bytes) (t now : Nat) (fl : List Flight) (flg : BitVec 8) : TileRun :=
  let moved := (r.holding c l t fl flg).advance bank c.len l
  if l.syn.isSome then { moved with stall := some (.barrier (bits (l.syn.getD 4) 11 4) t now) } else moved

/-- A tile on which a repetition has issued in cycle `t`: its run is `r`, and what it was granted of the banks is noted (R27). -/
def Tile.issuing (x : Tile) (t : Nat) (hit : Nat × List Nat) (r : TileRun) : Tile :=
  { x with
    run := some r, bankHits := x.bankHits.filter fun b => decide (t < b.1)
    bankGrant := if hit.1 = 0 then none else some (t, hit.2), lastPos := r.seqPos }

section
variable (r : TileRun) (c : Ctx) (l : LongWord) (bank : Bytes) (t now : Nat) (fl : List Flight) (flg : BitVec 8)

/-- Beside its place and its stall an issued repetition leaves of the run what its results make of it. -/
theorem TileRun.issued_placeless : { (r.issued c l bank t now fl flg).placeless with stall := none } = (r.holding c l t fl flg).placeless := by
  have moved := (r.holding c l t fl flg).advance_placeless bank c.len l
  unfold TileRun.issued
  dsimp only
  split
  · exact congrArg (fun x : TileRun => { x with stall := none }) moved
  · rw [moved]; rfl

theorem TileRun.issued_inflight : (r.issued c l bank t now fl flg).inflight = r.inflight ++ fl := congrArg TileRun.inflight (r.issued_placeless c l bank t now fl flg)
theorem TileRun.issued_flags : (r.issued c l bank t now fl flg).flags = r.flags ||| flg := congrArg TileRun.flags (r.issued_placeless c l bank t now fl flg)
theorem TileRun.issued_nextCyc : (r.issued c l bank t now fl flg).nextCyc = t + 1 := congrArg TileRun.nextCyc (r.issued_placeless c l bank t now fl flg)
theorem TileRun.issued_vreg : (r.issued c l bank t now fl flg).vreg = r.vreg := (congrArg TileRun.vreg (r.issued_placeless c l bank t now fl flg) :)
theorem TileRun.issued_counted : (r.issued c l bank t now fl flg).counted = r.counted := (congrArg TileRun.counted (r.issued_placeless c l bank t now fl flg) :)
theorem TileRun.issued_ariFree : (r.issued c l bank t now fl flg).ariFree = (l.ari.map fun w => t + ariBusy c r w).getD r.ariFree :=
  congrArg TileRun.ariFree (r.issued_placeless c l bank t now fl flg)

/-- A word without a SYN leaves the tile unstalled. -/
theorem TileRun.issued_of_no_syn (h : l.syn = none) : r.issued c l bank t now fl flg = (r.holding c l t fl flg).advance bank c.len l := by
  simp only [TileRun.issued, h]
  rfl

theorem TileRun.issued_stall (h : l.syn = none) : (r.issued c l bank t now fl flg).stall = none := by
  rw [r.issued_of_no_syn c l bank t now fl flg h]
  exact congrArg TileRun.stall ((r.holding c l t fl flg).advance_placeless bank c.len l)

theorem TileRun.issued_barrier {w : Nat} (h : l.syn = some w) : (r.issued c l bank t now fl flg).stall = some (.barrier (bits w 11 4) t now) := by
  simp only [TileRun.issued, h]
  rfl

end

/-! ### The ways of an issue (R138, R139, R178) -/

theorem State.issueAt_issues {s : State} {a t : Nat} {hit : Nat × List Nat} {data : Option (List Byte)} {r : TileRun} {u : CUnit} {l : LongWord}
    {oa os : SlotOut} {lo : LdOut} {fl : List Flight}
    (hrun : (s.tile a).run = some r) (hu : s.unit? r.unit = some u) (hl : longWord (s.tile a).tbl.bank r.off = l)
    (hpal : l.pal = none) (hred : l.red = none) (hcvt : l.cvt = none) (hskn : l.skn = none) (hsyn : ∀ w, l.syn = some w → synOp w = 4)
    (hdec : l.decodeCodes (fun i => ((s.ctx a r u).handle i).isSome) r.loops (s.ctx a r u).len r.pos = [])
    (hoa : slotOut l.ari (ariOut (s.ctx a r u) r t) = oa) (hos : slotOut l.st (stOut (s.ctx a r u) r t r.rho) = os)
    (hlo : (l.ld.map fun w => s.ldOut (s.ctx a r u) r u w).getD {} = lo)
    (hcodes : oa.decode = [] ∧ oa.codes = [] ∧ os.codes = [] ∧ lo.codes = []) (hsrc : ∀ x, lo.src = some (.remote x) → data ≠ none)
    (hfl : ldFlight (s.ctx a r u) t lo data ++ oa.flights ++ os.flights = fl) (hclash : clashes r r.inflight fl = false) : 
    s.issueAt a t hit data = (s.modTile a fun x => x.issuing t hit (r.issued (s.ctx a r u) l (s.tile a).tbl.bank t s.now fl oa.fl)).chargeTo a (t + 1) hit.1 0 := by
  obtain ⟨hdec', hari, hst, hld⟩ := hcodes
  unfold State.issueAt
  split
  next h => rw [hrun] at h; cases h
  next r' h =>
  obtain rfl : r = r' := Option.some.inj (hrun.symm.trans h)
  split
  next h => rw [hu] at h; cases h
  next u' h' =>
  obtain rfl : u = u' := Option.some.inj (hu.symm.trans h')
  extract_lets tile c bank l' has ro lo' oa' op oc ok os' ldSrc dec0 dec r1 fl0 fl' synW synE waits synF codes r1w r2a r2 r3a r3b r3 s'
  have el : l' = l := hl
  have ero : ro = {} := by simp only [ro, el, hred]
  have elo : lo' = lo := by
    rw [← hlo, ← el]
    unfold lo'
    cases l'.ld <;> rfl
  have eoa : oa' = oa := by simp only [oa', el]; exact hoa
  have eop : op = {} := by simp only [op, el, hpal, slotOut]
  have eoc : oc = {} := by simp only [oc, el, hcvt, slotOut]
  have eok : ok = {} := by simp only [ok, el, hskn, slotOut]
  have eos : os' = os := by simp only [os', el]; exact hos
  have esrc : ldSrc = none := by simp only [ldSrc, elo]
  have edec : dec = [] := by
    have edec0 : dec0 = [] := by simp only [dec0, el]; exact hdec
    simp [dec, esrc, edec0, eoa, eop, ero, eoc, eok, hdec']
  have er1 : r1 = r := by simp only [r1, ero]
  have efl : fl' = fl := by simp [fl', fl0, c, elo, eoa, eop, ero, eoc, eok, eos, ← hfl]
  have esynW : synW = l.syn.getD 4 := by
    simp only [synW, el]
    cases l.syn <;> rfl
  have hop : synOp (l.syn.getD 4) = 4 := by
    cases hw : l.syn with
    | none => rfl
    | some w => exact hsyn w hw
  have eop4 : synOp synW = 4 := by rw [esynW, hop]
  have ewaits : waits = false := by simp [waits, TileRun.synWaits, eop4]
  have esynF : synF = [] := by simp [synF, TileRun.synFlight, eop4]
  have ecodes : codes = [] := by simp [codes, esrc, elo, eoa, eop, ero, eoc, eok, eos, hari, hst, hld, synCodes, eop4]
  have er2 : r2 = r.holding c l t fl oa.fl := by
    simp [r2, r2a, er1, ewaits, efl, esynF, eoa, eop, ero, eoc, el, hred, hcvt, eop4, TileRun.synEnd, TileRun.holding]
    cases l.ari <;> rfl
  have er3 : r3 = r.issued c l bank t s.now fl oa.fl := by
    have er3a : r3a = (r.holding c l t fl oa.fl).advance bank c.len l := by rw [← er2, ← el]
    have er3b : r3b = r3a := if_neg (by simp [ewaits])
    simp [r3, er3b, esynW, el, TileRun.issued, ← er3a, hop]
  rw [edec, ecodes, esrc, ero, er1, efl, esynF, List.append_nil]
  simp only [least_nil, hclash, Bool.false_eq_true, if_false]
  rw [← er3]
  rfl

theorem least_mem {c : Nat} {l : List Nat} (h : c ∈ l) : ∃ x, least l = some x := by
  cases l with
  | nil => cases h
  | cons a r =>
    unfold least
    cases least r <;> exact ⟨_, rfl⟩

/-- A word that a decode check refuses ends its unit (R139). -/
theorem State.issueAt_refused {s : State} {a t : Nat} {hit : Nat × List Nat} {data : Option (List Byte)} {r : TileRun} {u : CUnit} {bad : Nat}
    (hrun : (s.tile a).run = some r) (hu : s.unit? r.unit = some u)
    (hbad : bad ∈ (longWord (s.tile a).tbl.bank r.off).decodeCodes (fun i => ((s.ctx a r u).handle i).isSome) r.loops (s.ctx a r u).len r.pos) :
    ∃ code, s.issueAt a t hit data = s.faultUnit u.id code := by
  unfold State.issueAt
  split
  next h => rw [hrun] at h; cases h
  next r' h =>
  obtain rfl : r = r' := Option.some.inj (hrun.symm.trans h)
  split
  next h => rw [hu] at h; cases h
  next u' h' =>
  obtain rfl : u = u' := Option.some.inj (hu.symm.trans h')
  extract_lets tile c bank l has ro lo oa op oc ok os ldSrc dec0 dec
  have hdec : bad ∈ dec := by
    have hdec0 : bad ∈ dec0 := hbad
    unfold dec
    split
    · exact hdec0
    · simp [hdec0]
  obtain ⟨code, hcode⟩ := least_mem hdec
  rw [hcode]
  exact ⟨code, rfl⟩

/-- A word whose LD goes to another unit of memory stalls the tile; its other slots wait with it (R33, R178). -/
theorem State.issueAt_stalls {s : State} {a t : Nat} {hit : Nat × List Nat} {r : TileRun} {u : CUnit} {l : LongWord} {w : Nat} {x : ReadFrom}
    (hrun : (s.tile a).run = some r) (hu : s.unit? r.unit = some u) (hl : longWord (s.tile a).tbl.bank r.off = l) (hld : l.ld = some w)
    (hdec : l.decodeCodes (fun i => ((s.ctx a r u).handle i).isSome) r.loops (s.ctx a r u).len r.pos = [])
    (hsrc : (s.ldOut (s.ctx a r u) r u w).src = some (.remote x)) (hcodes : (s.ldOut (s.ctx a r u) r u w).codes = []) :
    s.issueAt a t hit none = s.ldStall a (s.ctx a r u) u (s.ldOut (s.ctx a r u) r u w) x t := by
  unfold State.issueAt
  split
  next h => rw [hrun] at h; cases h
  next r' h =>
  obtain rfl : r = r' := Option.some.inj (hrun.symm.trans h)
  split
  next h => rw [hu] at h; cases h
  next u' h' =>
  obtain rfl : u = u' := Option.some.inj (hu.symm.trans h')
  extract_lets tile c bank l' has ro lo oa op oc ok os ldSrc dec0 dec r1 fl0 fl synW synE waits synF codes r1w r2a r2 r3a r3b r3 s'
  have el : l' = l := hl
  have elo : lo = s.ldOut c r u w := by simp only [lo, el, hld]
  have esrc : ldSrc = some x := by simp only [ldSrc, elo, c, hsrc]
  have edec : dec = [] := by
    have edec0 : dec0 = [] := by simp only [dec0, el]; exact hdec
    simp [dec, esrc, edec0]
  have ecodes : codes = [] := by simp [codes, esrc, elo, c, hcodes]
  rw [edec, ecodes, esrc, elo]
  rfl

/-- What an LD from a window or from elsewhere asks for, where its block lies in its share. -/
theorem State.ldOut_ok {s : State} {c : Ctx} {r : TileRun} {u : CUnit} {w b : Nat} {h : Handle} {from_ : LdFrom} (hh : c.handle (ldHnd w) = some h)
    (hb : ldStBlock c r w r.rho h = (b, true)) (hfrom : s.ldFrom c r u h (ldHnd w) b (ldStBytes w) = from_) (hgood : ∀ x, from_ ≠ .bad x) :
    s.ldOut c r u w = { src := some from_, v := bits w 4 0, fmt := h.fmt, hnd := some h, blk := b, bytes := ldStBytes w } := by
  simp only [State.ldOut, hh, hb, hfrom]
  cases from_ with
  | data l => rfl
  | remote x => rfl
  | bad x => exact absurd rfl (hgood x)

/-! ### Before the issue: nothing lands and no bank is held -/

/-- Without a fabric write that holds a bank nothing delays an issue. -/
theorem State.bankTime_free (s : State) (a t : Nat) (h : (s.tile a).bankHits = []) : s.bankTime a t = (t, []) := by
  unfold State.bankTime
  dsimp only
  split
  · split
    · rw [h]; rfl
    · rfl
  · rfl

/-- Where nothing is in flight and no bank is held a repetition issues in the state as it is. -/
theorem State.issue_eq {s : State} {a : Nat} {r : TileRun} (hrun : (s.tile a).run = some r) (hin : r.inflight = []) (hb : (s.tile a).bankHits = [])
    (t : Nat) (data : Option (List Byte)) : ∃ s', s.SameTiles s' ∧ s.issue a t data = s'.issueAt a t (0, []) data := by
  have h1 := s.landDue_nothing a hrun (t := t) (by simp [hin])
  have h2 := (s.landDue a t).landDue_nothing a (by rw [h1.tile]; exact hrun) (t := t) (by simp [hin])
  refine ⟨_, h1.trans h2, ?_⟩
  unfold State.issue
  dsimp only
  rw [State.bankTime_free _ a t (by rw [h1.tile]; exact hb), Nat.sub_self]

theorem State.SameTiles.ldFrom {s t : State} (h : s.SameTiles t) : t.ldFrom = s.ldFrom := by
  obtain ⟨⟨T, rfl⟩, ht⟩ := h
  funext c r u h i b n
  unfold State.ldFrom
  rw [ht c.tile]
  rfl

theorem State.SameTiles.ldOut {s t : State} (h : s.SameTiles t) : t.ldOut = s.ldOut := by
  funext c r u w
  unfold State.ldOut
  rw [h.ldFrom]

/-- Where neither ARI nor RED must wait for its slot the next cycle of the run is the word's. -/
theorem TileRun.issueAt_of_no_busy (r : TileRun) {l : LongWord} (hari : l.ari = none) (hred : l.red = none) : r.issueAt l = r.nextCyc := by
  simp [TileRun.issueAt, hari, hred]

/-- An LD whose data is there is in flight for 3 cycles (R30, R146). -/
theorem State.issueAt_ld {s : State} {a t w b : Nat} {data : Option (List Byte)} {r : TileRun} {u : CUnit} {l : LongWord} {c : Ctx} {h : Handle} {bs : List Byte}
    (hrun : (s.tile a).run = some r) (hu : s.unit? r.unit = some u) (hl : longWord (s.tile a).tbl.bank r.off = l) (hbare : l = { bare l with ld := some w })
    (hctx : s.ctx a r u = c) (hin : r.inflight = []) (hdec : l.decodeCodes (fun i => (c.handle i).isSome) r.loops c.len r.pos = [])
    (hh : c.handle (ldHnd w) = some h) (hb : ldStBlock c r w r.rho h = (b, true))
    (hfrom : s.ldFrom c r u h (ldHnd w) b (ldStBytes w) = .data bs ∨ (∃ x, s.ldFrom c r u h (ldHnd w) b (ldStBytes w) = .remote x) ∧ data = some bs) :
    ∃ r', ((s.issueAt a t (0, []) data).tile a).run = some r' ∧ r'.stall = none ∧ r'.nextCyc = t + 1
      ∧ r'.inflight = [{ due := t + 3, slot := .ld, w := .vreg (bits w 4 0) (BitVec.allOnes 2048) (vLoad h.width (clipTail c h b bs)) h.fmt }] := by
  subst hctx
  have hari : l.ari = none := congrArg LongWord.ari hbare
  have hst : l.st = none := congrArg LongWord.st hbare
  have hsyn : l.syn = none := congrArg LongWord.syn hbare
  have hld : l.ld = some w := congrArg LongWord.ld hbare
  obtain ⟨lo, hlo, hcodes, hsrc, hfl⟩ : ∃ lo, s.ldOut (s.ctx a r u) r u w = lo ∧ lo.codes = [] ∧ (∀ x, lo.src = some (.remote x) → data ≠ none) ∧ ldFlight (s.ctx a r u) t lo data
      = [{ due := t + 3, slot := .ld, w := .vreg (bits w 4 0) (BitVec.allOnes 2048) (vLoad h.width (clipTail (s.ctx a r u) h b bs)) h.fmt }] := by
    obtain hdata | ⟨⟨x, hremote⟩, hdata⟩ := hfrom
    · exact ⟨_, State.ldOut_ok hh hb hdata nofun, rfl, nofun, rfl⟩
    · subst hdata
      exact ⟨_, State.ldOut_ok hh hb hremote nofun, rfl, nofun, rfl⟩
  have hissue := State.issueAt_issues (oa := {}) (os := {}) (lo := lo) (hit := (0, [])) hrun hu hl (congrArg LongWord.pal hbare) (congrArg LongWord.red hbare)
    (congrArg LongWord.cvt hbare) (congrArg LongWord.skn hbare) (by simp [hsyn]) hdec (by rw [hari]; rfl) (by rw [hst]; rfl)
    (by rw [hld, Option.map_some, hlo, Option.getD_some]) ⟨rfl, rfl, rfl, hcodes⟩ hsrc (by rw [hfl]) (by rw [hin]; rfl)
  rw [hissue]
  refine ⟨_, congrArg Tile.run (State.chargeTo_self _ a (by rw [State.modTile_self]; rfl) _ _ _), TileRun.issued_stall _ _ _ _ _ _ _ _ hsyn, TileRun.issued_nextCyc .., ?_⟩
  exact (TileRun.issued_inflight ..).trans (by rw [hin]; rfl)

section
variable {s : State} {a : Nat} {r : TileRun} {u : CUnit} {l : LongWord} (hmay : MayIssue s a r u l)
include hmay

theorem inflight_of_mayIssue : r.inflight = [] := by
  obtain ⟨-, -, -, -, -, -, hin, -⟩ := hmay
  exact hin

/-- LONG_WORD_ISSUE issues the word in the earliest cycle it can. -/
theorem longWordIssue_eq : ∃ s', s.SameTiles s' ∧ longWordIssue a s = s'.issueAt a (r.issueAt l) (0, []) none := by
  obtain ⟨-, hrun, hu, hcan, hl, hcyc, hin, hbank, -⟩ := hmay
  obtain ⟨s', hsame, heq⟩ := State.issue_eq hrun hin hbank (r.issueAt l) none
  refine ⟨s', hsame, ?_⟩
  rw [← heq, longWordIssue, s.onRun_eq a hrun hu, hl]
  exact if_pos (by rw [hcan, decide_eq_true hcyc]; rfl)

/-- What LONG_WORD_ISSUE leaves on the tile of a word of LD, ARI, ST and BARRIER slots whose checks pass and whose data is there. -/
theorem longWordIssue_issues {oa os : SlotOut} {lo : LdOut} {fl : List Flight} {P : State → Prop}
    (hpal : l.pal = none) (hred : l.red = none) (hcvt : l.cvt = none) (hskn : l.skn = none) (hsyn : ∀ w, l.syn = some w → synOp w = 4)
    (hoa : slotOut l.ari (ariOut (s.ctx a r u) r (r.issueAt l)) = oa) (hos : slotOut l.st (stOut (s.ctx a r u) r (r.issueAt l) r.rho) = os)
    (hlo : (l.ld.map fun w => s.ldOut (s.ctx a r u) r u w).getD {} = lo)
    (hcodes : oa.decode = [] ∧ oa.codes = [] ∧ os.codes = [] ∧ lo.codes = []) (hsrc : ∀ x, lo.src ≠ some (.remote x))
    (hfl : ldFlight (s.ctx a r u) (r.issueAt l) lo none ++ oa.flights ++ os.flights = fl) (hclash : clashes r [] fl = false)
    (hP : ∀ t n, (t.tile a).run = some { r.issued (s.ctx a r u) l (s.tile a).tbl.bank (r.issueAt l) s.now fl oa.fl with counted := n } →
      (t.tile a).vat = (s.tile a).vat → (t.tile a).busy = (s.tile a).busy + (r.issueAt l + 1 - r.counted) → P t) :
    Answers (.longWordIssue a) s P := by
  obtain ⟨s', hsame, heq⟩ := longWordIssue_eq hmay
  obtain ⟨hp, hrun, hu, -, hl, -, hin, -, hdec⟩ := hmay
  have hnow : s'.now = s.now := by obtain ⟨⟨T, rfl⟩, -⟩ := hsame; rfl
  refine answers_on (f := longWordIssue a) hp rfl ?_
  rw [heq, State.issueAt_issues (l := l) (oa := oa) (os := os) (lo := lo) (fl := fl) (by rw [hsame.tile]; exact hrun) (by rw [hsame.unit?]; exact hu) (by rw [hsame.tile]; exact hl) hpal hred hcvt hskn hsyn
    (by rw [hsame.ctx]; exact hdec) (by rw [hsame.ctx]; exact hoa) (by rw [hsame.ctx]; exact hos) (by rw [hsame.ctx, hsame.ldOut]; exact hlo) hcodes
    (fun x hx => absurd hx (hsrc x)) (by rw [hsame.ctx]; exact hfl) (by rw [hin]; exact hclash), hsame.ctx, hsame.tile, hnow]
  have htile := State.chargeTo_self (s'.modTile a fun x => x.issuing (r.issueAt l) (0, []) (r.issued (s.ctx a r u) l (s.tile a).tbl.bank (r.issueAt l) s.now fl oa.fl))
    a (by rw [State.modTile_self]; rfl) (r.issueAt l + 1) 0 0
  refine hP _ _ (congrArg Tile.run htile) ?_ ?_
  · rw [State.keep_tile, htile, State.modTile_self, hsame.tile]; rfl
  · rw [State.keep_tile, htile, State.modTile_self, hsame.tile, TileRun.issued_counted]; rfl

/-- A word without slots only moves on. -/
theorem longWordIssue_bare (hl : l = bare l) : Answers (.longWordIssue a) s fun t => ∃ r', (t.tile a).run = some r' ∧ r'.nextCyc = r.nextCyc + 1 ∧ r'.inflight = [] ∧ r'.flags = r.flags
    ∧ r'.vreg = r.vreg ∧ (r.rho < l.rep → r'.rho = r.rho + 1 ∧ r'.pos = r.pos ∧ r'.off = r.off)
    ∧ (l.rep ≤ r.rho → r.loops = [] → r'.rho = 0 ∧ r'.pos = r.pos + 1 ∧ r'.off = r.off + l.size ∧ r'.ended = decide ((s.ctx a r u).len ≤ r.pos + 1))
    ∧ (t.tile a).busy = (s.tile a).busy + (r.nextCyc + 1 - r.counted) := by
  have hld : l.ld = none := congrArg LongWord.ld hl
  have hari : l.ari = none := congrArg LongWord.ari hl
  have hred : l.red = none := congrArg LongWord.red hl
  have hst : l.st = none := congrArg LongWord.st hl
  have hsyn : l.syn = none := congrArg LongWord.syn hl
  have hin := inflight_of_mayIssue hmay
  have hcyc := r.issueAt_of_no_busy hari hred
  refine longWordIssue_issues hmay (oa := {}) (os := {}) (lo := {}) (fl := []) (congrArg LongWord.pal hl) hred (congrArg LongWord.cvt hl) (congrArg LongWord.skn hl)
    (by simp [hsyn]) (by rw [hari]; rfl) (by rw [hst]; rfl) (by rw [hld]; rfl) ⟨rfl, rfl, rfl, rfl⟩ nofun rfl rfl ?_
  intro t n hrun _ hbusy
  rw [hcyc] at hrun hbusy
  refine ⟨_, hrun, TileRun.issued_nextCyc .., (TileRun.issued_inflight ..).trans (by simp [hin]), (TileRun.issued_flags ..).trans (by simp), TileRun.issued_vreg .., ?_, ?_, hbusy⟩
  · intro hrep
    rw [TileRun.issued_of_no_syn _ _ _ _ _ _ _ _ hsyn, (r.holding (s.ctx a r u) l r.nextCyc [] _).advance_repeat _ _ _ hrep]
    exact ⟨rfl, rfl, rfl⟩
  · intro hrep hloops
    rw [TileRun.issued_of_no_syn _ _ _ _ _ _ _ _ hsyn, (r.holding (s.ctx a r u) l r.nextCyc [] _).advance_next _ _ _ hrep hsyn hloops]
    exact ⟨rfl, rfl, rfl, rfl⟩

/-- The result of an ARI slot is in flight (R30, R32). -/
theorem longWordIssue_ari {w : Nat} (hl : l = { bare l with ari := some w }) (hdec : (ariOut (s.ctx a r u) r (r.issueAt l) w).decode = [])
    (hcodes : (ariOut (s.ctx a r u) r (r.issueAt l) w).codes = []) (hclash : clashes r [] (ariOut (s.ctx a r u) r (r.issueAt l) w).flights = false) :
    Answers (.longWordIssue a) s fun t => ∃ r', (t.tile a).run = some r' ∧ r'.inflight = (ariOut (s.ctx a r u) r (r.issueAt l) w).flights
      ∧ r'.flags = r.flags ||| (ariOut (s.ctx a r u) r (r.issueAt l) w).fl ∧ r'.ariFree = r.issueAt l + ariBusy (s.ctx a r u) r w ∧ r'.nextCyc = r.issueAt l + 1 ∧ r'.vreg = r.vreg := by
  have hld : l.ld = none := congrArg LongWord.ld hl
  have hari : l.ari = some w := congrArg LongWord.ari hl
  have hst : l.st = none := congrArg LongWord.st hl
  have hsyn : l.syn = none := congrArg LongWord.syn hl
  have hin := inflight_of_mayIssue hmay
  refine longWordIssue_issues hmay (oa := ariOut (s.ctx a r u) r (r.issueAt l) w) (os := {}) (lo := {}) (congrArg LongWord.pal hl) (congrArg LongWord.red hl)
    (congrArg LongWord.cvt hl) (congrArg LongWord.skn hl) (by simp [hsyn]) (by rw [hari]; rfl) (by rw [hst]; rfl) (by rw [hld]; rfl) ⟨hdec, hcodes, rfl, rfl⟩ nofun
    (List.append_nil _) hclash ?_
  intro t n hrun _ _
  exact ⟨_, hrun, (TileRun.issued_inflight ..).trans (by simp [hin, ldFlight]), TileRun.issued_flags .., (TileRun.issued_ariFree ..).trans (by rw [hari]; rfl), TileRun.issued_nextCyc ..,
    TileRun.issued_vreg ..⟩

/-- The result of an ST slot is in flight, and the vat as it was (R30, R43). -/
theorem longWordIssue_st {w : Nat} (hl : l = { bare l with st := some w }) (hcodes : (stOut (s.ctx a r u) r r.nextCyc r.rho w).codes = [])
    (hclash : clashes r [] (stOut (s.ctx a r u) r r.nextCyc r.rho w).flights = false) :
    Answers (.longWordIssue a) s fun t => ∃ r', (t.tile a).run = some r' ∧ r'.inflight = (stOut (s.ctx a r u) r r.nextCyc r.rho w).flights ∧ (t.tile a).vat = (s.tile a).vat := by
  have hld : l.ld = none := congrArg LongWord.ld hl
  have hari : l.ari = none := congrArg LongWord.ari hl
  have hred : l.red = none := congrArg LongWord.red hl
  have hst : l.st = some w := congrArg LongWord.st hl
  have hsyn : l.syn = none := congrArg LongWord.syn hl
  have hin := inflight_of_mayIssue hmay
  have hcyc := r.issueAt_of_no_busy hari hred
  refine longWordIssue_issues hmay (oa := {}) (os := stOut (s.ctx a r u) r r.nextCyc r.rho w) (lo := {}) (congrArg LongWord.pal hl) hred
    (congrArg LongWord.cvt hl) (congrArg LongWord.skn hl) (by simp [hsyn]) (by rw [hari]; rfl) (by rw [hst, hcyc]; rfl) (by rw [hld]; rfl) ⟨rfl, rfl, hcodes, rfl⟩ nofun
    rfl hclash ?_
  intro t n hrun hvat _
  exact ⟨_, hrun, (TileRun.issued_inflight ..).trans (by simp [hin, ldFlight]), hvat⟩

/-- The bytes of an LD from the tile's own vat arrive 3 cycles later (R30, R146). -/
theorem longWordIssue_ld {w b : Nat} {h : Handle} {x : List Byte} (hl : l = { bare l with ld := some w }) (hh : (s.ctx a r u).handle (ldHnd w) = some h)
    (hb : ldStBlock (s.ctx a r u) r w r.rho h = (b, true)) (hfrom : s.ldFrom (s.ctx a r u) r u h (ldHnd w) b (ldStBytes w) = .data x) :
    Answers (.longWordIssue a) s fun t => ∃ r', (t.tile a).run = some r' ∧ r'.stall = none
      ∧ r'.inflight = [{ due := r.nextCyc + 3, slot := .ld, w := .vreg (bits w 4 0) (BitVec.allOnes 2048) (vLoad h.width (clipTail (s.ctx a r u) h b x)) h.fmt }] := by
  have hcyc := r.issueAt_of_no_busy (l := l) (congrArg LongWord.ari hl) (congrArg LongWord.red hl)
  obtain ⟨s', hsame, heq⟩ := longWordIssue_eq hmay
  obtain ⟨hp, hrun, hu, -, hword, -, hin, -, hdec⟩ := hmay
  obtain ⟨r', hrun', hstall, -, hfl⟩ := State.issueAt_ld (s := s') (a := a) (t := r.nextCyc) (data := none) (r := r) (c := s.ctx a r u) (bs := x)
    (by rw [hsame.tile]; exact hrun) (by rw [hsame.unit?]; exact hu) (by rw [hsame.tile]; exact hword) hl (hsame.ctx a r u) hin hdec hh hb
    (by rw [hsame.ldFrom]; exact .inl hfrom)
  refine answers_on (f := longWordIssue a) hp rfl ?_
  rw [heq, hcyc]
  exact ⟨r', hrun', hstall, hfl⟩

/-- An LD whose bytes lie in HBM stalls the tile, at its position (R33, R178). -/
theorem longWordIssue_hbm {w b x : Nat} {h : Handle} (hl : l = { bare l with ld := some w }) (hh : (s.ctx a r u).handle (ldHnd w) = some h)
    (hb : ldStBlock (s.ctx a r u) r w r.rho h = (b, true)) (hfrom : s.ldFrom (s.ctx a r u) r u h (ldHnd w) b (ldStBytes w) = .remote (.hbm x)) :
    Answers (.longWordIssue a) s fun t => ∃ r', (t.tile a).run = some r' ∧ r'.stall = some (.remote (.hbm x) (ldStBytes w) none r.nextCyc) ∧ r'.inflight = []
      ∧ r'.pos = r.pos ∧ r'.rho = r.rho := by
  have hld : l.ld = some w := congrArg LongWord.ld hl
  have hcyc := r.issueAt_of_no_busy (l := l) (congrArg LongWord.ari hl) (congrArg LongWord.red hl)
  have hout := State.ldOut_ok (u := u) hh hb hfrom nofun
  obtain ⟨s', hsame, heq⟩ := longWordIssue_eq hmay
  obtain ⟨hp, hrun, hu, -, hword, -, hin, -, hdec⟩ := hmay
  have hrun' : (s'.tile a).run = some r := by rw [hsame.tile]; exact hrun
  refine answers_on (f := longWordIssue a) hp rfl ?_
  rw [heq, State.issueAt_stalls hrun' (by rw [hsame.unit?]; exact hu) (by rw [hsame.tile]; exact hword) hld (by rw [hsame.ctx]; exact hdec) (x := .hbm x)
    (by rw [hsame.ctx, hsame.ldOut, hout]) (by rw [hsame.ctx, hsame.ldOut, hout]), hsame.ctx, hsame.ldOut, hout, hcyc]
  exact ⟨_, State.modRun_run s' a hrun' _, rfl, hin, rfl, rfl⟩

/-- A SYN BARRIER stalls the tile at its number (R157). -/
theorem longWordIssue_barrier {w : Nat} (hl : l = { bare l with syn := some w }) (hop : synOp w = 4) :
    Answers (.longWordIssue a) s fun t => ∃ r', (t.tile a).run = some r' ∧ r'.stall = some (.barrier (bits w 11 4) r.nextCyc s.now) ∧ r'.inflight = [] := by
  have hld : l.ld = none := congrArg LongWord.ld hl
  have hari : l.ari = none := congrArg LongWord.ari hl
  have hred : l.red = none := congrArg LongWord.red hl
  have hst : l.st = none := congrArg LongWord.st hl
  have hsyn : l.syn = some w := congrArg LongWord.syn hl
  have hin := inflight_of_mayIssue hmay
  have hcyc := r.issueAt_of_no_busy hari hred
  refine longWordIssue_issues hmay (oa := {}) (os := {}) (lo := {}) (fl := []) (congrArg LongWord.pal hl) hred (congrArg LongWord.cvt hl) (congrArg LongWord.skn hl)
    (by simp [hsyn, hop]) (by rw [hari]; rfl) (by rw [hst]; rfl) (by rw [hld]; rfl) ⟨rfl, rfl, rfl, rfl⟩ nofun rfl rfl ?_
  intro t n hrun _ _
  exact ⟨_, hrun, (TileRun.issued_barrier _ _ _ _ _ _ _ _ hsyn).trans (by rw [hcyc]), (TileRun.issued_inflight ..).trans (by simp [hin])⟩

end
end Sys2Proof.Machine

/-! PROOFS. How a unit ends without a commit: its windows, its place in the table of units and its record (R48, R49, R217). -/

namespace Sys2Proof.Machine

open Sys2Proof Sys2Proof.Safety

/-! ### A record in its ring (R217, R219) -/

/-- What the host sees of a completion ring's progress: its COUNT and the descriptors still listed. -/
def State.ring (s : State) (n q : Nat) : W32 × List ADesc := ((s.queue n q).ccount, (s.queue n q).accepted)

section
variable (s : State) (n q : Nat)

theorem State.modClient_ring (f : Client → Client) (hf : ∀ c, (f c).queue q = c.queue q := by intro _; rfl) : (s.modClient n f).ring n q = s.ring n q := by
  simp only [State.ring, State.queue, State.modClient_self, hf]

theorem State.modQueue_ring (f : Queue → Queue) (hf : ∀ x, (f x).ccount = x.ccount ∧ (f x).accepted = x.accepted := by intro _; exact ⟨rfl, rfl⟩) :
    (s.modQueue n q f).ring n q = s.ring n q := by
  simp only [State.ring, State.modQueue_queue_self, hf]

theorem State.msix_ring (v : Nat) : (s.msix n v).ring n q = s.ring n q :=
  s.msix_client (fun c => ((c.queue q).ccount, (c.queue q).accepted)) (fun _ _ => rfl) n v n

theorem State.notice_ring (code i v : Nat) (cl : Option Nat) : (s.notice code i v cl).ring n q = s.ring n q :=
  s.notice_client (fun c => ((c.queue q).ccount, (c.queue q).accepted)) (fun _ _ => rfl) code i v cl n

theorem State.when_ring (c : Bool) (f : State → State) (h : (f s).ring n q = s.ring n q) : (s.when c f).ring n q = s.ring n q :=
  State.when_ind (P := fun t => t.ring n q = s.ring n q) s c f h rfl

theorem State.stopRuns_ring (m : Nat) : (s.stopRuns m).ring n q = s.ring n q := rfl

theorem State.wmQueue_ring : (s.wmQueue n q).ring n q = s.ring n q := by
  unfold State.wmQueue
  dsimp only
  have h (w : Wm) : (s.modClient n fun c => if q = 0 then { c with wmQ0 := w } else { c with wmQ1 := w }).ring n q = s.ring n q :=
    s.modClient_ring n q _ fun c => by split <;> rfl
  exact State.when_ind (P := fun t => t.ring n q = s.ring n q) _ _ _ ((State.notice_ring _ _ _ _ _ _ _).trans (h _)) (h _)

theorem State.ringWrite_ring (m loc a : Nat) (bs : List Byte) : (s.ringWrite m loc a bs).ring n q = s.ring n q := by
  obtain ⟨H, O, h⟩ := s.ringWrite_eq m loc a bs
  rw [h]; rfl

theorem State.ringSignal_ring : (s.ringSignal n q).ring n q = s.ring n q := (State.msix_ring _ n q _).trans (s.modQueue_ring n q _)

/-- A record is one more in its ring, and its descriptor is listed no longer. -/
theorem State.recWrite_ring (r : Rec) :
    (s.recWrite n r).ring n r.q = ((s.queue n r.q).ccount + 1, (s.queue n r.q).accepted.filter fun d => !d.ofHead r.ordinal) := by
  unfold State.recWrite
  extract_lets x r' s1 gone rest fail s2 s3 s4 y
  have e2 : s2.ring n r.q = ((s.queue n r.q).ccount + 1, rest) := by
    have e1 : s1.ring n r.q = s.ring n r.q := s.ringWrite_ring n r.q _ _ _ _
    have ecount : (s1.queue n r.q).ccount = (s.queue n r.q).ccount := congrArg Prod.fst e1
    simp only [State.ring, s2]
    rw [show r'.q = r.q from rfl, State.modQueue_queue_self, ecount]
  have e3 : s3.ring n r.q = s2.ring n r.q := s2.wmQueue_ring n r.q
  have e4 : s4.ring n r.q = s3.ring n r.q :=
    s3.when_ring n r.q _ _ ((State.stopRuns_ring _ n r.q n).trans (s3.modClient_ring n r.q _))
  have e5 : (s4.when (r'.notify || decide ((if y.coalCount = 0 then 1 else y.coalCount) ≤ y.pend)) fun s => s.ringSignal n r'.q).ring n r.q = s4.ring n r.q :=
    s4.when_ring n r.q _ _ (s4.ringSignal_ring n r.q)
  rw [e5, e4, e3, e2]

/-- The same of a record that need not be held. -/
theorem State.putRec_ring (r : Rec) (h : Unheld s n) :
    (s.putRec n r).ring n r.q = ((s.queue n r.q).ccount + 1, (s.queue n r.q).accepted.filter fun d => !d.ofHead r.ordinal) := by
  obtain ⟨hdma, hheld⟩ := h
  rw [State.putRec, if_neg (by simp [hdma, hheld])]
  exact s.recWrite_ring n r

end

/-! ### Windows of a unit that has left (R48) -/

/-- No window of a tile is WET for a unit. -/
def State.LeftBy (s : State) (uid b : Nat) : Prop := ∀ x ∈ (s.tile b).windows, x.2.wetOf uid = false

/-- What each step keeps, doing it for each element of a list keeps. -/
theorem State.each_ind {α : Type} {P : State → Prop} {f : State → α → State} (h : ∀ t a, P t → P (f t a)) (l : List α) : ∀ t : State, P t → P (t.each l f) := by
  induction l with
  | nil => exact fun _ ht => ht
  | cons a l ih => exact fun t ht => ih _ (h t a ht)

/-- Takes a unit off one tile, its open cycles counted. -/
def State.discardOne (s : State) (uid a : Nat) : State :=
  (s.when ((s.tile a).run.any fun r => r.unit == uid) fun s => s.settle a).modTile a fun t => t.dropUnit uid

section
variable (s : State) (uid : Nat)

theorem State.discardOn_tile (l : List Nat) (b : Nat) : (s.discardOn uid l).tile b = (s.each l fun s a => s.discardOne uid a).tile b := rfl

theorem State.discardOne_leftBy {a b : Nat} (h : b = a ∨ s.LeftBy uid b) : (s.discardOne uid a).LeftBy uid b := by
  unfold State.LeftBy State.discardOne
  by_cases hb : b = a
  · subst hb
    rw [State.modTile_self]
    exact Tile.dropUnit_not_wet _ uid
  · have hwin : ((s.when ((s.tile a).run.any fun r => r.unit == uid) fun s => s.settle a).tile b).windows = (s.tile b).windows :=
      State.when_ind (P := fun t => (t.tile b).windows = (s.tile b).windows) s _ _ (s.settle_windows a b) rfl
    rw [State.modTile_ne _ _ _ _ hb, hwin]
    exact h.resolve_left hb

/-- A unit that is discarded has left every tile it is taken off. -/
theorem State.discardOn_leftBy {b : Nat} {l : List Nat} (hb : b ∈ l) : (s.discardOn uid l).LeftBy uid b := by
  unfold State.LeftBy
  rw [State.discardOn_tile]
  induction l generalizing s with
  | nil => cases hb
  | cons a l ih =>
    rw [State.each_cons]
    obtain rfl | hb := List.mem_cons.1 hb
    · exact State.each_ind (P := fun t => t.LeftBy uid b) (fun t c ht => t.discardOne_leftBy uid (.inr ht)) l _ (s.discardOne_leftBy uid (.inl rfl))
    · exact ih _ hb

theorem State.freeStale_leftBy {b : Nat} (h : s.LeftBy uid b) : s.freeStale.LeftBy uid b := by
  refine State.each_ind (P := fun t => t.LeftBy uid b) (fun t x ht => ?_) _ s h
  unfold State.LeftBy
  by_cases hx : b = x.1
  · subst hx
    rw [State.modTile_self]
    exact fun y hy => ht y (List.mem_of_mem_filter hy)
  · rw [State.modTile_ne _ _ _ _ hx]
    exact ht

end

/-- Freeing stale windows changes nothing but tiles. -/
theorem State.freeStale_eq (s : State) : ∃ T, s.freeStale = { s with tiles := T } :=
  State.each_ind (P := fun t => ∃ T, t = { s with tiles := T }) (fun _ _ ⟨_, h⟩ => h ▸ ⟨_, rfl⟩) _ s ⟨_, rfl⟩

/-! ### The end of a unit -/

/-- Live units and the windows of each tile. -/
def State.held (s : State) : List CUnit × (Nat → Tab Window) := (s.units, fun b => (s.tile b).windows)

theorem State.held_of_beyond {s t : State} (h : t.beyondRecords = s.beyondRecords) : t.held = s.held := congrArg (fun x => (x.1, x.2.1)) h

theorem State.setEntry_held (s : State) (i : Nat) (e : Entry) : (s.setEntry i e).held = s.held := by
  obtain ⟨W, N, C, O, h⟩ := s.setEntry_eq i e
  rw [h]; rfl

theorem State.failReply_held (s : State) (u : CUnit) : (s.failReply u).held = s.held := by
  obtain ⟨P, K, h⟩ := s.failReply_eq u
  rw [h]; rfl

theorem State.retiredOrRelease_held (s : State) (n i ring : Nat) (retire : Bool) (detail time : Nat) : (s.retiredOrRelease n i ring retire detail time).held = s.held := by
  unfold State.retiredOrRelease
  split
  · exact State.held_of_beyond (s.outcome_beyond n i ring 7 detail time (by decide))
  · exact State.held_of_beyond (s.outRelease_beyond n ring 1)

theorem State.memberFail_held (s : State) (u : CUnit) (m : Member) (status code : Nat) : (s.memberFail u m status code).held = s.held := by
  unfold State.memberFail
  extract_lets detail e retire e1 e2 s1 s2 s3 s4 s5
  have h1 : s1.held = s.held := s.setEntry_held _ _
  have h2 : s2.held = s1.held := State.held_of_beyond (s1.outcome_beyond _ _ _ 8 _ _ (by decide))
  have h3 : s3.held = s2.held := State.held_of_beyond (s2.outcomeTrace_beyond _ _ _ _ _ _)
  have h4 : s4.held = s3.held := s3.retiredOrRelease_held _ _ _ _ _ _
  have h5 : s5.held = s4.held := State.held_of_beyond (s4.lotDrop_beyond u _)
  have h6 := State.held_of_beyond (s5.lotCheck_beyond u.client u.q u.ordinal)
  exact h6.trans (h5.trans (h4.trans (h3.trans (h2.trans h1))))

/-- The state once a unit's work is gone: its windows, its place among the units, its requests (R48). -/
def State.unitGone (s : State) (u : CUnit) : State := (((s.discardOn u.id u.allTiles).dropUnit u.id).dropRequests u.id).freeStale

/-- That state with its trace record written and those who take part told (R297, R436). -/
def State.unitTold (s : State) (u : CUnit) (status code : Nat) : State :=
  (((s.unitGone u).trace1 { (s.unitGone u).unitTrace u 3 with detail := status, value := code }).tellOthers u false).failReply u

section
variable (s : State) (u : CUnit) (status code : Nat)

theorem State.endUnit_eq : s.endUnit u status code = if u.home.isSome then s.unitTold u status code
    else match u.member with
      | some m => (s.unitTold u status code).memberFail u m status code
      | none => (s.unitTold u status code).unitRecord { u with phase := .failed } status code := rfl

theorem State.unitTold_held : (s.unitTold u status code).held = (s.unitGone u).held :=
  (State.failReply_held _ u).trans (State.held_of_beyond ((State.tellOthers_beyond _ u false).trans (State.trace1_beyond _ _)))

/-- Its record or its outcome changes neither windows nor the table of units. -/
theorem State.endUnit_held : (s.endUnit u status code).held = (s.unitGone u).held := by
  rw [State.endUnit_eq]
  split
  · exact s.unitTold_held u status code
  · split
    · exact (State.memberFail_held _ _ _ _ _).trans (s.unitTold_held u status code)
    · exact (State.held_of_beyond (State.putLate_beyond _ _ _ _)).trans (s.unitTold_held u status code)

/-- What a unit's end leaves of clients and of what the host may do. -/
theorem State.unitGone_eq : ∃ T Q F K, s.unitGone u = { s with tiles := T, parts := Q, fabric := F, units := s.units.filter fun v => v.id != u.id, stk := K } := by
  obtain ⟨T, Q, F, h⟩ := s.discardOn_eq u.id u.allTiles
  obtain ⟨T', h'⟩ := State.freeStale_eq (((s.discardOn u.id u.allTiles).dropUnit u.id).dropRequests u.id)
  rw [State.unitGone, h', h]
  exact ⟨_, _, _, _, rfl⟩

/-- A unit that has ended is found no more. -/
theorem State.endUnit_unit? : (s.endUnit u status code).unit? u.id = none := by
  obtain ⟨T, Q, F, K, h⟩ := s.unitGone_eq u
  have hunits : (s.endUnit u status code).units = s.units.filter fun v => v.id != u.id := by
    rw [show (s.endUnit u status code).units = (s.unitGone u).units from congrArg Prod.fst (s.endUnit_held u status code), h]
  rw [State.unit?, hunits, List.find?_eq_none]
  intro v hv
  simpa using (List.mem_filter.1 hv).2

/-- A unit that has ended holds no WET window on its tiles. -/
theorem State.endUnit_leftBy {b : Nat} (hb : b ∈ u.allTiles) : (s.endUnit u status code).LeftBy u.id b := by
  have hwin : ((s.endUnit u status code).tile b).windows = ((s.unitGone u).tile b).windows := congrFun (congrArg Prod.snd (s.endUnit_held u status code)) b
  unfold State.LeftBy
  rw [hwin]
  exact State.freeStale_leftBy _ u.id (s.discardOn_leftBy u.id hb)

/-- Telling leaves clients and links alone. -/
theorem State.unitTold_clients : (s.unitTold u status code).clients = s.clients ∧ (s.unitTold u status code).linkUp = s.linkUp := by
  obtain ⟨T, Q, F, K, h⟩ := s.unitGone_eq u
  obtain ⟨H, V, h1⟩ := (s.unitGone u).trace1_eq { (s.unitGone u).unitTrace u 3 with detail := status, value := code }
  obtain ⟨P, K2, h2⟩ := State.tell_eq ((s.unitGone u).trace1 { (s.unitGone u).unitTrace u 3 with detail := status, value := code }) u false u.others
  obtain ⟨P3, K3, h3⟩ := State.failReply_eq (((s.unitGone u).trace1 { (s.unitGone u).unitTrace u 3 with detail := status, value := code }).tellOthers u false) u
  rw [State.unitTold, h3, State.tellOthers, h2, h1, h]
  exact ⟨rfl, rfl⟩

theorem State.unitTold_unheld (h : Unheld s u.client) : Unheld (s.unitTold u status code) u.client := by
  obtain ⟨hc, hl⟩ := s.unitTold_clients u status code
  unfold Unheld State.canDma State.client at h ⊢
  rw [hc, hl]
  exact h

/-- The record of a unit that ends, no member and not forwarded, is written at once (R49, R217). -/
theorem State.endUnit_ring (hm : u.member = none) (hh : u.home = none) (hun : Unheld s u.client) (hs : status ≠ 5 ∧ status ≠ 6) :
    (s.endUnit u status code).ring u.client u.q = ((s.queue u.client u.q).ccount + 1, (s.queue u.client u.q).accepted.filter fun d => !d.ofHead u.ordinal) := by
  have hq : (s.unitTold u status code).queue u.client u.q = s.queue u.client u.q := by
    unfold State.queue State.client
    rw [(s.unitTold_clients u status code).1]
  have hnow : (status == 5 || status == 6) = false := by simpa using hs
  simp only [State.endUnit_eq, hh, hm, Option.isSome_none, Bool.false_eq_true, if_false, State.unitRecord, State.putLate, hnow, Bool.false_and]
  rw [← hq]
  exact State.putRec_ring _ u.client _ (s.unitTold_unheld u status code hun)

/-- A unit that has not committed ends with a fault (R49). -/
theorem State.faultUnit_ended {r : Nat} (hu : s.unit? r = some u) (hphase : u.phase ≠ .committed) :
    Ended s (s.faultUnit u.id code) u ∧ ∀ b ∈ u.allTiles, (s.faultUnit u.id code).LeftBy u.id b := by
  have hfound : s.unit? u.id = some u := by rw [(s.unit?_id r u hu).1]; exact hu
  have heq : s.faultUnit u.id code = s.endUnit u 3 code := by
    simp only [State.faultUnit, hfound]
    exact if_neg (by simpa using hphase)
  rw [heq]
  refine ⟨⟨s.endUnit_unit? u 3 code, fun hm hh hun => ?_⟩, fun b hb => s.endUnit_leftBy u 3 code hb⟩
  have hring := s.endUnit_ring u 3 code hm hh hun (by decide)
  refine ⟨congrArg Prod.fst hring, fun d hd => ?_⟩
  rw [show ((s.endUnit u 3 code).queue u.client u.q).accepted = _ from congrArg Prod.snd hring] at hd
  simpa using (List.mem_filter.1 hd).2

end

/-! ### Long words -/

theorem State.SameTiles.ended {s s' t : State} (h : s.SameTiles s') {u : CUnit} (he : Ended s' t u) : Ended s t u := by
  obtain ⟨⟨T, rfl⟩, -⟩ := h
  exact he

/-- A word that a decode check refuses ends its unit (R139). -/
theorem longWordIssue_refused {a c : Nat} {r : TileRun} {u : CUnit} {l : LongWord} {s : State} (hp : s.power = true) (hrun : (s.tile a).run = some r)
    (hu : s.unit? r.unit = some u) (hcan : s.canIssue a r u = true) (hl : longWord (s.tile a).tbl.bank r.off = l) (hcyc : r.issueAt l ≤ s.cycle a)
    (hin : r.inflight = []) (hbank : (s.tile a).bankHits = []) (hphase : u.phase ≠ .committed)
    (hc : c ∈ l.decodeCodes (fun i => ((s.ctx a r u).handle i).isSome) r.loops (s.ctx a r u).len r.pos) :
    Answers (.longWordIssue a) s fun t => Ended s t u ∧ ∀ w, ((t.tile a).win w).wetOf u.id = false ∨ a ∉ u.allTiles := by
  obtain ⟨s', hsame, heq⟩ := State.issue_eq hrun hin hbank (r.issueAt l) none
  have hu' : s'.unit? r.unit = some u := by rw [hsame.unit?]; exact hu
  obtain ⟨code, hcode⟩ := State.issueAt_refused (s := s') (a := a) (t := r.issueAt l) (hit := (0, [])) (data := none) (r := r) (u := u) (bad := c)
    (by rw [hsame.tile]; exact hrun) hu' (by rw [hsame.tile, hsame.ctx, hl]; exact hc)
  obtain ⟨hended, hleft⟩ := s'.faultUnit_ended u code hu' hphase
  refine answers_on (f := longWordIssue a) hp rfl ?_
  rw [longWordIssue, s.onRun_eq a hrun hu, hl, if_pos (by rw [hcan, decide_eq_true hcyc]; rfl), heq, hcode]
  refine ⟨hsame.ended hended, fun w => ?_⟩
  by_cases ha : a ∈ u.allTiles
  · exact .inl (Tile.win_not_wet _ (hleft a ha) w)
  · exact .inr ha

/-- Settles O53: what an issue leaves is computed once for all words of LD, ARI, ST and BARRIER slots; the clauses differ in the slot that is there. -/
theorem longWords : Obligations.longWords := by
  unfold Obligations.longWords
  refine ⟨?_, ?_, ?_, ?_, ?_, ?_, ?_⟩
  · intro a r u l s hmay hl
    exact longWordIssue_bare hmay hl
  · intro a r u l w s hmay hl hdec hcodes hclash
    exact longWordIssue_ari hmay hl hdec hcodes hclash
  · intro a r u l w s hmay hl hcodes hclash
    exact longWordIssue_st hmay hl hcodes hclash
  · intro a r u l w h x b s hmay hl hh hb hfrom
    exact longWordIssue_ld hmay hl hh hb hfrom
  · intro a r u l w h x b s hmay hl hh hb hfrom
    exact longWordIssue_hbm hmay hl hh hb hfrom
  · intro a r u l w s hmay hl hop
    exact longWordIssue_barrier hmay hl hop
  · intro a r u l c s hp hrun hu hcan hl hcyc hin hbank hphase hc
    exact longWordIssue_refused hp hrun hu hcan hl hcyc hin hbank hphase hc

end Sys2Proof.Machine

/-! PROOFS. What travels between tiles: remote reads and fabric writes (R27, R33, R41, R178, R179). -/

namespace Sys2Proof.Machine

open Sys2Proof Sys2Proof.Safety

/-! ### Remote reads (R178) -/

section
variable {a : Nat} {r : TileRun} {u : CUnit} {s : State} (hp : s.power = true) (hrun : (s.tile a).run = some r) (hu : s.unit? r.unit = some u)
include hp hrun hu

/-- The owning tile reads its vat as the request arrives. -/
theorem remoteReadRequest_reads {x cl k b n since o w off : Nat} (hstall : r.stall = some (.remote (.tile x cl k b) n none since))
    (hloc : s.locateVat cl k b = some (o, w, off)) (hfirst : s.readFirst a = true) (hflip : (s.partOfTile o).any s.flipWaits = false) :
    Answers (.remoteReadRequest a) s fun t => ∃ r', (t.tile a).run = some r'
      ∧ r'.stall = some (.remote (.tile o cl k b) n (some (memRead (s.tile o).vat (65536 * w + off) n)) since) := by
  refine answers_on (f := remoteReadRequest a) hp rfl ?_
  rw [remoteReadRequest, s.onRun_eq a hrun hu]
  simp only [hstall, hfirst, hloc, hflip, Bool.not_true, Bool.false_eq_true, if_false]
  exact ⟨_, State.modRun_run _ a hrun _, rfl⟩

/-- A read that no window answers is an ACCESS fault (R25). -/
theorem remoteReadRequest_faults {x cl k b n since : Nat} (hstall : r.stall = some (.remote (.tile x cl k b) n none since))
    (hloc : s.locateVat cl k b = none) (hfirst : s.readFirst a = true) (hphase : u.phase ≠ .committed) :
    Answers (.remoteReadRequest a) s fun t => Ended s t u := by
  refine answers_on (f := remoteReadRequest a) hp rfl ?_
  rw [remoteReadRequest, s.onRun_eq a hrun hu]
  simp only [hstall, hfirst, hloc, Bool.not_true, Bool.false_eq_true, if_false]
  exact (s.faultUnit_ended u cACCESS hu hphase).1

/-- Data that does not come from HBM is awaited. -/
theorem remoteReadData_waits {src : ReadFrom} {n since : Nat} (hstall : r.stall = some (.remote src n none since)) (hsrc : ∀ x, src ≠ .hbm x) :
    exec (.remoteReadData a) s = .next s := by
  refine exec_idle (f := remoteReadData a) hp rfl ?_
  rw [remoteReadData, s.onRun_eq a hrun hu]
  cases src with
  | hbm x => exact absurd rfl (hsrc x)
  | tile x cl k b => simp only [hstall]
  | wafer tid => simp only [hstall]

end

/-- That an LD reads HBM does not depend on what tiles and partitions hold. -/
theorem State.ldFrom_hbm {s s' : State} {c : Ctx} {r r' : TileRun} {u : CUnit} {h : Handle} {i b n x : Nat} (hw : s'.frm.waferId = s.frm.waferId)
    (hfrom : s.ldFrom c r u h i b n = .remote (.hbm x)) : s'.ldFrom c r' u h i b n = .remote (.hbm x) := by
  unfold State.ldFrom at hfrom ⊢
  dsimp only at hfrom ⊢
  rw [hw]
  split at hfrom
  · next hcls => rw [if_pos hcls]; exact hfrom
  · split at hfrom
    · cases hfrom
    · split at hfrom
      · split at hfrom <;> cases hfrom
      · split at hfrom
        · cases hfrom
        · split at hfrom <;> cases hfrom

/-- When the data of a stalled LD is there the word issues, in this cycle (R178). -/
theorem remoteReadData_issues {a x n since w b : Nat} {r : TileRun} {u : CUnit} {l : LongWord} {h : Handle} {s : State} (hp : s.power = true)
    (hrun : (s.tile a).run = some r) (hu : s.unit? r.unit = some u) (hstall : r.stall = some (.remote (.hbm x) n none since))
    (hre : s.flt.reissues = []) (hwait : s.hbmWaits x n = false) (hmay : s.slotMay a r u = true) (hin : r.inflight = []) (hbank : (s.tile a).bankHits = [])
    (hsince : since ≤ s.cycle a) (hcyc : r.nextCyc ≤ s.cycle a) (hl : longWord (s.tile a).tbl.bank r.off = l) (hbare : l = { bare l with ld := some w })
    (hdec : l.decodeCodes (fun i => ((s.ctx a r u).handle i).isSome) r.loops (s.ctx a r u).len r.pos = []) (hh : (s.ctx a r u).handle (ldHnd w) = some h)
    (hb : ldStBlock (s.ctx a r u) r w r.rho h = (b, true)) (hfrom : s.ldFrom (s.ctx a r u) r u h (ldHnd w) b (ldStBytes w) = .remote (.hbm x)) :
    Answers (.remoteReadData a) s fun t => ∃ r', (t.tile a).run = some r' ∧ r'.stall = none ∧ r'.nextCyc = s.cycle a + 1
      ∧ r'.inflight = [{ due := s.cycle a + 3, slot := .ld, w := .vreg (bits w 4 0) (BitVec.allOnes 2048) (vLoad h.width (clipTail (s.ctx a r u) h b (s.hbmRead x n))) h.fmt }] := by
  obtain ⟨T, Q, hset⟩ := s.settle_eq a
  obtain ⟨cnt, bu, st, fs, htile⟩ := s.settle_self a hrun
  have hgo : remoteReadData a s = ((s.settle a).modRun a fun r => { r with stall := none, nextCyc := s.cycle a }).issue a (s.cycle a) (some (s.hbmRead x n)) := by
    have hnext : ((s.settle a).modRun a fun r => { r with stall := none, nextCyc := if r.nextCyc < s.cycle a then s.cycle a else r.nextCyc })
        = (s.settle a).modRun a fun r => { r with stall := none, nextCyc := s.cycle a } :=
      State.modTile_congr _ a (by simp [htile]; omega)
    rw [remoteReadData, s.onRun_eq a hrun hu]
    simp [hstall, hre, hwait, hmay, Nat.not_lt.2 hsince]
    rw [← hnext]
  set s1 := (s.settle a).modRun a fun r => { r with stall := none, nextCyc := s.cycle a } with hs1
  let r1 : TileRun := { r with counted := cnt, stall := none, nextCyc := s.cycle a }
  have hrun1 : (s1.tile a).run = some r1 := State.modRun_run _ a (r := { r with counted := cnt }) (by rw [htile]) _
  have hbank1 : (s1.tile a).bankHits = [] := by rw [hs1, State.modRun, State.modTile_self, htile]; exact hbank
  have hword1 : longWord (s1.tile a).tbl.bank r1.off = l := by rw [hs1, State.modRun, State.modTile_self, htile]; exact hl
  have hunit1 : s1.unit? r1.unit = some u := by rw [hs1, hset]; exact hu
  have hctx1 : s1.ctx a r1 u = s.ctx a r u := by rw [hs1, hset]; rfl
  have hwafer1 : s1.frm.waferId = s.frm.waferId := by rw [hs1, hset]; rfl
  obtain ⟨s', hsame, heq⟩ := State.issue_eq hrun1 hin hbank1 (s.cycle a) (some (s.hbmRead x n))
  have hctx : s'.ctx a r1 u = s.ctx a r u := (hsame.ctx a r1 u).trans hctx1
  obtain ⟨r', hrun', hstall', hcyc', hfl⟩ := State.issueAt_ld (s := s') (a := a) (t := s.cycle a) (data := some (s.hbmRead x n)) (bs := s.hbmRead x n)
    (by rw [hsame.tile]; exact hrun1) (by rw [hsame.unit?]; exact hunit1) (by rw [hsame.tile]; exact hword1) hbare hctx hin hdec hh hb
    (.inr ⟨⟨_, by rw [hsame.ldFrom]; exact State.ldFrom_hbm hwafer1 hfrom⟩, rfl⟩)
  refine answers_on (f := remoteReadData a) hp rfl ?_
  rw [hgo, heq]
  exact ⟨r', hrun', hstall', hcyc', hfl⟩

/-! ### Fabric writes (R179) -/

theorem State.fabricTo_eq (s : State) (from_ : Option Nat) (u : CUnit) (k acc row : Nat) (body : FabricBody) :
    ∃ F P K, s.fabricTo from_ u k acc row body = { s with fabric := s.fabric ++ F, ports := P, stk := K } := by
  unfold State.fabricTo
  dsimp only
  split
  · exact ⟨_, _, _, rfl⟩
  · split
    · next w _ =>
      obtain ⟨P, K, h⟩ := s.sendFor_eq u.id { typ := tWRP, src := s.frm.waferId, dst := w, addr := gaOf w 0 fabricAddr, len := (s.fabricHead u k acc row ++ fabricBytes body).length,
                                              client := u.client, data := s.fabricHead u k acc row ++ fabricBytes body }
      exact ⟨[], P, K, by rw [List.append_nil]; exact h⟩
    · exact ⟨[], _, _, by rw [List.append_nil]⟩

/-- One message onto the fabric. -/
theorem State.fabricSendOne_eq (s : State) (a : Nat) (c : Ctx) (u : CUnit) (side : Side) (acc : Nat) (x : Nat × Nat × FabricBody) :
    ∃ F P K, s.fabricSend a c u side acc [x] = { s with fabric := s.fabric ++ F, ports := P, stk := K } := by
  simp only [State.fabricSend, State.each_cons, State.each_nil]
  split
  · exact s.fabricTo_eq _ u _ _ _ _
  · split
    · exact ⟨_, _, _, rfl⟩
    · exact ⟨[], _, _, by rw [List.append_nil]⟩

/-- Putting messages onto the fabric adds them behind those that are there, or hands them to other wafers. -/
theorem State.fabricSend_eq (a : Nat) (c : Ctx) (u : CUnit) (side : Side) (acc : Nat) (l : List (Nat × Nat × FabricBody)) :
    ∀ s : State, ∃ F P K, s.fabricSend a c u side acc l = { s with fabric := s.fabric ++ F, ports := P, stk := K } := by
  induction l with
  | nil => exact fun s => ⟨[], _, _, by rw [List.append_nil]; rfl⟩
  | cons x l ih =>
    intro s
    obtain ⟨F, P, K, h⟩ := s.fabricSendOne_eq a c u side acc x
    obtain ⟨F', P', K', h'⟩ := ih (s.fabricSend a c u side acc [x])
    rw [h] at h'
    exact ⟨F ++ F', P', K', by rw [← List.append_assoc]; rw [← h] at h'; exact h'.trans (by rw [h])⟩

/-- A fabric write has reached its stream on the receiving tile (R27, R179). -/
def State.fabricLanded (s : State) (dst : Nat) (r : TileRun) (l : Landing) (rest : List FabricMsg) : State :=
  ({ s with fabric := rest }.modTile dst fun t =>
    { t with bankHits := (t.bankHits.filter fun (x : Nat × Nat) => decide (r.nextCyc ≤ x.1)) ++ (l.accs.take 1).map fun (x : Nat × Nat) => (s.cycle dst, x.1 % 8) }).modRun dst fun r =>
      { r.takeLanding l with lastRed := s.cycle dst }

/-- A fabric write lands in its stream, and what that completes is sent on behind the messages that are there. -/
theorem fabricAccWrite_lands {src dst : Nat} {m : FabricMsg} {rest : List FabricMsg} {r : TileRun} {u : CUnit} {st : Stream} {s : State} (hp : s.power = true)
    (htake : takeMsg src dst s.fabric = some (m, rest)) (hrun : (s.tile dst).run = some r) (hu : s.unit? r.unit = some u) (hunit : r.unit = m.unit)
    (hst : r.stream? m.acc = some st) (hbody : m.body ≠ .read) (hgrant : (s.tile dst).bankGrant = none) (hstall : r.stall = none) :
    Answers (.fabricAccWrite src dst) s fun t => (∃ r', (t.tile dst).run = some r' ∧ r'.acc = (r.takeLanding (landFabric (s.ctx dst r u) st m.row m.body)).acc
        ∧ r'.streams = (r.takeLanding (landFabric (s.ctx dst r u) st m.row m.body)).streams ∧ r'.lastRed = s.cycle dst)
      ∧ t.fabric.take rest.length = rest ∧ ((landFabric (s.ctx dst r u) st m.row m.body).sends = [] → t.fabric = rest) := by
  set l := landFabric (s.ctx dst r u) st m.row m.body
  have hbody' : (m.body != FabricBody.read) = true := by simpa using hbody
  have heq : fabricAccWrite src dst s = (s.fabricLanded dst r l rest).fabricSend dst (s.ctx dst r u) u r.side m.acc l.sends := by
    simp only [fabricAccWrite, htake]
    rw [s.onRun_eq dst hrun hu]
    simp only [hunit, hbody', hst, hgrant, hstall, decide_true, Bool.and_true, if_true, Option.any_none, Bool.false_eq_true, if_false]
    rfl
  obtain ⟨F, P, K, hsend⟩ := State.fabricSend_eq dst (s.ctx dst r u) u r.side m.acc l.sends (s.fabricLanded dst r l rest)
  refine answers_on (f := fabricAccWrite src dst) hp rfl ?_
  rw [heq]
  refine ⟨⟨{ r.takeLanding l with lastRed := s.cycle dst }, ?_, rfl, rfl, rfl⟩, ?_, fun hnone => ?_⟩
  · rw [State.keep_tile, hsend]
    exact State.modRun_run _ dst (by rw [State.modTile_self]; exact hrun) _
  · rw [hsend]
    exact List.take_left
  · rw [hnone]
    rfl

/-- Settles O55: each clause by the branch of the command that its hypotheses select. -/
theorem fabricTraffic : Obligations.fabricTraffic := by
  unfold Obligations.fabricTraffic
  refine ⟨?_, ?_, ?_, ?_, ?_⟩
  · intro a r u x cl k b n since o w off s hp hrun hu hstall hloc hfirst hflip
    exact remoteReadRequest_reads hp hrun hu hstall hloc hfirst hflip
  · intro a r u x cl k b n since s hp hrun hu hstall hloc hfirst hphase
    exact remoteReadRequest_faults hp hrun hu hstall hloc hfirst hphase
  · intro a r u x n since l w h b s hp hrun hu hstall hre hwait hmay hin hbank hsince hcyc hl hbare hdec hh hb hfrom
    exact remoteReadData_issues hp hrun hu hstall hre hwait hmay hin hbank hsince hcyc hl hbare hdec hh hb hfrom
  · intro a r u src n since s hp hrun hu hstall hsrc
    exact remoteReadData_waits hp hrun hu hstall hsrc
  · intro src dst m rest r u st s hp htake hrun hu hunit hst hbody hgrant hstall
    exact fabricAccWrite_lands hp htake hrun hu hunit hst hbody hgrant hstall

end Sys2Proof.Machine

/-! PROOFS. Copies between byte stores, and windows that a starting member takes: what stays listed on a tile and what is found there (R24, R34, R243, R244). -/

namespace Sys2Proof.Machine

open Sys2Proof Sys2Proof.Safety

/-! ### Tables read after a filter or a shift of their keys -/

theorem tabGet_of_no_key {α : Type} (d : α) {t : Tab α} {i : Nat} (h : ∀ p ∈ t, p.1 ≠ i) : tabGet d t i = d :=
  (tabGet_mem d t i).resolve_right fun hm => h _ hm rfl

theorem tabGet_filter {α : Type} (d : α) (t : Tab α) (p : Nat → Bool) (i : Nat) :
    tabGet d (t.filter fun x => p x.1) i = if p i then tabGet d t i else d := by
  induction t with
  | nil => simp [tabGet]
  | cons q r ih =>
    obtain ⟨k, v⟩ := q
    by_cases hk : i = k
    · subst hk
      cases hp : p i
      · simpa [List.filter_cons, hp] using ih
      · simp [hp, tabGet]
    · cases hp : p k <;> simp [hp, tabGet, hk, ih]

theorem tabGet_shift {α : Type} (d : α) (t : Tab α) (f : Nat → Nat) (i : Nat) (hf : ∀ p ∈ t, f p.1 = f i → p.1 = i) :
    tabGet d (t.map fun x => (f x.1, x.2)) (f i) = tabGet d t i := by
  induction t with
  | nil => rfl
  | cons q r ih =>
    obtain ⟨k, v⟩ := q
    have hk : (f i = f k) = (i = k) := propext ⟨fun h => (hf (k, v) List.mem_cons_self h.symm).symm, fun h => by rw [h]⟩
    simp only [List.map_cons, tabGet, hk, ih fun p hp => hf p (List.mem_cons_of_mem _ hp)]

/-! ### Byte stores -/

theorem memGet_memClear (m : Bytes) (a n i : Nat) : memGet (memClear m a n) i = if a ≤ i ∧ i < a + n then 0 else memGet m i := by
  unfold memGet memClear
  rw [tabGet_filter 0 m (fun k => !(decide (a ≤ k) && decide (k < a + n))) i]
  by_cases h : a ≤ i ∧ i < a + n <;> simp [h]

theorem memGet_memSlice (m : Bytes) (a n i : Nat) (hi : i < n) : memGet (memSlice m a n) i = memGet m (a + i) := by
  unfold memGet memSlice
  have hin : ∀ p ∈ m.filter (fun p => decide (a ≤ p.1) && decide (p.1 < a + n)), a ≤ p.1 := fun p hp => by
    have := (List.mem_filter.1 hp).2
    simp_all
  have hshift := tabGet_shift 0 (m.filter fun p => decide (a ≤ p.1) && decide (p.1 < a + n)) (· - a) (a + i) fun p hp h => by
    have := hin p hp
    omega
  rw [Nat.add_sub_cancel_left] at hshift
  rw [hshift, tabGet_filter 0 m (fun k => decide (a ≤ k) && decide (k < a + n)) (a + i)]
  simp [hi]

/-- Bytes written one by one at addresses that differ are all there, and nothing else has changed. -/
theorem memGet_memPutAll (l : List (Nat × Byte)) (x : Nat) : ∀ m : Bytes, l.Pairwise (fun p q => p.1 ≠ q.1) →
    memGet (memPutAll m l) x = tabGet (memGet m x) l x := by
  induction l with
  | nil => exact fun m _ => rfl
  | cons q r ih =>
    obtain ⟨k, v⟩ := q
    intro m h
    obtain ⟨hk, hr⟩ := List.pairwise_cons.1 h
    rw [memPutAll, ih _ hr]
    by_cases hx : x = k
    · subst hx
      rw [tabGet_of_no_key _ fun p hp => (hk p hp).symm, memGet_memPut_self]
      simp [tabGet]
    · rw [memGet_memPut_ne _ _ hx]
      simp [tabGet, hx]

/-- A copy stands where it was put, and the rest is as it was. -/
theorem memGet_memPaste (m src : Bytes) (a n x : Nat) (hsrc : memWf src = true) :
    memGet (memPaste m a n src) x = if a ≤ x ∧ x < a + n then memGet src (x - a) else memGet m x := by
  have hkeys : ((src.filter fun p => decide (p.1 < n)).map fun p => (a + p.1, p.2)).Pairwise fun p q => p.1 ≠ q.1 := by
    rw [List.pairwise_map]
    exact (((memWf_iff src).1 hsrc).1.filter _).imp fun h => by omega
  rw [memPaste, memGet_memPutAll _ _ _ hkeys, memGet_memClear]
  by_cases hx : a ≤ x
  · obtain ⟨i, rfl⟩ := Nat.exists_eq_add_of_le hx
    rw [tabGet_shift _ _ (a + ·) i fun p _ h => by omega, tabGet_filter _ src (fun k => decide (k < n)) i]
    by_cases hi : i < n <;> simp [hi, memGet]
  · rw [tabGet_of_no_key _ fun p hp => ?_]
    · simp [hx]
    · obtain ⟨q, -, rfl⟩ := List.mem_map.1 hp
      simp only
      omega

/-! ### Windows (R24, R34, R244) -/

section
variable {α : Type} (d : α) (t : Tab α) (i : Nat) (x : α)

/-- A put takes at most the entry that the key read before. -/
theorem mem_tabPut_or {q : Nat × α} (hq : q ∈ t) : q ∈ tabPut t i x ∨ q = (i, tabGet d t i) := by
  induction t with
  | nil => cases hq
  | cons p r ih =>
    obtain ⟨k, v⟩ := p
    unfold tabPut
    split
    · next hk =>
      subst hk
      obtain rfl | hq := List.mem_cons.1 hq
      · exact .inr (by simp [tabGet])
      · exact .inl (List.mem_cons_of_mem _ hq)
    · next hk =>
      split
      · exact .inl (List.mem_cons_of_mem _ hq)
      · obtain rfl | hq := List.mem_cons.1 hq
        · exact .inl List.mem_cons_self
        · rw [show tabGet d ((k, v) :: r) i = tabGet d r i by simp [tabGet, hk]]
          exact (ih hq).imp_left (List.mem_cons_of_mem _)

theorem mem_tabPut_self : (i, x) ∈ tabPut t i x := by
  induction t with
  | nil => exact List.mem_cons_self
  | cons p r ih =>
    obtain ⟨k, v⟩ := p
    unfold tabPut
    split
    · exact List.mem_cons_self
    · split
      · exact List.mem_cons_self
      · exact List.mem_cons_of_mem _ ih

/-- A put of an entry that counts for `p` as the one before does not change whether some entry counts. -/
theorem any_tabPut (p : α → Bool) (h : p x = p (tabGet d t i)) (hd : p d = false) :
    (tabPut t i x).any (fun q => p q.2) = t.any fun q => p q.2 := by
  rw [Bool.eq_iff_iff, List.any_eq_true, List.any_eq_true]
  constructor
  · rintro ⟨q, hq, hp⟩
    obtain hq | rfl := tabPut_mem t i x q hq
    · exact ⟨q, hq, hp⟩
    · obtain hdef | hmem := tabGet_mem d t i
      · rw [h, hdef, hd] at hp; cases hp
      · exact ⟨_, hmem, h ▸ hp⟩
  · rintro ⟨q, hq, hp⟩
    obtain hq | rfl := mem_tabPut_or d t i x hq
    · exact ⟨q, hq, hp⟩
    · exact ⟨_, mem_tabPut_self t i x, h.trans hp⟩

/-- A put of an entry that `g` passes over, in the place of one that it passes over, changes nothing of what `g` selects. -/
theorem filterMap_tabPut {β : Type} (g : Nat × α → Option β) (hnew : g (i, x) = none) (hold : g (i, tabGet d t i) = none) :
    (tabPut t i x).filterMap g = t.filterMap g := by
  induction t with
  | nil => simp [tabPut, hnew]
  | cons p r ih =>
    obtain ⟨k, v⟩ := p
    unfold tabPut
    split
    · next hk =>
      subst hk
      have hv : g (i, v) = none := by simpa [tabGet] using hold
      simp [hnew, hv]
    · next hk =>
      split
      · simp [List.filterMap_cons, hnew]
      · rw [List.filterMap_cons, List.filterMap_cons, ih (by simpa [tabGet, hk] using hold)]

end

section
variable (t : Tile) (o : Owner) (uid : Nat) (c : Bytes)

theorem Tile.findWet_isSome : (t.findWet uid o).isSome = true ↔ ∃ q ∈ t.windows, q.2.state = .wet ∧ q.2.owner = o ∧ q.2.unit = uid := by
  simp [Tile.findWet, Tile.winsWhere, and_assoc]

/-- An allocation puts a WET window into the place of a FREE one, or finds none FREE. -/
theorem Tile.alloc_windows : t.freeList = [] ∧ t.alloc o uid c = t
    ∨ ∃ w, (t.win w).state = .free ∧ (t.alloc o uid c).windows = tabPut t.windows w { state := .wet, owner := o, unit := uid } := by
  unfold Tile.alloc
  split
  · next h => exact .inl ⟨h, rfl⟩
  · next w l h =>
    have hw : w ∈ t.freeList := h ▸ List.mem_cons_self
    exact .inr ⟨w, by simpa using (List.mem_filter.1 hw).2, rfl⟩

/-- An allocation changes of a tile its windows and their bytes only. -/
theorem Tile.alloc_eq : ∃ W V, t.alloc o uid c = { t with windows := W, vat := V } := by
  unfold Tile.alloc
  split
  · exact ⟨_, _, rfl⟩
  · exact ⟨_, _, rfl⟩

theorem Tile.alloc_findWet {uid' : Nat} {o' : Owner} (h : (t.findWet uid' o').isSome = true) : ((t.alloc o uid c).findWet uid' o').isSome = true := by
  rw [Tile.findWet_isSome] at h ⊢
  obtain ⟨q, hq, hstate, howner, hunit⟩ := h
  obtain ⟨-, heq⟩ | ⟨w, hfree, heq⟩ := t.alloc_windows o uid c
  · rw [heq]; exact ⟨q, hq, hstate, howner, hunit⟩
  · rw [heq]
    obtain hq' | rfl := mem_tabPut_or {} t.windows w { state := .wet, owner := o, unit := uid } hq
    · exact ⟨q, hq', hstate, howner, hunit⟩
    · rw [Tile.win] at hfree
      rw [hfree] at hstate
      cases hstate

theorem Tile.alloc_found (h : t.freeList ≠ []) : ((t.alloc o uid c).findWet uid o).isSome = true := by
  rw [Tile.findWet_isSome]
  obtain ⟨hnone, -⟩ | ⟨w, -, heq⟩ := t.alloc_windows o uid c
  · exact absurd hnone h
  · rw [heq]; exact ⟨_, mem_tabPut_self _ _ _, rfl, rfl, rfl⟩

end

/-- Windows for the slots of a list, one by one. -/
def Tile.allocAll (t : Tile) (o : Nat → Owner) (uid : Nat) (l : List Nat) : Tile := l.foldl (fun t i => t.alloc (o i) uid []) t

theorem Tile.allocAll_cons (t : Tile) (o : Nat → Owner) (uid i : Nat) (l : List Nat) : t.allocAll o uid (i :: l) = (t.alloc (o i) uid []).allocAll o uid l := rfl

theorem Tile.allocAll_eq (o : Nat → Owner) (uid : Nat) (l : List Nat) : ∀ t : Tile, ∃ W V, t.allocAll o uid l = { t with windows := W, vat := V } := by
  induction l with
  | nil => exact fun t => ⟨_, _, rfl⟩
  | cons i l ih =>
    intro t
    obtain ⟨W, V, h⟩ := t.alloc_eq (o i) uid []
    obtain ⟨W', V', h'⟩ := ih (t.alloc (o i) uid [])
    exact ⟨W', V', by rw [Tile.allocAll_cons, h', h]⟩

theorem Tile.allocAll_findWet (o : Nat → Owner) (uid : Nat) {uid' : Nat} {o' : Owner} (l : List Nat) : ∀ t : Tile, (t.findWet uid' o').isSome = true →
    ((t.allocAll o uid l).findWet uid' o').isSome = true := by
  induction l with
  | nil => exact fun _ h => h
  | cons i l ih => exact fun t h => ih _ (t.alloc_findWet _ _ _ h)

/-- Where FREE windows suffice every slot of the list gains one. -/
theorem Tile.allocAll_found (o : Nat → Owner) (uid : Nat) (l : List Nat) : ∀ t : Tile, l.length ≤ t.freeList.length →
    ∀ i ∈ l, ((t.allocAll o uid l).findWet uid (o i)).isSome = true := by
  induction l with
  | nil => exact fun _ _ i hi => absurd hi List.not_mem_nil
  | cons j l ih =>
    intro t hlen i hi
    have hroom := t.freeList_alloc (o j) uid []
    simp only [List.length_cons] at hlen
    rw [Tile.allocAll_cons]
    obtain rfl | hi := List.mem_cons.1 hi
    · exact Tile.allocAll_findWet o uid l _ (t.alloc_found (o i) uid [] (by rintro h; simp [h] at hlen))
    · exact ih _ (by omega) i hi

/-- Slots with a WET window keep it, and the others gain one where FREE windows suffice (R244). -/
theorem Tile.allocAll_lacking (t : Tile) (u : CUnit) (n : Nat) (h : (t.lacking u n).length ≤ t.freeList.length) :
    ∀ i < n, ((t.allocAll (fun i => .seq u.client u.entry i) u.id (t.lacking u n)).findWet u.id (.seq u.client u.entry i)).isSome = true := by
  intro i hi
  by_cases hl : i ∈ t.lacking u n
  · exact Tile.allocAll_found (fun i => .seq u.client u.entry i) u.id _ t h i hl
  · refine Tile.allocAll_findWet _ _ _ t ?_
    simpa [Tile.lacking, upTo, hi, Option.isSome_iff_ne_none] using hl

end Sys2Proof.Machine

/-! PROOFS. Starts of members and the overflow trap (R34 to R37, R231, R243 to R245). -/

namespace Sys2Proof.Machine

open Sys2Proof Sys2Proof.Safety

/-! ### Windows of a member that starts (R244) -/

/-- Changing one tile step by step. -/
theorem State.each_modTile {α : Type} (s : State) (a : Nat) (g : α → Tile → Tile) (l : List α) :
    (s.each l fun s i => s.modTile a (g i)).tile a = l.foldl (fun t i => g i t) (s.tile a) := by
  induction l generalizing s with
  | nil => rfl
  | cons i l ih => rw [State.each_cons, ih, State.modTile_self, List.foldl_cons]

/-- A trace record changes neither tiles nor units. -/
theorem State.when_trace1 (s : State) (c : Bool) (r : State → TraceRec) :
    (s.when c fun s => s.trace1 (r s)).tile = s.tile ∧ (s.when c fun s => s.trace1 (r s)).unit? = s.unit? := by
  refine State.when_ind (P := fun t => t.tile = s.tile ∧ t.unit? = s.unit?) s c _ ?_ ⟨rfl, rfl⟩
  obtain ⟨H, T, h⟩ := s.trace1_eq (r s)
  rw [h]
  exact ⟨rfl, rfl⟩

section
variable (s : State) (a : Nat) (u : CUnit)

/-- The owners of a member's windows, by list slot. -/
def CUnit.slotOwner (u : CUnit) (i : Nat) : Owner := .seq u.client u.entry i

theorem State.giveWindows_tile (n : Nat) : (s.giveWindows a u n).tile a = (s.tile a).allocAll u.slotOwner u.id ((s.tile a).lacking u n) :=
  s.each_modTile a (fun i t => t.alloc (u.slotOwner i) u.id []) _

theorem State.giveWindows_eq (n : Nat) : ∃ T, s.giveWindows a u n = { s with tiles := T } :=
  State.each_ind (P := fun t => ∃ T, t = { s with tiles := T }) (fun _ _ ⟨_, h⟩ => h ▸ ⟨_, rfl⟩) _ s ⟨_, rfl⟩

/-- A run begins with everything zero (R22). -/
theorem State.runBegin_tile (side : Side) : ∃ r, (s.runBegin a u side).tile a = { s.tile a with run := some r } ∧ r.unit = u.id ∧ r.side = side ∧ r.vreg = [] :=
  ⟨_, s.modTile_self a _, rfl, rfl, rfl⟩

/-- A member that goes on: its run begins on the tile, whose windows are what they were, and the unit runs (R22, R244). -/
theorem State.memberGo_main (hu : s.unit? u.id = some u) (hphase : u.phase = .placed) : ∃ r v, ((s.memberGo a u .main).tile a).run = some r
    ∧ r.unit = u.id ∧ r.side = .main ∧ r.vreg = [] ∧ ((s.memberGo a u .main).tile a).queue = (s.tile a).queue.filter (· != u.id)
    ∧ ((s.memberGo a u .main).tile a).windows = (s.tile a).windows
    ∧ (s.memberGo a u .main).unit? u.id = some v ∧ v.phase = .running ∧ v.runStart = s.now := by
  unfold State.memberGo
  extract_lets n src s1 moves e first again own s2
  obtain ⟨⟨T, hs1⟩, hwin, hqueue⟩ : (∃ T, s1 = { s with tiles := T }) ∧ (s1.tile a).windows = (s.tile a).windows ∧ (s1.tile a).queue = (s.tile a).queue := by
    refine State.each_ind (P := fun t => (∃ T, t = { s with tiles := T }) ∧ (t.tile a).windows = (s.tile a).windows ∧ (t.tile a).queue = (s.tile a).queue)
      (fun t x ⟨⟨T, ht⟩, hw, hq⟩ => ⟨ht ▸ ⟨_, rfl⟩, ?_, ?_⟩) src s ⟨⟨_, rfl⟩, rfl, rfl⟩
    · rw [State.modTile_self]
      split <;> exact hw
    · rw [State.modTile_self]
      split <;> exact hq
  have hfirst : first = true := by simp [first, hphase]
  obtain ⟨v, hv, hid, hrunning, hstart⟩ : ∃ v, s2.unit? u.id = some v ∧ v.id = u.id ∧ v.phase = .running ∧ v.runStart = s.now :=
    ⟨_, s1.modUnit_found (by rw [hs1]; exact hu), rfl, rfl, by simp [hfirst, hs1]⟩
  split
  next h => rw [hv] at h; cases h
  next v' h =>
  obtain rfl : v = v' := Option.some.inj (hv.symm.trans h)
  extract_lets s3
  obtain ⟨htile, hunit⟩ := s3.when_trace1 (first || again) fun s => { s.unitTrace v 1 with detail := v.runNo }
  obtain ⟨r, hr, hrunit, hside, hvreg⟩ := (s2.modTile a fun t => { t with trapFor := none, queue := t.queue.filter (· != v.id) }).runBegin_tile a v .main
  have hs3 : s3.tile a = { s2.tile a with trapFor := none, queue := (s2.tile a).queue.filter (· != v.id), run := some r } := hr.trans (by rw [State.modTile_self])
  rw [htile, hunit, hs3]
  refine ⟨r, v, rfl, hrunit.trans hid, hside, hvreg, ?_, hwin, hv, hrunning, hstart⟩
  rw [← hqueue, ← hid]
  rfl

end

/-! ### The victim of the overflow trap (R34) -/

theorem Window.seqIn_other {x : Window} {st : WinState} (h : x.state ≠ st) : x.seqIn st = none := by
  unfold Window.seqIn
  split
  · exact if_neg h
  · rfl

/-- Two states in which the DRY windows of a tile, and the sequences with WET windows but for one, are the same. -/
structure State.SameVictims (s t : State) (a client e : Nat) : Prop where
  tiles : ∃ T, t = { s with tiles := T }
  dry : ∀ {β : Type} (g : Nat × Window → Option β), (∀ i x, x.state ≠ .dry → g (i, x) = none) → (t.tile a).windows.filterMap g = (s.tile a).windows.filterMap g
  wet : ∀ v, v ≠ (client, e) → t.hasWet v = s.hasWet v

section
variable {s t : State} {a client e : Nat} (h : s.SameVictims t a client e)
include h

theorem State.SameVictims.victims : t.victims a client e = s.victims a client e := by
  unfold State.victims
  rw [h.dry (fun x => x.2.seqIn .dry) fun _ _ hx => Window.seqIn_other hx]
  dsimp only
  congr 1
  refine List.filter_congr fun v _ => ?_
  by_cases hv : v = (client, e)
  · simp [hv]
  · rw [h.wet v hv]

theorem State.SameVictims.victim : t.victim a client e = s.victim a client e := by
  unfold State.victim
  rw [h.victims]
  obtain ⟨T, rfl⟩ := h.tiles
  rfl

theorem State.SameVictims.seqWins (c i : Nat) : (t.tile a).seqWins c i = (s.tile a).seqWins c i := by
  unfold Tile.seqWins
  rw [h.dry]
  intro j x hx
  split
  · next hdry _ => exact absurd hdry hx
  · rfl

/-- A change of the tile that leaves its windows alone. -/
theorem State.SameVictims.modTile (f : Tile → Tile) (hf : (f (t.tile a)).windows = (t.tile a).windows) : s.SameVictims (t.modTile a f) a client e where
  tiles := by obtain ⟨T, rfl⟩ := h.tiles; exact ⟨_, rfl⟩
  dry g hg := by rw [State.modTile_self, hf, h.dry g hg]
  wet v hv := by
    rw [← h.wet v hv]
    exact any_tabPut ({} : Tile) t.tiles a (f (t.tile a)) (fun x => x.windows.any fun w => w.2.seqIn .wet == some v) (congrArg (fun W : Tab Window => W.any fun w => w.2.seqIn .wet == some v) hf) rfl

/-- A window for the sequence itself, from the FREE ones. -/
theorem State.SameVictims.alloc (k uid : Nat) : s.SameVictims (t.modTile a fun x => x.alloc (.seq client e k) uid []) a client e := by
  obtain ⟨-, heq⟩ | ⟨w, hfree, heq⟩ := (t.tile a).alloc_windows (.seq client e k) uid []
  · exact h.modTile _ (by rw [heq])
  · refine ⟨by obtain ⟨T, rfl⟩ := h.tiles; exact ⟨_, rfl⟩, fun g hg => ?_, fun v hv => ?_⟩
    · rw [State.modTile_self, heq, filterMap_tabPut {} _ w _ g (hg w { state := .wet, owner := .seq client e k, unit := uid } nofun), h.dry g hg]
      exact hg _ _ (by rw [← Tile.win, hfree]; nofun)
    · rw [← h.wet v hv]
      refine any_tabPut {} t.tiles a _ (fun x => x.windows.any fun w => w.2.seqIn .wet == some v) ?_ rfl
      dsimp only
      rw [← State.tile, heq]
      refine any_tabPut {} _ w _ (fun x : Window => x.seqIn .wet == some v) ?_ rfl
      rw [Window.seqIn_other (x := tabGet {} (t.tile a).windows w) (by rw [← Tile.win, hfree]; nofun)]
      simpa [Window.seqIn] using Ne.symm hv

end

/-- Windows given to a member change nothing of its victims. -/
theorem State.giveWindows_sameVictims (s : State) (a : Nat) (u : CUnit) (n : Nat) : s.SameVictims (s.giveWindows a u n) a u.client u.entry :=
  State.each_ind (P := fun t => s.SameVictims t a u.client u.entry) (fun _ i ht => ht.alloc i u.id) _ s ⟨⟨_, rfl⟩, fun _ _ => rfl, fun _ _ => rfl⟩

/-- A start that waits for the trap with `need` windows still to gain; its trap is counted (R34, R35). -/
def State.trapping (s : State) (a uid need : Nat) : State :=
  (s.modTile a fun t => { t with trapFor := some (uid, need), trapSince := s.cycle a }).modTile a fun t => { t with traps := satTo 0xFFFF (t.traps + 1) }

theorem State.trapping_tile (s : State) (a uid need : Nat) :
    (s.trapping a uid need).tile a = { s.tile a with trapFor := some (uid, need), trapSince := s.cycle a, traps := satTo 0xFFFF ((s.tile a).traps + 1) } := by
  rw [State.trapping, State.modTile_self, State.modTile_self]

theorem State.SameVictims.trapping {s t : State} {a client e : Nat} (h : s.SameVictims t a client e) (uid need : Nat) : s.SameVictims (t.trapping a uid need) a client e :=
  (h.modTile _ rfl).modTile _ rfl

/-- The copy of the victim's first window begins (R34). -/
theorem State.trapCopy_tile {s : State} {a client e c i k w : Nat} {l : List (Nat × Nat)} (hv : s.victim a client e = some (c, i)) (hw : (s.tile a).seqWins c i = (k, w) :: l) :
    (s.trapCopy a client e).tile a = { s.tile a with spill := .copying w i k (s.cycle a), spillSrc := w } := by
  simp only [State.trapCopy, hv, hw, State.modTile_self]

/-! ### MEMBER_START (R245) -/

/-- The first placed member of an idle tile, which may start. -/
structure StartsMember (s : State) (a uid : Nat) (q : List Nat) (u : CUnit) : Prop where
  queue : (s.tile a).queue = uid :: q
  run : (s.tile a).run = none
  trapFor : (s.tile a).trapFor = none
  unit : s.unit? uid = some u
  phase : u.phase = .placed
  home : u.home = none
  bank : (s.tile a).bankOk (s.descOrder u) = true
  awaited : s.awaited? a = false
  gate : s.gateAll u.client = true
  ready : s.frm.state = .ready
  active : (s.dom (domOfTile a)).state = .active
  spill : s.inSpill u.entry = false

section
variable {s : State} {a uid : Nat} {q : List Nat} {u : CUnit} (h : StartsMember s a uid q u)
include h

theorem StartsMember.id : u.id = uid := (s.unit?_id uid u h.unit).1

theorem StartsMember.memberStart_eq : memberStart a s = s.memberBegin a u := by
  have hmay : s.memberMay a u = true := by simp [State.memberMay, h.active, h.ready, h.spill, h.home, h.phase, h.gate]
  simp only [memberStart, h.run, h.trapFor, h.queue, h.unit, h.bank, h.awaited, hmay]
  rfl

/-- With FREE windows for all its slots it runs at once. -/
theorem StartsMember.goes (hp : s.power = true) (htiles : u.tiles = [a]) (hfit : ((s.tile a).lacking u (s.client u.client).winSeq).length ≤ (s.tile a).freeList.length) :
    Answers (.memberStart a) s fun t => ∃ r v, (t.tile a).run = some r ∧ r.unit = uid ∧ r.side = .main ∧ r.vreg = [] ∧ (t.tile a).queue = q.filter (· != uid) ∧ t.unit? uid = some v
      ∧ v.phase = .running ∧ v.runStart = s.now ∧ ∀ i, i < (s.client u.client).winSeq → ((t.tile a).findWet uid (.seq u.client u.entry i)).isSome = true := by
  obtain rfl := h.id
  obtain ⟨T, hgive⟩ := s.giveWindows_eq a u (s.client u.client).winSeq
  have htile := s.giveWindows_tile a u (s.client u.client).winSeq
  obtain ⟨W, V, hall⟩ := Tile.allocAll_eq u.slotOwner u.id ((s.tile a).lacking u (s.client u.client).winSeq) (s.tile a)
  have hside : u.sideOf a = .main := by simp [CUnit.sideOf, htiles]
  obtain ⟨r, v, hrun, hunit, hmain, hvreg, hqueue, hwin, hv, hrunning, hstart⟩ :=
    (s.giveWindows a u (s.client u.client).winSeq).memberGo_main a u (by rw [hgive]; exact h.unit) h.phase
  have heq : memberStart a s = (s.giveWindows a u (s.client u.client).winSeq).memberGo a u .main := by
    rw [h.memberStart_eq, State.memberBegin, hside]
    dsimp only
    rw [if_neg (by omega), if_pos hfit]
  refine answers_on (f := memberStart a) hp rfl ?_
  rw [heq]
  refine ⟨r, v, hrun, hunit, hmain, hvreg, ?_, hv, hrunning, ?_, fun i hi => ?_⟩
  · rw [State.keep_tile, hqueue, htile, hall]
    simp [h.queue]
  · rw [hstart, hgive]
  · have hfound := (s.tile a).allocAll_lacking u _ hfit i hi
    rw [Tile.findWet_isSome] at hfound ⊢
    rw [State.keep_tile, hwin, htile]
    exact hfound

/-- Where others' DRY windows make up for the FREE ones it waits for the trap, whose first copy begins (R34). -/
theorem StartsMember.traps (hp : s.power = true) {c i k w : Nat} {l : List (Nat × Nat)}
    (hfew : (s.tile a).freeList.length < ((s.tile a).lacking u (s.client u.client).winSeq).length)
    (hfit : ((s.tile a).lacking u (s.client u.client).winSeq).length
      ≤ (s.tile a).freeList.length + total ((s.victims a u.client u.entry).map fun v => ((s.tile a).seqWins v.1 v.2).length))
    (hidle : (s.tile a).spill = .idle) (hvictim : s.victim a u.client u.entry = some (c, i)) (hwins : (s.tile a).seqWins c i = (k, w) :: l) :
    Answers (.memberStart a) s fun t => (t.tile a).spill = .copying w i k (s.cycle a) ∧ (t.tile a).traps = satTo 0xFFFF ((s.tile a).traps + 1) ∧ (t.tile a).run = none
      ∧ (t.tile a).trapFor = some (uid, ((s.tile a).lacking u (s.client u.client).winSeq).length - (s.tile a).freeList.length) := by
  have hgive := s.giveWindows_sameVictims a u (s.client u.client).winSeq
  have htile := s.giveWindows_tile a u (s.client u.client).winSeq
  obtain ⟨W, V, hall⟩ := Tile.allocAll_eq u.slotOwner u.id ((s.tile a).lacking u (s.client u.client).winSeq) (s.tile a)
  rw [hall] at htile
  have heq : memberStart a s = ((s.giveWindows a u (s.client u.client).winSeq).trapping a u.id
      (((s.tile a).lacking u (s.client u.client).winSeq).length - (s.tile a).freeList.length)).trapCopy a u.client u.entry := by
    rw [h.memberStart_eq, State.memberBegin]
    dsimp only
    rw [if_neg (by omega), if_neg (by omega), if_pos (by rw [State.modTile_self, htile, hidle]; rfl)]
    rfl
  generalize ((s.tile a).lacking u (s.client u.client).winSeq).length - (s.tile a).freeList.length = need at heq ⊢
  have hsame := hgive.trapping u.id need
  have hcopy := State.trapCopy_tile (hsame.victim.trans hvictim) ((hsame.seqWins c i).trans hwins)
  rw [State.trapping_tile, htile] at hcopy
  have hcycle : ((s.giveWindows a u (s.client u.client).winSeq).trapping a u.id need).cycle a = s.cycle a := by
    obtain ⟨T, hT⟩ := hsame.tiles
    rw [hT]
    rfl
  refine answers_on (f := memberStart a) hp rfl ?_
  rw [heq, State.keep_tile, hcopy, hcycle, h.id]
  exact ⟨rfl, rfl, h.run, rfl⟩

end

end Sys2Proof.Machine

/-! PROOFS. A member that returns without running, and the way of a window through window 47 (R34, R35, R37, R231, R249). -/

namespace Sys2Proof.Machine

open Sys2Proof Sys2Proof.Safety

/-! ### Entries of the Lot Table (R229) -/

/-- What a write of an entry leaves: the entry reads as written, and units, tiles, HBM and what clients hold beside their functions are as they were. -/
theorem State.setEntry_client {α : Type} (s : State) (g : Client → α) (hg : ∀ c f, g { c with func := f } = g c) (i : Nat) (e : Entry) (m : Nat) :
    g ((s.setEntry i e).client m) = g (s.client m) := by
  unfold State.setEntry
  extract_lets old s1
  refine State.when_ind (P := fun t => g (t.client m) = g (s.client m)) s1 _ _ ?_ rfl
  unfold State.wmLtOcc
  exact State.when_ind (P := fun t => g (t.client m) = g (s.client m)) _ _ _ (State.notice_client _ g hg _ _ _ _ m) rfl

theorem State.setEntry_entry (s : State) (i : Nat) (e : Entry) : (s.setEntry i e).entry i = e := by
  obtain ⟨W, N, C, O, h⟩ := s.setEntry_eq i e
  rw [h]
  unfold State.entry
  dsimp only
  split <;> exact tabGet_tabPut_self ..

theorem State.modEntry_entry (s : State) (i : Nat) (f : Entry → Entry) : (s.modEntry i f).entry i = f (s.entry i) := s.setEntry_entry i _

theorem State.modEntry_client {α : Type} (s : State) (g : Client → α) (hg : ∀ c f, g { c with func := f } = g c) (i : Nat) (f : Entry → Entry) (m : Nat) :
    g ((s.modEntry i f).client m) = g (s.client m) := s.setEntry_client g hg i _ m

/-! ### A member that returns (R37, R249) -/

/-- Live units and the Lot Table as reads see it. -/
def State.table (s : State) : List CUnit × (Nat → Entry) := (s.units, s.entry)

/-- The DEFERRED count of each client. -/
def State.deferrals (s : State) : Nat → W64 := fun n => (s.client n).acct.deferred

theorem State.table_of_beyond {s t : State} (h : t.beyondRecords = s.beyondRecords) : t.table = s.table := by
  simp only [State.beyondRecords, Prod.mk.injEq] at h
  obtain ⟨hunits, -, hnorth, hsouth, hflt, -⟩ := h
  have hentry : t.entry = s.entry := funext fun i => by simp only [State.entry, hnorth, hsouth, hflt]
  rw [State.table, hunits, hentry, State.table]

theorem State.deferrals_of_beyond {s t : State} (h : t.beyondRecords = s.beyondRecords) : t.deferrals = s.deferrals := by
  simp only [State.beyondRecords, Prod.mk.injEq] at h
  obtain ⟨-, -, -, -, -, hcount⟩ := h
  exact hcount

/-- An outcome DEFERRED is counted once for its client, and nothing of units and entries changes. -/
theorem State.outcome_deferred (s : State) (n i ring detail time : Nat) :
    (s.outcome n i ring 3 detail time).table = s.table ∧ (s.outcome n i ring 3 detail time).deferrals n = s.deferrals n + 1 := by
  have hrest : (s.outcome n i ring 3 detail time).beyondRecords = (s.modAcct n fun a => a.outcome 3).beyondRecords :=
    (State.putOut_beyond _ n _).trans (State.modClient_beyond _ n _)
  refine ⟨(State.table_of_beyond hrest).trans rfl, ?_⟩
  rw [State.deferrals_of_beyond hrest]
  show ((s.modClient n _).client n).acct.deferred = _
  rw [State.modClient_self]
  exact Acct.outcome_deferred _ 3

/-- Taking a unit off its tiles and out of the table of units leaves entries and counts. -/
theorem State.discard_table (s : State) (uid : Nat) (l : List Nat) : ((s.discardOn uid l).dropUnit uid).table = (s.units.filter fun v => v.id != uid, s.entry)
    ∧ ((s.discardOn uid l).dropUnit uid).deferrals = s.deferrals := by
  obtain ⟨T, Q, F, h⟩ := s.discardOn_eq uid l
  rw [h]
  exact ⟨rfl, rfl⟩

/-- The entry of a member that returns without running. -/
def Entry.returned (e : Entry) : Entry :=
  { e with state := .ready, kicked := false, deferCount := satTo 255 (e.deferCount + 1), deferTotal := satTo 0xFFFFFFFF (e.deferTotal + 1) }

/-- A member that returns is READY again, deferred once more, and its unit is gone (R37, R249). -/
theorem State.memberReturn_deferred (s : State) (u : CUnit) (hhome : u.home = none) : (s.memberReturn u).unit? u.id = none
    ∧ ((s.memberReturn u).entry u.entry).state = .ready ∧ ((s.memberReturn u).entry u.entry).deferCount = satTo 255 ((s.entry u.entry).deferCount + 1)
    ∧ ((s.memberReturn u).client u.client).acct.deferred = (s.client u.client).acct.deferred + 1 := by
  unfold State.memberReturn
  rw [if_neg (by simp [hhome])]
  extract_lets tb s1 ring s2 s3 s4 s5
  have h1 : s1.units = s.units := congrArg Prod.fst (s.setEntry_held u.entry _)
  have h1entry : s1.entry u.entry = (s.entry u.entry).returned := s.modEntry_entry u.entry _
  have h1count : s1.deferrals u.client = s.deferrals u.client := s.modEntry_client (fun c => c.acct.deferred) (fun _ _ => rfl) u.entry _ u.client
  obtain ⟨h2, h2count⟩ := s1.outcome_deferred u.client u.entry ring (s1.entry u.entry).deferCount tb
  have h4 : s4.beyondRecords = s2.beyondRecords := (s3.outRelease_beyond _ _ _).trans (s2.outcomeTrace_beyond _ _ _ _ _ _)
  obtain ⟨h5, h5count⟩ := s4.discard_table u.id u.allTiles
  have hlast : ((s5.lotDrop u fun l => { l with deferred := l.deferred + 1 }).lotCheck u.client u.q u.ordinal).beyondRecords = s5.beyondRecords :=
    (State.lotCheck_beyond _ _ _ _).trans (s5.lotDrop_beyond u _)
  generalize (s5.lotDrop u fun l => { l with deferred := l.deferred + 1 }).lotCheck u.client u.q u.ordinal = t at hlast ⊢
  have h42 : s4.table = s1.table := (State.table_of_beyond h4).trans h2
  have htable : t.table = (s1.units.filter fun v => v.id != u.id, s1.entry) :=
    (State.table_of_beyond hlast).trans (h5.trans (congrArg (fun x => (x.1.filter fun v => v.id != u.id, x.2)) h42))
  have hunits : t.units = s.units.filter fun v => v.id != u.id := (congrArg Prod.fst htable).trans (by rw [h1])
  have hentry : t.entry u.entry = (s.entry u.entry).returned := (congrFun (congrArg Prod.snd htable) u.entry).trans h1entry
  refine ⟨?_, by rw [hentry]; rfl, by rw [hentry]; rfl, ?_⟩
  · rw [State.unit?, hunits, List.find?_eq_none]
    intro v hv
    simpa using (List.mem_filter.1 hv).2
  · show t.deferrals u.client = s.deferrals u.client + 1
    rw [State.deferrals_of_beyond hlast, h5count, State.deferrals_of_beyond h4, h2count, h1count]

/-- Where FREE and DRY windows together are too few the member returns (R37). -/
theorem StartsMember.returns {s : State} {a uid : Nat} {q : List Nat} {u : CUnit} (h : StartsMember s a uid q u) (hp : s.power = true)
    (hfew : (s.tile a).freeList.length + total ((s.victims a u.client u.entry).map fun v => ((s.tile a).seqWins v.1 v.2).length)
      < ((s.tile a).lacking u (s.client u.client).winSeq).length) :
    Answers (.memberStart a) s fun t => t.unit? uid = none ∧ (t.entry u.entry).state = .ready ∧ (t.entry u.entry).deferCount = satTo 255 ((s.entry u.entry).deferCount + 1)
      ∧ (t.client u.client).acct.deferred = (s.client u.client).acct.deferred + 1 := by
  refine answers_on (f := memberStart a) hp rfl ?_
  rw [h.memberStart_eq, State.memberBegin]
  dsimp only
  rw [if_pos hfew, ← h.id]
  exact s.memberReturn_deferred u h.home

/-! ### The copy into window 47 and its drain (R34, R35, R231) -/

section
variable (s : State) (a w e k : Nat)

/-- The tile's side of a copy that is complete: window 47 holds the victim's window, which is FREE, and the drain begins. -/
def State.trapMoved : State :=
  (s.modTile a fun t => (t.setWinData 47 (t.winData w)).freeWin w).modTile a fun t => { t with spill := .draining e k (s.cycle a) }

/-- The state then: the list slot reads SPILLED, and the copy's cycles are counted. -/
def State.trapCopied : State := ((s.trapMoved a w e k).modEntry e fun x => x.spill k).countBusy a 256 0 0

theorem State.modEntry_tile (i : Nat) (f : Entry → Entry) (b : Nat) : (s.modEntry i f).tile b = s.tile b := by
  obtain ⟨W, N, C, O, h⟩ := s.setEntry_eq i (f (s.entry i))
  rw [State.modEntry, h]
  rfl

theorem State.trapCopied_tile : (s.trapCopied a w e k).tile a
    = ({ ((s.tile a).setWinData 47 ((s.tile a).winData w)).freeWin w with spill := .draining e k (s.cycle a) } : Tile).counting 256 0 0 := by
  rw [State.trapCopied, State.countBusy_self, State.modEntry_tile, State.trapMoved, State.modTile_self, State.modTile_self]

theorem State.trapCopied_entry : (s.trapCopied a w e k).entry e = (s.entry e).spill k := by
  obtain ⟨Q, h⟩ := State.countBusy_eq ((s.trapMoved a w e k).modEntry e fun x => x.spill k) a 256 0 0
  have hmoved : (s.trapMoved a w e k).entry e = s.entry e := rfl
  rw [State.trapCopied, h, ← hmoved]
  exact (s.trapMoved a w e k).modEntry_entry e fun x => x.spill k

theorem State.trapCopied_winSeq (n : Nat) : ((s.trapCopied a w e k).client n).winSeq = (s.client n).winSeq := by
  obtain ⟨Q, h⟩ := State.countBusy_eq ((s.trapMoved a w e k).modEntry e fun x => x.spill k) a 256 0 0
  rw [State.trapCopied, h]
  exact (s.trapMoved a w e k).modEntry_client (fun c => c.winSeq) (fun _ _ => rfl) e (fun x => x.spill k) n

theorem State.trapCopied_unit? (uid : Nat) : (s.trapCopied a w e k).unit? uid = s.unit? uid := by
  obtain ⟨Q, h⟩ := State.countBusy_eq ((s.trapMoved a w e k).modEntry e fun x => x.spill k) a 256 0 0
  have hunits : ((s.trapMoved a w e k).modEntry e fun x => x.spill k).units = s.units := congrArg Prod.fst ((s.trapMoved a w e k).setEntry_held e _)
  rw [State.trapCopied, h]
  exact congrArg (List.find? fun u => u.id == uid) hunits

end

theorem Entry.spill_spilled (e : Entry) (k : Nat) : (e.spill k).spilled = true := by
  unfold Entry.spill
  dsimp only
  split <;> rfl

theorem Entry.spill_win (e : Entry) (k : Nat) : (e.spill k).win = e.win.set k 0x3F := by
  unfold Entry.spill
  dsimp only
  split <;> rfl

/-- Bytes moved to a place that lies above the one they came from. -/
theorem memGet_move (m : Bytes) {a b n i : Nat} (hwf : memWf m = true) (hi : i < n) (hab : b + n ≤ a) :
    memGet (memClear (memPaste m a n (memSlice m b n)) b n) (a + i) = memGet m (b + i) := by
  rw [memGet_memClear, if_neg (by omega), memGet_memPaste _ _ _ _ _ (memWf_memSlice _ _ _ hwf), if_pos (by omega), Nat.add_sub_cancel_left, memGet_memSlice _ _ _ _ hi]

/-- The bytes of the victim's window stand in window 47. -/
theorem Tile.copy_winData (t : Tile) {w i : Nat} (hw : w < 47) (hwf : memWf t.vat = true) (hi : i < 65536) :
    memGet ((t.setWinData 47 (t.winData w)).freeWin w).vat (65536 * 47 + i) = memGet t.vat (65536 * w + i) := by
  exact memGet_move t.vat hwf hi (by omega)

section
variable {s : State} {a w e k b : Nat} (hp : s.power = true) (hspill : (s.tile a).spill = .copying w e k b) (hdone : b + 256 ≤ s.cycle a)
include hp hspill hdone

/-- The trap's copy is complete after 256 cycles (R34, R231). -/
theorem spillCopyDone_drains (htrap : (s.tile a).trapFor = none) (hwf : memWf (s.tile a).vat = true) (hw : w < 47) (hk : k < (s.entry e).win.length) :
    Answers (.spillCopyDone a) s fun t => (t.tile a).spill = .draining e k (s.cycle a) ∧ ((t.tile a).win w).state = .free ∧ (t.entry e).spilled = true ∧ (t.entry e).win.getD k 0 = 0x3F
      ∧ ∀ i, i < 65536 → memGet (t.tile a).vat (65536 * 47 + i) = memGet (s.tile a).vat (65536 * w + i) := by
  have heq : spillCopyDone a s = s.trapCopied a w e k := by
    simp only [spillCopyDone, hspill, if_neg (Nat.not_lt.2 hdone), htrap]
    rfl
  have htile := s.trapCopied_tile a w e k
  refine answers_on (f := spillCopyDone a) hp rfl ?_
  rw [heq]
  refine ⟨by rw [State.keep_tile, htile]; rfl, ?_, ?_, ?_, fun i hi => ?_⟩
  · rw [State.keep_tile, htile]
    exact congrArg Window.state (tabGet_tabDel_self _ _ _)
  · exact (congrArg Entry.spilled (s.trapCopied_entry a w e k)).trans ((s.entry e).spill_spilled k)
  · rw [show (s.keep (s.trapCopied a w e k)).entry e = _ from s.trapCopied_entry a w e k, Entry.spill_win]
    simp [hk]
  · rw [State.keep_tile, htile]
    exact (s.tile a).copy_winData hw hwf hi

/-- A start that needs more than one window gains the one that is FREE now and waits on (R35). -/
theorem spillCopyDone_gains {uid n j : Nat} {u : CUnit} {l : List Nat} (htrap : (s.tile a).trapFor = some (uid, n + 2)) (hu : s.unit? uid = some u)
    (hlack : ((s.tile a).freeWin w).lacking u (s.client u.client).winSeq = j :: l) :
    Answers (.spillCopyDone a) s fun t => (t.tile a).trapFor = some (uid, n + 1) ∧ (t.tile a).win w = { state := .wet, owner := .seq u.client u.entry j, unit := uid }
      ∧ (t.tile a).spill = .draining e k (s.cycle a) := by
  have htile := s.trapCopied_tile a w e k
  have hlack' : ((s.trapCopied a w e k).tile a).lacking u ((s.trapCopied a w e k).client u.client).winSeq = j :: l := by
    rw [htile, s.trapCopied_winSeq]
    exact hlack
  have heq : spillCopyDone a s = ((s.trapCopied a w e k).modTile a fun t => t.setWin w { state := .wet, owner := .seq u.client u.entry j, unit := uid }).modTile a fun t =>
      { t with trapFor := some (uid, n + 1), trapSince := (s.trapCopied a w e k).cycle a } := by
    unfold spillCopyDone
    extract_lets t
    rw [show t.spill = _ from hspill]
    dsimp -zeta only
    rw [if_neg (Nat.not_lt.2 hdone)]
    extract_lets s1 s2 s3 s4
    have h4 : s4 = s.trapCopied a w e k := rfl
    rw [show t.trapFor = _ from htrap]
    dsimp only
    rw [h4, s.trapCopied_unit?, hu]
    dsimp only
    rw [hlack']
    rfl
  refine answers_on (f := spillCopyDone a) hp rfl ?_
  rw [heq, State.keep_tile, State.modTile_self, State.modTile_self, htile]
  exact ⟨rfl, tabGet_tabPut_self _ _ _ _, rfl⟩

end

/-- The drain's end puts window 47 into the victim's spill area (R35). -/
theorem spillDrainDone_puts {s : State} {a e k b : Nat} (hp : s.power = true) (hspill : (s.tile a).spill = .draining e k b) (htrap : (s.tile a).trapFor = none)
    (hvat : memWf (s.tile a).vat = true) :
    Answers (.spillDrainDone a) s fun t => (t.tile a).spill = .idle
      ∧ (∀ i, i < 65536 → memGet t.hbm ((s.entry e).spillAddr + 65536 * k + i) = memGet (s.tile a).vat (65536 * 47 + i))
      ∧ (∀ x, x < (s.entry e).spillAddr + 65536 * k ∨ (s.entry e).spillAddr + 65536 * k + 65536 ≤ x → memGet t.hbm x = memGet s.hbm x)
      ∧ ∀ i, i < 65536 → memGet (t.tile a).vat (65536 * 47 + i) = 0 := by
  have heq : spillDrainDone a s = ({ s with hbm := memPaste s.hbm ((s.entry e).spillAddr + 65536 * k) 65536 ((s.tile a).winData 47) } : State).modTile a fun t =>
      { t with spill := .idle, vat := memClear t.vat (65536 * 47) 65536 } := by
    simp only [spillDrainDone, hspill, htrap]
  have hwf := memWf_memSlice (s.tile a).vat (65536 * 47) 65536 hvat
  refine answers_on (f := spillDrainDone a) hp rfl ?_
  rw [heq]
  refine ⟨by rw [State.keep_tile, State.modTile_self], fun i hi => ?_, fun x hx => ?_, fun i hi => ?_⟩
  · refine (memGet_memPaste _ _ _ _ _ hwf).trans ?_
    rw [if_pos (by omega), Nat.add_sub_cancel_left]
    exact memGet_memSlice _ _ _ _ hi
  · refine (memGet_memPaste _ _ _ _ _ hwf).trans ?_
    rw [if_neg (by omega)]
  · rw [State.keep_tile, State.modTile_self, memGet_memClear, if_pos (by omega)]

/-- Settles O56: MEMBER_START by how many windows are FREE or can be freed, the trap's copy and drain by whether a start waits for them. -/
theorem membersAndTrap : Obligations.membersAndTrap := by
  unfold Obligations.membersAndTrap
  refine ⟨?_, ?_, ?_, ?_, ?_, ?_⟩
  · intro a uid q u s hp hqueue hrun htrap hu hphase hhome htiles _ hbank haw hgate hready hactive hspill hfit
    exact StartsMember.goes ⟨hqueue, hrun, htrap, hu, hphase, hhome, hbank, haw, hgate, hready, hactive, hspill⟩ hp htiles hfit
  · intro a uid q u c i k w l s hp hqueue hrun htrap hu hphase hhome hbank haw hgate hready hactive hspill hfew hfit hidle hvictim hwins
    exact StartsMember.traps ⟨hqueue, hrun, htrap, hu, hphase, hhome, hbank, haw, hgate, hready, hactive, hspill⟩ hp hfew hfit hidle hvictim hwins
  · intro a uid q u s hp hqueue hrun htrap hu hphase hhome hbank haw hgate hready hactive hspill hfew
    exact StartsMember.returns ⟨hqueue, hrun, htrap, hu, hphase, hhome, hbank, haw, hgate, hready, hactive, hspill⟩ hp hfew
  · intro a w e k b s hp hspill hdone htrap hwf hw hk
    exact spillCopyDone_drains hp hspill hdone htrap hwf hw hk
  · intro a w e k b uid n u j l s hp hspill hdone htrap hu hlack _
    exact spillCopyDone_gains hp hspill hdone htrap hu hlack
  · intro a e k b s hp hspill htrap hvat _
    exact spillDrainDone_puts hp hspill htrap hvat

end Sys2Proof.Machine


/-! PROOFS. A TABLE whose SPLIT operand lies partly on a wafer that contributes tiles to its partition waits for the RDs of those shares: it is not ready at its start (R178, R448; State.readFar). -/

namespace Sys2Proof.Machine

open Sys2Proof Sys2Proof.Safety

/-- A TABLE waits for partition 63, to which wafer 1 contributes one tile. Its image, record 7, is a SPLIT tensor of 64 blocks in the vats of the partition's 17 tiles. -/
def wideTable : State :=
  { imgQ (abDesc kTABLE false 1) 0 16384 0 with
    frm := { (netQ {}).frm with stack := { (netQ {}).frm.stack with widened := [(63, 1, 1)] } }
    ports := (netQ {}).ports
    tiles := [(8176, { windows := [(0, { state := .dry, owner := .record 127 (recKey 7 0) 0 })] })] }

/-- The TABLE of `wideTable` starts, and its unit runs until the last 4 blocks have come from wafer 1. -/
theorem wideTable_runs : ∃ t, exec (.table 127 1 7) wideTable = .next t ∧ (t.unit? wideTable.nextUnit).map CUnit.phase = some .running :=
  ⟨_, exec_on rfl rfl rfl, by decide +kernel⟩

/-- Refutes O43: its fifth clause says of every TABLE whose source is no remote record that it is ready once it has started. In `wideTable` the source is a VAT record of this wafer, but one of its 17 shares lies on wafer 1 and is read by RD (R178, R448): the unit is RUNNING. -/
theorem not_tileDescriptors : ¬ Obligations.tileDescriptors := by
  unfold Obligations.tileDescriptors
  rintro ⟨-, -, -, -, htable, -⟩
  obtain ⟨t, hexec, u, ⟨hunit, -⟩, -, hready, -⟩ :=
    htable 127 1 7 { adW with desc := abDesc kTABLE false 1 } (hndOf wideTable 7) wideTable (by decide +kernel) (by decide +kernel) (by decide +kernel)
      (by decide +kernel) rfl (by decide +kernel) (by decide +kernel)
  obtain ⟨t', hexec', hruns⟩ := wideTable_runs
  obtain rfl : t = t' := Host.Outcome.next.inj (hexec.symm.trans hexec')
  rw [hunit, Option.map_some, hready] at hruns
  cases hruns

end Sys2Proof.Machine


/-! PROOFS. Reruns of killed units, pass 2 of a unit that runs twice, and swaps of banks (R22, R49, R94, R130, R131, R163, R274). -/

namespace Sys2Proof.Machine

open Sys2Proof Sys2Proof.Safety

/-! ### Changes of tiles only -/

/-- The second state differs from the first in its tiles only. -/
def State.TilesOnly (s t : State) : Prop := ∃ T, t = { s with tiles := T }

theorem State.TilesOnly.refl (s : State) : s.TilesOnly s := ⟨_, rfl⟩

theorem State.TilesOnly.modTile {s t : State} (h : s.TilesOnly t) (a : Nat) (f : Tile → Tile) : s.TilesOnly (t.modTile a f) := by
  obtain ⟨T, rfl⟩ := h
  exact ⟨_, rfl⟩

theorem State.TilesOnly.unit? {s t : State} (h : s.TilesOnly t) (id : Nat) : t.unit? id = s.unit? id := by
  obtain ⟨T, rfl⟩ := h
  rfl

/-- What every step of a fold that may fail keeps, the fold keeps. -/
theorem foldl_bind_ind {α : Type} {P : State → Prop} {f : State → α → Option State} (h : ∀ t x t', P t → f t x = some t' → P t') (l : List α) :
    ∀ m : Option State, (∀ t, m = some t → P t) → ∀ t, l.foldl (fun m x => m.bind fun s => f s x) m = some t → P t := by
  induction l with
  | nil => exact fun _ hm => hm
  | cons x l ih =>
    refine fun m hm => ih _ fun t' ht' => ?_
    obtain ⟨t, ht, hf⟩ := Option.bind_eq_some_iff.1 ht'
    exact h t x t' (hm t ht) hf

section
variable {s t : State}

/-- Giving a tile its windows changes tiles only (R43, R507). -/
theorem State.TilesOnly.allocTile (h : s.TilesOnly t) {t' : State} {a k n : Nat} {u : CUnit} {side : Side} (ht : t.allocTile a u side k n = some t') : s.TilesOnly t' := by
  refine foldl_bind_ind (P := s.TilesOnly) (fun t x t' h hx => ?_) _ (some t) (fun _ e => Option.some.inj e ▸ h) t' ht
  split at hx
  · exact Option.some.inj hx ▸ h
  · split at hx
    · cases hx
    · exact Option.some.inj hx ▸ h.modTile _ _

theorem State.TilesOnly.allocSide (h : s.TilesOnly t) {t' : State} {u : CUnit} {side : Side} (ht : t.allocSide u side = some t') : s.TilesOnly t' :=
  foldl_bind_ind (P := s.TilesOnly) (fun _ _ _ h hx => h.allocTile hx) _ (some t) (fun _ e => Option.some.inj e ▸ h) t' ht

theorem State.TilesOnly.putVat (h : s.TilesOnly t) (u : CUnit) (side : Side) (hd : Handle) (m : Bytes) : s.TilesOnly (t.putVat u side hd m) := by
  refine State.each_ind (P := s.TilesOnly) (fun t p h => ?_) _ t h
  refine State.each_ind (P := s.TilesOnly) (fun t n h => ?_) _ t h
  split
  · exact h.modTile _ _
  · exact h

theorem State.TilesOnly.putReceived (h : s.TilesOnly t) (uid : Nat) : s.TilesOnly (t.putReceived uid) := by
  unfold State.putReceived
  split
  · exact h
  · split
    · exact h
    · refine State.each_ind (P := s.TilesOnly) (fun t i h => ?_) _ t h
      split
      · exact (h.putVat _ _ _ _).putVat _ _ _ _
      · exact h

theorem State.TilesOnly.runBegins (h : s.TilesOnly t) (u : CUnit) (side : Side) (l : List Nat) : s.TilesOnly (t.each l fun s a => s.runBegin a u side) :=
  State.each_ind (P := s.TilesOnly) (fun _ _ h => h.modTile _ _) l t h

end

/-! ### Runs that begin (R22, R161) -/

/-- A unit's run on a tile with everything zero that R22 and R161 name. -/
def State.RunsAfresh (s : State) (uid a : Nat) : Prop :=
  ∃ r, (s.tile a).run = some r ∧ r.unit = uid ∧ r.vreg = [] ∧ r.mask = [] ∧ r.acc = [] ∧ r.x0 = 0 ∧ r.x1 = 0 ∧ r.x2 = 0 ∧ r.x3 = 0 ∧ r.streams = []

theorem State.runBegin_self (s : State) (a : Nat) (u : CUnit) (side : Side) : (s.runBegin a u side).RunsAfresh u.id a :=
  ⟨_, congrArg Tile.run (s.modTile_self a _), rfl, rfl, rfl, rfl, rfl, rfl, rfl, rfl, rfl⟩

theorem State.runBegin_keeps {s : State} {uid b : Nat} {u : CUnit} (h : s.RunsAfresh uid b) (a : Nat) (side : Side) (hu : u.id = uid) : (s.runBegin a u side).RunsAfresh uid b := by
  by_cases hb : b = a
  · rw [hb, ← hu]
    exact s.runBegin_self a u side
  · unfold State.RunsAfresh State.runBegin
    rw [State.modTile_ne _ _ _ _ hb]
    exact h

/-- Every tile of a side begins its run. -/
theorem State.runBegins_afresh (u : CUnit) (side : Side) (l : List Nat) : ∀ s : State, ∀ a ∈ l, (s.each l fun s a => s.runBegin a u side).RunsAfresh u.id a := by
  induction l with
  | nil => exact fun _ _ ha => absurd ha List.not_mem_nil
  | cons b l ih =>
    intro s a ha
    obtain rfl | ha := List.mem_cons.1 ha
    · exact State.each_ind (P := fun t => t.RunsAfresh u.id a) (fun t c h => State.runBegin_keeps h c side rfl) l _ (s.runBegin_self a u side)
    · exact ih _ a ha

/-- Both sides of a unit begin their runs. -/
theorem State.bothSides_afresh (s : State) (u : CUnit) {a : Nat} (ha : a ∈ u.tiles ++ u.pairTiles) :
    ((s.each u.tiles fun s a => s.runBegin a u .main).each u.pairTiles fun s a => s.runBegin a u .pair).RunsAfresh u.id a := by
  obtain ha | ha := List.mem_append.1 ha
  · exact State.each_ind (P := fun t => t.RunsAfresh u.id a) (fun t c h => State.runBegin_keeps h c .pair rfl) _ _ (State.runBegins_afresh u .main _ s a ha)
  · exact State.runBegins_afresh u .pair _ _ a ha

/-! ### A unit that begins (R42, R43, R49) -/

/-- Asking other wafers changes ports and the stack-wide work only, and the unit waits for their ready signals (R437, R448). -/
theorem State.forwardUnit_eq (s : State) (u : CUnit) : ∃ P K, s.forwardUnit u = { s.modUnit u.id fun v => { v with waitReady := v.others } with ports := P, stk := K } := by
  refine State.each_ind (P := fun t => ∃ P K, t = { s.modUnit u.id fun v => { v with waitReady := v.others } with ports := P, stk := K })
    (fun t w h => ?_) u.others _ ⟨_, _, rfl⟩
  obtain ⟨P, K, rfl⟩ := h
  obtain ⟨P', K', h'⟩ := State.request_eq { s.modUnit u.id fun v => { v with waitReady := v.others } with ports := P, stk := K } u.id
    { typ := tDESC, dst := w, client := u.client, len := 96, data := leBytes u.desc.toNat 64 ++ State.shareContext { s.modUnit u.id fun v => { v with waitReady := v.others } with ports := P, stk := K } u w }
  exact ⟨P', K', h'⟩

/-- The state in which a unit that begins is given its windows: its run is counted and traced, and the wafers that contribute to it are asked. -/
def State.announced (s : State) (u : CUnit) : State :=
  let s := s.modUnit u.id fun u => { u with phase := .running, start := if u.start = 0 then s.now else u.start, runStart := s.now, afterRebuild := false, preempted := false, down := [] }
  (s.trace1 { s.unitTrace u 1 with detail := u.runNo }).forwardUnit u

/-- Announcing a unit leaves tiles alone; of units it sets the run's start, phase and wait. -/
theorem State.announced_tiles (s : State) (u : CUnit) : (s.announced u).tiles = s.tiles := by
  unfold State.announced
  extract_lets s1
  obtain ⟨H, V, htrace⟩ := s1.trace1_eq { s1.unitTrace u 1 with detail := u.runNo }
  obtain ⟨P, K, hforward⟩ := State.forwardUnit_eq (s1.trace1 { s1.unitTrace u 1 with detail := u.runNo }) u
  rw [hforward, htrace]
  rfl

theorem State.announced_unit? {s : State} {u : CUnit} (hu : s.unit? u.id = some u) : (s.announced u).unit? u.id = some { u with
    phase := .running, start := if u.start = 0 then s.now else u.start, runStart := s.now, afterRebuild := false, preempted := false, down := [], waitReady := u.others } := by
  unfold State.announced
  extract_lets s1
  obtain ⟨H, V, htrace⟩ := s1.trace1_eq { s1.unitTrace u 1 with detail := u.runNo }
  obtain ⟨P, K, hforward⟩ := State.forwardUnit_eq (s1.trace1 { s1.unitTrace u 1 with detail := u.runNo }) u
  rw [hforward, htrace]
  exact State.modUnit_found _ (State.modUnit_found s hu)

/-- An OP that has its windows begins its runs. -/
theorem State.beginUnit_runs {s t : State} {u : CUnit} (hu : s.unit? u.id = some u) (hkind : u.kind = kOP)
    (halloc : (((s.announced u).allocSide u .main).bind fun s => s.allocSide u .pair) = some t) :
    s.beginUnit u.id = ((t.putReceived u.id).each u.tiles fun s a => s.runBegin a u .main).each u.pairTiles fun s a => s.runBegin a u .pair := by
  unfold State.beginUnit
  rw [hu]
  dsimp -zeta only
  extract_lets s1 tr s2
  rw [show ((s2.allocSide u .main).bind fun s : State => s.allocSide u .pair) = some t from halloc, hkind]
  rfl

/-- An OP with FREE windows for its destinations begins its runs on all its tiles. -/
theorem State.beginUnit_op {s : State} {u : CUnit} (hu : s.unit? u.id = some u) (hkind : u.kind = kOP) (hfit : Fits s u) :
    (∃ v, (s.beginUnit u.id).unit? u.id = some v ∧ v.phase = .running ∧ v.runStart = s.now ∧ v.retries = u.retries ∧ v.tiles = u.tiles)
      ∧ ∀ a ∈ u.tiles ++ u.pairTiles, (s.beginUnit u.id).RunsAfresh u.id a := by
  obtain ⟨t, halloc⟩ := Option.isSome_iff_exists.1 (hfit _ (s.announced_tiles u))
  obtain ⟨t', hmain, hpair⟩ := Option.bind_eq_some_iff.1 halloc
  have htiles : (s.announced u).TilesOnly t := ((State.TilesOnly.refl _).allocSide hmain).allocSide hpair
  rw [State.beginUnit_runs hu hkind halloc]
  have hruns := ((htiles.putReceived u.id).runBegins u .main u.tiles).runBegins u .pair u.pairTiles
  exact ⟨⟨_, (hruns.unit? u.id).trans (State.announced_unit? hu), rfl, rfl, rfl, rfl⟩, fun a ha => State.bothSides_afresh _ u ha⟩

/-- The unit of a killed OP as its rerun takes it up: on the tiles that its partition has now, with its handles sampled anew. -/
def State.rerunOf (s : State) (u : CUnit) : CUnit :=
  { u with tiles := s.tilesOf u.part, pairTiles := [], first := spreadFirst (s.spread u.part) s.frm.waferId, total := spreadTotal (s.spread u.part), stages := s.resampleStages u.client u.stages }

theorem State.rerunOf_tiles (s : State) (u : CUnit) : (s.rerunOf u).tiles = s.tilesOf u.part := by rw [State.rerunOf]

theorem State.rerunOf_retries (s : State) (u : CUnit) : (s.rerunOf u).retries = u.retries := by rw [State.rerunOf]

/-- A killed OP, no member and on one side only, that nothing keeps from starting again. -/
structure RerunsOp (s : State) (uid : Nat) (u : CUnit) : Prop where
  unit : s.unit? uid = some u
  phase : u.phase = .killed
  member : u.member = none
  home : u.home = none
  flip : u.waitFlip = []
  gate : s.gateAll u.client = true
  ready : s.frm.state = .ready
  kind : u.kind = kOP
  pair : u.pairTiles = []
  first : s.rerunLater u = false
  banks : s.banksReady u (s.tilesOf u.part) = true
  idle : s.allIdle (s.tilesOf u.part) = true
  awake : s.awake (s.tilesOf u.part) = true

/-- It begins as a unit on its partition's tiles (R49, R274). -/
theorem RerunsOp.unitRerunStart_eq {s : State} {uid : Nat} {u : CUnit} (h : RerunsOp s uid u) :
    ∃ s' : State, s'.tiles = s.tiles ∧ s'.now = s.now ∧ s'.unit? uid = some (s.rerunOf u) ∧ unitRerunStart uid s = s'.beginUnit uid := by
  refine ⟨s.modUnit uid fun v => { v with
    tiles := s.tilesOf u.part, pairTiles := [], first := if v.home.isSome then v.first else spreadFirst (s.spread u.part) s.frm.waferId
    total := if v.home.isSome then v.total else spreadTotal (s.spread u.part), stages := s.resampleStages v.client v.stages }, rfl, rfl, ?_, ?_⟩
  · rw [s.modUnit_found h.unit, State.rerunOf, h.home]
    rfl
  · simp [unitRerunStart, CUnit.isMember, State.unitGate, h.unit, h.phase, h.home, h.flip, h.gate, h.ready, h.first, h.member, h.kind, h.pair, h.idle, h.awake, h.banks]

/-- Where it has FREE windows for its destinations it runs again on all its tiles, from its beginning (R22, R49). -/
theorem RerunsOp.runs {s : State} {uid : Nat} {u : CUnit} (h : RerunsOp s uid u) (hp : s.power = true) (hfit : Fits s (s.rerunOf u)) :
    Answers (.unitRerunStart uid) s fun t => (∃ v, t.unit? uid = some v ∧ v.phase = .running ∧ v.runStart = s.now ∧ v.retries = u.retries ∧ v.tiles = s.tilesOf u.part)
      ∧ ∀ a ∈ s.tilesOf u.part, t.RunsAfresh uid a := by
  obtain ⟨s', htiles, hnow, hu', heq⟩ := h.unitRerunStart_eq
  obtain rfl := (s.unit?_id uid u h.unit).1
  obtain ⟨⟨v, hv, hrunning, hstart, hretries, hvtiles⟩, hruns⟩ := State.beginUnit_op (u := s.rerunOf u) hu' h.kind fun t ht => hfit t (ht.trans htiles)
  refine answers_on (f := unitRerunStart u.id) hp rfl ?_
  rw [heq]
  exact ⟨⟨v, hv, hrunning, hstart.trans hnow, hretries.trans (s.rerunOf_retries u), hvtiles.trans (s.rerunOf_tiles u)⟩,
    fun a ha => hruns a (List.mem_append_left _ (s.rerunOf_tiles u ▸ ha))⟩

/-! ### CURRENT (R94) -/

/-- The runs of a side of one tile. -/
theorem State.sideRuns_one {s : State} {a : Nat} {r : TileRun} {u : CUnit} (htiles : u.tiles = [a]) (hrun : (s.tile a).run = some r) (hunit : r.unit = u.id) :
    s.sideRuns u .main = [(a, r)] := by
  simp [State.sideRuns, CUnit.sideTiles, htiles, hrun, hunit]

/-- A unit whose main side goes into pass 2 with the merged maxima `l` (R94). -/
def CUnit.mergedWith (u : CUnit) (l : List (Nat × W32)) : CUnit :=
  { u with merges := [], merged := (u.merged.filter fun x => x.1 / 1024 != 0) ++ l.map fun x => (1024 * 0 + x.1, x.2) }

/-- Pass 2 on the one tile of a side whose merged maxima give no fault (R22, R94). -/
theorem State.startTwo_one {s : State} {uid a : Nat} {r : TileRun} {u : CUnit} {l : List (Nat × W32)} (hu : s.unit? uid = some u) (htiles : u.tiles = [a])
    (hrun : (s.tile a).run = some r) (hunit : r.unit = uid) (hcodes : (s.modUnit uid fun v => v.mergedWith l).twoCodes (a, r) (u.mergedWith l) = []) :
    s.startTwo uid .main l = (s.modUnit uid fun v => v.mergedWith l).modTile a fun t => { t with run := some ((s.modUnit uid fun v => v.mergedWith l).passTwo a r (u.mergedWith l)) } := by
  have hid : r.unit = u.id := hunit.trans (s.unit?_id uid u hu).1.symm
  have hfound : (s.modUnit uid fun v => v.mergedWith l).unit? uid = some (u.mergedWith l) := s.modUnit_found hu
  have hruns : (s.modUnit uid fun v => v.mergedWith l).sideRuns (u.mergedWith l) .main = [(a, r)] := State.sideRuns_one htiles hrun hid
  unfold State.startTwo
  extract_lets s1
  rw [show s1.unit? uid = some (u.mergedWith l) from hfound]
  dsimp only
  rw [show s1.sideRuns (u.mergedWith l) .main = [(a, r)] from hruns, if_neg (by simp [show s1.twoCodes (a, r) (u.mergedWith l) = [] from hcodes])]
  rfl

/-- A unit all on one tile, which has ended pass 1 there. -/
structure EndsPassOne (s : State) (uid a : Nat) (r : TileRun) (u : CUnit) : Prop where
  unit : s.unit? uid = some u
  tiles : u.tiles = [a]
  pair : u.pairTiles = []
  third : u.thirdTiles = []
  home : u.home = none
  others : u.others = []
  merges : u.merges = []
  run : (s.tile a).run = some r
  runUnit : r.unit = uid
  ready : r.ready = true
  pass : r.pass = 1

/-- Pass 2 begins on its tile with the tile's own maxima (R94). -/
theorem EndsPassOne.currentMergeDone_eq {s : State} {uid a : Nat} {r : TileRun} {u : CUnit} (h : EndsPassOne s uid a r u) :
    currentMergeDone uid s = s.startTwo uid .main (s.passOne u .main) := by
  have hmerging : s.sideMerging uid [a] = true := by simp [State.sideMerging, h.run, h.runUnit, h.ready, h.pass]
  simp [currentMergeDone, CUnit.sideTiles, h.unit, h.pair, h.third, h.tiles, hmerging, h.home, h.others, h.merges]

/-! ### Bank swaps (R130, R131, R163) -/

theorem paletteBankSwap_waits {s : State} {a : Nat} (h : s.bankInUse a (s.tile a).pal.since = true) : paletteBankSwap a s = s := by
  simp [paletteBankSwap, h]

theorem tableBankSwap_waits {s : State} {a : Nat} (h : s.bankInUse a (s.tile a).tbl.since = true) : tableBankSwap a s = s := by
  simp [tableBankSwap, h]

theorem paletteBankSwap_swaps {s : State} {a : Nat} (hpend : (s.tile a).pal.pending = true) (h : s.bankInUse a (s.tile a).pal.since = false) :
    paletteBankSwap a s = s.modTile a fun t => { t with pal := t.pal.swap } := by
  simp [paletteBankSwap, hpend, h]

theorem tableBankSwap_swaps {s : State} {a : Nat} (hpend : (s.tile a).tbl.pending = true) (h : s.bankInUse a (s.tile a).tbl.since = false) :
    tableBankSwap a s = s.modTile a fun t => { t with tbl := t.tbl.swap } := by
  simp [tableBankSwap, hpend, h]

/-- Settles O59: a rerun by way of the unit as it begins, pass 2 by way of the one run of its side, a swap by whether the bank is in use. -/
theorem rerunsAndSwaps : Obligations.rerunsAndSwaps := by
  unfold Obligations.rerunsAndSwaps
  refine ⟨?_, ?_, ?_, ?_, ?_, ?_⟩
  · intro uid u s hp hu hphase hmember hhome hflip hgate hready hkind hpair hlater hbanks hidle hawake hfit
    obtain ⟨t, hexec, ⟨v, hv, hrunning, hstart, hretries, htiles⟩, hruns⟩ :=
      RerunsOp.runs ⟨hu, hphase, hmember, hhome, hflip, hgate, hready, hkind, hpair, hlater, hbanks, hidle, hawake⟩ hp hfit
    refine ⟨t, hexec, v, hv, hrunning, hstart, hretries, htiles, fun a ha => ?_⟩
    obtain ⟨r, hr, hunit, hvreg, -, hacc, -⟩ := hruns a ha
    exact ⟨r, hr, hunit, hvreg, hacc⟩
  · intro uid u a r s hp hu htiles hpair hthird hhome hothers hmerges hrun hunit hready hpass hcodes
    refine answers_on (f := currentMergeDone uid) hp rfl ?_
    rw [EndsPassOne.currentMergeDone_eq ⟨hu, htiles, hpair, hthird, hhome, hothers, hmerges, hrun, hunit, hready, hpass⟩, State.startTwo_one hu htiles hrun hunit hcodes,
      State.keep_tile, State.modTile_self]
    refine ⟨_, u.mergedWith (s.passOne u .main), rfl, rfl, rfl, rfl, rfl, rfl, rfl, rfl, s.modUnit_found hu, ?_⟩
    simp [CUnit.mergedWith]
  · intro a s hp hpend hfree
    exact exec_on hp rfl (by rw [paletteBankSwap_swaps hpend hfree]; rfl)
  · intro a s hp hpend hfree
    exact exec_on hp rfl (by rw [tableBankSwap_swaps hpend hfree]; rfl)
  · intro a s hp hused
    exact exec_idle hp rfl (paletteBankSwap_waits hused)
  · intro a s hp hused
    exact exec_idle hp rfl (tableBankSwap_waits hused)

end Sys2Proof.Machine


/-! PROOFS. The record of a descriptor of the rims and what its write leaves alone (R44, R217, R219). -/

namespace Sys2Proof.Machine

open Sys2Proof Sys2Proof.Safety

/-! ### What a record's write leaves of clients, tags and HBM -/

/-- A client without what the write of a record may change: its queues with their watermarks, its breaks, its function. -/
def Client.apart (c : Client) : Client := { c with q0 := {}, q1 := {}, wmQ0 := {}, wmQ1 := {}, dbg := {}, func := {} }

/-- HBM, the tags that a queue remembers, and every client apart from its rings. -/
def State.besideRing (s : State) (n q : Nat) : Bytes × List TagRec × (Nat → Client) := (s.hbm, (s.queue n q).tags, fun m => (s.client m).apart)

/-- The tags that a queue remembers, once the record of an accepted descriptor is written: its own, and those of the stages that follow it in its chain, have the record's status (R194, R205). -/
def Queue.tagsAfter (x : Queue) (ordinal status : Nat) : List TagRec :=
  x.tags.map fun t => if ((x.accepted.filter fun d => d.ofHead ordinal).map ADesc.ordinal).contains t.ordinal then { t with status := some status } else t

/-- A tag of an accepted descriptor has then the record's status. -/
theorem Queue.tagsAfter_status {x : Queue} {a : ADesc} (ha : a ∈ x.accepted) (status : Nat) : ∀ r ∈ x.tagsAfter a.ordinal status, r.ordinal = a.ordinal → r.status = some status := by
  intro r hr hord
  obtain ⟨r', -, rfl⟩ := List.mem_map.1 hr
  have hr' : r'.ordinal = a.ordinal := by rw [← hord]; split <;> rfl
  refine congrArg TagRec.status (if_pos ?_)
  rw [hr', List.contains_iff_mem]
  exact List.mem_map_of_mem (List.mem_filter.2 ⟨ha, by simp [ADesc.ofHead]⟩)

section
variable (s : State) (n q : Nat)

theorem State.modClient_apart (f : Client → Client) (hf : ∀ c, (f c).apart = c.apart) (m : Nat) : ((s.modClient n f).client m).apart = (s.client m).apart := by
  by_cases hm : m = n
  · rw [hm, State.modClient_self, hf]
  · rw [State.modClient_ne _ _ _ _ hm]

theorem Client.modQueue_apart (c : Client) (f : Queue → Queue) : (c.modQueue q f).apart = c.apart := by
  rw [Client.modQueue_eq]
  rfl

theorem State.modClient_beside (f : Client → Client) (hf : ∀ c, (f c).apart = c.apart ∧ ((f c).queue q).tags = (c.queue q).tags := by intro _; exact ⟨rfl, rfl⟩) :
    (s.modClient n f).besideRing n q = s.besideRing n q := by
  have happart : (fun m => ((s.modClient n f).client m).apart) = fun m => (s.client m).apart := funext (s.modClient_apart n f fun c => (hf c).1)
  simp only [State.besideRing, happart, State.queue, State.modClient_self, (hf _).2, State.modClient_hbm]

theorem State.modQueue_beside (f : Queue → Queue) : (s.modQueue n q f).besideRing n q = (s.hbm, (f (s.queue n q)).tags, fun m => (s.client m).apart) := by
  have happart : (fun m => ((s.modQueue n q f).client m).apart) = fun m => (s.client m).apart := funext (s.modClient_apart n _ fun c => c.modQueue_apart q f)
  rw [State.besideRing, happart, State.modQueue_queue_self]
  rfl

theorem State.when_beside (c : Bool) (f : State → State) (h : (f s).besideRing n q = s.besideRing n q) : (s.when c f).besideRing n q = s.besideRing n q :=
  State.when_ind (P := fun t => t.besideRing n q = s.besideRing n q) s c f h rfl

theorem State.msix_beside (v : Nat) : (s.msix n v).besideRing n q = s.besideRing n q := by
  have happart : (fun m => ((s.msix n v).client m).apart) = fun m => (s.client m).apart := funext fun m => s.msix_client Client.apart (fun _ _ => rfl) n v m
  have htags : ((s.msix n v).queue n q).tags = (s.queue n q).tags := s.msix_client (fun c => (c.queue q).tags) (fun _ _ => rfl) n v n
  rw [State.besideRing, happart, htags, State.msix_hbm, State.besideRing]

theorem State.notice_beside (code i v : Nat) (cl : Option Nat) : (s.notice code i v cl).besideRing n q = s.besideRing n q := by
  have happart : (fun m => ((s.notice code i v cl).client m).apart) = fun m => (s.client m).apart :=
    funext fun m => s.notice_client Client.apart (fun _ _ => rfl) code i v cl m
  have htags : ((s.notice code i v cl).queue n q).tags = (s.queue n q).tags := s.notice_client (fun c => (c.queue q).tags) (fun _ _ => rfl) code i v cl n
  rw [State.besideRing, happart, htags, State.notice_hbm, State.besideRing]

theorem State.wmQueue_beside : (s.wmQueue n q).besideRing n q = s.besideRing n q := by
  unfold State.wmQueue
  dsimp only
  have h (w : Wm) : (s.modClient n fun c => if q = 0 then { c with wmQ0 := w } else { c with wmQ1 := w }).besideRing n q = s.besideRing n q :=
    s.modClient_beside n q _ fun c => by split <;> exact ⟨rfl, rfl⟩
  exact State.when_ind (P := fun t => t.besideRing n q = s.besideRing n q) _ _ _ ((State.notice_beside _ _ _ _ _ _ _).trans (h _)) (h _)

theorem State.stopRuns_beside (m : Nat) : (s.stopRuns m).besideRing n q = s.besideRing n q := rfl

theorem State.ringSignal_beside : (s.ringSignal n q).besideRing n q = s.besideRing n q :=
  (State.msix_beside _ n q _).trans (s.modQueue_beside n q _)

/-- A ring in host memory is no part of HBM (R209). -/
theorem State.ringWrite_host (m a : Nat) (bs : List Byte) : (s.ringWrite m 0 a bs).hbm = s.hbm := rfl

/-- The write of a record leaves every client apart from its rings, and HBM where the ring lies in the host; the tags of its descriptor, and of those that follow it in its chain, take its status. -/
theorem State.recWrite_beside (r : Rec) : ∃ H, ((s.queue n r.q).cbaseLoc = 0 → H = s.hbm) ∧ (s.recWrite n r).besideRing n r.q = (H, (s.queue n r.q).tagsAfter r.ordinal r.status, fun m => (s.client m).apart) := by
  unfold State.recWrite
  extract_lets x r' s1 gone rest fail s2 s3 s4 y
  obtain ⟨H, O, h1⟩ : ∃ H O, s1 = { s with hbm := H, out := O } := s.ringWrite_eq _ _ _ _
  refine ⟨H, fun hloc => ?_, ?_⟩
  · have hhbm : s1.hbm = s.hbm := by
      simp only [s1]
      rw [show x.cbaseLoc = 0 from hloc, State.ringWrite_host]
    rw [← hhbm, h1]
  have h2 : s2.besideRing n r.q = (H, x.tagsAfter r.ordinal r.status, fun m => (s.client m).apart) := by
    refine (s1.modQueue_beside n r.q _).trans ?_
    rw [h1]
    rfl
  have h3 : s3.besideRing n r.q = s2.besideRing n r.q := s2.wmQueue_beside n r.q
  have h4 : s4.besideRing n r.q = s3.besideRing n r.q :=
    s3.when_beside n r.q _ _ ((State.stopRuns_beside _ n r.q n).trans (s3.modClient_beside n r.q _))
  exact (s4.when_beside n r.q _ _ (s4.ringSignal_beside n r.q)).trans (h4.trans (h3.trans h2))

end

/-! ### A descriptor that starts and its record (R44, R206, R217, R287) -/

/-- A descriptor that nothing stands in the way of, and that its kind is ready for, goes on to its effect. -/
theorem State.startWith_goes {s : State} {n q kind : Nat} {tag : W32} {d : ADesc} (h : CanStart s n q tag kind d) {ready : ADesc → Bool} (hready : ready d = true)
    (go : State → ADesc → List Stage → State) : s.startWith n q tag kind ready go = go s d (s.resolve n (s.stagesOf n q d)) := by
  obtain ⟨⟨-, hstate⟩, hwait, hrun, hkind, hchain, hfault, hkilled, hdep0, hdep1, hdep2, horder, hmay, hgate, hcause, hcodes, -⟩ := h
  have hres : (needsResident kind && !s.gateAll n) = false := by
    cases hk : needsResident kind
    · rfl
    · rw [hgate hk]; rfl
  simp [State.startWith, hwait, hstate, hrun, hkind, hchain, hfault, hkilled, hdep0, hdep1, hdep2, horder, hmay, hres, hready, hcause, hcodes, least]

/-- The descriptor that waits under a tag is listed. -/
theorem State.waiting?_mem {s : State} {n q : Nat} {tag : W32} {d : ADesc} (h : s.waiting? n q tag = some d) : d ∈ (s.queue n q).accepted := List.mem_of_find?_eq_some h

/-- What a started descriptor's entry in its queue becomes. -/
def ADesc.begun (a : ADesc) (id now ord : Nat) : ADesc := if a.ordinal = ord then { a with state := .started id, firstStart := some now, counted := true } else a

theorem ADesc.begun_ordinal (a : ADesc) (id now ord : Nat) : (a.begun id now ord).ordinal = a.ordinal := by
  unfold ADesc.begun
  split <;> rfl

section
variable (s : State) (n q : Nat) (d : ADesc) (id : Nat)

/-- The wait of a descriptor of a queue is added to the accounts of its context (R287). -/
def Acct.waited (x : Acct) (q : Nat) (w : W64) : Acct :=
  if q = 0 then { x with qsum0 := x.qsum0 + w, qmax0 := if x.qmax0.toNat < w.toNat then w else x.qmax0 }
  else { x with qsum1 := x.qsum1 + w, qmax1 := if x.qmax1.toNat < w.toNat then w else x.qmax1 }

/-- A start is noted in the client: its queue lists the descriptor as started, its waiting time is counted, the break it was let past is used up. -/
theorem State.markStarted_client : ∃ D, (s.markStarted n q d id).client n =
    { (s.client n).modQueue q fun x => { x with accepted := x.accepted.map fun a => a.begun id s.now d.ordinal } with
      acct := (s.client n).acct.waited q (BitVec.ofNat 64 (s.now - d.doorbell)), dbg := D } := by
  refine ⟨((s.markStarted n q d id).client n).dbg, ?_⟩
  simp only [State.markStarted, State.countWait, State.modADesc, State.modAcct, State.modQueue, State.modClient_self, Client.modQueue_eq]
  rfl

end

end Sys2Proof.Machine


/-! PROOFS. Descriptors of the rims: they commit as they start (R44, R190, R191, R192). -/

namespace Sys2Proof.Machine

open Sys2Proof Sys2Proof.Safety

/-! ### From the start to the record -/

/-- Tracing that is off changes nothing (R473). -/
theorem State.trace1_off {s : State} (h : s.trace.en = false) (r : TraceRec) : s.trace1 r = s := by
  simp [State.trace1, h]

/-- In `m` descriptor `d` of the rims has started from `s` and has not committed: what its record rests on is as its start left it. -/
structure State.RimBegun (s m : State) (n q : Nat) (d : ADesc) : Prop where
  parts : m.parts = s.parts
  linkUp : m.linkUp = s.linkUp
  queue : m.queue n q = { s.queue n q with accepted := (s.queue n q).accepted.map fun a => a.begun 0 s.now d.ordinal }
  bind : (m.client n).bindPart = (s.client n).bindPart
  acct : (m.client n).acct = (s.client n).acct.waited q (BitVec.ofNat 64 (s.now - d.doorbell))
  func : (m.client n).func = (s.client n).func

/-- A start of the rims, its trace record apart: the client notes it, and of clients only that one changes. -/
theorem State.rimStart_eq (s : State) (n q : Nat) (d : ADesc) : ∃ H V, s.rimStart n q d = { s.markStarted n q d 0 with hbm := H, trace := V } ∧ (s.trace.en = false → H = s.hbm ∧ V = s.trace) := by
  obtain ⟨H, V, h⟩ := (s.markStarted n q d 0).trace1_eq { event := 1, client := n, q := q, tag := (dTag d.desc).toNat, part := (s.client n).bindPart }
  refine ⟨H, V, h, fun hoff => ?_⟩
  rw [State.trace1_off (s := s.markStarted n q d 0) hoff] at h
  exact ⟨(congrArg State.hbm h).symm, (congrArg State.trace h).symm⟩

theorem State.rimStart_begun (s : State) (n q : Nat) (d : ADesc) : s.RimBegun (s.rimStart n q d) n q d := by
  obtain ⟨H, V, h, -⟩ := s.rimStart_eq n q d
  obtain ⟨D, hc⟩ := s.markStarted_client n q d 0
  have hclient : (s.rimStart n q d).client n = _ := (congrArg (State.client · n) h).trans hc
  refine ⟨by rw [h]; rfl, by rw [h]; rfl, ?_, ?_, ?_, ?_⟩
  · rw [State.queue, hclient]
    exact Client.modQueue_self (s.client n) q _
  all_goals rw [hclient, Client.modQueue_eq]

section
variable {s m : State} {n q : Nat} {d : ADesc} (h : s.RimBegun m n q d)
include h

theorem State.RimBegun.trace1 (r : TraceRec) : s.RimBegun (m.trace1 r) n q d := by
  obtain ⟨H, V, ht⟩ := m.trace1_eq r
  rw [ht]
  exact ⟨h.parts, h.linkUp, h.queue, h.bind, h.acct, h.func⟩

theorem State.RimBegun.modClient (f : Client → Client)
    (hf : ∀ c, (f c).queue q = c.queue q ∧ (f c).bindPart = c.bindPart ∧ (f c).acct = c.acct ∧ (f c).func = c.func := by intro _; exact ⟨rfl, rfl, rfl, rfl⟩) :
    s.RimBegun (m.modClient n f) n q d := by
  obtain ⟨hqueue, hbind, hacct, hfunc⟩ := hf (m.client n)
  refine ⟨h.parts, h.linkUp, ?_, ?_, ?_, ?_⟩
  · rw [State.queue, State.modClient_self, hqueue]
    exact h.queue
  · rw [State.modClient_self, hbind, h.bind]
  · rw [State.modClient_self, hacct, h.acct]
  · rw [State.modClient_self, hfunc, h.func]

/-- A change of tiles and HBM leaves it so. -/
theorem State.RimBegun.ofTilesHbm {t : State} {T : Tab Tile} {H : Bytes} (ht : t = { m with tiles := T, hbm := H }) : s.RimBegun t n q d := by
  rw [ht]
  exact ⟨h.parts, h.linkUp, h.queue, h.bind, h.acct, h.func⟩

theorem State.RimBegun.unheld (hun : Unheld s n) : Unheld m n := by
  obtain ⟨hdma, hheld⟩ := hun
  refine ⟨?_, by rw [h.func]; exact hheld⟩
  rw [State.canDma, h.func, h.linkUp]
  exact hdma

end

/-- The record that a descriptor of the rims gets at its commit. -/
def State.rimRec (s : State) (q : Nat) (d : ADesc) : Rec :=
  { q := q, ordinal := d.ordinal, tag := dTag d.desc, status := 1, start := d.firstStart.getD s.now, commit := s.now, notify := dNotify d.desc, halt := dHalt d.desc }

/-- A commit is counted in the partition of client `n`. -/
def State.countCommit (s : State) (n : Nat) : State := s.modPart (s.client n).bindPart fun p => { p with commits := p.commits + 1 }

theorem State.countCommit_commits (s : State) (n : Nat) : ((s.countCommit n).part (s.client n).bindPart).commits = (s.part (s.client n).bindPart).commits + 1 := by
  rw [State.countCommit, State.modPart_self]

theorem State.recWrite_part (s : State) (n : Nat) (r : Rec) (p : Nat) : (s.recWrite n r).part p = s.part p := by
  obtain ⟨C, T, N, H, O, h⟩ := s.recWrite_eq n r
  rw [h]
  rfl

/-- A record that need not be held is written at once. -/
theorem State.putRec_unheld {s : State} {n : Nat} (hun : Unheld s n) (r : Rec) : s.putRec n r = s.recWrite n r := by
  obtain ⟨hdma, hheld⟩ := hun
  rw [State.putRec, if_neg (by simp [hdma, hheld])]

/-- The COMMIT trace record of a descriptor of the rims (R473). -/
def State.rimTrace (s : State) (n q : Nat) (d : ADesc) : TraceRec := { event := 2, client := n, q := q, tag := (dTag d.desc).toNat, part := (s.client n).bindPart }

/-- A commit of the rims is traced and counted in its partition, and its record written at once where nothing holds it. -/
theorem State.rimDone_eq {m : State} {n : Nat} (hun : Unheld m n) (q : Nat) (d : ADesc) : ∃ H V,
    m.rimDone n q d = (({ m with hbm := H, trace := V } : State).countCommit n).recWrite n (m.rimRec q d) ∧ (m.trace.en = false → H = m.hbm) := by
  obtain ⟨H, V, h⟩ := m.trace1_eq (m.rimTrace n q d)
  refine ⟨H, V, ?_, fun hoff => ?_⟩
  · have hput : m.rimDone n q d = ((m.trace1 (m.rimTrace n q d)).countCommit n).putRec n ((m.trace1 (m.rimTrace n q d)).rimRec q d) := rfl
    rw [hput, h]
    exact State.putRec_unheld (s := ({ m with hbm := H, trace := V } : State).countCommit n) hun _
  · rw [State.trace1_off hoff] at h
    exact (congrArg State.hbm h).symm

/-- What a commit of the rims leaves alone. -/
theorem State.rimDone_keeps {m : State} {n : Nat} (hun : Unheld m n) (q : Nat) (d : ADesc) :
    (m.rimDone n q d).beyondRecords = m.beyondRecords ∧ (∀ i, ((m.rimDone n q d).client i).apart = (m.client i).apart)
      ∧ (m.trace.en = false → (m.queue n q).cbaseLoc = 0 → (m.rimDone n q d).hbm = m.hbm) := by
  obtain ⟨H, V, h, hoff⟩ := State.rimDone_eq hun q d
  rw [h]
  generalize hm' : ({ m with hbm := H, trace := V } : State).countCommit n = m'
  obtain ⟨H', hhost, hbeside⟩ := m'.recWrite_beside n (m.rimRec q d)
  refine ⟨(m'.recWrite_beyond n _).trans (by rw [← hm']; rfl), fun i => ?_, fun htrace hloc => ?_⟩
  · rw [show ((m'.recWrite n (m.rimRec q d)).client i).apart = _ from congrFun (congrArg (fun x => x.2.2) hbeside) i, ← hm']
    rfl
  · rw [show (m'.recWrite n (m.rimRec q d)).hbm = H' from congrArg Prod.fst hbeside, hhost (by rw [← hm']; exact hloc), ← hm']
    exact hoff htrace

/-- A descriptor of the rims that has started commits: its record is in its ring (R44, R217). -/
theorem State.RimBegun.done {s m : State} {n q : Nat} {tag : W32} {d : ADesc} (h : s.RimBegun m n q d) (hwait : s.waiting? n q tag = some d) (hun : Unheld s n) :
    RimDone s (m.rimDone n q d) n q d := by
  obtain ⟨-, happart, -⟩ := State.rimDone_keeps (h.unheld hun) q d
  have hacct : ((m.rimDone n q d).client n).acct = (m.client n).acct := (congrArg Client.acct (happart n) :)
  obtain ⟨H, V, heq, -⟩ := State.rimDone_eq (h.unheld hun) q d
  rw [heq] at hacct ⊢
  generalize hm' : ({ m with hbm := H, trace := V } : State).countCommit n = m' at hacct ⊢
  have hqueue : m'.queue n q = m.queue n q := by rw [← hm']; rfl
  have hring := m'.recWrite_ring n (m.rimRec q d)
  obtain ⟨H', -, hbeside⟩ := m'.recWrite_beside n (m.rimRec q d)
  have hcount : ((m'.recWrite n (m.rimRec q d)).queue n q).ccount = _ := congrArg Prod.fst hring
  have hlisted : ((m'.recWrite n (m.rimRec q d)).queue n q).accepted = _ := congrArg Prod.snd hring
  have htags : ((m'.recWrite n (m.rimRec q d)).queue n q).tags = _ := congrArg (fun x => x.2.1) hbeside
  have hmem : d.begun 0 s.now d.ordinal ∈ (m'.queue n q).accepted := by
    rw [hqueue, h.queue]
    exact List.mem_map_of_mem (State.waiting?_mem hwait)
  refine ⟨?_, fun a ha => ?_, fun r hr hord => ?_, ?_, ?_⟩
  · rw [hcount, show (m.rimRec q d).q = q from rfl, hqueue, h.queue]
  · rw [hlisted] at ha
    simpa [State.rimRec] using (List.mem_filter.1 ha).2
  · rw [htags] at hr
    have hord' : (d.begun 0 s.now d.ordinal).ordinal = d.ordinal := d.begun_ordinal _ _ _
    rw [show (m.rimRec q d).ordinal = (d.begun 0 s.now d.ordinal).ordinal from hord'.symm] at hr
    exact Queue.tagsAfter_status hmem 1 r hr (hord.trans hord'.symm)
  · have hpart : m.part (s.client n).bindPart = s.part (s.client n).bindPart := by rw [State.part, State.part, h.parts]
    rw [State.recWrite_part, ← hpart, ← h.bind, ← hm']
    exact State.countCommit_commits _ n
  · rintro rfl
    rw [hacct, h.acct]
    rfl

end Sys2Proof.Machine


/-! PROOFS. RECORD: images in HBM under new generations, and the windows of the records replaced (R192, R199, R208). -/

namespace Sys2Proof.Machine

open Sys2Proof Sys2Proof.Safety

/-! ### Runs of bytes -/

/-- The bytes read are those at the addresses from `a` on. -/
theorem memRead_eq_map (m : Bytes) (n : Nat) : ∀ a, memRead m a n = (upTo n).map fun i => memGet m (a + i) := by
  induction n with
  | zero => exact fun _ => rfl
  | succ n ih =>
    intro a
    rw [memRead, ih, upTo, upTo, List.range_succ_eq_map, List.map_cons, List.map_map]
    exact congrArg _ (List.map_congr_left fun i _ => by rw [Function.comp, Nat.succ_eq_add_one, show a + 1 + i = a + (i + 1) by omega])

theorem memRead_length (m : Bytes) (a n : Nat) : (memRead m a n).length = n := by
  rw [memRead_eq_map, List.length_map, List.length_range]

/-- Stores that agree on a run of bytes read alike there. -/
theorem memRead_congr {m m' : Bytes} {a n : Nat} (h : ∀ i < n, memGet m (a + i) = memGet m' (a + i)) : memRead m a n = memRead m' a n := by
  rw [memRead_eq_map, memRead_eq_map]
  exact List.map_congr_left fun i hi => h i (List.mem_range.1 hi)

/-- What was written is read back. -/
theorem memRead_memWrite (m : Bytes) (a : Nat) (bs : List Byte) : memRead (memWrite m a bs) a bs.length = bs := by
  rw [memRead_eq_map]
  refine List.ext_getElem (by simp) fun i h _ => ?_
  rw [List.length_map, List.length_range] at h
  rw [List.getElem_map, List.getElem_range, memGet_memWrite bs m a i h, List.getD_eq_getElem _ _ h]

/-! ### Images of records (R192) -/

/-- A record image under generation `gen` (R192, R196). -/
def imageOf (b : List Byte) (gen : Nat) : List Byte := b.take 2 ++ leBytes gen 1 ++ b.drop 3

theorem imageOf_length {b : List Byte} (h : b.length = 64) (gen : Nat) : (imageOf b gen).length = 64 := by
  simp [imageOf, leBytes, h]

/-- The generation that follows that of the record at `a` (R192). -/
def State.nextGen (s : State) (a : Nat) : Nat := (s.hbmVal (a + 2) 1 + 1) % 256

/-- The record at `a` takes an image, under the next generation. -/
def State.putImage (s : State) (a : Nat) (b : List Byte) : State := s.hbmWrite a (imageOf b (s.nextGen a))

/-- Records from `base` on take the images at their numbers. -/
def State.putImages (s : State) (base first : Nat) (l : List (List Byte × Nat)) : State := s.each l fun s p => s.putImage (base + 64 * (first + p.2)) p.1

section
variable {s : State}

theorem State.hbmWrite_mapped (hmap : s.frm.unmapped = []) (a : Nat) (bs : List Byte) : s.hbmWrite a bs = { s with hbm := memWrite s.hbm a (bs.take (s.hbmTop - a)) } := by
  rw [State.hbmWrite, hmap]
  rfl

/-- Below TOP the image stands there (R397). -/
theorem State.putImage_self (hmap : s.frm.unmapped = []) {a : Nat} {b : List Byte} (hb : b.length = 64) (ha : a + 64 ≤ s.hbmTop) :
    (s.putImage a b).hbmRead a 64 = imageOf b (s.nextGen a) := by
  have hlen := imageOf_length hb (s.nextGen a)
  rw [State.putImage, State.hbmWrite_mapped hmap, List.take_of_length_le (by omega)]
  have h := memRead_memWrite s.hbm a (imageOf b (s.nextGen a))
  rw [hlen] at h
  exact h

/-- Every byte outside the record is as before. -/
theorem State.putImage_other (hmap : s.frm.unmapped = []) {a x : Nat} {b : List Byte} (hb : b.length = 64) (hx : x < a ∨ a + 64 ≤ x) :
    memGet (s.putImage a b).hbm x = memGet s.hbm x := by
  have hlen := imageOf_length hb (s.nextGen a)
  rw [State.putImage, State.hbmWrite_mapped hmap]
  obtain hx | hx := hx
  · exact memGet_memWrite_lt _ _ _ _ hx
  · exact memGet_memWrite_ge _ _ _ _ (by rw [List.length_take]; omega)

theorem State.putImages_eq (base first : Nat) (l : List (List Byte × Nat)) (s : State) : ∃ H, s.putImages base first l = { s with hbm := H } := by
  refine State.each_ind (P := fun t => ∃ H, t = { s with hbm := H }) (fun t p h => ?_) l s ⟨_, rfl⟩
  obtain ⟨H, rfl⟩ := h
  exact State.hbmWrite_eq { s with hbm := H } _ _

/-- Records that take no image are as before. -/
theorem State.putImages_other {base first j i : Nat} (hi : i < 64) (l : List (List Byte × Nat)) : ∀ s : State, s.frm.unmapped = [] →
    (∀ p ∈ l, p.1.length = 64 ∧ p.2 ≠ j) → memGet (s.putImages base first l).hbm (base + 64 * (first + j) + i) = memGet s.hbm (base + 64 * (first + j) + i) := by
  induction l with
  | nil => exact fun _ _ _ => rfl
  | cons p l ih =>
    intro s hmap hl
    obtain ⟨H, hH⟩ := s.hbmWrite_eq (base + 64 * (first + p.2)) (imageOf p.1 (s.nextGen (base + 64 * (first + p.2))))
    obtain ⟨⟨hlen, hne⟩, hl⟩ := List.forall_mem_cons.1 hl
    refine (ih (s.putImage (base + 64 * (first + p.2)) p.1) (by rw [State.putImage, hH]; exact hmap) hl).trans ?_
    exact State.putImage_other hmap hlen (by omega)

/-- Each record that takes an image holds it afterwards, under the generation that follows its own. -/
theorem State.putImages_read {base first : Nat} (l : List (List Byte × Nat)) : ∀ s : State, s.frm.unmapped = [] → l.Pairwise (fun p p' => p.2 ≠ p'.2) →
    (∀ p ∈ l, p.1.length = 64 ∧ base + 64 * (first + p.2) + 64 ≤ s.hbmTop) →
    ∀ p ∈ l, (s.putImages base first l).hbmRead (base + 64 * (first + p.2)) 64 = imageOf p.1 (s.nextGen (base + 64 * (first + p.2))) := by
  induction l with
  | nil => exact fun _ _ _ _ _ hp => absurd hp List.not_mem_nil
  | cons p l ih =>
    intro s hmap hdist hl p' hp'
    obtain ⟨hne, hdist⟩ := List.pairwise_cons.1 hdist
    obtain ⟨⟨hlen, htop⟩, hrest⟩ := List.forall_mem_cons.1 hl
    obtain ⟨H, hH⟩ := s.hbmWrite_eq (base + 64 * (first + p.2)) (imageOf p.1 (s.nextGen (base + 64 * (first + p.2))))
    have hmap' : (s.putImage (base + 64 * (first + p.2)) p.1).frm.unmapped = [] := by rw [State.putImage, hH]; exact hmap
    obtain rfl | hp' := List.mem_cons.1 hp'
    · refine Eq.trans (memRead_congr fun i hi => ?_) (State.putImage_self hmap hlen htop)
      exact State.putImages_other hi l _ hmap' fun x hx => ⟨(hrest x hx).1, (hne x hx).symm⟩
    · refine (ih (s.putImage (base + 64 * (first + p.2)) p.1) hmap' hdist (fun x hx => ?_) p' hp').trans ?_
      · rw [State.putImage, hH]
        exact hrest x hx
      · have hgen : (s.putImage (base + 64 * (first + p.2)) p.1).nextGen (base + 64 * (first + p'.2)) = s.nextGen (base + 64 * (first + p'.2)) := by
          unfold State.nextGen State.hbmVal memVal
          rw [memRead_congr (m' := s.hbm) fun i hi => State.putImage_other hmap hlen (by have := hne p' hp'; omega)]
        rw [hgen]

end

/-! ### The commit of a RECORD -/

/-- What RECORD's commit does beside the images: of clients it changes what is parked, of tiles windows only. -/
theorem State.recordCommit_eq (s : State) (n first : Nat) (images : List (List Byte)) : ∃ (P : Client → Parked) (T : Tab Tile),
    s.recordCommit n first images = { (s.putImages (s.client n).areas.recs first images.zipIdx).modClient n fun c => { c with parked := P c } with tiles := T } :=
  ⟨_, _, rfl⟩

/-- The windows that RECORD's commit frees are, of the records replaced, those that no live unit and no LOT uses (R199, R208; log 112). -/
theorem State.recordCommit_tile (s : State) (n first : Nat) (images : List (List Byte)) : ∃ gone : Window → Bool,
    (∀ a, (s.recordCommit n first images).tile a = ((s.putImages (s.client n).areas.recs first images.zipIdx).tile a).freeWhere gone)
      ∧ ∀ w i j, w.state = .dry → w.owner = .record n i j → first ≤ i % 2 ^ 16 → i % 2 ^ 16 < first + images.length →
        gone w = (s.putImages (s.client n).areas.recs first images.zipIdx).staleRec (.record n i j) := by
  refine ⟨_, fun a => tabGet_map ({} : Tile) _ (fun _ t => t.freeWhere _) (fun _ => rfl) a, fun w i j hdry howner hlo hhi => ?_⟩
  have hidx : i % 2 ^ 16 ∈ images.zipIdx.map fun p => first + p.2 :=
    List.mem_map.2 ⟨(images[i % 2 ^ 16 - first], i % 2 ^ 16 - first), List.mk_mem_zipIdx_iff_getElem?.2 (List.getElem?_eq_getElem _), by dsimp only; omega⟩
  simp only [hdry, howner, beq_self_eq_true, Bool.true_and, List.contains_iff_mem.2 hidx]
  rfl

/-- Of the windows of the records replaced, those are left that a live unit or a LOT uses. -/
theorem State.recordCommit_left (s : State) (n first : Nat) (images : List (List Byte)) {a w i j : Nat}
    (hdry : (((s.recordCommit n first images).tile a).win w).state = .dry) (howner : (((s.recordCommit n first images).tile a).win w).owner = .record n i j)
    (hlo : first ≤ i % 2 ^ 16) (hhi : i % 2 ^ 16 < first + images.length) :
    (s.putImages (s.client n).areas.recs first images.zipIdx).staleRec (.record n i j) = false := by
  obtain ⟨gone, htile, hgone⟩ := s.recordCommit_tile n first images
  rw [← hgone _ i j hdry howner hlo hhi]
  obtain hfree | hmem := tabGet_mem ({} : Window) ((s.recordCommit n first images).tile a).windows w
  · rw [Tile.win, hfree] at hdry
    cases hdry
  · rw [htile] at hmem ⊢
    exact Tile.freeWhere_not _ gone _ hmem

/-- Whether windows are held by no unit rests on the records in HBM, on live units and on LOTs (R199, R208). -/
theorem State.staleRec_congr {s t : State} (hhbm : t.hbm = s.hbm) (hunits : t.units = s.units)
    (hclient : ∀ n, (t.client n).areas = (s.client n).areas ∧ (t.client n).lots = (s.client n).lots) (o : Owner) : t.staleRec o = s.staleRec o := by
  cases o with
  | record n key j =>
    obtain ⟨hareas, hlots⟩ := hclient n
    simp only [State.staleRec, State.trec, State.hbmVal, State.liveHandle, hhbm, hunits, hareas, hlots]
  | _ => rfl

section
variable {s m : State} {n q first : Nat} {d : ADesc} (images : List (List Byte))

theorem State.RimBegun.recordCommit (h : s.RimBegun m n q d) : s.RimBegun (m.recordCommit n first images) n q d := by
  obtain ⟨H, hput⟩ := State.putImages_eq (m.client n).areas.recs first images.zipIdx m
  obtain ⟨P, T, hcommit⟩ := m.recordCommit_eq n first images
  have himages : s.RimBegun (m.putImages (m.client n).areas.recs first images.zipIdx) n q d := h.ofTilesHbm hput
  exact (himages.modClient (fun c => { c with parked := P c })).ofTilesHbm hcommit

/-- What the commit of a RECORD leaves of tracing, and of what staleRec rests on. -/
theorem State.recordCommit_keeps (m : State) (n first : Nat) : (m.recordCommit n first images).trace = m.trace
    ∧ (m.recordCommit n first images).hbm = (m.putImages (m.client n).areas.recs first images.zipIdx).hbm
    ∧ ∀ o, (m.recordCommit n first images).staleRec o = (m.putImages (m.client n).areas.recs first images.zipIdx).staleRec o := by
  obtain ⟨H, hput⟩ := State.putImages_eq (m.client n).areas.recs first images.zipIdx m
  obtain ⟨P, T, hcommit⟩ := m.recordCommit_eq n first images
  refine ⟨by rw [hcommit, hput]; rfl, by rw [hcommit]; rfl, State.staleRec_congr (by rw [hcommit]; rfl) (by rw [hcommit]; rfl) fun i => ?_⟩
  have hclient : (m.recordCommit n first images).client i
      = ((m.putImages (m.client n).areas.recs first images.zipIdx).modClient n fun c => { c with parked := P c }).client i := by rw [hcommit]; rfl
  rw [hclient]
  by_cases hi : i = n
  · rw [hi, State.modClient_self]
    exact ⟨rfl, rfl⟩
  · rw [State.modClient_ne _ _ _ _ hi]
    exact ⟨rfl, rfl⟩

end

/-- A RECORD starts, its images reach the records, and it commits (R192). -/
def State.recordGoes (s : State) (n q : Nat) (d : ADesc) (first : Nat) (images : List (List Byte)) : State := ((s.rimStart n q d).recordCommit n first images).rimDone n q d

/-- With tracing off and the ring in the host, HBM after a RECORD's commit is what the images made of it, and windows of the records replaced are left only where they are in use. -/
theorem State.recordDone (s : State) {n q : Nat} {d : ADesc} (hun : Unheld s n) (htrace : s.trace.en = false) (hloc : (s.queue n q).cbaseLoc = 0) (first : Nat) (images : List (List Byte)) :
    (s.recordGoes n q d first images).hbm = ((s.rimStart n q d).putImages ((s.rimStart n q d).client n).areas.recs first images.zipIdx).hbm
      ∧ ∀ a w i j, (((s.recordGoes n q d first images).tile a).win w).state = .dry →
        (((s.recordGoes n q d first images).tile a).win w).owner = .record n i j → first ≤ i % 2 ^ 16 → i % 2 ^ 16 < first + images.length →
        (s.recordGoes n q d first images).staleRec (.record n i j) = false := by
  obtain ⟨H, V, hstart, hoff⟩ := s.rimStart_eq n q d
  have hbegun := (s.rimStart_begun n q d).recordCommit (first := first) images
  obtain ⟨hkeepTrace, hkeepHbm, hkeepStale⟩ := State.recordCommit_keeps images (s.rimStart n q d) n first
  obtain ⟨hbeyond, happart, hhbm⟩ := State.rimDone_keeps (hbegun.unheld hun) q d
  have hhbm' := hhbm (by rw [hkeepTrace, hstart]; exact (hoff htrace).2 ▸ htrace) (by rw [hbegun.queue]; exact hloc)
  refine ⟨hhbm'.trans hkeepHbm, fun a w i j hdry howner hlo hhi => ?_⟩
  have hwindows : ((s.recordGoes n q d first images).tile a).windows = (((s.rimStart n q d).recordCommit n first images).tile a).windows :=
    congrFun (congrArg (fun x => x.2.1) hbeyond) a
  have hwin : ((s.recordGoes n q d first images).tile a).win w = (((s.rimStart n q d).recordCommit n first images).tile a).win w := by
    rw [Tile.win, hwindows, Tile.win]
  rw [hwin] at hdry howner
  have hstale := State.staleRec_congr hhbm' (congrArg Prod.fst hbeyond) (fun k => ⟨(congrArg Client.areas (happart k) :), (congrArg Client.lots (happart k) :)⟩) (.record n i j)
  exact hstale.trans ((hkeepStale _).trans (State.recordCommit_left _ n first images hdry howner hlo hhi))

/-- A start of the rims, tracing off, leaves HBM and what it is mapped to, and the areas of its client. -/
theorem State.rimStart_hbm {s : State} (htrace : s.trace.en = false) (n q : Nat) (d : ADesc) :
    (s.rimStart n q d).hbm = s.hbm ∧ (s.rimStart n q d).frm = s.frm ∧ ((s.rimStart n q d).client n).areas = (s.client n).areas := by
  obtain ⟨H, V, hstart, hoff⟩ := s.rimStart_eq n q d
  obtain ⟨D, hclient⟩ := s.markStarted_client n q d 0
  refine ⟨by rw [hstart]; exact (hoff htrace).1, by rw [hstart]; rfl, ?_⟩
  rw [show (s.rimStart n q d).client n = _ from (congrArg (State.client · n) hstart).trans hclient, Client.modQueue_eq]

/-- The images of a RECORD reach the records: each holds its own, under the generation that follows that of the record it replaces (R192). -/
theorem State.recordImages_read {s : State} {n q first : Nat} {d : ADesc} (htrace : s.trace.en = false) (hmap : s.frm.unmapped = [])
    (htop : (s.client n).areas.recs + 64 * (first + dTableLen d.desc) ≤ s.hbmTop) {i : Nat} (hi : i < dTableLen d.desc) :
    ((s.rimStart n q d).putImages ((s.rimStart n q d).client n).areas.recs first (s.recordImages d.desc).zipIdx).hbmRead ((s.client n).areas.recs + 64 * (first + i)) 64
      = imageOf (s.hbmRead (dTableAddr d.desc + 64 * i) 64) (s.nextGen ((s.client n).areas.recs + 64 * (first + i))) := by
  obtain ⟨hhbm, hfrm, hareas⟩ := State.rimStart_hbm htrace n q d
  have hgen (a : Nat) : (s.rimStart n q d).nextGen a = s.nextGen a := by rw [State.nextGen, State.nextGen, State.hbmVal, State.hbmVal, hhbm]
  have hdist : (s.recordImages d.desc).zipIdx.Pairwise fun p p' => p.2 ≠ p'.2 := by
    rw [← List.pairwise_map (f := Prod.snd) (R := (· ≠ ·)), List.zipIdx_map_snd]
    exact List.nodup_range'
  have hentry : (s.hbmRead (dTableAddr d.desc + 64 * i) 64, i) ∈ (s.recordImages d.desc).zipIdx := by
    rw [List.mk_mem_zipIdx_iff_getElem?]
    simp [State.recordImages, hi]
  rw [hareas, ← hgen]
  refine State.putImages_read _ (s.rimStart n q d) (by rw [hfrm]; exact hmap) hdist (fun p hp => ?_) _ hentry
  rw [List.mk_mem_zipIdx_iff_getElem?, State.recordImages, List.getElem?_map, Option.map_eq_some_iff] at hp
  obtain ⟨k, hk, hb⟩ := hp
  obtain ⟨hlt, rfl⟩ := List.getElem?_eq_some_iff.1 hk
  rw [List.length_range] at hlt
  rw [List.getElem_range] at hb
  have htop' : (s.rimStart n q d).hbmTop = s.hbmTop := by rw [State.hbmTop, State.hbmTop, hfrm]
  rw [htop', ← hb]
  exact ⟨memRead_length _ _ _, by omega⟩

/-! ### FENCE and MARK -/

/-- A start of the rims leaves the Lot Table and the live units alone. -/
theorem State.rimStart_table (s : State) (n q : Nat) (d : ADesc) : (s.rimStart n q d).north = s.north ∧ (s.rimStart n q d).units = s.units := by
  obtain ⟨H, V, h, -⟩ := s.rimStart_eq n q d
  exact ⟨(congrArg State.north h :), (congrArg State.units h :)⟩

/-- A MARK has started and its VALUE stands in CLI_LAST_MARK (R191). -/
def State.rimMarked (s : State) (n q : Nat) (d : ADesc) : State := (s.rimStart n q d).modClient n fun c => { c with lastMark := BitVec.ofNat 64 (dParam d.desc) }

theorem State.rimMarked_lastMark (s : State) (n q : Nat) (d : ADesc) : ((s.rimMarked n q d).client n).lastMark = BitVec.ofNat 64 (dParam d.desc) := by
  rw [State.rimMarked, State.modClient_self]

theorem State.trace1_client (s : State) (r : TraceRec) (i : Nat) : (s.trace1 r).client i = s.client i := by
  obtain ⟨H, V, h⟩ := s.trace1_eq r
  rw [h]
  rfl

/-! ### The obligation -/

/-- Settles O45: each of the three starts, does its own, and commits with its record; RECORD's images and windows by way of State.recordDone. -/
theorem rimDescriptors : Obligations.rimDescriptors := by
  unfold Obligations.rimDescriptors
  refine ⟨?_, ?_, ?_, ?_⟩
  · intro n q tag d s hstart hdone hun
    obtain ⟨⟨hp, -⟩, hwait, -⟩ := id hstart
    have heq : fence n q tag s = (s.rimStart n q d).rimDone n q d := State.startWith_goes hstart hdone _
    have hbegun := s.rimStart_begun n q d
    obtain ⟨hbeyond, -⟩ := State.rimDone_keeps (hbegun.unheld hun) q d
    obtain ⟨hnorth, hunits⟩ := s.rimStart_table n q d
    refine answers_on (f := fence n q tag) hp rfl ?_
    rw [heq]
    exact ⟨hbegun.done hwait hun, (congrArg (fun x => x.2.2.1) hbeyond).trans hnorth, (congrArg Prod.fst hbeyond).trans hunits⟩
  · intro n q tag d s hstart hdone hun
    obtain ⟨⟨hp, -⟩, hwait, -⟩ := id hstart
    obtain ⟨r, heq⟩ : ∃ r, mark n q tag s = ((s.rimMarked n q d).trace1 r).rimDone n q d := ⟨_, State.startWith_goes hstart hdone _⟩
    have hbegun : s.RimBegun ((s.rimMarked n q d).trace1 r) n q d := ((s.rimStart_begun n q d).modClient _).trace1 r
    obtain ⟨-, happart, -⟩ := State.rimDone_keeps (hbegun.unheld hun) q d
    refine answers_on (f := mark n q tag) hp rfl ?_
    rw [heq]
    refine ⟨hbegun.done hwait hun, (congrArg Client.lastMark (happart n) :).trans ?_⟩
    exact (congrArg Client.lastMark (State.trace1_client _ r n)).trans (s.rimMarked_lastMark n q d)
  · intro n q tag d s hstart hdone hun htrace hloc
    obtain ⟨⟨hp, -⟩, hwait, -⟩ := id hstart
    have heq : record n q tag s = s.recordGoes n q d (bits (dHandle d.desc 0) 15 0) (s.recordImages d.desc) := State.startWith_goes hstart hdone _
    obtain ⟨-, hleft⟩ := s.recordDone (d := d) hun htrace hloc (bits (dHandle d.desc 0) 15 0) (s.recordImages d.desc)
    refine answers_on (f := record n q tag) hp rfl ?_
    rw [heq]
    refine ⟨((s.rimStart_begun n q d).recordCommit _).done hwait hun, fun a w i j hdry howner hlo hhi => hleft a w i j hdry howner hlo ?_⟩
    rw [State.recordImages, List.length_map, List.length_range]
    exact hhi
  · intro n q tag d s hstart hdone hun htrace hloc hmap htop
    obtain ⟨⟨hp, -⟩, -⟩ := id hstart
    have heq : record n q tag s = s.recordGoes n q d (bits (dHandle d.desc 0) 15 0) (s.recordImages d.desc) := State.startWith_goes hstart hdone _
    obtain ⟨hhbm, -⟩ := s.recordDone (d := d) hun htrace hloc (bits (dHandle d.desc 0) 15 0) (s.recordImages d.desc)
    refine answers_on (f := record n q tag) hp rfl fun i hi => ?_
    rw [heq]
    refine (congrArg (fun H => memRead H _ 64) hhbm).trans ?_
    exact State.recordImages_read htrace hmap htop hi

end Sys2Proof.Machine


/-! PROOFS. The maxima that the home merged over all wafers may give a factor that is a fault, so that a contributing wafer ends its unit where MERGE_RESULT would begin pass 2 (R87, R89, R94, R436; State.startTwo). -/

namespace Sys2Proof.Machine

open Sys2Proof Sys2Proof.Safety

/-! ### Transactions that have arrived (R439) -/

/-- A command that takes in a transaction for this wafer answers its effect once the transaction is out of the inbox. -/
theorem exec_here {c : Instr} {s : State} {m : Trans} {ok : Bool} {f : State → State} (hp : s.power = true) (hhere : Here s m) (hok : ok = true)
    (e : exec c s = run (fun s => s.onTrans m ok f) s) : exec c s = .next (s.keep (f (s.takeIn m))) := by
  obtain ⟨hfirst, hdst⟩ := hhere
  refine exec_on hp e ?_
  rw [State.onTrans, if_neg (by simp [hok, hfirst]), if_neg (not_not.2 hdst)]

/-- MERGE_RESULT for a unit all of whose tiles have ended pass 1 starts pass 2 with the maxima it carries, as far as these allow (R436). -/
theorem mergeResult_startsTwo {s : State} {m : Trans} {u : CUnit} (hp : s.power = true) (hhere : Here s m) (hsync : isSync m 8 = true)
    (hu : s.awayUnit m none = some u) (hne : u.tiles.isEmpty = false) (hmerging : s.sideMerging u.id u.tiles = true) :
    exec (.mergeResult m) s = .next (s.keep ((s.takeIn m).startTwo u.id .main (mergeList m))) := by
  have hu' : (s.takeIn m).awayUnit m none = some u := hu
  have hmerging' : (s.takeIn m).sideMerging u.id u.tiles = true := hmerging
  rw [exec_here hp hhere hsync rfl]
  simp only [hu', hne, hmerging', Bool.not_true, Bool.or_false, Bool.false_eq_true, if_false]

/-! ### The obligation -/

/-- An OP of one long word under CURRENT, with AMAX set (R88, R94). -/
def currentDesc : BitVec 512 := BitVec.ofNat 512 (7 + kOP * 2 ^ 32 + 3 * 2 ^ 43 + 2 ^ 45 + 2 ^ 48)

/-- It converts operand A, of scale 4, into operand D, F32 and bound to range slot 40. By the slot's committed AMAX, 0, it started with q = 1 and c = 4 (R93). -/
def currentUnit : CUnit :=
  { op1Away with stages := [{ desc := currentDesc, handles := [some { hnd1 with fmt := 0, scale := 0x40800000 }, none, none, some { hnd1 with index := 2, fmt := 0, rslot := 40, bound := true }] }] }

/-- Its run, which has ended pass 1 with A = 2^-126 gathered for slot 40. -/
def gatheredRun : TileRun := { run1 with pass := 1, ready := true, ranges := [{ slot := 40, amax := 0x00800000 }] }

/-- MERGE_RESULT: the maximum of slot 40 is 2^-126 over all wafers too. -/
def tinyMerge : Trans := sync 8 (leBytes 1 4 ++ leBytes 40 4 ++ leBytes 0x00800000 4)

/-- Wafer 0 when `tinyMerge` has arrived; the tile's table is one CVT word, from A to D. -/
def tinyMerged : State :=
  { netOp tinyMerge gatheredRun currentUnit with tiles := [(8191, { run := some gatheredRun, tbl := { bank0 := lwBank 16 (3 * 2 ^ 18) } })] }

/-- Pass 2 does not begin in `tinyMerged`: the unit ends, and its run is gone from its tile. -/
theorem tinyMerged_ends : (((tinyMerged.takeIn tinyMerge).startTwo currentUnit.id .main (mergeList tinyMerge)).tile 8191).run.isSome = false := by decide +kernel

/-- Refutes O36: its fifth clause says that MERGE_RESULT begins pass 2 whatever maxima it carries. In `tinyMerged` the maximum is 2^-126, for which R89 gives q = 2^126; the source scale being 4, c = 2^128 is not finite, a descriptor fault under R87. The unit ends with SCALE, and no run is left on its tile. -/
theorem not_memberSignals : ¬ Obligations.memberSignals := by
  unfold Obligations.memberSignals
  rintro ⟨-, -, -, -, hresult, -⟩
  have haway : tinyMerged.awayUnit tinyMerge none = some currentUnit := by decide +kernel
  have hsync : isSync tinyMerge 8 = true := by decide +kernel
  have hhere : Here tinyMerged tinyMerge := by decide +kernel
  obtain ⟨t, hexec, r, hrun, -⟩ := hresult tinyMerge currentUnit 8191 gatheredRun tinyMerged rfl hhere hsync haway rfl rfl rfl rfl rfl rfl
  have ht := Host.Outcome.next.inj (hexec.symm.trans (mergeResult_startsTwo rfl hhere hsync haway rfl (by decide +kernel)))
  rw [ht, State.keep_tile] at hrun
  exact Bool.false_ne_true (tinyMerged_ends.symm.trans (congrArg Option.isSome hrun))

end Sys2Proof.Machine


/-! PROOFS. Doorbells and MSI-X messages: a doorbell changes its ring alone, and a message that neither a mask nor a held function stops goes out (R213, R223, R386). -/

namespace Sys2Proof.Machine

open Sys2Proof Sys2Proof.Safety

/-! ### Doorbells (R213) -/

/-- A queue's watermark update changes nothing of a client but its watermarks and its function. -/
theorem State.wmQueue_client {α : Type} (s : State) (g : Client → α) (hf : ∀ c f, g { c with func := f } = g c)
    (h0 : ∀ c w, g { c with wmQ0 := w } = g c) (h1 : ∀ c w, g { c with wmQ1 := w } = g c) (n q m : Nat) : g ((s.wmQueue n q).client m) = g (s.client m) := by
  unfold State.wmQueue
  dsimp only
  have hmod (w : Wm) : g ((s.modClient n fun c => if q = 0 then { c with wmQ0 := w } else { c with wmQ1 := w }).client m) = g (s.client m) := by
    by_cases hm : m = n
    · rw [hm, State.modClient_self]
      split
      · exact h0 _ w
      · exact h1 _ w
    · rw [State.modClient_ne _ _ _ _ hm]
  exact State.when_ind (P := fun t => g (t.client m) = g (s.client m)) _ _ _ ((State.notice_client _ g hf _ _ _ _ m).trans (hmod _)) (hmod _)

/-- A queue's watermark update leaves every queue as it is. -/
theorem State.wmQueue_queue (s : State) (n q m r : Nat) : (s.wmQueue n q).queue m r = s.queue m r :=
  s.wmQueue_client (fun c => c.queue r) (fun _ _ => rfl) (fun _ _ => rfl) (fun _ _ => rfl) n q m

section
variable {s : State} {n q : Nat} (c : W32)

/-- A queue that is RUNNING or STOPPED in a live device takes doorbells. -/
theorem State.takesDoorbells (hready : s.frm.state = .ready) (hq : (s.queue n q).state = .running ∨ (s.queue n q).state = .stopped) :
    ¬ (s.frm.state != .ready || (s.queue n q).state == .disabled || (s.queue n q).state == .tornDown) = true := by
  obtain h | h := hq <;> simp [hready, h]

theorem cliDbQ_taken (hready : s.frm.state = .ready) (hq : (s.queue n q).state = .running ∨ (s.queue n q).state = .stopped)
    (hcc : (c - (s.queue n q).cc).toNat ≤ 2 ^ (s.queue n q).log2) (hpc : (c - (s.queue n q).pc).toNat ≤ 2 ^ (s.queue n q).log2) :
    cliDbQ n q c s = (s.modQueue n q fun x => { x with pc := c, doorbells := if c = x.pc then x.doorbells else x.doorbells ++ [(c, s.now)] }).wmQueue n q := by
  rw [cliDbQ, if_neg (State.takesDoorbells hready hq), if_pos ⟨hcc, hpc⟩]

theorem cliDbQ_ignored (hready : s.frm.state = .ready) (hq : (s.queue n q).state = .running ∨ (s.queue n q).state = .stopped)
    (hbeyond : 2 ^ (s.queue n q).log2 < (c - (s.queue n q).cc).toNat ∨ 2 ^ (s.queue n q).log2 < (c - (s.queue n q).pc).toNat) :
    cliDbQ n q c s = s.modQueue n q fun x => { x with dbErr := true } := by
  rw [cliDbQ, if_neg (State.takesDoorbells hready hq), if_neg (by omega)]

theorem cliDbC_taken (hready : s.frm.state = .ready) (hq : (s.queue n q).state = .running ∨ (s.queue n q).state = .stopped)
    (hc : (c - (s.queue n q).consumed).toNat ≤ ((s.queue n q).ccount - (s.queue n q).consumed).toNat) :
    cliDbC n q c s = s.modQueue n q fun x => { x with consumed := c } := by
  rw [cliDbC, if_neg (State.takesDoorbells hready hq), if_pos hc]

theorem cliDbC_ignored (hready : s.frm.state = .ready) (hq : (s.queue n q).state = .running ∨ (s.queue n q).state = .stopped)
    (hc : ((s.queue n q).ccount - (s.queue n q).consumed).toNat < (c - (s.queue n q).consumed).toNat) :
    cliDbC n q c s = s.modQueue n q fun x => { x with dbErr := true } := by
  rw [cliDbC, if_neg (State.takesDoorbells hready hq), if_neg (by omega)]

/-- Where no entry of a lost sequence waits for a slot, an outcome doorbell releases slots and does no more (R306). -/
theorem cliDbOut_taken (hready : s.frm.state = .ready) (hen : (s.client n).out.enable = true)
    (hc : (c - (s.client n).out.consumed).toNat ≤ ((s.client n).out.count - (s.client n).out.consumed).toNat) (hlost : (s.client n).lostSeqs = []) :
    cliDbOut n c s = s.modClient n fun x => { x with out := { x.out with consumed := c } } := by
  rw [cliDbOut, if_neg (by simp [hready, hen]), if_pos hc, State.lostGo, State.modClient_self, hlost, State.each_nil]

end

/-! ### Messages (R223, R386) -/

section
variable {s : State} {n v : Nat}

/-- A message goes out where neither its vector nor the function is masked and the function may send. -/
theorem State.msix_sent (hv : v ∉ (s.client n).func.masked) (hmask : (s.client n).func.funcMask = false) (hdma : s.canDma n = true) :
    s.msix n v = s.emit (.msix n v) := by
  simp [State.msix, hv, hmask, hdma]

/-- A change of a client depends on what it makes of that client only. -/
theorem State.modClient_congr (s : State) {f g : Client → Client} (h : f (s.client n) = g (s.client n)) : s.modClient n f = s.modClient n g :=
  congrArg (fun t => { s with clients := t }) (tabMod_congr h)

/-- Changing a client otherwise than in Bus Master Enable and the D-state leaves it the right to send. -/
theorem State.modClient_canDma (s : State) (f : Client → Client)
    (hf : ∀ c, (f c).func.bme = c.func.bme ∧ (f c).func.d3hot = c.func.d3hot := by intro _; exact ⟨rfl, rfl⟩) : (s.modClient n f).canDma n = s.canDma n := by
  simp only [State.canDma, State.modClient_self, hf, State.modClient_linkUp]

/-- The one pending vector is sent where nothing masks it. -/
theorem State.msixGo_sends (hpend : (s.client n).func.pendingBits = [v]) (hv : v ∉ (s.client n).func.masked) (hmask : (s.client n).func.funcMask = false)
    (hdma : s.canDma n = true) : s.msixGo n = (s.modClient n fun c => { c with func := { c.func with pendingBits := [] } }).emit (.msix n v) := by
  have hgo : (s.client n).func.pendingBits.filter (fun x => !(s.client n).func.masked.contains x) = [v] := by simp [hpend, hv]
  have hclear : (s.modClient n fun c => { c with func := { c.func with pendingBits := c.func.pendingBits.filter fun x => !([v].contains x) } })
      = s.modClient n fun c => { c with func := { c.func with pendingBits := [] } } := by
    refine s.modClient_congr ?_
    simp [hpend]
  unfold State.msixGo
  simp only [hmask, Bool.false_eq_true, if_false, hgo, hclear, State.each_cons, State.each_nil]
  exact State.msix_sent (by rw [State.modClient_self]; exact hv) (by rw [State.modClient_self]; exact hmask) ((s.modClient_canDma _).trans hdma)

/-- Where no bit is pending, nothing is sent. -/
theorem State.msixGo_quiet (hpend : (s.client n).func.pendingBits = []) : s.msixGo n = s.modClient n fun c => c := by
  unfold State.msixGo
  simp only [hpend, List.filter_nil, ite_self, State.each_nil]
  refine s.modClient_congr ?_
  rw [hpend, List.filter_nil, ← hpend]

/-- What an unmasking clears: a vector's mask, or the function's. -/
def Func.unmask (f : Func) : Option Nat → Func
  | some k => { f with masked := f.masked.filter (· != k) }
  | none => { f with funcMask := false }

theorem Func.unmask_pendingBits (f : Func) (w : Option Nat) : (f.unmask w).pendingBits = f.pendingBits := by cases w <;> rfl

theorem msixVectorUnmask_eq (w : Option Nat) : msixVectorUnmask n w s = (s.modClient n fun c => { c with func := c.func.unmask w }).msixGo n := by
  cases w <;> rfl

/-- The one pending vector is sent once nothing masks it any more. -/
theorem msixVectorUnmask_sends {w : Option Nat} (hpend : (s.client n).func.pendingBits = [v]) (hv : v ∉ ((s.client n).func.unmask w).masked)
    (hmask : ((s.client n).func.unmask w).funcMask = false) (hdma : s.canDma n = true) :
    msixVectorUnmask n w s = (s.modClient n fun c => { c with func := { c.func.unmask w with pendingBits := [] } }).emit (.msix n v) := by
  have hself : ((s.modClient n fun c => { c with func := c.func.unmask w }).client n).func = (s.client n).func.unmask w := by rw [State.modClient_self]
  have hdma' : (s.modClient n fun c => { c with func := c.func.unmask w }).canDma n = true :=
    (s.modClient_canDma _ fun c => by cases w <;> exact ⟨rfl, rfl⟩).trans hdma
  rw [msixVectorUnmask_eq, State.msixGo_sends (by rw [hself, Func.unmask_pendingBits, hpend]) (by rw [hself]; exact hv) (by rw [hself]; exact hmask) hdma',
    State.modClient_modClient]

/-- Where no bit is pending, an unmasking clears the mask and does no more. -/
theorem msixVectorUnmask_quiet {w : Option Nat} (hpend : (s.client n).func.pendingBits = []) :
    msixVectorUnmask n w s = s.modClient n fun c => { c with func := c.func.unmask w } := by
  rw [msixVectorUnmask_eq, State.msixGo_quiet (by rw [State.modClient_self, Func.unmask_pendingBits, hpend]), State.modClient_modClient]

/-- The oldest pending entry of a completion ring is TIME µs old: its message goes out. -/
theorem coalesceTimer_completion {q : Nat} (hq : q < 2) (hpend : (s.queue n q).pend ≠ 0) (htime : (s.queue n q).coalTime ≠ 0)
    (hold : (s.queue n q).oldest + 1000 * (s.queue n q).coalTime ≤ s.now) (hmask : (s.client n).func.funcMask = false) (hv : q ∉ (s.client n).func.masked)
    (hdma : s.canDma n = true) : coalesceTimer n q s = (s.modQueue n q fun x => { x with pend := 0 }).emit (.msix n q) := by
  have hdue : ((s.client n).queue q).pend ≠ 0 ∧ ((s.client n).queue q).coalTime ≠ 0 ∧ ((s.client n).queue q).oldest + 1000 * ((s.client n).queue q).coalTime ≤ s.now :=
    ⟨hpend, htime, hold⟩
  have hfunc : ((s.modQueue n q fun x => { x with pend := 0 }).client n).func = (s.client n).func := by
    rw [State.modQueue, State.modClient_self, Client.modQueue_eq]
  rw [coalesceTimer, if_neg (by omega), if_pos hdue, State.ringSignal]
  have hdma' : (s.modQueue n q fun x => { x with pend := 0 }).canDma n = true :=
    (s.modClient_canDma _ fun c => by rw [Client.modQueue_eq]; exact ⟨rfl, rfl⟩).trans hdma
  exact State.msix_sent (by rw [hfunc]; exact hv) (by rw [hfunc]; exact hmask) hdma'

/-- The same of the outcome ring. -/
theorem coalesceTimer_outcome (hpend : (s.client n).out.pend ≠ 0) (htime : (s.client n).out.coalTime ≠ 0)
    (hold : (s.client n).out.oldest + 1000 * (s.client n).out.coalTime ≤ s.now) (hmask : (s.client n).func.funcMask = false) (hv : 2 ∉ (s.client n).func.masked)
    (hdma : s.canDma n = true) : coalesceTimer n 2 s = (s.modClient n fun c => { c with out := { c.out with pend := 0 } }).emit (.msix n 2) := by
  rw [coalesceTimer, if_pos rfl, if_pos ⟨hpend, htime, hold⟩, State.outSignal]
  exact State.msix_sent (by rw [State.modClient_self]; exact hv) (by rw [State.modClient_self]; exact hmask) ((s.modClient_canDma _).trans hdma)

end

/-! ### The obligation -/

/-- Settles O26: each clause is the equation of its command for the case in question; only the watermark that a taken CLI_DB_Q updates stands beside the queue itself. -/
theorem doorbellsAndMessages : Obligations.doorbellsAndMessages := by
  unfold Obligations.doorbellsAndMessages
  refine ⟨?producer, ?producerIgnored, ?consumer, ?consumerIgnored, ?outcome, ?vector, ?vectorQuiet, ?function, ?completionTimer, ?outcomeTimer⟩
  case producer =>
    intro n q c s ⟨hp, hready⟩ hq hcc hpc
    refine answers_on hp rfl ?_
    rw [cliDbQ_taken c hready hq hcc hpc]
    exact (State.wmQueue_queue _ n q n q).trans (s.modQueue_queue_self n q _)
  case producerIgnored =>
    intro n q c s ⟨hp, hready⟩ hq hbeyond
    exact exec_on hp rfl (by rw [cliDbQ_ignored c hready hq hbeyond]; rfl)
  case consumer =>
    intro n q c s ⟨hp, hready⟩ hq hc
    exact exec_on hp rfl (by rw [cliDbC_taken c hready hq hc]; rfl)
  case consumerIgnored =>
    intro n q c s ⟨hp, hready⟩ hq hc
    exact exec_on hp rfl (by rw [cliDbC_ignored c hready hq hc]; rfl)
  case outcome =>
    intro n c s ⟨hp, hready⟩ hen hc hlost
    exact exec_on hp rfl (by rw [cliDbOut_taken c hready hen hc hlost]; rfl)
  case vector =>
    intro n v s hp hpend hmask hdma
    exact exec_on hp rfl (by rw [msixVectorUnmask_sends (w := some v) hpend (by simp [Func.unmask]) hmask hdma]; rfl)
  case vectorQuiet =>
    intro n v s hp hpend
    exact exec_on hp rfl (by rw [msixVectorUnmask_quiet hpend]; rfl)
  case function =>
    intro n v s hp hpend hv hdma
    exact exec_on hp rfl (by rw [msixVectorUnmask_sends (w := none) hpend hv rfl hdma]; rfl)
  case completionTimer =>
    intro n q s hp hq hpend htime hold hmask hv hdma
    exact exec_on hp rfl (by rw [coalesceTimer_completion hq hpend htime hold hmask hv hdma]; rfl)
  case outcomeTimer =>
    intro n s hp hpend htime hold hmask hv hdma
    exact exec_on hp rfl (by rw [coalesceTimer_outcome hpend htime hold hmask hv hdma]; rfl)

end Sys2Proof.Machine


/-! PROOFS. A LOT whose chain is not complete yet stays under DEP_TIMEOUT, whatever its dependencies (R194, R205; depTimeout). -/

namespace Sys2Proof.Machine

open Sys2Proof Sys2Proof.Safety

/-- The first stage of a chain of LOTs, tag 7, with a dependency on tag 5, which queue 1 has not seen; the next stage is still to be accepted. -/
def openHead : ADesc := { adW with desc := BitVec.ofNat 512 (7 + kLOT * 2 ^ 32 + 2 ^ 38 + 5 * 2 ^ 256), chainOpen := true }

/-- It waits for a second, ten times its DEP_TIMEOUT. -/
def openChainWaits : State := { withQ { fetchQ with cc := 1, acceptedCount := 1, accepted := [openHead] } with now := 1000000000 }

/-- DEP_TIMEOUT leaves an incomplete chain as it is. -/
theorem depTimeout_open {s : State} {n q : Nat} {tag : W32} {d : ADesc} (hwait : s.waiting? n q tag = some d) (hopen : d.chainOpen = true) : depTimeout n q tag s = s := by
  simp [depTimeout, hwait, hopen]

/-- Refutes O27: its tenth clause says that a waiting descriptor with an unseen dependency ends once DEP_TIMEOUT has passed, whether its chain is complete or not. In `openChainWaits` the chain has a stage to come, so it has not been accepted as a whole and does not end (R194): no record is written. -/
theorem not_fetchAndAcceptance : ¬ Obligations.fetchAndAcceptance := by
  unfold Obligations.fetchAndAcceptance
  rintro ⟨-, -, -, -, -, -, -, -, -, htimeout⟩
  have hwait : openChainWaits.waiting? 127 1 7 = some openHead := by decide +kernel
  obtain ⟨t, hexec, -, hcount⟩ := htimeout 127 1 7 openHead 0 openChainWaits rfl hwait (by decide +kernel) (by decide) (by decide +kernel) rfl (.inr (by decide +kernel)) rfl
  have hsame : exec (.depTimeout 127 1 7) openChainWaits = .next openChainWaits := exec_on rfl rfl (by rw [depTimeout_open hwait rfl]; rfl)
  obtain rfl : t = openChainWaits := Host.Outcome.next.inj (hexec.symm.trans hsame)
  exact absurd hcount (by decide +kernel)

end Sys2Proof.Machine

/-! PROOFS. Disabling a TORN_DOWN queue also ends the units of it that have committed and whose drain still waits for other wafers (R46, R211, R225; queueDisable). -/

namespace Sys2Proof.Machine

open Sys2Proof Sys2Proof.Safety

/-- Queue 1 of client 127 is TORN_DOWN; a unit of it is past its commit instant and waits for wafer 1 to acknowledge a write of its drain. -/
def tornDraining : State := { withQ { state := .tornDown } with units := [{ uPh .committed with waitWr := [0] }], nextUnit := 2 }

/-- ENABLE = 0 ends that unit. -/
theorem tornDraining_ends : ∃ t, exec (.queueDisable 127 1 0) tornDraining = .next t ∧ t.units = [] :=
  ⟨_, exec_on rfl rfl rfl, by decide +kernel⟩

/-- Refutes O28: its fourth clause says that disabling a TORN_DOWN queue changes nothing but the queue's state. In `tornDraining` a committed unit of the queue is still live, and the disable finishes it. -/
theorem not_queueControl : ¬ Obligations.queueControl := by
  unfold Obligations.queueControl
  rintro ⟨-, -, -, htorn, -⟩
  have hexec := htorn 127 1 0 tornDraining ⟨rfl, rfl⟩ (by decide +kernel)
  obtain ⟨t, hexec', hunits⟩ := tornDraining_ends
  obtain rfl := Host.Outcome.next.inj (hexec.symm.trans hexec')
  cases hunits

end Sys2Proof.Machine


/-! PROOFS. What the end of work leaves of a client: its CLI_HBM_STATUS, its HALTED bit, and a queue that is TORN_DOWN (R225, R403, R468). -/

namespace Sys2Proof.Machine

open Sys2Proof Sys2Proof.Safety

/-- A queue that a teardown has closed. -/
def Queue.Torn (x : Queue) : Prop := x.state = .tornDown ∧ x.closing = false

/-- What the end of a client's work leaves alone: the status of its areas, whether it is halted, and the queues that a teardown has closed. -/
structure Client.Onward (c c' : Client) : Prop where
  hbmStatus : c'.hbmStatus = c.hbmStatus
  halted : c'.dbg.halted = c.dbg.halted
  torn : ∀ q, (c.queue q).Torn → (c'.queue q).Torn

/-- The same of every client of a state. -/
def State.Onward (s t : State) : Prop := ∀ m, (s.client m).Onward (t.client m)

/-- The parts of a client that `Client.Onward` looks at. -/
def Client.core (c : Client) : Nat × Bool × Queue × Queue := (c.hbmStatus, c.dbg.halted, c.q0, c.q1)

theorem Client.Onward.of_core {c c' : Client} (h : c'.core = c.core) : c.Onward c' := by
  simp only [Client.core, Prod.mk.injEq] at h
  obtain ⟨hs, hh, h0, h1⟩ := h
  exact ⟨hs, hh, fun q hq => by rw [Client.queue, h0, h1]; exact hq⟩

theorem Client.Onward.trans {a b c : Client} (h : a.Onward b) (h' : b.Onward c) : a.Onward c :=
  ⟨h'.hbmStatus.trans h.hbmStatus, h'.halted.trans h.halted, fun q hq => h'.torn q (h.torn q hq)⟩

theorem Client.Onward.modQueue (c : Client) (q : Nat) {f : Queue → Queue} (hf : ∀ x, x.Torn → (f x).Torn) : c.Onward (c.modQueue q f) := by
  refine ⟨by rw [Client.modQueue_eq], by rw [Client.modQueue_eq], fun r hr => ?_⟩
  unfold Client.modQueue Client.queue at *
  split <;> split <;> simp_all

section
variable {s t : State}

theorem State.Onward.refl (s : State) : s.Onward s := fun _ => .of_core rfl

theorem State.Onward.trans {r : State} (h : s.Onward t) (h' : t.Onward r) : s.Onward r := fun m => (h m).trans (h' m)

variable (h : s.Onward t)
include h

/-- A step that changes no client. -/
theorem State.Onward.same {t' : State} (ht : t'.clients = t.clients) : s.Onward t' := fun m => by
  unfold State.client at *
  rw [ht]; exact h m

theorem State.Onward.dropUnit (uid : Nat) : s.Onward (t.dropUnit uid) := h.same rfl

theorem State.Onward.modTile (a : Nat) (f : Tile → Tile) : s.Onward (t.modTile a f) := h.same rfl

theorem State.Onward.modPart (p : Nat) (f : Part → Part) : s.Onward (t.modPart p f) := h.same rfl

/-- A step that changes nothing of a client that counts here. -/
theorem State.Onward.core {t' : State} (ht : ∀ m, (t'.client m).core = (t.client m).core) : s.Onward t' := fun m => (h m).trans (.of_core (ht m))

theorem State.Onward.modClient (n : Nat) (f : Client → Client) (hf : ∀ c : Client, c.Onward (f c) := by exact fun _ => .of_core rfl) : s.Onward (t.modClient n f) := by
  intro m
  by_cases hm : m = n
  · subst hm; rw [State.modClient_self]; exact (h m).trans (hf _)
  · rw [State.modClient_ne _ _ _ _ hm]; exact h m

theorem State.Onward.modQueue (n q : Nat) (f : Queue → Queue) (hf : ∀ x, x.Torn → (f x).Torn := by exact fun _ h => h) : s.Onward (t.modQueue n q f) :=
  h.modClient n _ fun c => .modQueue c q hf

theorem State.Onward.when (c : Bool) (f : State → State) (hf : s.Onward (f t)) : s.Onward (t.when c f) := State.when_ind t c f hf h

theorem State.Onward.each {α : Type} (l : List α) (f : State → α → State) (hf : ∀ t a, s.Onward t → s.Onward (f t a)) : s.Onward (t.each l f) :=
  State.each_ind (P := fun t => s.Onward t) hf l t h

theorem State.Onward.modAcct (n : Nat) (f : Acct → Acct) : s.Onward (t.modAcct n f) := h.modClient n _

/-! ### Messages and records -/

theorem State.Onward.msix (n v : Nat) : s.Onward (t.msix n v) := h.core fun m => t.msix_client Client.core (fun _ _ => rfl) n v m

theorem State.Onward.wmQueue (n q : Nat) : s.Onward (t.wmQueue n q) :=
  h.core fun m => t.wmQueue_client Client.core (fun _ _ => rfl) (fun _ _ => rfl) (fun _ _ => rfl) n q m

theorem State.Onward.setEntry (i : Nat) (e : Entry) : s.Onward (t.setEntry i e) := h.core fun m => t.setEntry_client Client.core (fun _ _ => rfl) i e m

theorem State.Onward.ringWrite (n loc a : Nat) (bs : List Byte) : s.Onward (t.ringWrite n loc a bs) := by
  obtain ⟨H, O, e⟩ := t.ringWrite_eq n loc a bs
  exact h.same (by rw [e])

theorem State.Onward.trace1 (r : TraceRec) : s.Onward (t.trace1 r) := by
  obtain ⟨H, T, e⟩ := t.trace1_eq r
  exact h.same (by rw [e])

theorem State.Onward.outcomeTrace (n q tag i p out : Nat) : s.Onward (t.outcomeTrace n q tag i p out) := by
  obtain ⟨H, T, e⟩ := t.traceMember_eq n q tag (t.seqId i) p out
  exact h.same (by rw [State.outcomeTrace, e])

theorem State.Onward.send (x : Trans) : s.Onward (t.send x) := by
  obtain ⟨P, K, e⟩ := t.send_eq x
  exact h.same (by rw [e])

theorem State.Onward.freeStale : s.Onward t.freeStale := by
  obtain ⟨T, e⟩ := t.freeStale_eq
  exact h.same (by rw [e])

theorem State.Onward.stopRuns (n : Nat) : s.Onward (t.stopRuns n) := h.same rfl

theorem State.Onward.ringSignal (n q : Nat) : s.Onward (t.ringSignal n q) := (h.modQueue n q _).msix n q

/-- A record leaves a closed queue closed: only the last record of a queue that is closing disables it, and only a RUNNING queue stops (R211, R224). -/
theorem State.Onward.recWrite (n : Nat) (r : Rec) : s.Onward (t.recWrite n r) := by
  unfold State.recWrite
  extract_lets x r' t1 gone rest fail t2 t3 t4 y
  have h2 : s.Onward t2 := (h.ringWrite _ _ _ _).modQueue n _ _ fun x hx => by
    obtain ⟨hstate, hclosing⟩ := hx
    simp [Queue.Torn, hstate, hclosing]
  have h3 : s.Onward t3 := h2.wmQueue n _
  have h4 : s.Onward t4 := h3.when _ _ ((h3.modClient n _).stopRuns n)
  exact h4.when _ _ (h4.ringSignal n _)

theorem State.Onward.putRec (n : Nat) (r : Rec) : s.Onward (t.putRec n r) := by
  unfold State.putRec
  split
  · exact (h.modQueue n _ _).modClient n _
  · exact h.recWrite n r

theorem State.Onward.putLate (n : Nat) (reset : Bool) (r : Rec) : s.Onward (t.putLate n reset r) := by
  unfold State.putLate
  split
  · exact h.modQueue n _ _
  · exact h.putRec n r

theorem State.Onward.putOut (n : Nat) (e : OutE) : s.Onward (t.putOut n e) := by
  unfold State.putOut
  dsimp only
  split
  · exact h
  · split
    · exact h.modClient n _
    · unfold State.outWrite
      extract_lets o t1 t2 p
      have h2 : s.Onward t2 := (h.ringWrite _ _ _ _).modClient n _
      exact h2.when _ _ ((h2.modClient n _).msix n 2)

theorem State.Onward.outRelease (n ring k : Nat) : s.Onward (t.outRelease n ring k) := h.modClient n _ fun c => .of_core (by split <;> rfl)

theorem State.Onward.outcome (n i ring out detail time : Nat) : s.Onward (t.outcome n i ring out detail time) :=
  ((h.modClient n _).when _ _ ((h.modClient n _).modClient n _)).putOut n _

theorem State.Onward.lotDrop (u : CUnit) (f : LotRun → LotRun) : s.Onward (t.lotDrop u f) := h.modClient u.client _

theorem State.Onward.lotRecord (n : Nat) (l : LotRun) (status : Nat) : s.Onward (t.lotRecord n l status) :=
  (((h.modClient n _).modClient n _).trace1 _).putLate n _ _

theorem State.Onward.lotCheck (n q ord : Nat) : s.Onward (t.lotCheck n q ord) := by
  unfold State.lotCheck
  split
  · exact h
  · exact iteInduction (motive := fun x : State => s.Onward x) (fun _ => h) fun _ => h.lotRecord n _ _

/-! ### Ends of units and of descriptors -/

theorem State.Onward.retiredOrRelease (n i ring : Nat) (retire : Bool) (detail time : Nat) : s.Onward (t.retiredOrRelease n i ring retire detail time) := by
  unfold State.retiredOrRelease
  split
  · exact h.outcome n i ring 7 detail time
  · exact h.outRelease n ring 1

theorem State.Onward.memberFail (u : CUnit) (m : Member) (status code : Nat) : s.Onward (t.memberFail u m status code) :=
  (((((h.setEntry _ _).outcome _ _ _ _ _ _).outcomeTrace _ _ _ _ _ _).retiredOrRelease _ _ _ _ _ _).lotDrop u _).lotCheck _ _ _

theorem State.Onward.endUnit (u : CUnit) (status code : Nat) : s.Onward (t.endUnit u status code) := by
  have htold : s.Onward (t.unitTold u status code) := h.same (t.unitTold_clients u status code).1
  rw [State.endUnit_eq]
  split
  · exact htold
  · split
    · exact htold.memberFail u _ status code
    · exact htold.putLate _ _ _

theorem State.Onward.endWaiting (n q : Nat) (d : ADesc) (status code : Nat) : s.Onward (t.endWaiting n q d status code) :=
  ((h.when _ _ ((h.modClient n _).modClient n _)).trace1 _).putLate n _ _

theorem State.Onward.lotEnd (n : Nat) (l : LotRun) (status : Nat) : s.Onward (t.lotEnd n l status) := by
  unfold State.lotEnd
  extract_lets t1 t2
  have h2 : s.Onward t2 := (h.modClient n _).each _ _ fun t id ht => by
    split
    · split
      · exact ht
      · exact ht.endUnit _ status 0
    · exact ht
  split
  · exact h2.lotRecord n _ status
  · exact h2

theorem State.Onward.endAccepted (n q : Nat) (d : ADesc) (status : Nat) : s.Onward (t.endAccepted n q d status) := by
  unfold State.endAccepted
  split
  · exact h.endWaiting n q d status 0
  · split
    · split
      · exact h
      · exact h.endUnit _ status 0
    · exact h.lotEnd n _ status
    · exact h.endWaiting n q d status 0
  · exact h

/-! ### Stops (R273) -/

theorem State.Onward.memberKill (u : CUnit) (kills : Nat) : s.Onward (t.memberKill u kills) := by
  unfold State.memberKill
  extract_lets t1 t2 t3 t4
  obtain ⟨T, Q, F, e⟩ := t.discardOn_eq u.id u.allTiles
  obtain ⟨P, K, e'⟩ := State.tell_eq (((t.discardOn u.id u.allTiles).dropUnit u.id).dropRequests u.id) u false u.others
  have h1 : s.Onward t1 := h.same (by rw [show t1 = _ from e']; simp only [State.dropRequests, State.modStk_clients, State.dropUnit_clients, e])
  have h2 : s.Onward t2 := h1.setEntry _ _
  have h3 : s.Onward t3 := by
    unfold t3
    split
    · exact h2.outRelease _ _ _
    · exact h2
  have h4 : s.Onward t4 := h3.when _ _ ((h3.modPart _ _).trace1 _)
  exact (h4.lotDrop u _).freeStale

theorem State.Onward.killUnit (uid cause : Nat) : s.Onward (t.killUnit uid cause) := by
  unfold State.killUnit
  split
  · exact h
  · next u _ =>
    refine iteInduction (motive := fun x : State => s.Onward x) (fun _ => h) fun _ => ?_
    extract_lets t1 t2 t3
    obtain ⟨T, Q, F, e⟩ := t.discardOn_eq uid u.allTiles
    obtain ⟨P, K, e'⟩ := State.tell_eq ((t.discardOn uid u.allTiles).dropRequests uid) u false u.others
    have h1 : s.Onward t1 := h.same (by rw [show t1 = _ from e']; simp only [State.dropRequests, State.modStk_clients, e])
    exact (h1.same rfl : s.Onward t3).trace1 _

theorem State.Onward.stopUnit (u : CUnit) : s.Onward (t.stopUnit u) := by
  unfold State.stopUnit
  split
  · exact (h.modAcct _ _).each _ _ fun _ a ht => ht.modTile a _
  · unfold State.killStop
    split
    · exact (h.modAcct _ _).memberKill u 1
    · exact (h.modAcct _ _).killUnit u.id 2

theorem State.Onward.stopGo (n : Nat) : s.Onward (t.stopGo n) := by
  unfold State.stopGo
  split
  · exact h
  · exact iteInduction (motive := fun x : State => s.Onward x) (fun _ => h)
      fun _ => (h.each _ _ fun _ u ht => ht.stopUnit u).each _ _ fun _ p ht => ht.modPart p _

/-! ### Units past their commit instant (R44, R219) -/

theorem State.Onward.rimDone (n q : Nat) (d : ADesc) : s.Onward (t.rimDone n q d) :=
  ((h.trace1 _).modPart _ _).putRec n _

theorem State.Onward.admitEnd (n q : Nat) (d : ADesc) (ring reason : Nat) : s.Onward (t.admitEnd n q d ring reason) := by
  unfold State.admitEnd
  extract_lets i t1 t2
  have h2 : s.Onward t2 := by
    unfold t2
    split
    · exact (h.setEntry _ _).outcome _ _ _ _ _ _
    · exact (h.modClient n _ : s.Onward t1).outcome _ _ _ _ _ _
  exact (h2.modClient n _).rimDone n q d

theorem State.Onward.admitGo (n : Nat) : s.Onward (t.admitGo n) := by
  refine h.each _ _ fun t a ht => ?_
  split
  · refine iteInduction (motive := fun x : State => s.Onward x) (fun _ => ht) fun _ => ?_
    refine iteInduction (motive := fun x : State => s.Onward x) (fun _ => ht.admitEnd _ _ _ _ _) fun _ => ?_
    exact (ht.admitEnd _ _ _ _ _).when _ _ ((ht.admitEnd _ _ _ _ _).send _)
  · exact ht

theorem State.Onward.recordsNext (n q : Nat) : s.Onward (t.recordsNext n q) := by
  unfold State.recordsNext
  extract_lets lots t1 t2
  have h1 : s.Onward t1 := h.each _ _ fun _ l ht => ht.lotCheck n q l.ordinal
  have h2 : s.Onward t2 := h1.when _ _ ((h1.modQueue n q _).each _ _ fun _ r ht => ht.putRec n r)
  exact (h2.admitGo n).stopGo n

theorem State.Onward.memberRetired (u : CUnit) (m : Member) : s.Onward (t.memberRetired u m) := by
  unfold State.memberRetired
  split
  · exact h.putOut _ _
  · exact h.outRelease _ _ _

theorem State.Onward.commitRecord (u : CUnit) : s.Onward (t.commitRecord u) := by
  unfold State.commitRecord
  split
  · exact (h.dropUnit u.id).send _
  · split
    · exact (((((h.modClient _ _).putOut _ _).outcomeTrace _ _ _ _ _ _).memberRetired u _).lotDrop u _).dropUnit u.id
    · exact ((((h.putOut _ _).outcomeTrace _ _ _ _ _ _).memberRetired u _).lotDrop u _).dropUnit u.id
  · split
    · exact (h.dropUnit u.id).putLate _ _ _
    · exact (h.dropUnit u.id).putLate _ _ _

theorem State.Onward.drainLocal (u : CUnit) : s.Onward (t.drainLocal u) := by
  refine (h.each _ _ fun t x ht => ?_).each _ _ fun _ a ht => ht.modTile a _
  unfold State.drainByte
  split
  · obtain ⟨H, e⟩ := t.hbmWrite_eq (bits x.1 51 0) [mergeByte (memGet t.hbm (bits x.1 51 0)) x.2.1 x.2.2]
    exact ht.same (by rw [e])
  · split
    · exact ht.modTile _ _
    · exact ht

theorem State.Onward.finishUnit (u : CUnit) : s.Onward (t.finishUnit u) := (((h.drainLocal u).commitRecord u).recordsNext _ _).freeStale

end

end Sys2Proof.Machine


/-! PROOFS. Creation and tear-down of a context (R225, R250, R253, R403). -/

namespace Sys2Proof.Machine

open Sys2Proof Sys2Proof.Safety

/-! ### Creation (R253, R403) -/

/-- A client whose fields of SCH_BIND are written and whose areas are checked: CLI_HBM_STATUS tells the first check that fails. -/
def State.checked (s : State) (n v : Nat) : State := (s.bindFields n v).modClient n fun c => { c with hbmStatus := (s.bindFields n v).hbmCheck n }

section
variable {s : State} {n : Nat}

theorem State.bindFields_client (v : Nat) : ∃ p q e, (s.bindFields n v).client n = { s.client n with bindPart := p, pairPart := q, pairEn := e } := by
  unfold State.bindFields
  extract_lets part pair pen arb
  rw [State.modClient_self]
  extract_lets part' pair'
  split
  · exact ⟨_, _, _, rfl⟩
  · exact ⟨_, _, _, rfl⟩

theorem State.checked_client (v : Nat) : ∃ p q e, (s.checked n v).client n =
    { s.client n with bindPart := p, pairPart := q, pairEn := e, hbmStatus := (s.bindFields n v).hbmCheck n } := by
  obtain ⟨p, q, e, h⟩ := s.bindFields_client (n := n) v
  exact ⟨p, q, e, by rw [State.checked, State.modClient_self, h]⟩

/-- SCH_BIND with EN = 1 creates a context for a function that exists, where every check of its areas passes. -/
theorem contextCreate_eq {v : W32} (hready : s.frm.state = .ready) (hn : n < Config.clients) (hen : (s.client n).en = false)
    (hv : bit v.toNat 31 = true) (hfun : (s.bindFields n v.toNat).functionExists n = true) :
    contextCreate n v s = if (s.bindFields n v.toNat).hbmCheck n ≠ 0 then s.checked n v.toNat else (s.checked n v.toNat).createContext n := by
  have hgo : ¬ (s.frm.state != .ready || (s.client n).en || !bit v.toNat 31 || decide (Config.clients ≤ n)) = true := by
    simp [hready, hen, hv, Nat.not_le.2 hn]
  rw [contextCreate, if_neg hgo]
  exact if_neg (by simp [hfun])

/-- A context that is created is parked, with no saved state and no LOT. -/
theorem State.createContext_client (s : State) (n : Nat) : ((s.createContext n).client n).en = true ∧ ((s.createContext n).client n).resident = false
    ∧ ((s.createContext n).client n).parked.complete = false ∧ ((s.createContext n).client n).hbmStatus = (s.client n).hbmStatus ∧ ((s.createContext n).client n).lots = [] := by
  have hdrained : s.Onward (s.each (s.committedOf n) State.finishUnit) := (State.Onward.refl s).each _ _ fun _ u ht => ht.finishUnit u
  unfold State.createContext
  rw [State.modClient_self]
  exact ⟨rfl, rfl, rfl, (hdrained n).hbmStatus, rfl⟩

/-- Its records are zero. -/
theorem State.createContext_records (s : State) (n : Nat) {a : Nat} (hlo : (s.client n).areas.recs ≤ a) (hhi : a < (s.client n).areas.recs + 0x400000) :
    memGet (s.createContext n).hbm a = 0 :=
  (memGet_memClear _ _ _ _).trans (if_pos ⟨hlo, hhi⟩)

end

/-! ### The steps of a tear-down (R225, R250) -/

/-- A teardown closes a queue: it is TORN_DOWN, and its accepted descriptors end. -/
def State.closeQueue (s : State) (n q : Nat) : State :=
  let s := s.modQueue n q fun x => { x with state := .tornDown, closing := false, fetched := [], reading := none }
  s.each (s.queue n q).accepted fun s d => s.endAccepted n q d 5

/-- The open units of a client end with TEARDOWN. -/
def State.endOpen (s : State) (n : Nat) : State := s.each (s.openUnits n) fun s u => s.endUnit u 5 0

/-- A client leaves its windows, its partitions and its entries, and its context goes. -/
def State.vacate (s : State) (n : Nat) : State := (((s.freeClient n).unseat n).retireAll n).modClient n Client.torn

theorem State.teardown_eq (s : State) (n : Nat) :
    s.teardown n false = ((((((s.countParked n).finishAll n).dropBuild n).closeQueue n 0).closeQueue n 1).endOpen n).vacate n := by
  unfold State.teardown State.vacate State.endOpen State.closeQueue
  simp only [Bool.false_eq_true, if_false, State.each_cons, State.each_nil]

section
variable (s : State) (n : Nat)

theorem State.freeClient_tile (a : Nat) : (s.freeClient n).tile a = (s.tile a).freeWhere fun x => x.ofClient n :=
  tabGet_map ({} : Tile) s.tiles (fun _ t => t.freeWhere fun x => x.ofClient n) (fun _ => rfl) a

/-- Taking a client out of its partitions changes nothing but partitions. -/
theorem State.unseat_eq : ∃ P, s.unseat n = { s with parts := P } := by
  refine State.each_ind (P := fun t => ∃ P, t = { s with parts := P }) (fun t p ht => ?_) _ s ⟨_, rfl⟩
  have hparts (f : Part → Part) {t : State} (ht : ∃ P, t = { s with parts := P }) : ∃ P, t.modPart p f = { s with parts := P } := by
    obtain ⟨P, rfl⟩ := ht
    exact ⟨_, rfl⟩
  extract_lets x t'
  have ht' : ∃ P, t' = { s with parts := P } := by
    unfold t'
    split
    · exact hparts _ ht
    · exact ht
  split
  · exact ht'
  · split
    · exact hparts _ ht'
    · split
      · exact hparts _ ht'
      · exact ht'

theorem State.modClient_held (f : Client → Client) : (s.modClient n f).held = s.held := rfl

theorem State.modClient_entry (f : Client → Client) (i : Nat) : (s.modClient n f).entry i = s.entry i := rfl

/-- What is known of live units and windows together, of units alone. -/
theorem State.units_of_held {s : State} {x : List CUnit × (Nat → Tab Window)} (h : s.held = x) : s.units = x.1 := by rw [← h]; rfl

theorem State.windows_of_held {s : State} {x : List CUnit × (Nat → Tab Window)} (h : s.held = x) (a : Nat) : (s.tile a).windows = x.2 a := by rw [← h]; rfl

theorem State.retireAll_held : (s.retireAll n).held = s.held := State.each_keeps State.held _ (fun t _ => t.setEntry_held _ _) _ s

/-- A client that has left holds no window, and no unit has gone. -/
theorem State.vacate_held : (s.vacate n).held = (s.units, fun a => ((s.tile a).freeWhere fun x => x.ofClient n).windows) := by
  obtain ⟨P, hseat⟩ := (s.freeClient n).unseat_eq n
  have hheld : (s.vacate n).held = ((s.freeClient n).unseat n).held := by rw [State.vacate, State.modClient_held, State.retireAll_held]
  have htiles : (fun a => ((s.freeClient n).tile a).windows) = fun a => ((s.tile a).freeWhere fun x => x.ofClient n).windows :=
    funext fun a => by rw [State.freeClient_tile]
  rw [hheld, hseat, ← htiles]
  rfl

theorem State.vacate_unitsOf : (s.vacate n).unitsOf n = s.unitsOf n := by
  rw [State.unitsOf, State.units_of_held (s.vacate_held n), State.unitsOf]

theorem State.vacate_win (a w : Nat) : (((s.vacate n).tile a).win w).ofClient n = false := by
  have hwin : ((s.vacate n).tile a).windows = ((s.tile a).freeWhere fun x => x.ofClient n).windows := State.windows_of_held (s.vacate_held n) a
  rw [Tile.win, hwin]
  obtain hd | hm := tabGet_mem ({} : Window) ((s.tile a).freeWhere fun x => x.ofClient n).windows w
  · rw [hd]; rfl
  · exact Tile.freeWhere_not _ _ _ hm

theorem State.vacate_client : ((s.vacate n).client n).en = false ∧ ((s.vacate n).client n).resident = false ∧ ((s.vacate n).client n).build = none ∧ ((s.vacate n).client n).lots = [] := by
  unfold State.vacate
  rw [State.modClient_self]
  exact ⟨rfl, rfl, rfl, rfl⟩

end

section
variable {s t : State} (h : s.Onward t) (n : Nat)
include h

theorem State.Onward.countParked : s.Onward (t.countParked n) := by
  unfold State.countParked
  dsimp only
  split
  · exact (h.modAcct n _).modClient n _
  · exact h

theorem State.Onward.finishAll : s.Onward (t.finishAll n) := by
  refine h.each _ _ fun t u ht => ?_
  split
  · exact ht.finishUnit u
  · exact ht

theorem State.Onward.dropBuild : s.Onward (t.dropBuild n) := by
  unfold State.dropBuild
  split
  · exact h
  · exact (h.outRelease n _ _).modClient n _

theorem State.Onward.closeQueue (q : Nat) : s.Onward (t.closeQueue n q) :=
  (h.modQueue n q _ fun _ _ => ⟨rfl, rfl⟩).each _ _ fun _ d ht => ht.endAccepted n q d 5

theorem State.Onward.endOpen : s.Onward (t.endOpen n) := h.each _ _ fun _ u ht => ht.endUnit u 5 0

theorem State.Onward.vacate : s.Onward (t.vacate n) := by
  obtain ⟨P, hseat⟩ := (t.freeClient n).unseat_eq n
  have hfree : s.Onward ((t.freeClient n).unseat n) := h.same (by rw [hseat]; rfl)
  exact (hfree.each _ _ fun _ i ht => ht.setEntry i _).modClient n _

end

/-- A queue that a teardown closes is TORN_DOWN once its descriptors have ended. -/
theorem State.closeQueue_torn (s : State) (n q : Nat) : ((s.closeQueue n q).queue n q).Torn := by
  unfold State.closeQueue
  extract_lets t
  refine (((State.Onward.refl t).each _ _ fun _ d ht => ht.endAccepted n q d 5) n).torn q ?_
  rw [show (t.client n).queue q = _ from State.modQueue_queue_self s n q _]
  exact ⟨rfl, rfl⟩

/-- After a tear-down both queues are TORN_DOWN. -/
theorem State.teardown_torn (s : State) (n : Nat) : ((s.teardown n false).queue n 0).state = .tornDown ∧ ((s.teardown n false).queue n 1).state = .tornDown := by
  rw [State.teardown_eq]
  have h0 := State.closeQueue_torn (((s.countParked n).finishAll n).dropBuild n) n 0
  have h1 := State.closeQueue_torn ((((s.countParked n).finishAll n).dropBuild n).closeQueue n 0) n 1
  exact ⟨((((((State.Onward.refl _).closeQueue n 1).endOpen n).vacate n) n).torn 0 h0).1, (((((State.Onward.refl _).endOpen n).vacate n) n).torn 1 h1).1⟩

/-- After a tear-down the client has no context, and no window. -/
theorem State.teardown_client (s : State) (n : Nat) : ((s.teardown n false).client n).en = false ∧ ((s.teardown n false).client n).resident = false
    ∧ ((s.teardown n false).client n).build = none ∧ ((s.teardown n false).client n).lots = [] := by
  rw [State.teardown_eq]
  exact State.vacate_client _ n

theorem State.teardown_win (s : State) (n a w : Nat) : (((s.teardown n false).tile a).win w).ofClient n = false := by
  rw [State.teardown_eq]
  exact State.vacate_win _ n a w

/-- A tear-down neither halts a client nor ends its halt. -/
theorem State.teardown_halted (s : State) (n : Nat) : ((s.teardown n false).client n).dbg.halted = (s.client n).dbg.halted := by
  rw [State.teardown_eq]
  exact ((((((((State.Onward.refl s).countParked n).finishAll n).dropBuild n).closeQueue n 0).closeQueue n 1).endOpen n).vacate n n).halted

/-! ### Units of a client that is torn down (R225) -/

/-- A unit that ends leaves the other live units. -/
theorem State.endUnit_units (s : State) (u : CUnit) (status code : Nat) : (s.endUnit u status code).units = s.units.filter fun v => v.id != u.id := by
  obtain ⟨T, Q, F, K, h⟩ := s.unitGone_eq u
  rw [show (s.endUnit u status code).units = (s.unitGone u).units from congrArg Prod.fst (s.endUnit_held u status code), h]

/-- Ending units leaves of the live units those whose numbers are not theirs. -/
theorem State.endUnits_units (l : List CUnit) (status code : Nat) : ∀ t : State, ∀ v ∈ (t.each l fun s u => s.endUnit u status code).units,
    v ∈ t.units ∧ ∀ u ∈ l, v.id ≠ u.id := by
  induction l with
  | nil => exact fun t v hv => ⟨hv, by simp⟩
  | cons u l ih =>
    intro t v hv
    obtain ⟨hmem, hne⟩ := ih (t.endUnit u status code) v hv
    rw [State.endUnit_units, List.mem_filter] at hmem
    exact ⟨hmem.1, List.forall_mem_cons.2 ⟨by simpa using hmem.2, hne⟩⟩

/-- Once the open units of a client have ended, those that are left have committed. -/
theorem State.endOpen_committed (s : State) (n : Nat) : ∀ v ∈ (s.endOpen n).unitsOf n, v.phase = .committed := by
  intro v hv
  obtain ⟨hmem, hclient⟩ := List.mem_filter.1 hv
  obtain ⟨hlive, hne⟩ := State.endUnits_units (s.openUnits n) 5 0 s v hmem
  by_contra hphase
  exact hne v (List.mem_filter.2 ⟨List.mem_filter.2 ⟨hlive, hclient⟩, by simpa using hphase⟩) rfl

theorem State.teardown_committed (s : State) (n : Nat) : ∀ v ∈ (s.teardown n false).unitsOf n, v.phase = .committed := by
  rw [State.teardown_eq]
  rw [State.vacate_unitsOf]
  exact State.endOpen_committed _ n

/-! ### Entries of a client that is torn down (R250) -/

/-- The north copy is in use in every bank, and lists for a client, as entries that are not FREE, those of `l`. -/
def State.Lists (s : State) (n : Nat) (l : List Nat) : Prop := s.flt.rimBad = [] ∧ ∀ i ∈ l, i ∈ s.entriesOf n

theorem State.failReply_beyond (s : State) (u : CUnit) : (s.failReply u).beyondRecords = s.beyondRecords := by
  obtain ⟨P, K, h⟩ := s.failReply_eq u
  rw [h]; rfl

/-- Putting at a key what it holds leaves every key listed as it is. -/
theorem mem_tabPut_get {α : Type} (d : α) (t : Tab α) (i : Nat) : ∀ p ∈ t, p ∈ tabPut t i (tabGet d t i) := by
  induction t with
  | nil => intro p hp; cases hp
  | cons q r ih =>
    obtain ⟨k, v⟩ := q
    intro p hp
    unfold tabPut tabGet
    split
    · next hk => rw [hk]; exact hp
    · split
      · exact List.mem_cons_of_mem _ hp
      · obtain rfl | hr := List.mem_cons.1 hp
        · exact List.mem_cons_self ..
        · exact List.mem_cons_of_mem _ (ih p hr)

section
variable {s : State} {n : Nat} {l : List Nat} (h : s.Lists n l)
include h

theorem State.Lists.same {t : State} (hnorth : t.north = s.north) (hflt : t.flt = s.flt) : t.Lists n l := by
  unfold State.Lists State.entriesOf at *
  rwa [hnorth, hflt]

theorem State.Lists.beyond {t : State} (ht : t.beyondRecords = s.beyondRecords) : t.Lists n l := by
  simp only [State.beyondRecords, Prod.mk.injEq] at ht
  obtain ⟨-, -, hnorth, -, hflt, -⟩ := ht
  exact h.same hnorth hflt

/-- An entry that is written as it is. -/
theorem State.Lists.setSame (i : Nat) : (s.setEntry i (s.entry i)).Lists n l := by
  obtain ⟨hbad, hlist⟩ := h
  obtain ⟨W, N, C, O, heq⟩ := s.setEntry_eq i (s.entry i)
  have hentry : s.entry i = tabGet {} s.north i := by rw [State.entry, hbad]; rfl
  rw [heq, hentry]
  refine ⟨hbad, fun j hj => ?_⟩
  obtain ⟨p, hp, rfl⟩ := List.mem_map.1 (hlist j hj)
  obtain ⟨hmem, hof⟩ := List.mem_filter.1 hp
  exact List.mem_map_of_mem (List.mem_filter.2 ⟨mem_tabPut_get {} s.north i p hmem, hof⟩)

theorem State.Lists.each {α : Type} (k : List α) (f : State → α → State) (hf : ∀ t a, t.Lists n l → (f t a).Lists n l) : (s.each k f).Lists n l :=
  State.each_ind (P := fun t => t.Lists n l) hf k s h

/-- Under TEARDOWN the entry of a member that ends is left to the tear-down itself (R250). -/
theorem State.Lists.memberTorn (u : CUnit) (m : Member) : (s.memberFail u m 5 0).Lists n l := by
  unfold State.memberFail
  extract_lets detail e retire e1 e2 s1 s2 s3 s4 s5
  have h1 : s1.Lists n l := h.setSame m.entry
  have h2 : s2.Lists n l := h1.beyond (s1.outcome_beyond _ _ _ 8 _ _ (by decide))
  have h3 : s3.Lists n l := h2.beyond (s2.outcomeTrace_beyond _ _ _ _ _ _)
  have h4 : s4.Lists n l := by
    have hretire : retire = false := Bool.and_false _
    unfold s4 State.retiredOrRelease
    rw [hretire]
    exact h3.beyond (s3.outRelease_beyond _ _ _)
  exact (h4.beyond (s4.lotDrop_beyond u _)).beyond (State.lotCheck_beyond _ _ _ _)

/-- A unit's work goes, and those who take part are told, without a change of the Lot Table. -/
theorem State.Lists.unitTold (u : CUnit) (status code : Nat) : (s.unitTold u status code).Lists n l := by
  obtain ⟨T, Q, F, K, hgone⟩ := s.unitGone_eq u
  have hlist : (s.unitGone u).Lists n l := h.same (by rw [hgone]) (by rw [hgone])
  exact hlist.beyond ((State.failReply_beyond _ u).trans ((State.tellOthers_beyond _ u false).trans (State.trace1_beyond _ _)))

theorem State.Lists.unitTorn (u : CUnit) : (s.endUnit u 5 0).Lists n l := by
  have htold : (s.unitTold u 5 0).Lists n l := h.unitTold u 5 0
  rw [State.endUnit_eq]
  split
  · exact htold
  · split
    · exact htold.memberTorn u _
    · exact htold.beyond (State.putLate_beyond _ _ _ _)

theorem State.Lists.endWaiting (m q : Nat) (d : ADesc) (status code : Nat) : (s.endWaiting m q d status code).Lists n l := by
  refine h.beyond ((State.putLate_beyond _ _ _ _).trans ((State.trace1_beyond _ _).trans (s.when_beyond _ _ ?_)))
  exact (State.modClient_beyond _ m _).trans (s.modClient_beyond m _)

theorem State.Lists.lotTorn (m : Nat) (x : LotRun) : (s.lotEnd m x 5).Lists n l := by
  unfold State.lotEnd
  extract_lets s1 s2
  have h1 : s1.Lists n l := h.beyond (s.modClient_beyond m _)
  have h2 : s2.Lists n l := h1.each _ _ fun t id ht => by
    split
    · split
      · exact ht
      · exact ht.unitTorn _
    · exact ht
  split
  · exact h2.beyond (s2.lotRecord_beyond m _ 5)
  · exact h2

theorem State.Lists.acceptedTorn (m q : Nat) (d : ADesc) : (s.endAccepted m q d 5).Lists n l := by
  unfold State.endAccepted
  split
  · exact h.endWaiting m q d 5 0
  · split
    · split
      · exact h
      · exact h.unitTorn _
    · exact h.lotTorn m _
    · exact h.endWaiting m q d 5 0
  · exact h

theorem State.Lists.closeQueue (m q : Nat) : (s.closeQueue m q).Lists n l :=
  (h.beyond (s.modQueue_beyond m q _)).each _ _ fun _ d ht => ht.acceptedTorn m q d

theorem State.Lists.dropBuild (m : Nat) : (s.dropBuild m).Lists n l := by
  unfold State.dropBuild
  split
  · exact h
  · exact (h.beyond (s.outRelease_beyond m _ _)).beyond (State.modClient_beyond _ m _)

theorem State.Lists.countParked (m : Nat) : (s.countParked m).Lists n l := by
  unfold State.countParked
  dsimp only
  split
  · exact h.beyond ((State.modClient_beyond _ m _).trans (s.modClient_beyond m _))
  · exact h

end

/-- A write of an entry leaves every other entry as it reads. -/
theorem State.setEntry_entry_ne (s : State) {i j : Nat} (e : Entry) (hj : j ≠ i) : (s.setEntry i e).entry j = s.entry j := by
  obtain ⟨W, N, C, O, h⟩ := s.setEntry_eq i e
  rw [h]
  unfold State.entry
  dsimp only
  rw [tabGet_tabPut_ne _ _ _ hj, tabGet_tabPut_ne _ _ _ hj]

/-- Entries that are retired one after another are all RETIRING. -/
theorem State.retireEach_retiring (l : List Nat) : ∀ (s : State) (i : Nat), i ∈ l ∨ (s.entry i).state = .retiring →
    ((s.each l fun s j => s.modEntry j fun e => { e with state := .retiring }).entry i).state = .retiring := by
  induction l with
  | nil => exact fun s i hi => hi.resolve_left List.not_mem_nil
  | cons j l ih =>
    intro s i hi
    refine ih (s.modEntry j fun e => { e with state := .retiring }) i ?_
    by_cases hij : i = j
    · exact .inr (by rw [hij, State.modEntry_entry])
    · refine hi.imp (fun hm => (List.mem_cons.1 hm).resolve_left hij) fun hr => ?_
      rw [State.modEntry, State.setEntry_entry_ne _ _ hij]
      exact hr

theorem State.Lists.vacate {s : State} {n : Nat} {l : List Nat} (h : s.Lists n l) : ∀ i ∈ l, ((s.vacate n).entry i).state = .retiring := by
  obtain ⟨P, hseat⟩ := (s.freeClient n).unseat_eq n
  obtain ⟨-, hlist⟩ : ((s.freeClient n).unseat n).Lists n l := h.same (by rw [hseat]; rfl) (by rw [hseat]; rfl)
  intro i hi
  rw [State.vacate, State.modClient_entry, State.retireAll]
  exact State.retireEach_retiring _ _ i (.inl (hlist i hi))

/-- Where a client has no unit, a tear-down leaves each of its entries RETIRING (R250). -/
theorem State.teardown_retiring {s : State} {n : Nat} (hunits : s.unitsOf n = []) (hbad : s.flt.rimBad = []) :
    ∀ i ∈ s.entriesOf n, ((s.teardown n false).entry i).state = .retiring := by
  have hparked : (s.countParked n).units = s.units := by
    unfold State.countParked
    dsimp only
    split <;> rfl
  have hdone : (s.countParked n).finishAll n = s.countParked n := by
    simp only [State.finishAll, State.committedOf, State.unitsOf, hparked]
    rw [show s.units.filter (fun u => u.client == n) = [] from hunits]
    rfl
  have hlist : s.Lists n (s.entriesOf n) := ⟨hbad, fun _ hi => hi⟩
  rw [State.teardown_eq, hdone]
  exact (((((hlist.countParked n).dropBuild n).closeQueue n 0).closeQueue n 1).each _ _ fun _ u ht => ht.unitTorn u).vacate

/-! ### The obligation -/

theorem contextTeardown_eq {s : State} {n : Nat} {v : W32} (hready : s.frm.state = .ready) (hen : (s.client n).en = true) (hv : bit v.toNat 31 = false) :
    contextTeardown n v s = (s.endHalt n).teardown n false := by
  rw [contextTeardown, if_neg (by simp [hready, hen, hv])]

/-- Settles O52: the client's fields are those that the last step of a creation or a tear-down writes; what stands in other parts of the state is followed through the steps before it. -/
theorem contexts : Obligations.contexts := by
  unfold Obligations.contexts
  refine ⟨?created, ?refused, ?tornDown, ?entries⟩
  case created =>
    intro n v s ⟨hp, hready⟩ hn hen hv hfun hcheck
    refine answers_on hp rfl ?_
    rw [contextCreate_eq hready hn hen hv hfun, if_neg (not_not.2 hcheck)]
    obtain ⟨p, q, e, hclient⟩ := s.checked_client (n := n) v.toNat
    obtain ⟨hen', hres, hparked, hstatus, hlots⟩ := (s.checked n v.toNat).createContext_client n
    have hareas : ((s.checked n v.toNat).client n).areas = (s.client n).areas := by rw [hclient]
    refine ⟨hen', hres, hparked, hstatus.trans (by rw [hclient]; exact hcheck), hlots, fun a hlo hhi => ?_⟩
    exact (s.checked n v.toNat).createContext_records n (by rw [hareas]; exact hlo) (by rw [hareas]; exact hhi)
  case refused =>
    intro n v e s ⟨hp, hready⟩ hn hen hv hfun hcheck he
    refine answers_on hp rfl ?_
    rw [contextCreate_eq hready hn hen hv hfun, if_pos (by rw [hcheck]; exact he)]
    obtain ⟨p, q, x, hclient⟩ := s.checked_client (n := n) v.toNat
    rw [State.keep_client, hclient]
    exact ⟨hen, hcheck, rfl⟩
  case tornDown =>
    intro n v s ⟨hp, hready⟩ hen hv
    refine answers_on hp rfl ?_
    rw [contextTeardown_eq hready hen hv]
    obtain ⟨hen', hres, hbuild, hlots⟩ := (s.endHalt n).teardown_client n
    obtain ⟨h0, h1⟩ := (s.endHalt n).teardown_torn n
    have hhalted : (((s.endHalt n).teardown n false).client n).dbg.halted = false := by
      rw [State.teardown_halted, State.endHalt, State.modClient_self]
    have hunits := (s.endHalt n).teardown_committed n
    have hwin := (s.endHalt n).teardown_win n
    generalize (s.endHalt n).teardown n false = t at *
    exact ⟨hen', hres, hbuild, hlots, hhalted, h0, h1, hunits, hwin⟩
  case entries =>
    intro n v s ⟨hp, hready⟩ hen hv hunits hbad
    refine answers_on hp rfl ?_
    rw [contextTeardown_eq hready hen hv]
    have hretiring := State.teardown_retiring (s := s.endHalt n) hunits hbad
    generalize (s.endHalt n).teardown n false = t at *
    exact hretiring

end Sys2Proof.Machine


/-! PROOFS. A LOT's record also waits for units of its queue that committed before it and have their records to come, so a build that places nothing does not always end its LOT (R219; State.lotCheck). -/

namespace Sys2Proof.Machine

open Sys2Proof Sys2Proof.Safety

/-- The build of `lotS []` has placed nothing; unit 1, of a later descriptor of the queue, has committed and drains. -/
def emptyBuildWaits : State := { lotS [] with units := [{ uPh .committed with ordinal := 2, commitNo := 1 }], nextUnit := 2, order := 2 }

/-- The build ends, and the LOT is still there. -/
theorem emptyBuildWaits_lot : ∃ t, exec (.buildEnd 127) emptyBuildWaits = .next t ∧ (t.lot? 127 1 1).isSome = true :=
  ⟨_, exec_on rfl rfl rfl, by decide +kernel⟩

/-- Refutes O44: its fourth clause says that a build which has placed nothing ends its LOT with a record, and says nothing of the queue's other units. In `emptyBuildWaits` one of them has committed and its record is still to come, so the LOT's record waits for it (R219). -/
theorem not_lotBuilds : ¬ Obligations.lotBuilds := by
  unfold Obligations.lotBuilds
  rintro ⟨-, -, -, hempty⟩
  have hlot : emptyBuildWaits.lot? 127 1 1 = some { lotRun with building := true } := by decide +kernel
  have hheld : Unheld emptyBuildWaits 127 := by decide +kernel
  obtain ⟨t, hexec, -, hgone, -⟩ := hempty 127 (build1 []) { lotRun with building := true } emptyBuildWaits rfl rfl hlot rfl rfl rfl hheld
  obtain ⟨t', hexec', hstays⟩ := emptyBuildWaits_lot
  obtain rfl : t = t' := Host.Outcome.next.inj (hexec.symm.trans hexec')
  rw [show t.lot? 127 1 1 = none from hgone] at hstays
  cases hstays

end Sys2Proof.Machine


/-! PROOFS. Upkeep of the Lot Table: the end of retirement, the scrub of its two copies, and snapshots (R229, R231, R312, R313). -/

namespace Sys2Proof.Machine

open Sys2Proof Sys2Proof.Safety

/-! ### Upsets that retire nothing (R303) -/

/-- An upset that is not its unit's last is noted in FLT, and does no more. -/
theorem State.upset_steady {s : State} {cls n : Nat} (h : Steady s cls n) (source : Nat) (client : Option Nat) :
    s.upset source cls n client = { s with flt := upsetFlt s source cls n client } := by
  obtain ⟨hprobe, hretired, hbelow⟩ := h
  have hcharge : s.charge source cls n client = ({ s with flt := upsetFlt s source cls n client }, false) := by
    simp only [State.charge, hprobe, hretired, decide_eq_false (Nat.not_le.2 hbelow)]
    rfl
  rw [State.upset, hcharge]
  rfl

/-! ### Both copies of an entry (R229, R304) -/

/-- Entry `i` reads as `e` in both copies. -/
def State.repaired (s : State) (i : Nat) (e : Entry) : State := { s with north := tabPut s.north i e, south := tabPut s.south i e }

section
variable {s : State} {i : Nat}

/-- An entry is read from the north copy where its bank is in use. -/
theorem State.entry_north (h : s.flt.rimBad.contains (ltBank i) = false) : s.entry i = tabGet {} s.north i := by
  rw [State.entry, h]
  rfl

/-! ### The scrub (R312, R313) -/

section
variable (hn : s.flt.rimBad.contains (ltBank i) = false) (hs : s.flt.rimBad.contains (16 + ltBank i) = false)
include hn hs

theorem ltScrub_agree (h : tabGet ({} : Entry) s.north i = tabGet {} s.south i) : ltScrub i .clean .clean s = s := by
  simp only [ltScrub, hn, hs]
  exact if_pos h

theorem ltScrub_northFails : ltScrub i .failUsed .clean s = (s.repaired i (tabGet {} s.south i)).upset 0x0D 3 (ltBank i) none := by
  simp only [ltScrub, hn, hs]
  rfl

theorem ltScrub_southFails : ltScrub i .clean .failUsed s = (s.repaired i (tabGet {} s.north i)).upset 0x0D 3 (16 + ltBank i) none := by
  simp only [ltScrub, hn, hs]
  rfl

/-- Where only unused fields of the north copy fail, the copies' fields in use tell a latent error from an upset. -/
theorem ltScrub_northUnused {x e : Entry} (hx : tabGet {} s.north i = x) (he : tabGet {} s.south i = e) :
    ltScrub i .failUnused .clean s = if x.used (s.client x.client).winSeq = e.used (s.client e.client).winSeq then (s.repaired i e).latent (ltBank i)
      else (s.repaired i e).upset 0x0D 3 (ltBank i) none := by
  simp only [ltScrub, hn, hs, hx, he]
  rfl

end

/-- A scrub that charges a bank leaves the repaired entry in both copies. -/
theorem State.repaired_upset {e : Entry} {bank : Nat} (hn : s.flt.rimBad.contains (ltBank i) = false) (h : Steady s 3 bank) :
    ((s.repaired i e).upset 0x0D 3 bank none).entry i = e ∧ tabGet {} ((s.repaired i e).upset 0x0D 3 bank none).south i = e
      ∧ ((s.repaired i e).upset 0x0D 3 bank none).flt = upsetFlt s 0x0D 3 bank none := by
  rw [State.upset_steady (s := s.repaired i e) h]
  exact ⟨(State.entry_north (by exact hn)).trans (tabGet_tabPut_self ..), tabGet_tabPut_self .., rfl⟩

/-- A LATENT finding is logged and counted, and is no upset. -/
theorem State.repaired_latent {e : Entry} (bank : Nat) (hn : s.flt.rimBad.contains (ltBank i) = false) :
    ((s.repaired i e).latent bank).entry i = e ∧ tabGet {} ((s.repaired i e).latent bank).south i = e ∧ ((s.repaired i e).latent bank).flt.latent = s.flt.latent + 1
      ∧ ((s.repaired i e).latent bank).flt.head = s.flt.head + 1 ∧ ((s.repaired i e).latent bank).flt.upsets = s.flt.upsets := by
  obtain ⟨N, C, O, h⟩ := (s.repaired i e).fltLog_eq 0x0D 4 3 bank none
  rw [State.latent, h]
  exact ⟨(State.entry_north (by exact hn)).trans (tabGet_tabPut_self ..), tabGet_tabPut_self .., rfl, rfl, rfl⟩

end

/-! ### The end of retirement (R231, R445) -/

section
variable {s : State} {i : Nat}

/-- Of the windows that are freed none is left. -/
theorem Tile.freeWhere_win (t : Tile) {p : Window → Bool} (hp : p {} = false) (w : Nat) : p ((t.freeWhere p).win w) = false := by
  obtain hd | hm := tabGet_mem ({} : Window) (t.freeWhere p).windows w
  · rw [Tile.win, hd, hp]
  · exact Tile.freeWhere_not t p _ hm

/-- The state without the windows of a sequence, on tiles and in what is parked of its client. -/
def State.unwindowed (s : State) (n i : Nat) : State :=
  ({ s with tiles := s.tiles.map fun x => (x.1, x.2.freeWhere fun w => w.ofSeq n i) } : State).modClient n fun c => { c with parked := { c.parked with
    tiles := c.parked.tiles.map fun t => { t with windows := t.windows.filter fun w => !w.2.ofSeq n i }
    pairTiles := c.parked.pairTiles.map fun t => { t with windows := t.windows.filter fun w => !w.2.ofSeq n i } } }

theorem State.unwindowed_tile (n a : Nat) : (s.unwindowed n i).tile a = (s.tile a).freeWhere fun w => w.ofSeq n i :=
  tabGet_map ({} : Tile) s.tiles (fun _ t => t.freeWhere fun w => w.ofSeq n i) (fun _ => rfl) a

/-- Beside the release that a follower sends, the end of retirement frees the windows and the entry. -/
theorem retiringFreed_eq (hret : (s.entry i).state = .retiring) (hspill : s.inSpill i = false) :
    ∃ P K, retiringFreed i s = { (s.unwindowed (s.entry i).client i).setEntry i {} with ports := P, stk := K } := by
  have hgo : ¬ ((s.entry i).state != .retiring || s.inSpill i) = true := by simp [hret, hspill]
  rw [retiringFreed, if_neg hgo]
  dsimp only
  split
  · exact State.send_eq _ _
  · exact ⟨_, _, rfl⟩

theorem retiringFreed_frees (hret : (s.entry i).state = .retiring) (hspill : s.inSpill i = false) :
    (retiringFreed i s).entry i = {} ∧ (∀ j, j ≠ i → (retiringFreed i s).entry j = s.entry j)
      ∧ ∀ a w, (((retiringFreed i s).tile a).win w).ofSeq (s.entry i).client i = false := by
  obtain ⟨P, K, h⟩ := retiringFreed_eq hret hspill
  obtain ⟨W, N, C, O, hset⟩ := (s.unwindowed (s.entry i).client i).setEntry_eq i {}
  refine ⟨?_, fun j hj => ?_, fun a w => ?_⟩
  · rw [h]
    exact State.setEntry_entry _ i {}
  · rw [h]
    exact State.setEntry_entry_ne _ {} hj
  · have htile : (retiringFreed i s).tile a = (s.unwindowed (s.entry i).client i).tile a := by rw [h, hset]; rfl
    rw [htile, State.unwindowed_tile]
    exact Tile.freeWhere_win (s.tile a) (p := fun x => x.ofSeq (s.entry i).client i) rfl w

end

/-! ### Snapshots (R228, R229) -/

section
variable {s : State} {n : Nat} {v : W32} (hready : s.frm.state = .ready)
include hready

theorem cliLtSel_own (hstate : (s.entry (bits v.toNat 16 0)).state ≠ .free) (hclient : (s.entry (bits v.toNat 16 0)).client = n) :
    cliLtSel n v s = s.modClient n fun c => { c with
      ltSel := bits v.toNat 16 0, ltData := BitVec.ofNat 512 (leVal (entryBytes (s.entry (bits v.toNat 16 0)))) } := by
  have hown : ((s.entry (bits v.toNat 16 0)).state == .free || (s.entry (bits v.toNat 16 0)).client != n) = false := by simp [hstate, hclient]
  simp only [cliLtSel, hready, hown]
  rfl

theorem cliLtSel_other (h : (s.entry (bits v.toNat 16 0)).state = .free ∨ (s.entry (bits v.toNat 16 0)).client ≠ n) :
    cliLtSel n v s = s.modClient n fun c => { c with ltSel := bits v.toNat 16 0, ltData := 0 } := by
  have hother : ((s.entry (bits v.toNat 16 0)).state == .free || (s.entry (bits v.toNat 16 0)).client != n) = true := by simpa using h
  simp only [cliLtSel, hready, hother]
  rfl

end

/-! ### The obligation -/

/-- Settles O48: each clause is the equation of its command for the case in question; charges of a bank by way of State.upset_steady. -/
theorem lotTableUpkeep : Obligations.lotTableUpkeep := by
  unfold Obligations.lotTableUpkeep
  refine ⟨?retired, ?agree, ?northFails, ?southFails, ?latent, ?charged, ?own, ?other⟩
  case retired =>
    intro i s hp hret hspill
    exact answers_on hp rfl (retiringFreed_frees hret hspill)
  case agree =>
    intro i e s hp hn hs hx he
    exact exec_on hp rfl (by rw [ltScrub_agree hn hs (hx.trans he.symm)]; rfl)
  case northFails =>
    intro i e s hp hn hs he hsteady
    refine answers_on hp rfl ?_
    rw [ltScrub_northFails hn hs, he]
    exact State.repaired_upset hn hsteady
  case southFails =>
    intro i e s hp hn hs he hsteady
    refine answers_on hp rfl ?_
    rw [ltScrub_southFails hn hs, he]
    exact State.repaired_upset hn hsteady
  case latent =>
    intro i x e s hp hn hs hx he hused
    refine answers_on hp rfl ?_
    rw [ltScrub_northUnused hn hs hx he, if_pos hused]
    exact State.repaired_latent _ hn
  case charged =>
    intro i x e s hp hn hs hx he hused hsteady
    refine answers_on hp rfl ?_
    rw [ltScrub_northUnused hn hs hx he, if_neg hused]
    exact State.repaired_upset hn hsteady
  case own =>
    intro n v s ⟨hp, hready⟩ hstate hclient
    exact exec_on hp rfl (by rw [cliLtSel_own hready hstate hclient]; rfl)
  case other =>
    intro n v s ⟨hp, hready⟩ h
    exact exec_on hp rfl (by rw [cliLtSel_other hready h]; rfl)

end Sys2Proof.Machine


/-! PROOFS. Descriptors of the rims that write an entry of the Lot Table and its outcome before they commit: what their record rests on is left as it was (R217, R220, R229). -/

namespace Sys2Proof.Machine

open Sys2Proof Sys2Proof.Safety

/-! ### Host traffic that is not held (R390, R395) -/

section
variable {s : State} {n : Nat} (h : Unheld s n)
include h

/-- Changing a client otherwise than in what holds its traffic. -/
theorem State.modClient_unheld (m : Nat) (f : Client → Client)
    (hf : ∀ c, (f c).func.bme = c.func.bme ∧ (f c).func.d3hot = c.func.d3hot ∧ (f c).func.held = c.func.held := by intro _; exact ⟨rfl, rfl, rfl⟩) : Unheld (s.modClient m f) n := by
  by_cases hm : m = n
  · subst hm
    exact ⟨(s.modClient_canDma f fun c => ⟨(hf c).1, (hf c).2.1⟩).trans h.1, by rw [State.modClient_self, (hf _).2.2, h.2]⟩
  · unfold Unheld State.canDma
    rw [State.modClient_ne _ _ _ _ (Ne.symm hm)]
    exact h

/-- A message of a function that may send is not held, and that of another is no matter. -/
theorem State.msix_unheld (m v : Nat) : Unheld (s.msix m v) n := by
  unfold State.msix
  dsimp only
  split
  · exact State.modClient_unheld h m _
  · split
    · exact h
    · next hdma =>
      have hm : n ≠ m := fun e => hdma (e ▸ h.1)
      unfold Unheld State.canDma
      rw [State.modClient_ne _ _ _ _ hm]
      exact h

theorem State.msix4_unheld : Unheld s.msix4 n := by
  refine State.each_ind (P := fun x => Unheld x n) (fun x p hx => ?_) _ s h
  exact State.when_ind (P := fun x => Unheld x n) x _ (fun x => x.msix (32 * p) 4) (State.msix_unheld hx _ _) hx

theorem State.notice_unheld (code index value : Nat) (cl : Option Nat) : Unheld (s.notice code index value cl) n := by
  unfold State.notice
  extract_lets e t t'
  have ht : Unheld t' n := by
    unfold t'
    split
    · exact State.msix_unheld (s := t) h _ 3
    · exact State.msix4_unheld (s := t) h
  split
  · exact ht
  · exact ht

theorem State.setEntry_unheld (i : Nat) (e : Entry) : Unheld (s.setEntry i e) n := by
  unfold State.setEntry
  extract_lets old t
  refine State.when_ind (P := fun x => Unheld x n) t _ _ ?_ h
  unfold State.wmLtOcc
  exact State.when_ind (P := fun x => Unheld x n) _ _ _ (State.notice_unheld (s := { t with wmLot := _ }) h _ _ _ _) h

theorem State.outWrite_unheld (m : Nat) (e : OutE) : Unheld (s.outWrite m e) n := by
  unfold State.outWrite
  extract_lets o t t' p
  obtain ⟨H, O, ht⟩ : ∃ H O, t = { s with hbm := H, out := O } := s.ringWrite_eq _ _ _ _
  have hun : Unheld t' n := State.modClient_unheld (s := t) (by rw [ht]; exact h) m _
  exact State.when_ind (P := fun x => Unheld x n) t' _ _ (State.msix_unheld (State.modClient_unheld hun m _) m 2) hun

theorem State.putOut_unheld (e : OutE) : Unheld (s.putOut n e) n := by
  unfold State.putOut
  dsimp only
  split
  · exact h
  · rw [if_neg (by simp [h.1])]
    exact State.outWrite_unheld h n e

theorem State.outcome_unheld (i ring out detail time : Nat) : Unheld (s.outcome n i ring out detail time) n := by
  refine State.putOut_unheld ?_ _
  have hacct : Unheld (s.modAcct n fun a => a.outcome out) n := State.modClient_unheld h n _
  exact State.when_ind (P := fun x => Unheld x n) _ _ _ (State.modClient_unheld hacct n _) hacct

end

/-! ### What an outcome leaves of a client (R220, R288) -/

/-- A client without what messages and outcome entries may change: its function and its outcome ring. -/
def Client.offRing (c : Client) : Client := { c with func := {}, out := {} }

section
variable (s : State) (n m : Nat)

theorem State.modClient_offRing (f : Client → Client) (hf : ∀ c, (f c).offRing = c.offRing := by intro _; rfl) : ((s.modClient n f).client m).offRing = (s.client m).offRing := by
  by_cases hm : m = n
  · rw [hm, State.modClient_self, hf]
  · rw [State.modClient_ne _ _ _ _ hm]

theorem State.outWrite_offRing (e : OutE) : ((s.outWrite n e).client m).offRing = (s.client m).offRing := by
  unfold State.outWrite
  extract_lets o t t' p
  obtain ⟨H, O, ht⟩ : ∃ H O, t = { s with hbm := H, out := O } := s.ringWrite_eq _ _ _ _
  have ht' : (t'.client m).offRing = (s.client m).offRing := (t.modClient_offRing n m _).trans (by rw [ht]; rfl)
  refine State.when_ind (P := fun x => (x.client m).offRing = (s.client m).offRing) t' _ _ ?_ ht'
  exact (State.msix_client _ Client.offRing (fun _ _ => rfl) n 2 m).trans ((t'.modClient_offRing n m _).trans ht')

theorem State.putOut_offRing (e : OutE) : ((s.putOut n e).client m).offRing = (s.client m).offRing := by
  unfold State.putOut
  dsimp only
  split
  · rfl
  · split
    · exact s.modClient_offRing n m _
    · exact s.outWrite_offRing n m e

/-- An outcome other than DEFERRED is counted in the accounts of its client. -/
theorem State.outcome_offRing (i ring detail time : Nat) {out : Nat} (hout : out ≠ 3) :
    ((s.outcome n i ring out detail time).client n).offRing = { (s.client n).offRing with acct := (s.client n).acct.outcome out } := by
  have hdefer : (out == 3) = false := by simpa using hout
  simp only [State.outcome, hdefer, State.when_false, State.putOut_offRing, State.modAcct, State.modClient_self]
  rfl

theorem State.outcome_eq (i ring out detail time : Nat) : ∃ C H O, s.outcome n i ring out detail time = { s with clients := C, hbm := H, out := O } := by
  unfold State.outcome
  extract_lets t t'
  obtain ⟨C, ht'⟩ : ∃ C, t' = { s with clients := C } := State.when_ind (P := fun x => ∃ C, x = { s with clients := C }) t _ _ ⟨_, rfl⟩ ⟨_, rfl⟩
  obtain ⟨C', H, O, h⟩ := t'.putOut_eq n { seq := t'.seqId i, outcome := out, detail := detail, step := (t'.entry i).step, time := time, ring := ring }
  exact ⟨C', H, O, by rw [h, ht']⟩

end

/-! ### From the start to the record, with an entry and its outcome between -/

/-- Outcome `out` is noted for client `n` between two states, or none where `out` is 0: of what a record rests on, accounts and pending messages alone may differ. -/
structure State.Noted (m m' : State) (n out : Nat) : Prop where
  parts : m'.parts = m.parts
  linkUp : m'.linkUp = m.linkUp
  client : (m'.client n).offRing = { (m.client n).offRing with acct := (m.client n).acct.outcome out }
  unheld : Unheld m n → Unheld m' n

theorem State.setEntry_noted (m : State) (n i : Nat) (e : Entry) : m.Noted (m.setEntry i e) n 0 := by
  obtain ⟨W, N, C, O, h⟩ := m.setEntry_eq i e
  exact ⟨by rw [h], by rw [h], m.setEntry_client Client.offRing (fun _ _ => rfl) i e n, fun hun => State.setEntry_unheld hun i e⟩

theorem State.outcome_noted (m : State) (n i ring detail time : Nat) {out : Nat} (hout : out ≠ 3) : m.Noted (m.outcome n i ring out detail time) n out := by
  obtain ⟨C, H, O, h⟩ := m.outcome_eq n i ring out detail time
  exact ⟨by rw [h], by rw [h], m.outcome_offRing n i ring detail time hout, fun hun => State.outcome_unheld hun i ring out detail time⟩

/-- An outcome is counted beside the wait. -/
theorem Acct.outcome_waited (a : Acct) (q out : Nat) (w : W64) : (a.outcome out).waited q w = (a.waited q w).outcome out := by
  unfold Acct.outcome Acct.waited
  split <;> split <;> rfl

theorem Acct.outcome_qsum0 (a : Acct) (out : Nat) : (a.outcome out).qsum0 = a.qsum0 := by
  unfold Acct.outcome
  split <;> rfl

/-- A record that rests on `b` rests on `s` as well. -/
structure State.Backs (s b : State) (n q : Nat) : Prop where
  parts : b.parts = s.parts
  now : b.now = s.now
  queue : b.queue n q = s.queue n q
  bind : (b.client n).bindPart = (s.client n).bindPart
  qsum0 : (b.client n).acct.qsum0 = (s.client n).acct.qsum0

/-- In `m` descriptor `d` of the rims has started from `s`, outcomes have perhaps been noted since, and its record need not be held. -/
def State.RimGoes (s m : State) (n q : Nat) (d : ADesc) : Prop := Unheld m n ∧ ∃ b, s.Backs b n q ∧ b.RimBegun m n q d

section
variable {s m : State} {n q : Nat} {d : ADesc}

theorem State.rimStart_goes (hun : Unheld s n) (q : Nat) (d : ADesc) : s.RimGoes (s.rimStart n q d) n q d :=
  ⟨(s.rimStart_begun n q d).unheld hun, s, ⟨rfl, rfl, rfl, rfl, rfl⟩, s.rimStart_begun n q d⟩

theorem State.RimGoes.modClient (h : s.RimGoes m n q d) (f : Client → Client)
    (hf : ∀ c, (f c).queue q = c.queue q ∧ (f c).bindPart = c.bindPart ∧ (f c).acct = c.acct ∧ (f c).func = c.func := by intro _; exact ⟨rfl, rfl, rfl, rfl⟩) :
    s.RimGoes (m.modClient n f) n q d := by
  obtain ⟨hun, b, hb, hbegun⟩ := h
  refine ⟨State.modClient_unheld hun n f fun c => ?_, b, hb, hbegun.modClient f hf⟩
  rw [(hf c).2.2.2]
  exact ⟨rfl, rfl, rfl⟩

/-- A reservation of outcome slots is no matter to a record. -/
theorem State.RimGoes.outReserve (h : s.RimGoes m n q d) (k : Nat) : s.RimGoes (m.outReserve n k) n q d :=
  h.modClient _ fun c => by split <;> exact ⟨rfl, rfl, rfl, rfl⟩

theorem State.RimGoes.noted (h : s.RimGoes m n q d) {m' : State} {out : Nat} (hnoted : m.Noted m' n out) : s.RimGoes m' n q d := by
  obtain ⟨hun, b, hb, hbegun⟩ := h
  have hqueue : m'.queue n q = m.queue n q := (congrArg (fun c => Client.queue c q) hnoted.client :)
  have hbind : (m'.client n).bindPart = (m.client n).bindPart := (congrArg Client.bindPart hnoted.client :)
  have hacct : (m'.client n).acct = (m.client n).acct.outcome out := (congrArg Client.acct hnoted.client :)
  refine ⟨hnoted.unheld hun, b.modClient n fun c => { c with acct := c.acct.outcome out, func := (m'.client n).func },
    ⟨hb.parts, hb.now, ?_, ?_, ?_⟩, hnoted.parts.trans hbegun.parts, hnoted.linkUp.trans hbegun.linkUp, ?_, ?_, ?_, ?_⟩
  · rw [State.queue, State.modClient_self]
    exact hb.queue
  · rw [State.modClient_self]
    exact hb.bind
  · rw [State.modClient_self]
    exact (Acct.outcome_qsum0 _ out).trans hb.qsum0
  · rw [hqueue, hbegun.queue, State.queue, State.queue, State.modClient_self]
    rfl
  · rw [hbind, hbegun.bind, State.modClient_self]
  · rw [hacct, hbegun.acct, State.modClient_self, Acct.outcome_waited]
    rfl
  · rw [State.modClient_self]

/-- The record of a descriptor that goes on so is in its ring. -/
theorem State.RimGoes.done (h : s.RimGoes m n q d) {tag : W32} (hwait : s.waiting? n q tag = some d) : RimDone s (m.rimDone n q d) n q d := by
  obtain ⟨⟨hdma, hheld⟩, b, hb, hbegun⟩ := h
  have hun : Unheld b n := ⟨by rw [State.canDma, ← hbegun.func, ← hbegun.linkUp]; exact hdma, by rw [← hbegun.func]; exact hheld⟩
  obtain ⟨hcount, hlisted, htags, hcommits, hqsum⟩ := hbegun.done (tag := tag) (by rw [State.waiting?, hb.queue]; exact hwait) hun
  refine ⟨by rw [hcount, hb.queue], hlisted, htags, ?_, fun hq => ?_⟩
  · rw [← hb.bind, hcommits, State.part, hb.parts]
    rfl
  · rw [hqsum hq, hb.qsum0, hb.now]

/-- Its commit leaves the Lot Table alone. -/
theorem State.RimGoes.done_entry (h : s.RimGoes m n q d) : (m.rimDone n q d).entry = m.entry :=
  congrArg Prod.snd (State.table_of_beyond (State.rimDone_keeps h.1 q d).1)

end

end Sys2Proof.Machine


/-! PROOFS. SEQ subcommands on an entry: RETIRE, KICK, SET_DEADLINE, SET_PERIOD and SET_COUNTS (R189, R234). -/

namespace Sys2Proof.Machine

open Sys2Proof Sys2Proof.Safety

/-! ### The effect by the entry's state (R234) -/

section
variable {e : Entry} (h : e.state ≠ .retiring) (arg dl : Nat)
include h

theorem seqApply_retire : seqApply 2 arg dl e = if e.state = .running then { e with retirePend := true } else { e with state := .retiring } := by
  unfold seqApply
  cases hstate : e.state with
  | retiring => exact absurd hstate h
  | _ => rfl

theorem seqApply_kick : seqApply 3 arg dl e = if e.state = .running
    then { e with kicked := true, deadline := if dl = 0 then e.deadline else dl, dlSet := e.dlSet || dl != 0 }
    else { e with state := .ready, kicked := false, deadline := if dl = 0 then e.deadline else dl } := by
  unfold seqApply
  cases hstate : e.state with
  | retiring => exact absurd hstate h
  | _ => rfl

theorem seqApply_setDeadline : seqApply 4 arg dl e = { e with deadline := dl, dlSet := e.dlSet || e.state == .running } := by
  unfold seqApply
  cases hstate : e.state with
  | retiring => exact absurd hstate h
  | _ => rfl

theorem seqApply_setPeriod : seqApply 5 arg dl e = { e with period := arg } := by
  unfold seqApply
  cases hstate : e.state with
  | retiring => exact absurd hstate h
  | _ => rfl

theorem seqApply_setCounts : seqApply 6 arg dl e = { e with m0 := bits arg 15 0, m1 := bits arg 31 16 } := by
  unfold seqApply
  cases hstate : e.state with
  | retiring => exact absurd hstate h
  | _ => rfl

end

/-! ### From the start to the record -/

/-- A SEQ subcommand that has started has written its entry. -/
def State.seqWritten (s : State) (n q : Nat) (d : ADesc) (sub : Nat) : State :=
  (s.rimStart n q d).setEntry (seqIdOf d.desc % 2 ^ 17) (seqApply sub (seqArg d.desc) (dDeadline d.desc) (s.entry (seqIdOf d.desc % 2 ^ 17)))

/-- A RETIRE that leaves its entry RETIRING has its outcome too (R222, R234). -/
def State.seqNoted (s : State) (n q : Nat) (d : ADesc) (sub : Nat) : State :=
  let e := s.entry (seqIdOf d.desc % 2 ^ 17)
  let m := s.seqWritten n q d sub
  if sub = 2 ∧ e.state ≠ .running ∧ e.state ≠ .retiring then (m.outReserve n 1).outcome n (seqIdOf d.desc % 2 ^ 17) (m.client n).out.token 7 0 m.now else m

/-- What a SEQ subcommand other than ADMIT waits for (R222, R235). -/
def State.seqMay (s : State) (n q sub : Nat) (d : ADesc) : Bool :=
  seqReserved d.desc || (seqSub d.desc == sub && s.recordsDone n q && (s.client n).build.isNone && (sub != 2 || !(s.client n).out.enable || (s.client n).out.free != 0))

section
variable {s : State} {n q sub : Nat} {d : ADesc}

theorem State.seqNoted_goes (hun : Unheld s n) : s.RimGoes (s.seqNoted n q d sub) n q d := by
  have hwritten : s.RimGoes (s.seqWritten n q d sub) n q d := (State.rimStart_goes hun q d).noted (State.setEntry_noted _ n _ _)
  unfold State.seqNoted
  dsimp only
  split
  · exact (hwritten.outReserve 1).noted (State.outcome_noted _ n _ _ _ _ (by decide))
  · exact hwritten

theorem State.seqNoted_entry : (s.seqNoted n q d sub).entry (seqIdOf d.desc % 2 ^ 17)
    = seqApply sub (seqArg d.desc) (dDeadline d.desc) (s.entry (seqIdOf d.desc % 2 ^ 17)) := by
  have hwritten : (s.seqWritten n q d sub).entry (seqIdOf d.desc % 2 ^ 17) = _ := State.setEntry_entry _ _ _
  unfold State.seqNoted
  dsimp only
  split
  · have hbeyond := State.outcome_beyond ((s.seqWritten n q d sub).outReserve n 1) n (seqIdOf d.desc % 2 ^ 17)
      ((s.seqWritten n q d sub).client n).out.token 7 0 (s.seqWritten n q d sub).now (by decide)
    exact (congrFun (congrArg Prod.snd (State.table_of_beyond hbeyond)) _).trans hwritten
  · exact hwritten

/-- A SEQ subcommand that nothing stands in the way of commits, and its entry is what `seqApply` makes of it. -/
theorem seqCmd_done {tag : W32} (hstart : CanStart s n q tag kSEQ d) (hsub : seqSub d.desc = sub) (hdone : s.recordsDone n q = true)
    (hbuild : (s.client n).build = none) (hroom : sub ≠ 2 ∨ (s.client n).out.enable = false ∨ (s.client n).out.free ≠ 0) (hun : Unheld s n) :
    RimDone s (seqCmd sub n q tag s) n q d
      ∧ (seqCmd sub n q tag s).entry (seqIdOf d.desc % 2 ^ 17) = seqApply sub (seqArg d.desc) (dDeadline d.desc) (s.entry (seqIdOf d.desc % 2 ^ 17)) := by
  have hmay : s.seqMay n q sub d = true := by
    obtain h | h | h := hroom <;> simp [State.seqMay, hsub, hdone, hbuild, h]
  obtain ⟨-, hwait, -⟩ := id hstart
  have heq : seqCmd sub n q tag s = (s.seqNoted n q d sub).rimDone n q d := by
    unfold seqCmd State.seqNoted
    exact State.startWith_goes hstart (ready := s.seqMay n q sub) hmay _
  have hgoes : s.RimGoes (s.seqNoted n q d sub) n q d := State.seqNoted_goes hun
  rw [heq]
  exact ⟨hgoes.done hwait, (congrFun hgoes.done_entry _).trans State.seqNoted_entry⟩

end

/-! ### The obligation -/

/-- Settles O46: each subcommand commits with what `seqApply` makes of its entry, which is read off by the entry's state. -/
theorem sequenceCommands : Obligations.sequenceCommands := by
  unfold Obligations.sequenceCommands
  refine ⟨?retire, ?kick, ?setDeadline, ?setPeriod, ?setCounts⟩
  case retire =>
    rintro n q tag d _ s hstart hsub hdone hbuild hroom hun rfl hentry
    obtain ⟨hrim, he⟩ := seqCmd_done hstart hsub hdone hbuild (.inr hroom) hun
    exact answers_on hstart.1.1 rfl ⟨hrim, he.trans (seqApply_retire hentry _ _)⟩
  case kick =>
    rintro n q tag d _ s hstart hsub hdone hbuild hun rfl hentry
    obtain ⟨hrim, he⟩ := seqCmd_done hstart hsub hdone hbuild (.inl (by decide)) hun
    exact answers_on hstart.1.1 rfl ⟨hrim, he.trans (seqApply_kick hentry _ _)⟩
  case setDeadline =>
    rintro n q tag d _ s hstart hsub hdone hbuild hun rfl hentry
    obtain ⟨hrim, he⟩ := seqCmd_done hstart hsub hdone hbuild (.inl (by decide)) hun
    exact answers_on hstart.1.1 rfl ⟨hrim, he.trans (seqApply_setDeadline hentry _ _)⟩
  case setPeriod =>
    rintro n q tag d _ s hstart hsub hdone hbuild hun rfl hentry
    obtain ⟨hrim, he⟩ := seqCmd_done hstart hsub hdone hbuild (.inl (by decide)) hun
    exact answers_on hstart.1.1 rfl ⟨hrim, he.trans (seqApply_setPeriod hentry _ _)⟩
  case setCounts =>
    rintro n q tag d _ s hstart hsub hdone hbuild hun rfl hentry
    obtain ⟨hrim, he⟩ := seqCmd_done hstart hsub hdone hbuild (.inl (by decide)) hun
    exact answers_on hstart.1.1 rfl ⟨hrim, he.trans (seqApply_setCounts hentry _ _)⟩

end Sys2Proof.Machine


/-! PROOFS. ADMIT: its conditions, its commit and its refusal, and a follower's question to the lead (R236, R237, R445). -/

namespace Sys2Proof.Machine

open Sys2Proof Sys2Proof.Safety

/-! ### What the conditions rest on (R236) -/

/-- An ADMIT has started, and an outcome slot is reserved for it. -/
def State.admitBegun (s : State) (n q : Nat) (d : ADesc) : State := (s.rimStart n q d).outReserve n 1

section
variable (s : State) (n q : Nat) (d : ADesc)

theorem State.admitBegun_eq : ∃ C H V, s.admitBegun n q d = { s with clients := C, hbm := H, trace := V } := by
  obtain ⟨H, V, h, -⟩ := s.rimStart_eq n q d
  exact ⟨_, H, V, by rw [State.admitBegun, h]; rfl⟩

/-- Of its client an ADMIT's start changes a queue, accounts, breaks and the reserved slots. -/
theorem State.admitBegun_client : ∃ x0 x1 a D k, (s.admitBegun n q d).client n =
    { s.client n with q0 := x0, q1 := x1, acct := a, dbg := D, out := { (s.client n).out with reserved := k } } := by
  obtain ⟨H, V, h, -⟩ := s.rimStart_eq n q d
  obtain ⟨D, hmark⟩ := s.markStarted_client n q d 0
  have hstart : (s.rimStart n q d).client n = _ := (congrArg (State.client · n) h).trans hmark
  rw [State.admitBegun, State.outReserve, State.modClient_self, hstart, Client.modQueue_eq]
  dsimp only
  split
  · exact ⟨_, _, _, _, _, rfl⟩
  · exact ⟨_, _, _, _, (s.client n).out.reserved, rfl⟩

theorem State.admitBegun_token : ((s.admitBegun n q d).client n).out.token = (s.client n).out.token := by
  obtain ⟨x0, x1, a, D, k, h⟩ := s.admitBegun_client n q d
  rw [h]
  rfl

theorem State.admitBegun_spillArea : (s.admitBegun n q d).spillArea n = s.spillArea n := by
  obtain ⟨C, H, V, h⟩ := s.admitBegun_eq n q d
  obtain ⟨x0, x1, a, D, k, hclient⟩ := s.admitBegun_client n q d
  unfold State.spillArea
  rw [hclient, h]
  rfl

theorem State.admitBegun_refusal : (s.admitBegun n q d).refusal n d = s.refusal n d := by
  obtain ⟨C, H, V, h⟩ := s.admitBegun_eq n q d
  obtain ⟨x0, x1, a, D, k, hclient⟩ := s.admitBegun_client n q d
  unfold State.refusal
  rw [State.admitBegun_spillArea, hclient, h]
  rfl

/-- Neither what the lead's count says nor the client's quota changes. -/
theorem State.admitBegun_stack : (s.admitBegun n q d).stackCount n = s.stackCount n ∧ ((s.admitBegun n q d).client n).stackQuota = (s.client n).stackQuota
    ∧ (s.admitBegun n q d).frm = s.frm := by
  obtain ⟨C, H, V, h⟩ := s.admitBegun_eq n q d
  obtain ⟨x0, x1, a, D, k, hclient⟩ := s.admitBegun_client n q d
  exact ⟨by rw [h]; rfl, by rw [hclient], by rw [h]⟩

theorem State.admitBegun_begun : s.RimBegun (s.admitBegun n q d) n q d :=
  (s.rimStart_begun n q d).modClient _ fun c => by split <;> exact ⟨rfl, rfl, rfl, rfl⟩

/-- The ADMITs that wait, and how many have been refused, stay as they are. -/
theorem State.admitBegun_counts : ((s.admitBegun n q d).client n).admits = (s.client n).admits ∧ ((s.admitBegun n q d).client n).refusals = (s.client n).refusals
    ∧ ((s.admitBegun n q d).client n).acct.refused = (s.client n).acct.refused := by
  obtain ⟨x0, x1, a, D, k, hclient⟩ := s.admitBegun_client n q d
  refine ⟨by rw [hclient], by rw [hclient], ?_⟩
  rw [(s.admitBegun_begun n q d).acct, Acct.waited]
  split <;> rfl

end

/-! ### What an ADMIT does (R236, R445) -/

/-- What an ADMIT waits for (R222, R235, R447). -/
def State.admitMay (s : State) (n q : Nat) (d : ADesc) : Bool :=
  seqReserved d.desc || (seqSub d.desc == 1 && s.recordsDone n q && (s.client n).admits.isEmpty && (s.client n).build.isNone
    && (!(s.client n).out.enable || (s.client n).out.free != 0) && s.stk.rebuilding.isNone)

/-- An ADMIT asks the lead, and is kept until the answer is here. -/
def State.admitAsked (s : State) (n q : Nat) (tag : W32) (d : ADesc) : State :=
  let r := s.request 0 (lotSync 1 n s.frm.leadId (admitData (seqIdOf d.desc) n))
  r.2.modClient n fun c => { c with admits := c.admits ++ [{ q := q, tag := tag, since := s.now, tid := r.1, ring := (s.client n).out.token }] }

/-- Nothing stands in the way of an ADMIT, and it need not wait. -/
structure Admits (s : State) (n q : Nat) (tag : W32) (d : ADesc) : Prop where
  start : CanStart s n q tag kSEQ d
  sub : seqSub d.desc = 1
  records : s.recordsDone n q = true
  admits : (s.client n).admits = []
  build : (s.client n).build = none
  room : (s.client n).out.enable = false ∨ (s.client n).out.free ≠ 0
  rebuilding : s.stk.rebuilding = none

section
variable {s : State} {n q : Nat} {tag : W32} {d : ADesc} (h : Admits s n q tag d)
include h

theorem Admits.seqAdmit_eq : seqAdmit n q tag s =
    if s.refusal n d ≠ 0 then (s.admitBegun n q d).admitEnd n q d (s.client n).out.token (s.refusal n d)
    else if s.frm.role = 2 then (s.admitBegun n q d).admitAsked n q tag d
    else if (s.client n).stackQuota ≤ s.stackCount n then (s.admitBegun n q d).admitEnd n q d (s.client n).out.token 7
    else (s.admitBegun n q d).admitEnd n q d (s.client n).out.token 0 := by
  have hmay : s.admitMay n q d = true := by
    obtain hroom | hroom := h.room <;> simp [State.admitMay, h.sub, h.records, h.admits, h.build, hroom, h.rebuilding]
  obtain ⟨hcount, hquota, hfrm⟩ := s.admitBegun_stack n q d
  rw [← s.admitBegun_refusal n q d, ← s.admitBegun_token n q d, ← hcount, ← hquota, ← hfrm]
  unfold seqAdmit
  exact State.startWith_goes h.start (ready := s.admitMay n q) hmay _

theorem Admits.refused (hwhy : s.refusal n d ≠ 0) : seqAdmit n q tag s = (s.admitBegun n q d).admitEnd n q d (s.client n).out.token (s.refusal n d) := by
  rw [h.seqAdmit_eq, if_pos hwhy]

theorem Admits.asks (hnone : s.refusal n d = 0) (hrole : s.frm.role = 2) : seqAdmit n q tag s = (s.admitBegun n q d).admitAsked n q tag d := by
  rw [h.seqAdmit_eq, if_neg (not_not.2 hnone), if_pos hrole]

theorem Admits.overQuota (hnone : s.refusal n d = 0) (hrole : s.frm.role ≠ 2) (hquota : (s.client n).stackQuota ≤ s.stackCount n) :
    seqAdmit n q tag s = (s.admitBegun n q d).admitEnd n q d (s.client n).out.token 7 := by
  rw [h.seqAdmit_eq, if_neg (not_not.2 hnone), if_neg hrole, if_pos hquota]

theorem Admits.admitted (hnone : s.refusal n d = 0) (hrole : s.frm.role ≠ 2) (hquota : s.stackCount n < (s.client n).stackQuota) :
    seqAdmit n q tag s = (s.admitBegun n q d).admitEnd n q d (s.client n).out.token 0 := by
  rw [h.seqAdmit_eq, if_neg (not_not.2 hnone), if_neg hrole, if_neg (Nat.not_le.2 hquota)]

end

/-! ### The commit of an ADMIT (R237, R288) -/

/-- The entry of an admitted sequence (R237). -/
def State.admitEntry (s : State) (n : Nat) (d : ADesc) : Entry :=
  { client := n, state := .admitted, period := seqArg d.desc, deadline := firstDeadline d, spillAddr := (s.spillArea n).getD 0 }

/-- An ADMIT is no longer kept. -/
def State.admitGone (s : State) (n q : Nat) (d : ADesc) : State :=
  s.modClient n fun x => { x with admits := x.admits.filter fun a => !(a.q == q && a.tag == dTag d.desc) }

/-- An ADMIT is granted: its entry is set, and the outcome noted. -/
def State.admitGranted (s : State) (n q : Nat) (d : ADesc) (ring : Nat) : State :=
  ((s.setEntry (seqIdOf d.desc % 2 ^ 17) (s.admitEntry n d)).outcome n (seqIdOf d.desc % 2 ^ 17) ring 6 0 s.now).admitGone n q d

/-- A refusal stands in CLI_ADMIT_REFUSE and is counted (R217, R236). -/
def State.refusalNoted (s : State) (n : Nat) (d : ADesc) (why : Nat) : State :=
  s.modClient n fun c => { c with refuse := why + 256 * (seqIdOf d.desc % 2 ^ 17), refusals := c.refusals + 1 }

/-- An ADMIT is refused: the reason and the outcome are noted. -/
def State.admitRefused (s : State) (n q : Nat) (d : ADesc) (ring why : Nat) : State :=
  ((s.refusalNoted n d why).outcome n (seqIdOf d.desc % 2 ^ 17) ring 5 why s.now).admitGone n q d

section
variable (m : State) (n q : Nat) (d : ADesc) (ring : Nat)

theorem State.admitEnd_granted : m.admitEnd n q d ring 0 = (m.admitGranted n q d ring).rimDone n q d := rfl

theorem State.admitEnd_refused {why : Nat} (hwhy : why ≠ 0) : m.admitEnd n q d ring why = (m.admitRefused n q d ring why).rimDone n q d := by
  rw [State.admitEnd]
  dsimp only
  rw [if_neg hwhy]
  rfl

theorem State.admitGranted_entry : (m.admitGranted n q d ring).entry (seqIdOf d.desc % 2 ^ 17) = m.admitEntry n d := by
  have hbeyond := (m.setEntry (seqIdOf d.desc % 2 ^ 17) (m.admitEntry n d)).outcome_beyond n (seqIdOf d.desc % 2 ^ 17) ring 6 0 m.now (by decide)
  exact (congrFun (congrArg Prod.snd (State.table_of_beyond hbeyond)) _).trans (m.setEntry_entry _ _)

theorem State.admitRefused_beyond (why : Nat) : (m.admitRefused n q d ring why).beyondRecords = m.beyondRecords :=
  (State.modClient_beyond _ n _).trans ((State.outcome_beyond _ n _ ring 5 why m.now (by decide)).trans (m.modClient_beyond n _))

/-- What a refusal leaves in its client. -/
theorem State.admitRefused_client (why : Nat) : ((m.admitRefused n q d ring why).client n).refuse = why + 256 * (seqIdOf d.desc % 2 ^ 17)
    ∧ ((m.admitRefused n q d ring why).client n).refusals = (m.client n).refusals + 1
    ∧ ((m.admitRefused n q d ring why).client n).acct.refused = (m.client n).acct.refused + 1 := by
  have hoff := (m.refusalNoted n d why).outcome_offRing n (seqIdOf d.desc % 2 ^ 17) ring why m.now (out := 5) (by decide)
  rw [State.refusalNoted, State.modClient_self] at hoff
  rw [State.admitRefused, State.admitGone, State.modClient_self]
  exact ⟨(congrArg Client.refuse hoff :), (congrArg Client.refusals hoff :), (congrArg (fun c => c.acct.refused) hoff :)⟩

end

section
variable {s m : State} {n q : Nat} {tag : W32} {d : ADesc} (h : s.RimGoes m n q d) (hwait : s.waiting? n q tag = some d) (ring : Nat)
include h hwait

/-- An ADMIT that is granted commits, and its entry is ADMITTED. -/
theorem State.RimGoes.grants : RimDone s (m.admitEnd n q d ring 0) n q d ∧ (m.admitEnd n q d ring 0).entry (seqIdOf d.desc % 2 ^ 17) = m.admitEntry n d := by
  have hgoes : s.RimGoes (m.admitGranted n q d ring) n q d :=
    ((h.noted (m.setEntry_noted n _ _)).noted (State.outcome_noted _ n _ ring 0 m.now (out := 6) (by decide))).modClient _
  rw [State.admitEnd_granted]
  exact ⟨hgoes.done hwait, (congrFun hgoes.done_entry _).trans (m.admitGranted_entry n q d ring)⟩

/-- One that is refused commits too: its reason is noted, and the Lot Table stays. -/
theorem State.RimGoes.refuses {why : Nat} (hwhy : why ≠ 0) :
    RimDone s (m.admitEnd n q d ring why) n q d ∧ (m.admitEnd n q d ring why).north = m.north ∧ (m.admitEnd n q d ring why).south = m.south
      ∧ ((m.admitEnd n q d ring why).client n).refuse = why + 256 * (seqIdOf d.desc % 2 ^ 17)
      ∧ ((m.admitEnd n q d ring why).client n).refusals = (m.client n).refusals + 1
      ∧ ((m.admitEnd n q d ring why).client n).acct.refused = (m.client n).acct.refused + 1 := by
  have hgoes : s.RimGoes (m.admitRefused n q d ring why) n q d :=
    ((h.modClient _ : s.RimGoes (m.refusalNoted n d why) n q d).noted (State.outcome_noted _ n _ ring why m.now (out := 5) (by decide))).modClient _
  rw [State.admitEnd_refused m n q d ring hwhy]
  obtain ⟨hkept, happart, -⟩ := State.rimDone_keeps hgoes.1 q d
  have hbeyond := hkept.trans (m.admitRefused_beyond n q d ring why)
  obtain ⟨hrefuse, hrefusals, hacct⟩ := m.admitRefused_client n q d ring why
  exact ⟨hgoes.done hwait, (congrArg (fun x => x.2.2.1) hbeyond :), (congrArg (fun x => x.2.2.2.1) hbeyond :), (congrArg Client.refuse (happart n) :).trans hrefuse,
    (congrArg Client.refusals (happart n) :).trans hrefusals, (congrArg (fun c => c.acct.refused) (happart n) :).trans hacct⟩

end

/-! ### A follower's ADMIT (R445) -/

section
variable (s : State) (n q : Nat) (tag : W32) (d : ADesc)

/-- A request takes the next TID. -/
theorem State.request_tid (uid : Nat) (t : Trans) : (s.request uid t).1 = s.stk.nextTid ∧ (s.request uid t).2.stk.nextTid = (s.stk.nextTid + 1) % 2 ^ 32 := by
  unfold State.request State.sendFor
  refine ⟨rfl, ?_⟩
  dsimp only
  split <;> rfl

/-- The lead is asked, the ADMIT is kept, and no record is written. -/
theorem State.admitAsked_keeps : ((s.admitAsked n q tag d).client n).admits
        = (s.client n).admits ++ [{ q := q, tag := tag, since := s.now, tid := s.stk.nextTid, ring := (s.client n).out.token }]
    ∧ (s.admitAsked n q tag d).stk.nextTid = (s.stk.nextTid + 1) % 2 ^ 32 ∧ (s.admitAsked n q tag d).north = s.north
    ∧ ((s.admitAsked n q tag d).queue n q).ccount = (s.queue n q).ccount := by
  obtain ⟨htid, hnext⟩ := s.request_tid 0 (lotSync 1 n s.frm.leadId (admitData (seqIdOf d.desc) n))
  obtain ⟨P, K, h⟩ := s.request_eq 0 (lotSync 1 n s.frm.leadId (admitData (seqIdOf d.desc) n))
  rw [State.admitAsked, State.queue, State.modClient_self, htid, h]
  rw [h] at hnext
  exact ⟨rfl, hnext, rfl, rfl⟩

end

/-! ### The obligation -/

/-- Settles O47: each clause is the case of `Admits.seqAdmit_eq` that its hypotheses select. -/
theorem admissions : Obligations.admissions := by
  unfold Obligations.admissions
  refine ⟨?admitted, ?refused, ?asks⟩
  case admitted =>
    intro n q tag d a s hstart hsub hdone hadmits hbuild hroom hrebuild hun hnone harea hrole hquota
    have h : Admits s n q tag d := ⟨hstart, hsub, hdone, hadmits, hbuild, hroom, hrebuild⟩
    obtain ⟨hrim, hentry⟩ := ((State.rimStart_goes hun q d).outReserve 1).grants hstart.2.1 (s.client n).out.token
    refine answers_on hstart.1.1 rfl ?_
    rw [h.admitted hnone hrole hquota]
    refine ⟨hrim, hentry.trans ?_⟩
    rw [State.admitEntry, ← State.admitBegun, State.admitBegun_spillArea, harea]
    rfl
  case refused =>
    intro n q tag d why s hstart hsub hdone hadmits hbuild hroom hrebuild hun hwhy
    have h : Admits s n q tag d := ⟨hstart, hsub, hdone, hadmits, hbuild, hroom, hrebuild⟩
    have hends : seqAdmit n q tag s = (s.admitBegun n q d).admitEnd n q d (s.client n).out.token why ∧ why ≠ 0 := by
      obtain ⟨rfl, hne⟩ | ⟨hnone, hrole, hquota, rfl⟩ := hwhy
      · exact ⟨h.refused hne, hne⟩
      · exact ⟨h.overQuota hnone hrole hquota, by decide⟩
    refine answers_on hstart.1.1 rfl ?_
    rw [hends.1]
    obtain ⟨C, H, V, hbegun⟩ := s.admitBegun_eq n q d
    obtain ⟨-, hrefusals, hacct⟩ := s.admitBegun_counts n q d
    obtain ⟨hrim, hnorth, hsouth, hrefuse, hcounted, hcharged⟩ := ((State.rimStart_goes hun q d).outReserve 1).refuses hstart.2.1 (s.client n).out.token hends.2
    exact ⟨hrim, hnorth.trans (congrArg State.north hbegun :), hsouth.trans (congrArg State.south hbegun :), hrefuse,
      hcounted.trans (congrArg (· + 1) hrefusals), hcharged.trans (congrArg (· + 1) hacct)⟩
  case asks =>
    intro n q tag d s hstart hsub hdone hadmits hbuild hroom hrebuild hnone hrole
    have h : Admits s n q tag d := ⟨hstart, hsub, hdone, hadmits, hbuild, hroom, hrebuild⟩
    obtain ⟨hkept, htid, hnorth, hcount⟩ := (s.admitBegun n q d).admitAsked_keeps n q tag d
    refine answers_on hstart.1.1 rfl ?_
    rw [h.asks hnone hrole]
    obtain ⟨C, H, V, hbegun⟩ := s.admitBegun_eq n q d
    have hstk : (s.admitBegun n q d).stk = s.stk := (congrArg State.stk hbegun :)
    have hnow : (s.admitBegun n q d).now = s.now := (congrArg State.now hbegun :)
    rw [hstk, hnow, (s.admitBegun_counts n q d).1, hadmits, State.admitBegun_token] at hkept
    rw [hstk] at htid
    rw [(s.admitBegun_begun n q d).queue] at hcount
    exact ⟨hkept, htid, hnorth.trans (congrArg State.north hbegun :), hcount⟩

end Sys2Proof.Machine

/-! PROOFS. What the stops, kills, saves and records of a partition's work leave of the partitions themselves: their strips, their contexts and their switches, but not what they have counted (R49, R252, R273, R294). -/

namespace Sys2Proof.Machine

open Sys2Proof Sys2Proof.Safety

/-- A partition without its counts of cycles and kills. -/
def Part.uncounted (x : Part) : Part := { x with wBusy := 0, wHbm := 0, wTx := 0, wFab := 0, kUpset := 0, kPreempt := 0, kRetire := 0, kPair := 0 }

/-- Where a client's context is bound, and its count of pre-emptions. -/
def Client.binding (c : Client) : Nat × Nat × Bool × W64 := (c.bindPart, c.pairPart, c.pairEn, c.acct.preempts)

/-- Device time, FRM, the partitions but for their counts, and the binding of each client. -/
def State.seating (s : State) : Nat × Frm × (Nat → Part) × (Nat → Nat × Nat × Bool × W64) :=
  (s.now, s.frm, fun p => (s.part p).uncounted, fun m => (s.client m).binding)

section
variable {s t : State} (h : t.seating = s.seating)
include h

theorem State.now_of_seating : t.now = s.now := congrArg Prod.fst h

theorem State.frm_of_seating : t.frm = s.frm := congrArg (fun x => x.2.1) h

theorem State.part_of_seating (p : Nat) : (t.part p).uncounted = (s.part p).uncounted := congrFun (congrArg (fun x => x.2.2.1) h) p

theorem State.binding_of_seating (m : Nat) : (t.client m).binding = (s.client m).binding := congrFun (congrArg (fun x => x.2.2.2) h) m

theorem State.seats_of_seating (m : Nat) : t.seats m = s.seats m := by
  have hb := State.binding_of_seating h m
  simp only [Client.binding, Prod.mk.injEq] at hb
  obtain ⟨hbind, hpair, hen, -⟩ := hb
  simp only [State.seats, hbind, hpair, hen]

end

/-- The working tiles of a partition follow from FRM and its strips. -/
theorem State.tilesOf_congr {s t : State} {p : Nat} (hfrm : t.frm = s.frm) (hstrips : (t.part p).strips = (s.part p).strips) : t.tilesOf p = s.tilesOf p := by
  have hworking : t.working = s.working := by
    funext a
    simp only [State.working, State.physCol, State.colmap, hfrm]
  simp only [State.tilesOf, State.stripsOf, hworking, hstrips]

/-! ### The updates -/

/-- A change outside the partitions, FRM and device time that leaves every client's binding. -/
theorem State.seating_of {s t : State} (hnow : t.now = s.now) (hfrm : t.frm = s.frm) (hparts : t.parts = s.parts) (hclient : ∀ m, (t.client m).binding = (s.client m).binding) :
    t.seating = s.seating := by
  simp only [State.seating, State.part, hnow, hfrm, hparts, hclient]

section
variable (s : State)

/-- Changing a client otherwise than in its binding. -/
theorem State.modClient_seating (n : Nat) (f : Client → Client) (hf : ∀ c, (f c).binding = c.binding := by intro _; rfl) : (s.modClient n f).seating = s.seating := by
  refine State.seating_of rfl rfl rfl fun m => ?_
  by_cases hm : m = n
  · rw [hm, State.modClient_self, hf]
  · rw [State.modClient_ne _ _ _ _ hm]

/-- Changing a partition in its counts only. -/
theorem State.modPart_seating (p : Nat) (f : Part → Part) (hf : ∀ x, (f x).uncounted = x.uncounted := by intro _; rfl) : (s.modPart p f).seating = s.seating := by
  have hpart : (fun r => ((s.modPart p f).part r).uncounted) = fun r => (s.part r).uncounted := by
    funext r
    by_cases hr : r = p
    · rw [hr, State.modPart_self, hf]
    · rw [State.modPart_ne _ _ _ _ hr]
  simp only [State.seating, hpart]
  rfl

theorem State.modTile_seating (a : Nat) (f : Tile → Tile) : (s.modTile a f).seating = s.seating := rfl

theorem State.modUnit_seating (id : Nat) (f : CUnit → CUnit) : (s.modUnit id f).seating = s.seating := rfl

theorem State.modQueue_seating (n q : Nat) (f : Queue → Queue) : (s.modQueue n q f).seating = s.seating :=
  s.modClient_seating n _ fun c => by rw [Client.modQueue_eq]; rfl

theorem State.when_seating (c : Bool) (f : State → State) (h : (f s).seating = s.seating) : (s.when c f).seating = s.seating :=
  State.when_ind (P := fun t => t.seating = s.seating) s c f h rfl

theorem State.trace1_seating (r : TraceRec) : (s.trace1 r).seating = s.seating := by
  obtain ⟨H, T, h⟩ := s.trace1_eq r
  rw [h]; rfl

theorem State.withHbm_seating (H : Bytes) : State.seating { s with hbm := H } = s.seating := rfl

theorem State.hbmWrite_seating (a : Nat) (bs : List Byte) : (s.hbmWrite a bs).seating = s.seating := by
  obtain ⟨H, h⟩ := s.hbmWrite_eq a bs
  rw [h]; exact s.withHbm_seating H

theorem State.tellOthers_seating (u : CUnit) (go : Bool) : (s.tellOthers u go).seating = s.seating := by
  obtain ⟨P, K, h⟩ := s.tell_eq u go u.others
  rw [State.tellOthers, h]; rfl

theorem State.modEntry_seating (i : Nat) (f : Entry → Entry) : (s.modEntry i f).seating = s.seating := by
  have hclient := s.modEntry_client Client.binding (fun _ _ => rfl) i f
  obtain ⟨W, N, C, O, h⟩ := s.setEntry_eq i (f (s.entry i))
  rw [State.modEntry, h] at hclient ⊢
  exact State.seating_of rfl rfl rfl hclient

theorem State.outRelease_seating (n ring k : Nat) : (s.outRelease n ring k).seating = s.seating := s.modClient_seating n _ fun c => by split <;> rfl

theorem State.lotDrop_seating (u : CUnit) (f : LotRun → LotRun) : (s.lotDrop u f).seating = s.seating := s.modClient_seating u.client _

theorem State.freeStale_seating : s.freeStale.seating = s.seating := by
  obtain ⟨T, h⟩ := s.freeStale_eq
  rw [h]; rfl

/-! ### Cycles and kills that are counted (R48, R49, R292) -/

theorem State.countBusy_seating (a n st cls : Nat) : (s.countBusy a n st cls).seating = s.seating := by
  unfold State.countBusy
  dsimp only
  split
  · rfl
  · exact State.modPart_seating _ _ _

theorem State.settle_seating (a : Nat) : (s.settle a).seating = s.seating := by
  unfold State.settle
  dsimp only
  split
  · rfl
  · unfold State.chargeTo
    split
    · rfl
    · exact State.countBusy_seating _ _ _ _ _

theorem State.discardOn_seating (uid : Nat) (l : List Nat) : (s.discardOn uid l).seating = s.seating :=
  State.each_keeps State.seating (fun s a => s.discardOne uid a) (fun t a => t.when_seating _ _ (t.settle_seating a)) l s

theorem Part.kill_uncounted (x : Part) (cause : Nat) : (x.kill cause).uncounted = x.uncounted := by
  unfold Part.kill
  split <;> rfl

/-- A member that is stopped is counted, and nothing else of a partition changes (R275). -/
theorem State.memberKill_seating (u : CUnit) (kills : Nat) : (s.memberKill u kills).seating = s.seating := by
  unfold State.memberKill
  extract_lets s1 s2 s3 s4
  have h1 : s1.seating = s.seating := (State.tellOthers_seating _ u false).trans (s.discardOn_seating u.id u.allTiles)
  have h2 : s2.seating = s1.seating := s1.modEntry_seating _ _
  have h3 : s3.seating = s2.seating := by
    unfold s3
    split
    · exact s2.outRelease_seating _ _ _
    · rfl
  have h4 : s4.seating = s3.seating :=
    s3.when_seating _ _ ((State.trace1_seating _ _).trans (s3.modPart_seating _ _ fun x => x.kill_uncounted 2))
  exact (State.freeStale_seating _).trans ((s4.lotDrop_seating u _).trans (h4.trans (h3.trans (h2.trans h1))))

/-- So is a unit that is killed (R49). -/
theorem State.killUnit_seating (uid cause : Nat) : (s.killUnit uid cause).seating = s.seating := by
  unfold State.killUnit
  split
  · rfl
  · next u _ =>
    refine iteInduction (motive := fun t : State => t.seating = s.seating) (fun _ => rfl) fun _ => ?_
    extract_lets s1 s2 s3
    have h1 : s1.seating = s.seating := (State.tellOthers_seating _ u false).trans (s.discardOn_seating uid u.allTiles)
    have h3 : s3.seating = s2.seating := s2.modPart_seating _ _ fun x => x.kill_uncounted cause
    exact (s3.trace1_seating _).trans (h3.trans h1)

theorem State.stopUnit_seating (u : CUnit) : (s.stopUnit u).seating = s.seating := by
  unfold State.stopUnit
  split
  · exact (State.each_keeps State.seating _ (fun t a => t.modTile_seating a _) _ _).trans (s.modClient_seating _ _)
  · unfold State.killStop
    split
    · exact (State.memberKill_seating _ u 1).trans (s.modClient_seating _ _)
    · exact (State.killUnit_seating _ u.id 2).trans (s.modClient_seating _ _)

/-! ### Records of LOTs (R217, R247) -/

theorem State.putRec_seating (n : Nat) (r : Rec) : (s.putRec n r).seating = s.seating := by
  unfold State.putRec
  split
  · exact (State.modClient_seating _ _ _).trans (s.modQueue_seating _ _ _)
  · obtain ⟨H, -, hbeside⟩ := s.recWrite_beside n r
    have hclient (m : Nat) : ((s.recWrite n r).client m).binding = (s.client m).binding :=
      (congrArg Client.binding (congrFun (congrArg (fun x => x.2.2) hbeside) m) :)
    obtain ⟨C, T, N, H, O, h⟩ := s.recWrite_eq n r
    rw [h] at hclient ⊢
    exact State.seating_of rfl rfl rfl hclient

theorem State.putLate_seating (n : Nat) (reset : Bool) (r : Rec) : (s.putLate n reset r).seating = s.seating := by
  unfold State.putLate
  split
  · exact s.modQueue_seating _ _ _
  · exact s.putRec_seating n r

theorem State.lotCheck_seating (n q ord : Nat) : (s.lotCheck n q ord).seating = s.seating := by
  unfold State.lotCheck
  split
  · rfl
  · refine iteInduction (motive := fun t : State => t.seating = s.seating) (fun _ => rfl) fun _ => ?_
    unfold State.lotRecord
    extract_lets ok commit refused s1 s2 s3
    exact (s3.putLate_seating _ _ _).trans ((s2.trace1_seating _).trans ((s1.modClient_seating _ _).trans (s.modClient_seating _ _)))

end

end Sys2Proof.Machine

/-! PROOFS. An evaluation of a partition: its verdict, and the switch that it begins (R256 to R260). -/

namespace Sys2Proof.Machine

open Sys2Proof Sys2Proof.Safety

/-! ### What an evaluation notes (R256, R257) -/

/-- States that differ in CLI_ERD of clients and in the last evaluation of partitions only. -/
structure State.Surveyed (s t : State) : Prop where
  eq : ∃ C P, t = { s with clients := C, parts := P }
  client : ∀ m, ∃ d, t.client m = { s.client m with erd := d }
  part : ∀ r, ∃ d, t.part r = { s.part r with lastEval := d }

theorem State.Surveyed.refl (s : State) : s.Surveyed s := ⟨⟨_, _, rfl⟩, fun _ => ⟨_, rfl⟩, fun _ => ⟨_, rfl⟩⟩

section
variable {s t : State} (h : s.Surveyed t)
include h

theorem State.Surveyed.setErd (n : Nat) (d : Option Nat) : s.Surveyed (t.modClient n fun c => { c with erd := d }) where
  eq := by obtain ⟨C, P, rfl⟩ := h.eq; exact ⟨_, _, rfl⟩
  client m := by
    obtain ⟨e, he⟩ := h.client m
    by_cases hm : m = n
    · subst hm; exact ⟨d, by rw [State.modClient_self, he]⟩
    · exact ⟨e, by rw [State.modClient_ne _ _ _ _ hm, he]⟩
  part := h.part

theorem State.Surveyed.setLastEval (p : Nat) (d : Option Nat) : s.Surveyed (t.modPart p fun x => { x with lastEval := d }) where
  eq := by obtain ⟨C, P, rfl⟩ := h.eq; exact ⟨_, _, rfl⟩
  client := h.client
  part r := by
    obtain ⟨e, he⟩ := h.part r
    by_cases hr : r = p
    · subst hr; exact ⟨d, by rw [State.modPart_self, he]⟩
    · exact ⟨e, by rw [State.modPart_ne _ _ _ _ hr, he]⟩

theorem State.Surveyed.now : t.now = s.now := by obtain ⟨C, P, rfl⟩ := h.eq; rfl

theorem State.Surveyed.frm : t.frm = s.frm := by obtain ⟨C, P, rfl⟩ := h.eq; rfl

theorem State.Surveyed.units : t.units = s.units := by obtain ⟨C, P, rfl⟩ := h.eq; rfl

theorem State.Surveyed.queue : t.queue = s.queue := by
  funext n q
  obtain ⟨d, hd⟩ := h.client n
  rw [State.queue, hd]; rfl

theorem State.Surveyed.erdOf : t.erdOf = s.erdOf := by
  have hcandidates : t.candidates = s.candidates := by obtain ⟨C, P, rfl⟩ := h.eq; rfl
  have hunit : t.unit? = s.unit? := by obtain ⟨C, P, rfl⟩ := h.eq; rfl
  have hdemand : t.demand = s.demand := by
    funext n q
    unfold State.demand State.orderMet State.depState
    rw [h.queue, hunit]
  funext n
  rw [State.erdOf, hcandidates, hdemand]; rfl

theorem State.Surveyed.isIdle : t.isIdle = s.isIdle := by
  funext n
  rw [State.isIdle, h.erdOf, State.unitsOf, h.units]; rfl

theorem State.Surveyed.seats : t.seats = s.seats := by
  funext n
  obtain ⟨d, hd⟩ := h.client n
  rw [State.seats, hd]; rfl

theorem State.Surveyed.bound : t.bound = s.bound := by
  funext p
  have hto : (fun n => t.boundTo n p) = fun n => s.boundTo n p := by
    funext n
    obtain ⟨d, hd⟩ := h.client n
    rw [State.boundTo, hd]; rfl
  rw [State.bound, hto]; rfl

theorem State.Surveyed.switchEstOf : t.switchEstOf = s.switchEstOf := by
  funext p
  have hest : (fun r => (t.part r).switchEst) = fun r => (s.part r).switchEst := by
    funext r
    obtain ⟨d, hd⟩ := h.part r
    rw [hd]
  unfold State.switchEstOf
  rw [h.bound, h.seats, hest]
  exact congrArg (fun x => greatest 0 (_ ++ [x])) (congrFun hest p)

theorem State.Surveyed.dOf : t.dOf = s.dOf := by
  funext n
  obtain ⟨d, hd⟩ := h.client n
  rw [State.dOf, hd]; rfl

theorem State.Surveyed.contenders : t.contenders = s.contenders := by
  funext p
  have hswitch (r : Nat) : (t.part r).switch = (s.part r).switch := by
    obtain ⟨d, hd⟩ := h.part r
    rw [hd]
  have hclient (n : Nat) : (t.client n).resident = (s.client n).resident ∧ (t.client n).dbg = (s.client n).dbg := by
    obtain ⟨d, hd⟩ := h.client n
    rw [hd]; exact ⟨rfl, rfl⟩
  simp only [State.contenders, h.bound, h.seats, h.erdOf, hswitch, fun n => (hclient n).1, fun n => (hclient n).2]

/-- What an evaluation notes does not change its verdict. -/
theorem State.Surveyed.evaluate (p : Nat) : t.evaluate p = s.evaluate p := by
  obtain ⟨d, hd⟩ := h.part p
  have hhalted (n : Nat) : (t.client n).dbg = (s.client n).dbg := by
    obtain ⟨d, hd⟩ := h.client n
    rw [hd]
  have htiles : t.tilesOf p = s.tilesOf p := State.tilesOf_congr h.frm (by rw [hd])
  simp only [State.evaluate, hd, hhalted, htiles, h.contenders, h.isIdle, h.switchEstOf, h.dOf, h.now, h.erdOf]

end

theorem noSwitch_of_due {s : State} {p : Nat} (hdue : Due s p) : (s.part p).switch = none := by
  obtain ⟨-, -, -, -, -, hswitch, -⟩ := hdue
  exact hswitch

/-- An evaluation that is due carries its verdict out in a state that differs by what it notes. -/
theorem schedEvaluate_eq {s : State} {p : Nat} (hdue : Due s p) : ∃ t, s.Surveyed t ∧ (t.part p).lastEval = some s.now ∧ schedEvaluate p s = t.carryOut p (s.evaluate p) := by
  obtain ⟨⟨-, hready⟩, htime, hlast, hp, -⟩ := hdue
  unfold schedEvaluate
  rw [if_neg (by simp [hready, htime, hlast, hp])]
  extract_lets s1 s2
  have h1 : s.Surveyed s1 := (State.Surveyed.refl s).setLastEval p _
  have h2 : s.Surveyed s2 := State.each_ind (P := fun t => s.Surveyed t) (fun t n ht => ht.setErd n _) _ s1 h1
  have hpart : s2.part p = s1.part p := State.each_keeps (fun t => t.part p) (fun s n => s.modClient n fun c => { c with erd := s.erdOf n }) (fun _ _ => rfl) _ s1
  refine ⟨s2, h2, ?_, by rw [h2.evaluate]⟩
  rw [hpart, State.modPart_self]

/-! ### Verdicts (R257 to R259) -/

section
variable {s : State} {p e c o : Nat} {r : List (Nat × Nat)} (hdue : Due s p) (hfirst : s.contenders p = (e, c) :: r)
include hdue hfirst

theorem State.evaluate_vacant (hres : (s.part p).resident = none) : s.evaluate p = .choose none c true := by
  obtain ⟨-, -, -, -, hhome, hswitch, hrebuild, hbist, htiles⟩ := hdue
  simp [State.evaluate, hhome, hswitch, hrebuild, hbist, htiles, hres, hfirst]

variable (hres : (s.part p).resident = some o) (hhalt : (s.client o).dbg.halted = false)
include hres hhalt

theorem State.evaluate_idle (hidle : s.isIdle o = true) : s.evaluate p = .choose (some o) c true := by
  obtain ⟨-, -, -, -, hhome, hswitch, hrebuild, hbist, htiles⟩ := hdue
  simp [State.evaluate, hhome, hswitch, hrebuild, hbist, htiles, hres, hfirst, hhalt, hidle]

theorem State.evaluate_far (hidle : s.isIdle o = false) (hfar : s.switchEstOf p + s.dOf c + (s.part p).horizon + s.now < e) : s.evaluate p = .nothing := by
  obtain ⟨-, -, -, -, hhome, hswitch, hrebuild, hbist, htiles⟩ := hdue
  simp [State.evaluate, hhome, hswitch, hrebuild, hbist, htiles, hres, hfirst, hhalt, hidle, hfar]

theorem State.evaluate_near {d : Nat} (hidle : s.isIdle o = false) (hnear : e ≤ s.switchEstOf p + s.dOf c + (s.part p).horizon + s.now) (herd : s.erdOf o = some d) :
    s.evaluate p = if (s.part p).since + 1000 * (s.part p).minQuantum ≤ s.now ∧ e < d ∧ s.now + 2 * s.switchEstOf p + s.dOf c + s.dOf o ≤ d
      then .choose (some o) c false else .deny := by
  obtain ⟨-, -, -, -, hhome, hswitch, hrebuild, hbist, htiles⟩ := hdue
  simp [State.evaluate, hhome, hswitch, hrebuild, hbist, htiles, hres, hfirst, hhalt, hidle, Nat.not_lt.2 hnear, herd, and_assoc]

end

/-! ### The begin of a switch (R258, R273) -/

/-- A partition without the time at which the tiles of its switch stopped. -/
def Part.unstop (x : Part) : Part := { x with switch := x.switch.map fun w => { w with stopAt := none } }

/-- The partitions but for their counts and what a stop notes, and the binding of each client. -/
def State.choices (s : State) : (Nat → Part) × (Nat → Nat × Nat × Bool × W64) := (fun p => (s.part p).uncounted.unstop, fun m => (s.client m).binding)

theorem State.choices_of_seating {s t : State} (h : t.seating = s.seating) : t.choices = s.choices := by
  have hpart : (fun p => (t.part p).uncounted.unstop) = fun p => (s.part p).uncounted.unstop := funext fun p => congrArg Part.unstop (State.part_of_seating h p)
  have hbinding : (fun m => (t.client m).binding) = fun m => (s.client m).binding := funext (State.binding_of_seating h)
  rw [State.choices, hpart, hbinding]; rfl

section
variable (s : State)

/-- The time of the stop, as a switch takes it. -/
theorem State.stopNoted_choices (r k : Nat) : (s.modPart r fun x => { x with switch := x.switch.map fun w => { w with stopAt := some k } }).choices = s.choices := by
  have hpart : (fun p => ((s.modPart r fun x => { x with switch := x.switch.map fun w => { w with stopAt := some k } }).part p).uncounted.unstop)
      = fun p => (s.part p).uncounted.unstop := by
    funext p
    by_cases hp : p = r
    · rw [hp, State.modPart_self]
      simp only [Part.unstop, Part.uncounted, Option.map_map, Function.comp_def]
    · rw [State.modPart_ne _ _ _ _ hp]
  simp only [State.choices, hpart]
  rfl

/-- A stop that begins leaves partitions and bindings but for what it notes (R273 step 3). -/
theorem State.stopGo_choices (n : Nat) : (s.stopGo n).choices = s.choices := by
  unfold State.stopGo
  split
  · rfl
  · refine iteInduction (motive := fun t : State => t.choices = s.choices) (fun _ => rfl) fun _ => ?_
    extract_lets s1
    have h1 : s1.choices = s.choices := State.choices_of_seating (State.each_keeps State.seating _ (fun t u => t.stopUnit_seating u) _ s)
    exact (State.each_keeps State.choices _ (fun t r => t.stopNoted_choices r t.now) _ s1).trans h1

/-- So does the decision to stop (R270). -/
theorem State.decideStop_choices (n : Nat) : (s.decideStop n).choices = s.choices :=
  (State.stopGo_choices _ n).trans (State.choices_of_seating (State.each_keeps State.seating _ (fun t (u : CUnit) => t.modUnit_seating u.id _) _ s))

/-- A partition that has chosen client `c` at `now`, as an idle switch or as a pre-emption (R257, R259). -/
def Part.chosen (x : Part) (c now : Nat) (idle : Bool) : Part := {
  (if idle then { x with idleSwitches := satTo 0xFFFF (x.idleSwitches + 1) } else { x with preempts := satTo 0xFFFF (x.preempts + 1) }) with
  pairChoice := none
  switch := some { out := x.resident, incoming := some c, phase := if x.resident.isNone then .restoring else .stopping, since := now, idle := idle } }

variable (p c : Nat) (idle : Bool)

theorem Part.chosen_switch (x : Part) (c now : Nat) (idle : Bool) : (x.chosen c now idle).switch =
    some { out := x.resident, incoming := some c, phase := if x.resident.isNone then .restoring else .stopping, since := now, idle := idle } := rfl

/-- A partition without a resident context begins to restore at once (R258). -/
theorem State.beginSwitch_vacant (hres : (s.part p).resident = none) : s.beginSwitch c [(p, idle)] = s.modPart p fun x => x.chosen c s.now idle := by
  simp only [State.beginSwitch, List.filterMap_cons, List.filterMap_nil, hres, sortUp, List.foldr_nil, State.each_cons, State.each_nil]
  rfl

/-- The state when the resident context `o` of a partition takes its stop: its pre-emption is counted, and its other seats switch with it. -/
def State.unseating (s : State) (p c o : Nat) (idle : Bool) : State :=
  let s := (s.modPart p fun x => x.chosen c s.now idle).when (!idle) fun s => s.modAcct o fun a => { a with preempts := a.preempts + 1 }
  s.each ((s.seats o).filter fun r => (s.part r).switch.isNone) fun s r =>
    s.modPart r fun x => { x with switch := some { out := some o, incoming := none, phase := .stopping, since := s.now, idle := idle } }

/-- A partition with a resident context stops it first (R258). -/
theorem State.beginSwitch_resident {o : Nat} (hres : (s.part p).resident = some o) : s.beginSwitch c [(p, idle)] = (s.unseating p c o idle).decideStop o := by
  have hidle : ([(p, idle)].all fun x => (s.part x.1).resident != some o || x.2) = idle := by simp [hres]
  simp only [State.beginSwitch, List.filterMap_cons, List.filterMap_nil, hres, sortUp, List.foldr_cons, List.foldr_nil, insertUp, State.each_cons, State.each_nil, hidle]
  rfl

/-- Changes of other partitions leave a partition alone. -/
theorem State.each_modPart_ne {p : Nat} (g : State → Part → Part) (l : List Nat) (hp : p ∉ l) (t : State) : (t.each l fun s r => s.modPart r (g s)).part p = t.part p := by
  induction l generalizing t with
  | nil => rfl
  | cons r l ih =>
    obtain ⟨hr, hl⟩ := not_or.1 <| mt List.mem_cons.2 hp
    rw [State.each_cons, ih hl, State.modPart_ne _ _ _ _ hr]

/-- Of the switches that begin, that of the partition itself is the one chosen. -/
theorem State.unseating_part (o : Nat) : (s.unseating p c o idle).part p = (s.part p).chosen c s.now idle := by
  unfold State.unseating
  extract_lets s1
  have hself := s.modPart_self p fun x => x.chosen c s.now idle
  have h1 : s1.part p = (s.part p).chosen c s.now idle := State.when_ind (P := fun t => t.part p = (s.part p).chosen c s.now idle) _ _ _ hself hself
  have hp : p ∉ (s1.seats o).filter fun r => (s1.part r).switch.isNone := by
    rw [List.mem_filter, h1]
    rintro ⟨-, hnone⟩
    cases hnone
  rw [State.each_modPart_ne (fun t x => { x with switch := some { out := some o, incoming := none, phase := .stopping, since := t.now, idle := idle } }) _ hp, h1]

theorem State.unseating_preempts (o : Nat) : ((s.unseating p c o idle).client o).acct.preempts = (s.client o).acct.preempts + (if idle then 0 else 1) := by
  unfold State.unseating
  extract_lets s1
  refine Eq.trans (State.each_keeps (fun t => (t.client o).acct.preempts) _ (fun t r => ?_) _ s1) ?_
  · rfl
  cases idle
  · exact congrArg (fun c => c.acct.preempts) (State.modClient_self _ o _)
  · exact (BitVec.add_zero _).symm

/-- The begin of a switch out of a resident context: the partition has chosen, but for what the stop notes, and a pre-emption counts for the client (R258, R259). -/
theorem State.beginSwitch_chosen {o : Nat} (hres : (s.part p).resident = some o) :
    ((s.beginSwitch c [(p, idle)]).part p).uncounted.unstop = ((s.part p).chosen c s.now idle).uncounted.unstop
      ∧ ((s.beginSwitch c [(p, idle)]).client o).acct.preempts = (s.client o).acct.preempts + (if idle then 0 else 1) := by
  have h := State.decideStop_choices (s.unseating p c o idle) o
  rw [s.beginSwitch_resident p c idle hres, ← s.unseating_preempts p c idle o, ← s.unseating_part p c idle o]
  exact ⟨congrFun (congrArg Prod.fst h) p, congrArg (fun b => b.2.2.2) (congrFun (congrArg Prod.snd h) o)⟩

end

/-- The switch of a partition that has chosen, whatever its stop has noted since. -/
theorem Part.switch_of_unstop {x y : Part} {w : Switch} (h : x.uncounted.unstop = y.uncounted.unstop) (hw : y.switch = some w) :
    ∃ v, x.switch = some v ∧ { v with stopAt := none } = { w with stopAt := none } := by
  have hswitch : x.switch.map (fun w => { w with stopAt := none }) = y.switch.map fun w => { w with stopAt := none } := (congrArg Part.switch h :)
  rw [hw] at hswitch
  exact Option.map_eq_some_iff.1 hswitch

/-- What a choice leaves of a partition whose resident context stops (R258, R259). -/
theorem State.chosen_resident {s t : State} {p c o : Nat} {idle : Bool} (hsurvey : s.Surveyed t) (hres : (s.part p).resident = some o) :
    (∃ w, ((t.beginSwitch c [(p, idle)]).part p).switch = some w ∧ w.out = some o ∧ w.incoming = some c ∧ w.phase = .stopping ∧ w.since = s.now ∧ w.idle = idle)
      ∧ ((t.beginSwitch c [(p, idle)]).part p).idleSwitches = (if idle then satTo 0xFFFF ((s.part p).idleSwitches + 1) else (s.part p).idleSwitches)
      ∧ ((t.beginSwitch c [(p, idle)]).part p).preempts = (if idle then (s.part p).preempts else satTo 0xFFFF ((s.part p).preempts + 1))
      ∧ ((t.beginSwitch c [(p, idle)]).client o).acct.preempts = (s.client o).acct.preempts + (if idle then 0 else 1) := by
  obtain ⟨d, hpart⟩ := hsurvey.part p
  obtain ⟨d', hclient⟩ := hsurvey.client o
  have hres' : (t.part p).resident = some o := by rw [hpart]; exact hres
  obtain ⟨hchosen, hpreempts⟩ := t.beginSwitch_chosen p c idle hres'
  obtain ⟨w, hw, hsame⟩ := Part.switch_of_unstop hchosen rfl
  refine ⟨⟨w, hw, ?_⟩, ?_, ?_, ?_⟩
  · rw [hsurvey.now, hres'] at hsame
    exact ⟨(congrArg Switch.out hsame :), (congrArg Switch.incoming hsame :), (congrArg Switch.phase hsame :), (congrArg Switch.since hsame :), (congrArg Switch.idle hsame :)⟩
  · refine (congrArg Part.idleSwitches hchosen :).trans ?_
    rw [hpart]
    cases idle <;> rfl
  · refine (congrArg Part.preempts hchosen :).trans ?_
    rw [hpart]
    cases idle <;> rfl
  · rw [hpreempts, hclient]

/-! ### Verdicts that are carried out (R258, R260) -/

theorem State.Surveyed.pairEn {s t : State} (h : s.Surveyed t) (n : Nat) : (t.client n).pairEn = (s.client n).pairEn := by
  obtain ⟨d, hd⟩ := h.client n
  rw [hd]

section
variable (s : State) (p c : Nat) (out : Option Nat) (idle : Bool)

/-- A context that is no pair switches in on its partition alone. -/
theorem State.carryOut_single (hpair : (s.client c).pairEn = false) : s.carryOut p (.choose out c idle) = s.beginSwitch c [(p, idle)] := by
  simp [State.carryOut, hpair]

/-- A pair that one of its seats has not chosen at this instant waits (R260). -/
theorem State.carryOut_waits (hpair : (s.client c).pairEn = true) (hother : ∃ x ∈ s.seats c, x ≠ p ∧ ∀ i, (s.part x).pairChoice ≠ some (s.now, c, i)) :
    s.carryOut p (.choose out c idle) = s.modPart p fun x => { x with pairChoice := some (s.now, c, idle) } := by
  obtain ⟨x, hx, hne, hchoice⟩ := hother
  simp only [State.carryOut, hpair, Bool.not_true, Bool.false_eq_true, if_false]
  refine if_neg fun hlen => ?_
  have hall := List.filterMap_length_eq_length.1 hlen x hx
  rw [State.modPart_ne _ _ _ _ hne] at hall
  split at hall
  · next k d i hk =>
    split at hall
    · next hsame =>
      obtain ⟨rfl, rfl, -⟩ := hsame
      exact hchoice i hk
    · cases hall
  · cases hall

end

/-! ### The obligation -/

/-- Settles O49: each verdict follows from the hypotheses on the evaluated state, and what it does from the way it is carried out. -/
theorem scheduling : Obligations.scheduling := by
  unfold Obligations.scheduling
  refine ⟨?vacant, ?idle, ?preempts, ?denied, ?far, ?pair⟩
  case vacant =>
    intro p e c r s hdue hfirst hres hpair
    obtain ⟨t, hsurvey, hlast, heq⟩ := schedEvaluate_eq hdue
    obtain ⟨d, hpart⟩ := hsurvey.part p
    have hres' : (t.part p).resident = none := by rw [hpart]; exact hres
    rw [State.evaluate_vacant hdue hfirst hres, State.carryOut_single _ _ _ _ _ ((hsurvey.pairEn c).trans hpair), State.beginSwitch_vacant _ _ _ _ hres', hsurvey.now] at heq
    have hself := t.modPart_self p fun x => x.chosen c s.now true
    rw [← heq] at hself
    refine answers_on hdue.1.1 rfl ⟨(congrArg Part.switch hself :).trans ?_, (congrArg Part.lastEval hself :).trans hlast⟩
    rw [Part.chosen_switch, hres']; rfl
  case idle =>
    intro p e c o r s hdue hfirst hres hhalt hidle hpair
    obtain ⟨t, hsurvey, -, heq⟩ := schedEvaluate_eq hdue
    rw [State.evaluate_idle hdue hfirst hres hhalt hidle, State.carryOut_single _ _ _ _ _ ((hsurvey.pairEn c).trans hpair)] at heq
    obtain ⟨hswitch, hidles, hpreempts, -⟩ := State.chosen_resident (c := c) (idle := true) hsurvey hres
    rw [← heq] at hswitch hidles hpreempts
    exact answers_on hdue.1.1 rfl ⟨hswitch, hidles, hpreempts⟩
  case preempts =>
    intro p e c o d r s hdue hfirst hres hhalt hidle hpair herd hnear hquantum hearlier hslack
    obtain ⟨t, hsurvey, -, heq⟩ := schedEvaluate_eq hdue
    rw [State.evaluate_near hdue hfirst hres hhalt hidle hnear herd, if_pos ⟨hquantum, hearlier, hslack⟩, State.carryOut_single _ _ _ _ _ ((hsurvey.pairEn c).trans hpair)] at heq
    obtain ⟨hswitch, -, hpreempts, hcount⟩ := State.chosen_resident (c := c) (idle := false) hsurvey hres
    rw [← heq] at hswitch hpreempts hcount
    exact answers_on hdue.1.1 rfl ⟨hswitch, hpreempts, hcount⟩
  case denied =>
    intro p e c o d r s hdue hfirst hres hhalt hidle herd hnear hdeny
    obtain ⟨t, hsurvey, -, heq⟩ := schedEvaluate_eq hdue
    obtain ⟨k, hpart⟩ := hsurvey.part p
    rw [State.evaluate_near hdue hfirst hres hhalt hidle hnear herd, if_neg (by omega)] at heq
    have hself := t.modPart_self p fun x => { x with denied := satTo 0xFFFF (x.denied + 1) }
    rw [hpart] at hself
    refine answers_on hdue.1.1 rfl ?_
    rw [heq]
    exact ⟨(congrArg Part.switch hself :).trans (noSwitch_of_due hdue), (congrArg Part.denied hself :), hsurvey.units⟩
  case far =>
    intro p e c o r s hdue hfirst hres hhalt hidle hfar
    obtain ⟨t, hsurvey, -, heq⟩ := schedEvaluate_eq hdue
    obtain ⟨k, hpart⟩ := hsurvey.part p
    rw [State.evaluate_far hdue hfirst hres hhalt hidle hfar] at heq
    refine answers_on hdue.1.1 rfl ?_
    rw [heq]
    exact ⟨(congrArg Part.switch hpart :).trans (noSwitch_of_due hdue), (congrArg Part.denied hpart :), hsurvey.units⟩
  case pair =>
    intro p e c r s hdue hfirst hres hpair hother
    obtain ⟨t, hsurvey, -, heq⟩ := schedEvaluate_eq hdue
    obtain ⟨k, hpart⟩ := hsurvey.part p
    have hother' : ∃ x ∈ t.seats c, x ≠ p ∧ ∀ i, (t.part x).pairChoice ≠ some (t.now, c, i) := by
      obtain ⟨x, hx, hne, hchoice⟩ := hother
      obtain ⟨k, hk⟩ := hsurvey.part x
      exact ⟨x, by rw [hsurvey.seats]; exact hx, hne, by rw [hk, hsurvey.now]; exact hchoice⟩
    rw [State.evaluate_vacant hdue hfirst hres, State.carryOut_waits _ _ _ _ _ ((hsurvey.pairEn c).trans hpair) hother', hsurvey.now] at heq
    have hself := t.modPart_self p fun x => { x with pairChoice := some (s.now, c, true) }
    rw [hpart] at hself
    refine answers_on hdue.1.1 rfl ?_
    rw [heq]
    exact ⟨(congrArg Part.switch hself :).trans (noSwitch_of_due hdue), (congrArg Part.pairChoice hself :)⟩

end Sys2Proof.Machine

/-! PROOFS. STOP_COMPLETE takes up a stop that is still due on the partition to which the context is bound, so that the two seats of a pair need not agree on when the tiles stopped (R258, R260, R273; State.stopGo). -/

namespace Sys2Proof.Machine

open Sys2Proof Sys2Proof.Safety

/-- A switch from client 127 to client 126 whose tiles stopped at `k`. -/
def stoppingSwitch (k : Option Nat) : Switch := { out := some 127, incoming := some 126, phase := .stopping, since := 0, idle := false, stopAt := k }

/-- Client 127 is a pair on partitions 62 and 63 and stops on both; the switch of 63 says that its tiles stopped at 3, that of 62 that they have yet to stop. -/
def halfStopped : State := { live with
  now := 5
  clients := [(127, { ctx127 with bindPart := 62, pairPart := 63, pairEn := true })]
  parts := [(62, { resident := some 127, switch := some (stoppingSwitch none) }), (63, { resident := some 127, switch := some (stoppingSwitch (some 3)) })] }

/-- The command on partition 63 stops the tiles of 62 first, so that the switch of 62 carries the present time from then on. -/
theorem halfStopped_saves : ∃ t, exec (.stopComplete 63) halfStopped = .next t ∧ (t.part 62).switch = some { stoppingSwitch (some 5) with phase := .saving, since := 5 } :=
  ⟨_, exec_on rfl rfl rfl, by decide +kernel⟩

/-- Refutes O50: its first clause says that of the switch of every seat only the phase and its time change, but asks for the time of the stop on the partition of the command alone. In `halfStopped` the other seat, to which the context is bound, has yet to stop, and takes its time of stop from the command. -/
theorem not_switching : ¬ Obligations.switching := by
  unfold Obligations.switching
  rintro ⟨hstop, -⟩
  obtain ⟨t, hexec, -, -, hseats⟩ := hstop 63 (stoppingSwitch (some 3)) 127 3 halfStopped rfl rfl rfl rfl rfl (by decide +kernel)
  obtain ⟨t', hexec', hswitch⟩ := halfStopped_saves
  obtain rfl : t = t' := Host.Outcome.next.inj (hexec.symm.trans hexec')
  obtain ⟨-, hsame⟩ := hseats 62 (by decide)
  exact absurd (hsame.symm.trans hswitch) (by decide)

end Sys2Proof.Machine

/-! PROOFS. Strips that a write gives and takes, and rebuilds from the request to their end (R252, R261 to R264, R321, R344, R404). -/

namespace Sys2Proof.Machine

open Sys2Proof Sys2Proof.Safety

/-! ### PRT_STRIPS (R252, R344, R404) -/

section
variable {s : State} {p w : Nat} {v : W32}

/-- No strip of the new word belongs to another partition or waits to be added to one. -/
def State.stripsUnclaimed (s : State) (p : Nat) (new : BitVec 512) : Prop :=
  ∀ r, r < Config.partitions → r ≠ p → ((s.part r).strips ||| (s.part r).adding) &&& new = 0

/-- Every strip of the written word is in service, and its domain is neither OFF nor to be OFF. -/
def State.stripsUsable (s : State) (w : Nat) (new : BitVec 512) : Prop :=
  ∀ i, i < 32 → new.getLsbD (32 * w + i) = true →
    (s.colmap (32 * w + i)).retired = false ∧ (s.dom (domOfStrip (32 * w + i))).state ≠ .off ∧ (s.dom (domOfStrip (32 * w + i))).target ≠ 0

/-- A partition whose strips are those of the new word (R252). -/
def Part.restrip (x : Part) (new : BitVec 512) : Part := { x with strips := new, adding := x.adding &&& ~~~new }

/-- A partition that waits for a rebuild to add the strips of the new word (R252, R261). -/
def Part.addLater (x : Part) (new : BitVec 512) : Part := { x with adding := x.adding ||| (new &&& ~~~x.strips), changePend := true }

/-- A write that no check refuses acts by what it takes and what it adds. -/
theorem prtStripsWrite_eq {new : BitVec 512} (hnew : stripsWrite (s.part p).strips w v = new) (hlive : Live s) (hp : p < Config.partitions) (hw : w < 16)
    (hothers : s.stripsUnclaimed p new) (husable : s.stripsUsable w new) :
    prtStripsWrite p w v s =
      if ((s.part p).strips &&& ~~~new) != 0 then (if (s.bound p).isEmpty then (s.modPart p fun x => x.restrip new).rowsFree ((s.part p).strips &&& ~~~new) else s)
      else if (new &&& ~~~(s.part p).strips) == 0 || (s.bound p).any (fun n => decide ((s.client n).areas.parkSize < parkNeed (stripCount (new ||| (s.part p).adding)))) then s
      else s.modPart p fun x => { x with adding := x.adding ||| (new &&& ~~~(s.part p).strips), changePend := true } := by
  subst hnew
  unfold prtStripsWrite
  extract_lets x new others dead off added gone small
  have hothers' : others = false := by
    simp only [others, List.any_eq_false, List.mem_range, Bool.and_eq_true, bne_iff_ne, ne_eq, not_and, not_not]
    exact hothers
  have hdead : dead = false := by
    simp only [dead, List.any_eq_false, List.mem_range, Bool.and_eq_true, not_and, Bool.not_eq_true]
    exact fun i hi hb => (husable i hi hb).1
  have hoff : off = false := by
    simp only [off, List.any_eq_false, List.mem_range, Bool.and_eq_true, Bool.or_eq_true, beq_iff_eq, not_and, not_or]
    exact fun i hi hb => (husable i hi hb.1).2
  have hready : (s.frm.state != .ready) = false := by rw [hlive.2]; rfl
  exact if_neg (by simp [hready, hothers', hdead, hoff, hp, hw])

/-- With no row change pending, taking strips away changes no row. -/
theorem State.rowsFree_none (gone : BitVec 512) (h : s.frm.rowChanges = []) : s.rowsFree gone = s := by
  have hfrm : { s.frm with rowChanges := [] } = s.frm := by rw [← h]
  simp only [State.rowsFree, h, List.filter_nil, State.each_nil, State.modFrm, hfrm]

/-- A write that would take strips from a partition to which a context is bound is ignored. -/
theorem prtStripsWrite_bound (hbound : s.bound p ≠ []) (hgone : (s.part p).strips &&& ~~~(stripsWrite (s.part p).strips w v) ≠ 0) : prtStripsWrite p w v s = s := by
  have hempty : (s.bound p).isEmpty = false := by simpa using hbound
  unfold prtStripsWrite
  extract_lets x new others dead off added gone small
  have hgone' : (gone != 0) = true := bne_iff_ne.2 hgone
  simp only [hgone', hempty, if_true, Bool.false_eq_true, if_false, ite_self]

/-- A write that names a strip of another partition is ignored. -/
theorem prtStripsWrite_claimed {r : Nat} (hr : r < Config.partitions) (hne : r ≠ p)
    (hclaim : ((s.part r).strips ||| (s.part r).adding) &&& stripsWrite (s.part p).strips w v ≠ 0) : prtStripsWrite p w v s = s := by
  unfold prtStripsWrite
  extract_lets x new others dead off added gone small
  have hothers : others = true := List.any_eq_true.2 ⟨r, List.mem_range.2 hr, by simpa using ⟨hne, hclaim⟩⟩
  exact if_pos (by simp [hothers])

end

/-! ### The begin of a rebuild (R262) -/

/-- Sequence windows that are spilled change HBM and the Lot Table alone. -/
theorem State.spillSeqs_seating (s : State) (n : Nat) (l : List (Nat × Nat × Bytes)) : (s.spillSeqs n l).seating = s.seating := by
  refine State.each_keeps State.seating _ (fun t x => ?_) l s
  extract_lets e t1
  have h1 : t1.seating = t.seating := t.withHbm_seating _
  exact iteInduction (motive := fun t' : State => t'.seating = t.seating) (fun _ => (t1.modEntry_seating _ _).trans h1) fun _ => h1

/-- Row changes touch the column maps alone. -/
theorem State.rowsApply_keeps (rows : List (Bool × Nat)) (s : State) :
    (s.each rows State.rowApply).parts = s.parts ∧ (s.each rows State.rowApply).frm.rowChanges = s.frm.rowChanges :=
  Prod.mk.inj (State.each_keeps (fun t => (t.parts, t.frm.rowChanges)) State.rowApply (fun _ _ => rfl) rows s)

/-- The partition while it rebuilds (R262). -/
def State.rebuildingPart (s : State) (p : Nat) (x : Part) : Part :=
  { x with rebuilding := true, rebuildPend := false, changePend := false, rebuildSince := s.now, laidOut := if x.resident.isSome then x.laidOut else s.tilesOf p }

/-- Where a rebuild begins and every window can be read, its partition is as `rebuildingPart` says, and no row change of its strips is left. -/
theorem rebuildBegin_keeps {s : State} {p : Nat} (hpend : (s.part p).rebuildPend = true) (hfree : (s.part p).rebuilding = false) (hswitch : (s.part p).switch = none)
    (hunits : s.unitsIn p = false) :
    ((rebuildBegin p [] s).part p).uncounted = (s.rebuildingPart p (s.part p)).uncounted
      ∧ (rebuildBegin p [] s).frm.rowChanges = s.frm.rowChanges.filter fun y => !(s.part p).strips.getLsbD (y.2 / 17) := by
  unfold rebuildBegin
  extract_lets x old s1 mine rows s2 s3 s4
  rw [if_neg (by simp [x, hpend, hfree, hswitch, hunits])]
  obtain ⟨hparts, hrows⟩ := State.rowsApply_keeps rows s2
  have hpart : s4.part p = s.rebuildingPart p (s.part p) :=
    (congrArg (fun t => tabGet ({} : Part) t p) hparts : s4.part p = s2.part p).trans (s.modPart_self p (s.rebuildingPart p))
  have hend : ∀ t : State, t.seating = s4.seating → (t.part p).uncounted = (s.rebuildingPart p (s.part p)).uncounted
      ∧ t.frm.rowChanges = s.frm.rowChanges.filter fun y => !(s.part p).strips.getLsbD (y.2 / 17) :=
    fun t ht => ⟨(State.part_of_seating ht p).trans (congrArg Part.uncounted hpart), (congrArg Frm.rowChanges (State.frm_of_seating ht)).trans hrows⟩
  split
  · exact hend _ rfl
  · exact hend _ ((State.each_keeps State.seating _ (fun t a => t.modTile_seating a _) _ _).trans (s4.spillSeqs_seating _ _))

/-! ### The end of a rebuild (R262, R264) -/

section
variable (s : State) (n : Nat)

theorem State.putFrame_seating (base k a : Nat) : (s.putFrame n base k a).seating = s.seating := by
  unfold State.putFrame
  extract_lets t u at_ slot s1 s2
  have h1 : s1.seating = s.seating := s.hbmWrite_seating _ _
  have h2 : s2.seating = s1.seating := by
    unfold s2
    split
    · rfl
    · refine (State.each_keeps State.seating _ (fun t x => t.hbmWrite_seating _ _) _ _).trans ((State.withHbm_seating _ _).trans ?_)
      exact State.each_keeps State.seating _ (fun t i => t.hbmWrite_seating _ _) _ _
  refine Eq.trans (State.each_keeps State.seating _ (fun t x => ?_) _ s2) (h2.trans h1)
  exact t.withHbm_seating _

theorem State.putBanks_seating (base a : Nat) : (s.putBanks base a).seating = s.seating := by
  unfold State.putBanks
  extract_lets t put
  have hput (t : State) (o k : Nat) (b : Bytes) : (put t o k b).seating = t.seating := t.withHbm_seating _
  exact (hput _ _ _ _).trans ((hput _ _ _ _).trans ((hput _ _ _ _).trans (hput _ _ _ _)))

theorem State.putHeader_seating (base : Nat) (tiles : List Nat) (complete : Bool) (start fin bytes : Nat) :
    (s.putHeader n base tiles complete start fin bytes).seating = s.seating := by
  unfold State.putHeader
  extract_lets
  exact s.hbmWrite_seating _ _

theorem State.parkOn_seating (tiles pair : List Nat) (first total start bytes : Nat) : (s.parkOn n tiles pair first total start bytes).seating = s.seating := by
  unfold State.parkOn
  extract_lets base t0 s1 s2 s3 saved s4
  have h1 : s1.seating = s.seating := s.putBanks_seating _ _
  have h2 : s2.seating = s1.seating := State.each_keeps State.seating (fun s (x : Nat × Nat) => s.putFrame n base x.2 x.1) (fun t x => t.putFrame_seating n base x.2 x.1) _ _
  have h3 : s3.seating = s2.seating := s2.putHeader_seating n _ _ _ _ _ _
  have h4 : s4.seating = s3.seating := State.each_keeps State.seating _ (fun t a => t.modTile_seating a _) _ _
  exact (s4.modClient_seating n _).trans (h4.trans (h3.trans (h2.trans h1)))

theorem State.relay_seating (old : List VatImage) (first total : Nat) (new : List Nat) (nf nt : Nat) : (s.relay n old first total new nf nt).seating = s.seating := by
  refine State.each_keeps State.seating _ (fun t key => ?_) _ s
  extract_lets mine t1
  have h1 : t1.seating = t.seating := State.each_keeps State.seating _ (fun t a => t.modTile_seating a _) _ _
  split
  · exact h1
  · refine iteInduction (motive := fun t' : State => t'.seating = t.seating) (fun _ => ?_) fun _ => ?_
    · exact (t1.when_seating _ _ (t1.hbmWrite_seating _ _)).trans h1
    · exact (State.each_keeps State.seating _ (fun t (x : Nat × Nat) => State.each_keeps State.seating _ (fun t j => t.modTile_seating x.1 _) _ t) _ _).trans h1

theorem State.replace_seating (p : Nat) : (s.replace n p).seating = s.seating := by
  refine State.each_keeps State.seating _ (fun t u => State.each_keeps State.seating _ (fun t a => ?_) _ t) _ s
  refine iteInduction (motive := fun t' : State => t'.seating = t.seating) (fun _ => rfl) fun _ => ?_
  split <;> rfl

/-- A partition whose resident context, if any, has left it. -/
def Part.vacant (x : Part) : Part := { x with resident := none }

/-- Takes what is resident out of the partitions of a list. -/
def State.vacateSeats (s : State) (l : List Nat) : State := s.each l fun s r => s.modPart r Part.vacant

theorem State.vacateSeats_vacant (l : List Nat) (p : Nat) : ((s.vacateSeats l).part p).vacant = (s.part p).vacant := by
  refine State.each_keeps (fun t => (t.part p).vacant) _ (fun t r => ?_) l s
  by_cases hr : p = r
  · rw [hr, State.modPart_self]; rfl
  · rw [State.modPart_ne _ _ _ _ hr]

theorem State.vacateSeats_resident {p : Nat} (l : List Nat) (s : State) (h : p ∈ l ∨ (s.part p).resident = none) : ((s.vacateSeats l).part p).resident = none := by
  induction l generalizing s with
  | nil => exact h.resolve_left List.not_mem_nil
  | cons r l ih =>
    refine ih _ ?_
    by_cases hr : p = r
    · rw [hr, State.modPart_self]; exact .inr rfl
    · rw [State.modPart_ne _ _ _ _ hr]
      exact h.imp_left fun hp => (List.mem_cons.1 hp).resolve_left hr

/-- A context whose partition has no working tile left leaves its seats, and nothing else of a partition changes but counts (R264). -/
theorem State.parkEmpty_eq (p : Nat) (old : List Nat) : ∃ t : State, t.seating = s.seating ∧ s.parkEmpty n p old = t.vacateSeats (s.seats n) := by
  unfold State.parkEmpty
  extract_lets c x s1 tiles pair s2 s3 s4
  have h1 : s1.seating = s.seating := State.each_keeps State.seating _ (fun t u => t.memberKill_seating u 0) _ s
  have h2 : s2.seating = s1.seating := s1.parkOn_seating n _ _ _ _ _ _
  have h3 : s3.seating = s2.seating := s2.modClient_seating n _
  have h4 : s4.seating = s3.seating := State.each_keeps State.seating _ (fun t (l : LotRun) => t.lotCheck_seating n l.q l.ordinal) _ s3
  have h := h4.trans (h3.trans (h2.trans h1))
  exact ⟨s4, h, by rw [State.seats_of_seating h]; rfl⟩

end

/-! ### Strips and layout after a rebuild (R261, R262) -/

/-- Strips that a rebuild drops: those that are retired (R261). -/
theorem getLsbD_retiredStrips (c : Nat → Bool) (l : List Nat) (m : BitVec 512) {i : Nat} (hi : i < 512) :
    (l.foldl (fun (m : BitVec 512) j => if c j then m ||| BitVec.twoPow 512 j else m) m).getLsbD i = (m.getLsbD i || (l.contains i && c i)) := by
  induction l generalizing m with
  | nil => simp
  | cons j l ih =>
    rw [List.foldl_cons, ih]
    by_cases hj : j = i
    · subst hj
      cases c j <;> simp [hi]
    · cases hc : c j <;> simp [hj, BitVec.getLsbD_twoPow, Ne.symm hj]

/-- The strips of a partition once its rebuild has ended: those it held and those added, without the retired ones (R262 step 4). -/
def State.rebuiltStrips (s : State) (x : Part) : BitVec 512 :=
  (x.strips ||| x.adding) &&& ~~~((upTo Config.strips).foldl (fun (m : BitVec 512) i => if (s.colmap i).retired then m ||| BitVec.twoPow 512 i else m) 0)

theorem State.getLsbD_rebuiltStrips (s : State) (x : Part) {i : Nat} (hi : i < 512) :
    (s.rebuiltStrips x).getLsbD i = ((x.strips.getLsbD i || x.adding.getLsbD i) && !(s.colmap i).retired) := by
  have hdead := getLsbD_retiredStrips (fun j => (s.colmap j).retired) (upTo Config.strips) 0#512 hi
  have hmem : (upTo Config.strips).contains i = true := by simpa using hi
  rw [hmem] at hdead
  simp only [State.rebuiltStrips, BitVec.getLsbD_and, BitVec.getLsbD_or, BitVec.getLsbD_not, hdead, hi, decide_true, BitVec.ofNat_eq_ofNat, BitVec.getLsbD_zero, Bool.true_and, Bool.false_or]

/-- The partition with its new strips, its rebuild counted (R262 step 4). -/
def State.rebuiltPart (s : State) (x : Part) : Part :=
  { x with strips := s.rebuiltStrips x, adding := 0, rebuilding := false, rebuilds := satTo 0xFFFF (x.rebuilds + 1), rebuildNs := (s.now - x.rebuildSince) % 2 ^ 32 }

/-- The state with those strips, before the contents of the tiles take their new layout. -/
def State.restripped (s : State) (p : Nat) : State := s.modPart p s.rebuiltPart

/-- A partition without the layout that is noted of it. -/
def Part.unlaid (x : Part) : Part := { x with laidOut := [], laidFirst := 0, laidTotal := 0 }

/-- The partition with the layout of its working tiles noted. -/
def State.laidPart (s : State) (p : Nat) (x : Part) : Part :=
  { x with laidOut := s.tilesOf p, laidFirst := spreadFirst (s.spread p) s.frm.waferId, laidTotal := spreadTotal (s.spread p) }

theorem State.laid_part (s : State) (p : Nat) : (s.laid p).part p = s.laidPart p (s.part p) := s.modPart_self p (s.laidPart p)

theorem State.laid_tilesOf (s : State) (p : Nat) : (s.laid p).tilesOf p = s.tilesOf p :=
  State.tilesOf_congr rfl (by simp only [State.laid_part, State.laidPart])

theorem State.laidPart_unlaid (s : State) (p : Nat) (x : Part) : (s.laidPart p x).unlaid = x.unlaid := by simp only [State.laidPart, Part.unlaid]

/-- The end of a rebuild either parks the resident context, where no working tile is left, or notes the new layout, and changes nothing else of a partition but counts (R262, R264). -/
theorem rebuildEnd_cases {s : State} {p : Nat} (hrebuild : (s.part p).rebuilding = true) :
    (∃ t : State, t.seating = (s.restripped p).seating ∧ rebuildEnd p s = t.laid p ∧ ((s.part p).resident ≠ none → (s.restripped p).tilesOf p ≠ []))
      ∨ ∃ (n : Nat) (t : State), (s.part p).resident = some n ∧ (s.restripped p).tilesOf p = [] ∧ t.seating = (s.restripped p).seating ∧ rebuildEnd p s = t.vacateSeats (s.seats n) := by
  obtain ⟨u, hu⟩ : ∃ u, u = rebuildEnd p s := ⟨_, rfl⟩
  rw [← hu]
  unfold rebuildEnd at hu
  extract_lets x dead held s1 new at hu
  rw [if_neg (by simp [x, hrebuild])] at hu
  split at hu
  · next hnone => exact .inl ⟨s1, rfl, hu, fun h => absurd hnone h⟩
  · next old src _ _ s2 l first same _ n hsome =>
    extract_lets s3 s4 at hu
    by_cases hnew : new.isEmpty = true
    · rw [if_pos hnew] at hu
      obtain ⟨t, ht, heq⟩ := s1.parkEmpty_eq n p old
      exact .inr ⟨n, t, hsome, List.isEmpty_iff.1 hnew, ht, hu.trans heq⟩
    · rw [if_neg hnew] at hu
      have h2 : s2.seating = s1.seating := State.each_keeps State.seating _ (fun t a => t.modTile_seating a _) _ _
      have h3 : s3.seating = s2.seating := by
        unfold s3
        exact iteInduction (motive := fun t : State => t.seating = s2.seating) (fun _ => rfl) fun _ => s2.relay_seating n _ _ _ _ _ _
      have h4 : s4.seating = s3.seating := State.each_keeps State.seating _ (fun t a => t.modTile_seating a _) _ _
      exact .inl ⟨s4.replace n p, (s4.replace_seating n p).trans (h4.trans (h3.trans h2)), hu, fun _ h => hnew (List.isEmpty_iff.2 h)⟩

/-- What the end of a rebuild makes of its partition's strips and counts (R262 step 4). -/
theorem rebuildEnd_part {s : State} {p : Nat} (hrebuild : (s.part p).rebuilding = true) :
    ((rebuildEnd p s).part p).unlaid.vacant.uncounted = (s.rebuiltPart (s.part p)).unlaid.vacant.uncounted := by
  have hpart : ∀ t : State, t.seating = (s.restripped p).seating → (t.part p).uncounted = (s.rebuiltPart (s.part p)).uncounted := fun t ht =>
    (State.part_of_seating ht p).trans (congrArg Part.uncounted (s.modPart_self p s.rebuiltPart))
  obtain ⟨t, ht, heq, -⟩ | ⟨n, t, -, -, ht, heq⟩ := rebuildEnd_cases hrebuild
  · rw [heq, State.laid_part, State.laidPart_unlaid]
    exact (congrArg (fun x => x.unlaid.vacant) (hpart t ht) :)
  · rw [heq]
    exact (congrArg (fun x => x.unlaid.uncounted) (t.vacateSeats_vacant (s.seats n) p) :).trans (congrArg (fun x => x.unlaid.vacant) (hpart t ht) :)

/-- After a rebuild a partition with working tiles keeps its resident context and notes its layout; one without has no resident context (R262, R264). -/
theorem rebuildEnd_resident {s : State} {p : Nat} (hrebuild : (s.part p).rebuilding = true) (hseat : ∀ n, (s.part p).resident = some n → p ∈ s.seats n) :
    ((rebuildEnd p s).tilesOf p ≠ [] → ((rebuildEnd p s).part p).laidOut = (rebuildEnd p s).tilesOf p ∧ ((rebuildEnd p s).part p).resident = (s.part p).resident)
      ∧ ((rebuildEnd p s).tilesOf p = [] → ((rebuildEnd p s).part p).resident = none) := by
  have hself : (s.restripped p).part p = s.rebuiltPart (s.part p) := s.modPart_self p s.rebuiltPart
  obtain ⟨t, ht, heq, hres⟩ | ⟨n, t, hsome, hnone, ht, heq⟩ := rebuildEnd_cases hrebuild
  · have hresident : (t.part p).resident = (s.part p).resident := (congrArg Part.resident (State.part_of_seating ht p) :).trans (congrArg Part.resident hself :)
    have hbefore : t.tilesOf p = (s.restripped p).tilesOf p := State.tilesOf_congr (State.frm_of_seating ht) (congrArg Part.strips (State.part_of_seating ht p) :)
    rw [heq, State.laid_tilesOf, State.laid_part]
    simp only [State.laidPart, true_and]
    refine ⟨fun _ => hresident, fun hempty => ?_⟩
    by_contra hsome
    exact hres (fun h => hsome (hresident.trans h)) (hbefore.symm.trans hempty)
  · have hvacant := t.vacateSeats_vacant (s.seats n) p
    have htiles : (t.vacateSeats (s.seats n)).tilesOf p = [] := by
      rw [← hnone]
      refine State.tilesOf_congr ?_ ?_
      · exact (State.each_keeps State.frm (fun s r => s.modPart r Part.vacant) (fun _ _ => rfl) _ t).trans (State.frm_of_seating ht)
      · exact (congrArg Part.strips hvacant :).trans (congrArg Part.strips (State.part_of_seating ht p) :)
    rw [heq, htiles]
    exact ⟨fun h => absurd rfl h, fun _ => t.vacateSeats_resident _ (.inl (hseat n hsome))⟩

/-! ### The obligation -/

/-- Settles O51: a write of PRT_STRIPS and a rebuild each take the one branch that their hypotheses leave. -/
theorem strips : Obligations.strips := by
  unfold Obligations.strips
  refine ⟨?takes, ?adds, ?bound, ?claimed, ?request, ?begins, ?ends⟩
  case takes =>
    intro p w v s hlive hp hw hempty hothers husable hgone hrows
    have hwrite : prtStripsWrite p w v s = s.modPart p fun x => x.restrip (stripsWrite (s.part p).strips w v) := by
      rw [prtStripsWrite_eq rfl hlive hp hw hothers husable, if_pos (bne_iff_ne.2 hgone), if_pos (by simp [hempty])]
      exact State.rowsFree_none _ hrows
    refine answers_on hlive.1 rfl ?_
    rw [hwrite]
    have hself := s.modPart_self p fun x => x.restrip (stripsWrite (s.part p).strips w v)
    have hothers := fun r hr => s.modPart_ne p r (fun x => x.restrip (stripsWrite (s.part p).strips w v)) hr
    exact ⟨hself, hothers⟩
  case adds =>
    intro p w v s hlive hp hw hothers husable hgone hadded hroom
    have hsmall : ((s.bound p).any fun n => decide ((s.client n).areas.parkSize < parkNeed (stripCount (stripsWrite (s.part p).strips w v ||| (s.part p).adding)))) = false := by
      simpa using hroom
    have hwrite : prtStripsWrite p w v s = s.modPart p fun x => x.addLater (stripsWrite x.strips w v) := by
      rw [prtStripsWrite_eq rfl hlive hp hw hothers husable, if_neg (by simp [hgone]), if_neg (by rw [beq_false_of_ne hadded, hsmall]; decide)]
      exact congrArg (fun P => { s with parts := P }) (tabMod_congr rfl)
    exact exec_on hlive.1 rfl (by rw [hwrite]; rfl)
  case bound =>
    intro p w v s hlive hbound hgone
    exact exec_idle hlive.1 rfl (prtStripsWrite_bound hbound hgone)
  case claimed =>
    intro p w v r s hlive hr hne hclaim
    exact exec_idle hlive.1 rfl (prtStripsWrite_claimed hr hne hclaim)
  case request =>
    intro p s hlive hp
    refine exec_on hlive.1 rfl ?_
    rw [if_pos (by simp [hlive.2, hp])]
    rfl
  case begins =>
    intro p s hpower hpend hfree hswitch hunits
    obtain ⟨hpart, hrows⟩ := rebuildBegin_keeps hpend hfree hswitch hunits
    refine answers_on hpower rfl ⟨(congrArg Part.rebuilding hpart :), (congrArg Part.rebuildPend hpart :), (congrArg Part.rebuildSince hpart :), (congrArg Part.strips hpart :), ?_⟩
    intro y hy
    have hy' : y ∈ s.frm.rowChanges.filter fun y => !(s.part p).strips.getLsbD (y.2 / 17) := hrows ▸ hy
    simpa using (List.mem_filter.1 hy').2
  case ends =>
    intro p s hpower hrebuild hseat
    have hpart := rebuildEnd_part hrebuild
    obtain ⟨hsome, hnone⟩ := rebuildEnd_resident hrebuild hseat
    refine answers_on hpower rfl ⟨(congrArg Part.rebuilding hpart :), (congrArg Part.adding hpart :), (congrArg Part.rebuilds hpart :), (congrArg Part.rebuildNs hpart :),
      fun h => (hsome h).1, fun i hi => ?_, hnone, fun h => (hsome h).2⟩
    rw [← s.getLsbD_rebuiltStrips _ hi]
    exact (congrArg (fun x => x.strips.getLsbD i) hpart :)

end Sys2Proof.Machine

/-! PROOFS. Clearing of the accounting and of range slots, reads of registers, and the slowdown index from the end of a window to its publication (R92, R290, R291, R294, R295, R481, R483). -/

namespace Sys2Proof.Machine

open Sys2Proof Sys2Proof.Safety

/-! ### CLR of the accounting (R291) -/

/-- CLR through a PF at READY. -/
theorem accClr_pf {p n : Nat} {v : W32} {s : State} (hready : s.frm.state = .ready) (hn : n < 128) (hclr : bit v.toNat 0 = true) :
    accClr (.pf p) n v s = s.modClient n fun c => { c with
      acct := { cleared := BitVec.ofNat 64 s.now }, parkedSince := if c.en && !c.resident then s.now else c.parkedSince } := by
  have hclient : ¬Config.clients ≤ n := Nat.not_le.2 hn
  simp [accClr, Via.isPf, hready, hclr, hclient]

/-- A write of CLI_ACC_CTRL through any other way is ignored. -/
theorem accClr_of_not_pf {via : Via} (hvia : Via.isPf via = false) (n : Nat) (v : W32) (s : State) : accClr via n v s = s := by
  simp [accClr, hvia]

/-! ### Reads of registers (R290, R382) -/

section
variable {via : Via} {a size : Nat} {s : State}

/-- A read of another size or alignment, or by a way that does not answer, is refused. -/
theorem lowHalfRead_refused (ha : a < viaSize via) (hbad : (size ≠ 4 ∧ size ≠ 8) ∨ a % size ≠ 0 ∨ s.viaOk via = false) :
    lowHalfRead via a size s = s.emit .unsupportedRequest := by
  rw [lowHalfRead, if_neg (Nat.not_le.2 ha), if_pos (by simpa using hbad)]

variable (ha : a < viaSize via) (hok : s.viaOk via = true)
include ha hok

/-- An aligned read of 8 bytes answers both halves of one instant. -/
theorem lowHalfRead_eight (hal : a % 8 = 0) :
    lowHalfRead via a 8 s = s.emit (.readData (BitVec.ofNat 64 (s.regWord via a + 2 ^ 32 * s.regWord via (a + 4)))) := by
  rw [lowHalfRead, if_neg (Nat.not_le.2 ha), if_neg (by simp [hal, hok]), if_pos rfl]

variable (hal : a % 4 = 0)
include hal

/-- An aligned read of 4 bytes answers the half that is latched for its way and address, and lets it go. -/
theorem lowHalfRead_latched {l : HighLatch} (hl : (s.latches.find? fun l => l.via == via && l.addr == a) = some l) :
    lowHalfRead via a 4 s = { s with latches := s.latches.filter fun l => !(l.via == via && l.addr == a) }.emit (.readData (l.value.setWidth 64)) := by
  rw [lowHalfRead, if_neg (Nat.not_le.2 ha), if_neg (by simp [hal, hok]), if_neg (by decide)]
  simp only [hl]

/-- With nothing latched it answers the word as it stands, and latches the high half where the word is a low one. -/
theorem lowHalfRead_fresh (hnone : ∀ l ∈ s.latches, l.via = via → l.addr ≠ a) :
    lowHalfRead via a 4 s = State.emit (if (viaPlace via a).wide then
        { s with latches := { via := via, addr := a + 4, value := BitVec.ofNat 32 (s.regWord via (a + 4)) } :: s.latches.filter fun l => !(l.via == via && l.addr == a + 4) }
      else s) (.readData (BitVec.ofNat 64 (s.regWord via a))) := by
  have hl : (s.latches.find? fun l => l.via == via && l.addr == a) = none := by simpa using hnone
  rw [lowHalfRead, if_neg (Nat.not_le.2 ha), if_neg (by simp [hal, hok]), if_neg (by decide)]
  simp only [hl]

end

/-! ### The slowdown index (R294, R295) -/

/-- Counting open cycles leaves the partitions but for their counts. -/
theorem State.settleAll_seating (s : State) : s.settleAll.seating = s.seating :=
  State.each_keeps State.seating State.settle (fun t a => t.settle_seating a) _ s

theorem State.settleAll_tilesOf (s : State) (p : Nat) : s.settleAll.tilesOf p = s.tilesOf p :=
  State.tilesOf_congr (State.frm_of_seating s.settleAll_seating) (congrArg Part.strips (State.part_of_seating s.settleAll_seating p) :)

/-- Without tiles there are no cycles to count. -/
theorem State.settleAll_of_no_tiles {s : State} (h : s.tiles = []) : s.settleAll = s := by
  rw [State.settleAll, h, List.map_nil, State.each_nil]

/-- A partition as its window closes at `now`, with `lt` the waiting time of its tiles. -/
def Part.closeWindow (x : Part) (now lt : Nat) : Part := { x with
  sdEnd := now, wBusy := 0, wHbm := 0, wTx := 0, wFab := 0
  sdClosed := some (x.wBusy + lt, x.wHbm + x.wTx + x.wFab + lt, x.wHbm, x.wTx, x.wFab, lt) }

/-- SD_WINDOW_END counts the cycles passed until now and then closes the window, with LTWAIT for each working tile. -/
theorem sdWindowEnd_eq {p w : Nat} {s : State} (hready : s.frm.state = .ready) (hp : p < 64) (hnow : s.now % 10000000 = 0) (hend : (s.part p).sdEnd ≠ s.now) :
    sdWindowEnd p w s = s.settleAll.modPart p fun x => x.closeWindow s.now ((s.tilesOf p).length * w) := by
  have hpart : ¬Config.partitions ≤ p := Nat.not_le.2 hp
  rw [sdWindowEnd, if_neg (by simp [hready, hnow, hend, hpart])]
  simp only [s.settleAll_tilesOf, State.now_of_seating s.settleAll_seating]
  rfl

/-- The partition after it. -/
theorem sdWindowEnd_part {p w : Nat} {s : State} (hready : s.frm.state = .ready) (hp : p < 64) (hnow : s.now % 10000000 = 0) (hend : (s.part p).sdEnd ≠ s.now) :
    (sdWindowEnd p w s).part p = (s.settleAll.part p).closeWindow s.now ((s.tilesOf p).length * w) := by
  rw [sdWindowEnd_eq hready hp hnow hend, State.modPart_self]

theorem satTo_eq_min (m n : Nat) : satTo m n = min m n := by
  rw [Nat.min_comm, Nat.min_def, satTo]

/-- The index fits its 16 bits. -/
theorem sdIndex_le (tot foreign : Nat) : sdIndex tot foreign ≤ 0xFFFF := by
  unfold sdIndex
  split
  · decide
  · split
    · exact Nat.le_refl _
    · rw [satTo_eq_min]; exact Nat.min_le_left _ _

/-- The LEVEL of its watermark is the index itself. -/
theorem wmUpdate_sdIndex_level (w : Wm) (tot foreign : Nat) : (wmUpdate w (sdIndex tot foreign)).1.level = sdIndex tot foreign := by
  have hle := sdIndex_le tot foreign
  rw [(wmUpdate_peak w _).1, satTo, if_pos (by omega)]

/-- A partition as the figures of its closed window are published, together with the index. -/
def Part.publish (x : Part) (tot f hbm tx fab lt : Nat) : Part := { x with
  sdClosed := none, sdTotal := tot % 2 ^ 64, sdForeign := f % 2 ^ 64, sdHbm := hbm % 2 ^ 64, sdTx := tx % 2 ^ 64
  sdFab := fab % 2 ^ 64, sdLtWait := lt % 2 ^ 64, sd := (wmUpdate x.sd (sdIndex tot f)).1 }

/-- SD_PUBLISH publishes a closed window, whether or not a notice goes out. -/
theorem sdPublish_part {p tot f hbm tx fab lt : Nat} {s : State} (hclosed : (s.part p).sdClosed = some (tot, f, hbm, tx, fab, lt)) :
    (sdPublish p s).part p = (s.part p).publish tot f hbm tx fab lt := by
  rw [sdPublish, hclosed]
  refine State.when_ind (P := fun t => t.part p = (s.part p).publish tot f hbm tx fab lt) _ _ _ ?notice ?quiet
  case notice => exact (State.notice_part' _ _ _ _ _ _).trans (s.modPart_self p _)
  case quiet => exact s.modPart_self p _

/-! ### Range slots (R92) -/

/-- A write of CLI_RS_CFG at READY changes its own slot alone. -/
theorem rsClr_eq {n i : Nat} {v : W32} {s : State} (hready : s.frm.state = .ready) (hn : n < 128) (hi : i < 1024) :
    rsClr n i v s = s.modSlot n i fun x => if bit v.toNat 31 then (x.config v.toNat).clear else x.config v.toNat := by
  have hclient : ¬Config.clients ≤ n := Nat.not_le.2 hn
  rw [rsClr, if_neg (by simp [hready, hclient, hi])]

/-! ### The obligation -/

/-- Settles O24: each clause is one of the equations above. -/
theorem accounting : Obligations.accounting := by
  unfold Obligations.accounting
  refine ⟨?clears, ?ignored, ?narrow, ?wide, ?latched, ?eight, ?refused, ?closes, ?closesIdle, ?publishes, ?rangeSlot⟩
  case clears =>
    intro p n v s ⟨hpower, hready⟩ hn hclr
    exact exec_on hpower rfl (by rw [accClr_pf hready hn hclr]; rfl)
  case ignored =>
    intro m n v s hpower
    exact ⟨exec_idle hpower rfl (accClr_of_not_pf rfl n v s), exec_idle hpower rfl (accClr_of_not_pf rfl n v s), exec_idle hpower rfl (accClr_of_not_pf rfl n v s)⟩
  case narrow =>
    intro via a s hpower ha hal hok hnone hnarrow
    exact exec_on hpower rfl (by rw [lowHalfRead_fresh ha hok hal hnone, hnarrow]; rfl)
  case wide =>
    intro via a s hpower ha hal hok hnone hwide
    exact exec_on hpower rfl (by rw [lowHalfRead_fresh ha hok hal hnone, if_pos hwide]; rfl)
  case latched =>
    intro via a v s hpower ha hal hok hl
    exact exec_on hpower rfl (by rw [lowHalfRead_latched ha hok hal hl]; rfl)
  case eight =>
    intro via a s hpower ha hal hok
    exact exec_on hpower rfl (by rw [lowHalfRead_eight ha hok hal]; rfl)
  case refused =>
    intro via a size s hpower ha hbad
    exact exec_on hpower rfl (by rw [lowHalfRead_refused ha hbad]; rfl)
  case closes =>
    intro p w s ⟨hpower, hready⟩ hp hnow hend
    refine answers_on hpower rfl ?_
    rw [State.keep_part, sdWindowEnd_part hready hp hnow hend]
    exact ⟨rfl, ⟨_, _, _, _, _, rfl, rfl, rfl, rfl, rfl, rfl⟩, rfl, rfl, rfl, rfl⟩
  case closesIdle =>
    intro p w s ⟨hpower, hready⟩ hp hnow hend htiles
    refine answers_on hpower rfl ?_
    rw [State.keep_part, sdWindowEnd_part hready hp hnow hend, State.settleAll_of_no_tiles htiles]
    rfl
  case publishes =>
    intro p tot f hbm tx fab lt s hpower hclosed htot hf
    refine answers_on hpower rfl ?_
    rw [State.keep_part, sdPublish_part hclosed]
    refine ⟨rfl, Nat.mod_eq_of_lt htot, Nat.mod_eq_of_lt hf, (wmUpdate_sdIndex_level _ tot f).trans ?_⟩
    rw [sdIndex, satTo_eq_min]
  case rangeSlot =>
    intro n i v s ⟨hpower, hready⟩ hn hi
    exact exec_on hpower rfl (by rw [rsClr_eq hready hn hi]; rfl)

end Sys2Proof.Machine

/-! PROOFS. Corrected and uncorrectable memory errors, scrubs, patrols and HBM re-training (R299, R300, R301, R314, R372, R398, R402, R407). -/

namespace Sys2Proof.Machine

open Sys2Proof Sys2Proof.Safety

/-! ### Read-backs (R299) -/

/-- A word that reads back clean awaits its read-back no more. -/
theorem correctedReadback_clean {cls n : Nat} {x : Nat × Nat} {s : State} (hx : (s.flt.readbacks.find? fun y => sourceClass y.1 == cls && y.2 == n) = some x) :
    correctedReadback cls n false s = s.modFlt fun f => { f with readbacks := f.readbacks.erase x } := by
  simp only [correctedReadback, hx, State.when_false]

/-- A rim store word that is still bad is an upset of its bank. -/
theorem correctedReadback_rimStillBad {n : Nat} {x : Nat × Nat} {s : State} (hx : (s.flt.readbacks.find? fun y => sourceClass y.1 == 3 && y.2 == n) = some x)
    (hsteady : Steady s 3 n) :
    correctedReadback 3 n true s = { s with flt := { upsetFlt s x.1 3 n none with readbacks := s.flt.readbacks.erase x } } := by
  have herased : Steady (s.modFlt fun f => { f with readbacks := f.readbacks.erase x }) 3 n := hsteady
  simp only [correctedReadback, hx, State.when_true]
  exact State.upset_steady herased x.1 none

/-! ### HBM reads (R300, R301) -/

/-- An uncorrectable read of a pseudo-channel that is not retired is an upset of it, and is re-issued. -/
theorem hbmUncorrectable_steady {a : Nat} {s : State} (hbelow : a < s.hbmTop) (hmapped : s.frm.unmapped = []) (hsteady : Steady s 2 (pcOf a)) :
    hbmUncorrectable a s = { s with
      flt := { upsetFlt s 0x0B 2 (pcOf a) (s.ownerAt a) with reissues := insertUp a s.flt.reissues }
      hbmCtl := tabMod {} s.hbmCtl (pcOf a / 32) fun m => { m with uncorrected := m.uncorrected + 1 } } := by
  have hcounted : Steady (s.modCtl (pcOf a / 32) fun m => { m with uncorrected := m.uncorrected + 1 }) 2 (pcOf a) := hsteady
  simp only [hbmUncorrectable, if_neg (Nat.not_le.2 hbelow), State.modCtl_frm, hmapped, List.contains_nil, Bool.false_eq_true, if_false,
    State.upset_steady hcounted]
  rfl

/-- A re-issue ends with its result; where that is bad, the data is lost. -/
theorem hbmReissueResult_eq {a : Nat} {s : State} (ha : s.flt.reissues.contains a = true) (clean : Bool) :
    hbmReissueResult a clean s = let t := s.modFlt fun f => { f with reissues := f.reissues.filter (· != a) }
      if clean then t else t.hbmLost a := by
  rw [hbmReissueResult, if_neg (by simpa using ha)]

/-- Data that no client owns is never a loss (R402). -/
theorem State.hbmLost_unowned {a : Nat} {s : State} (hfree : s.ownerAt a = none) : s.hbmLost a = s := by
  rw [State.hbmLost, hfree, State.loss]

/-! ### Rim stores (R300, R304) -/

/-- A north entry that cannot be read is taken from a clean south copy into both. -/
theorem rimUncorrectable_northFails {i : Nat} {s : State} (hi : i < 131072) (hused : s.flt.rimBad = []) (hsteady : Steady s 3 (i / 8192)) :
    rimUncorrectable 0 i .clean s = { s with
      flt := upsetFlt s 0x0D 3 (i / 8192) none, north := tabPut s.north i (tabGet {} s.south i), south := tabPut s.south i (tabGet {} s.south i) } := by
  have hbank : rimBank 0 i = i / 8192 := by simp only [rimBank, ltBank]; omega
  have hentry : ¬Config.lotEntries ≤ i := Nat.not_le.2 hi
  have hlost : (Ecc.clean == Ecc.failUsed) = false := rfl
  simp only [rimUncorrectable, hbank, hused, List.contains_nil, hentry, hlost, State.upset_steady hsteady, decide_false, Nat.reduceLeDiff, Bool.or_self,
    Bool.false_and, Bool.false_eq_true, if_false, if_true]

/-! ### Scrub and patrol (R314, R402) -/

/-- The scrub of a swatch once it checks window `w` of tile `pt`. -/
def State.scrubAt (s : State) (pt w : Nat) : State := s.modFlt fun x => { x with scrubAt := tabPut x.scrubAt (pt / 136) (pt, w) }

/-- The scrub checks the window it is in or goes on to the next; a word that it corrects awaits its read-back. -/
theorem vatScrub_readable {pt w : Nat} {s : State} (hready : s.frm.state = .ready) (hpt : pt < 8704) (hw : w < 48)
    (hdom : (s.dom (domOfStrip (pt / 17))).state ≠ .off) (hat : (pt, w) = s.scrubbing (pt / 136) ∨ (pt, w) = scrubNext (s.scrubbing (pt / 136))) :
    vatScrub pt w .clean s = s.scrubAt pt w ∧ vatScrub pt w .corrected s = (s.scrubAt pt w).correctedWord 0x01 pt := by
  have htile : ¬Config.physTiles ≤ pt := Nat.not_le.2 hpt
  have hwindow : ¬48 ≤ w := Nat.not_le.2 hw
  have hplace : (pt, w) ≠ s.scrubbing (pt / 136) → (pt, w) = scrubNext (s.scrubbing (pt / 136)) := hat.resolve_left
  constructor <;> rw [vatScrub, if_neg (by simpa [htile, hwindow, hready, hdom] using hplace)] <;> rfl

/-- A corrected error of an HBM word is counted by FLT and by the word's controller (R299, R401). -/
def State.hbmCounted (s : State) (a : Nat) : State :=
  (s.modFlt fun x => { x with corrected := x.corrected + 1 }).modCtl (pcOf a / 32) fun c => { c with corrected := c.corrected + 1 }

/-- The patrol counts a word that it corrects. -/
theorem hbmPatrol_corrected {a : Nat} {s : State} (hready : s.frm.state = .ready) (ha : a < Config.hbmBytes) (hup : (s.ctl (pcOf a / 32)).up = true)
    (hidle : (s.ctl (pcOf a / 32)).retraining = false) (hcopy : s.frm.copying = []) (hmapped : s.frm.unmapped = []) : hbmPatrol a .corrected s = s.hbmCounted a := by
  rw [hbmPatrol, if_neg (by simp [hready, Nat.not_le.2 ha, hup, hidle, hcopy, hmapped]), State.hbmCounted]

/-! ### Re-training (R372, R407) -/

/-- RETRAIN begins a stack's re-training, or has it wait for the retirement copy on the stack. -/
theorem hbmRetrain_eq {m : Nat} {s : State} (hready : s.frm.state = .ready) (hm : m < 24) :
    hbmRetrain m s = if s.copyingOn m then s.modCtl m fun c => { c with retrainPend := true } else s.modCtl m fun c => { c with retraining := true } := by
  rw [hbmRetrain, if_neg (by simp [hready, Nat.not_le.2 hm])]

/-- A re-training in which no pseudo-channel fails ends. -/
theorem hbmRetrainDone_passed {m : Nat} {s : State} (h : (s.ctl m).retraining = true) :
    hbmRetrainDone m [] s = s.modCtl m fun c => { c with retraining := false } := by
  simp only [hbmRetrainDone, h, Bool.not_true, Bool.false_eq_true, if_false, List.filter_nil, State.each_nil]

/-- A copy that could read everything ends; the re-training that waited for the copies on the stack begins with the last of them. -/
theorem copyDone_readable {pc : Nat} {s : State} (hpc : pc ∈ s.frm.copying) :
    copyDone pc [] s = let t := s.modFrm fun f => { f with copying := f.copying.filter (· != pc) }
      if (s.ctl (pc / 32)).retrainPend && !t.copyingOn (pc / 32) then t.modCtl (pc / 32) fun c => { c with retrainPend := false, retraining := true } else t := by
  rw [copyDone, if_neg (by simpa using hpc)]
  rfl

/-- No copy runs on a stack once its only one has ended. -/
theorem State.copyingOn_last {pc : Nat} {s : State} (hlast : ∀ x ∈ s.frm.copying, x / 32 = pc / 32 → x = pc) :
    (s.modFrm fun f => { f with copying := f.copying.filter (· != pc) }).copyingOn (pc / 32) = false := by
  refine List.any_eq_false.2 fun x hx => ?_
  obtain ⟨hmem, hne⟩ := List.mem_filter.1 hx
  intro hstack
  exact (bne_iff_ne.1 hne) (hlast x hmem (beq_iff_eq.1 hstack))

/-! ### The obligation -/

/-- Settles O18: each clause is one of the equations above, or is how the command counts. -/
theorem memoryErrors : Obligations.memoryErrors := by
  unfold Obligations.memoryErrors
  refine ⟨?vatWord, ?storeWord, ?rimWord, ?hbmWord, ?readClean, ?readBad, ?hbmBad, ?reissueClean, ?reissueBad, ?rimBad, ?scrub, ?patrol, ?retrain, ?retrainWaits, ?retrained,
    ?copied, ?copiedLast⟩
  case vatWord =>
    intro pt s hpower
    exact exec_on (f := fun s => s.correctedWord 0x01 pt) hpower rfl rfl
  case storeWord =>
    intro pt s hpower
    exact exec_on (f := fun s => s.correctedWord 0x05 pt) hpower rfl rfl
  case rimWord =>
    intro copy i s hpower
    exact exec_on (f := fun s => s.correctedWord 0x0C (rimBank copy i)) hpower rfl rfl
  case hbmWord =>
    intro a s hpower
    exact exec_on (f := fun s => s.hbmCounted a) hpower rfl rfl
  case readClean =>
    intro cls n x s hpower hx
    exact exec_on hpower rfl (by rw [correctedReadback_clean hx]; rfl)
  case readBad =>
    intro n x s hpower hx hsteady
    exact exec_on hpower rfl (by rw [correctedReadback_rimStillBad hx hsteady]; rfl)
  case hbmBad =>
    intro a s hpower hbelow hmapped hsteady
    exact exec_on hpower rfl (by rw [hbmUncorrectable_steady hbelow hmapped hsteady]; rfl)
  case reissueClean =>
    intro a s hpower ha
    exact exec_on hpower rfl (by rw [hbmReissueResult_eq ha]; rfl)
  case reissueBad =>
    intro a s hpower ha hfree
    have hlost : (s.modFlt fun f => { f with reissues := f.reissues.filter (· != a) }).hbmLost a = _ := State.hbmLost_unowned hfree
    exact exec_on hpower rfl (by rw [hbmReissueResult_eq ha]; exact congrArg s.keep hlost)
  case rimBad =>
    intro i s hpower hi hused hsteady
    exact exec_on hpower rfl (by rw [rimUncorrectable_northFails hi hused hsteady]; rfl)
  case scrub =>
    intro pt w s ⟨hpower, hready⟩ hpt hw hdom hat
    obtain ⟨hclean, hcorrected⟩ := vatScrub_readable hready hpt hw hdom hat
    exact ⟨exec_on hpower rfl (congrArg s.keep hclean), exec_on hpower rfl (congrArg s.keep hcorrected)⟩
  case patrol =>
    intro a s ⟨hpower, hready⟩ ha hup hidle hcopy hmapped
    exact exec_on hpower rfl (by rw [hbmPatrol_corrected hready ha hup hidle hcopy hmapped]; rfl)
  case retrain =>
    intro m s ⟨hpower, hready⟩ hm hnone
    exact exec_on hpower rfl (by rw [hbmRetrain_eq hready hm, hnone]; rfl)
  case retrainWaits =>
    intro m s ⟨hpower, hready⟩ hm hcopy
    exact exec_on hpower rfl (by rw [hbmRetrain_eq hready hm, hcopy]; rfl)
  case retrained =>
    intro m s hpower h
    exact exec_on hpower rfl (by rw [hbmRetrainDone_passed h]; rfl)
  case copied =>
    intro pc s hpower hpc hnone
    exact exec_on hpower rfl (by rw [copyDone_readable hpc, hnone]; rfl)
  case copiedLast =>
    intro pc s hpower hpc hpend hlast
    exact exec_on hpower rfl (by rw [copyDone_readable hpc, hpend]; dsimp only; rw [State.copyingOn_last hlast]; rfl)

end Sys2Proof.Machine

/-! PROOFS. BIST of a partition, re-trims of strips and SYNC_TIMEOUT (R302, R306, R316). -/

namespace Sys2Proof.Machine

open Sys2Proof Sys2Proof.Safety

/-! ### BIST (R306) -/

/-- A BIST that no tile fails ends. -/
theorem partitionBistDone_passed {p : Nat} {s : State} (hbist : (s.part p).bist = true) :
    partitionBistDone p [] s = s.modPart p fun x => { x with bist := false } := by
  rw [partitionBistDone, if_neg (by simpa using hbist)]
  rfl

/-! ### Cycles that are counted before a strip pauses (R292) -/

/-- What a tile's vat holds and which windows it lists. -/
def Tile.stored (t : Tile) : Bytes × Tab Window := (t.vat, t.windows)

/-- Counting a tile's open cycles leaves every vat alone. -/
theorem State.settle_stored (s : State) (a b : Nat) : ((s.settle a).tile b).stored = (s.tile b).stored := by
  by_cases hb : b = a
  · subst hb
    cases hrun : (s.tile b).run with
    | none => simp only [State.settle, State.chargeTo, hrun, ite_self]
    | some r =>
      obtain ⟨n, busy, st, fs, h⟩ := s.settle_self b hrun
      rw [h]
      rfl
  · rw [s.settle_ne a hb]

section
variable {s t : State}

/-- `t` is `s` once cycles have been counted: only tiles and partitions have changed, and no vat. -/
structure State.Counted (s t : State) : Prop where
  eq : ∃ T Q, t = { s with tiles := T, parts := Q }
  stored : ∀ a, (t.tile a).stored = (s.tile a).stored

theorem State.Counted.settle (h : s.Counted t) (a : Nat) : s.Counted (t.settle a) where
  eq := by
    obtain ⟨T, Q, rfl⟩ := h.eq
    obtain ⟨T', Q', h'⟩ := State.settle_eq { s with tiles := T, parts := Q } a
    exact ⟨T', Q', h'⟩
  stored b := (t.settle_stored a b).trans (h.stored b)

theorem State.counted_each (s : State) (l : List Nat) : s.Counted (s.each l State.settle) :=
  State.each_ind (P := s.Counted) (fun _ a h => h.settle a) l s ⟨⟨_, _, rfl⟩, fun _ => rfl⟩

end

/-! ### Re-trim (R316) -/

/-- A re-trim starts at once on a strip none of whose tiles is busy. -/
theorem retrim_idle {k : Nat} {s : State} (hready : s.frm.state = .ready) (hk : k < 512) (hnone : tabHas s.flt.retrims k = false)
    (hidle : (tilesOfStrip k).any s.tileBusy = false) :
    retrim k s = s.modFlt fun f => { f with retrims := tabPut f.retrims k s.now } := by
  have hstrip : ¬Config.strips ≤ k := Nat.not_le.2 hk
  rw [retrim, if_neg (by simp only [hready, hnone, hidle, hstrip, bne_self_eq_false, decide_false, Bool.or_self, Bool.false_eq_true, not_false_eq_true])]

/-- A re-trim that is overdue counts the cycles of its strip's tiles and begins, with a notice. -/
theorem retrimForced_overdue {k : Nat} {s : State} (hready : s.frm.state = .ready) (hk : k < 512) (hnone : tabHas s.flt.retrims k = false)
    (hdue : tabGet s.frm.stateTime s.flt.lastRetrim k + 1000000 * s.flt.retrimMax ≤ s.now) :
    ∃ t, s.Counted t ∧ retrimForced k s =
      (t.modFlt fun f => { f with retrims := tabPut f.retrims k s.now, retrimForced := insertUp k f.retrimForced }).notice 0x10 k 0 none := by
  have hcounted := s.counted_each (tilesOfStrip k)
  refine ⟨_, hcounted, ?_⟩
  obtain ⟨T, Q, heq⟩ := hcounted.eq
  rw [retrimForced, if_neg (by simp [hready, hnone, Nat.not_le.2 hk, Nat.not_lt.2 hdue]), heq]

/-- A re-trim ends 2 µs after it began; of the state beside FLT the end changes only tiles. -/
theorem retrimDone_alone {k t0 : Nat} {s : State} (hone : s.flt.retrims = [(k, t0)]) (hdue : t0 + 2000 ≤ s.now) :
    State.TilesOnly (s.modFlt fun f => { f with retrims := [], lastRetrim := tabPut f.lastRetrim k s.now, retrimForced := f.retrimForced.filter (· != k) }) (retrimDone k s) := by
  have hfound : (s.flt.retrims.find? fun x => x.1 == k) = some (k, t0) := by simp [hone]
  have hdel : tabDel s.flt.retrims k = [] := by simp [hone, tabDel]
  simp only [retrimDone, hfound, if_neg (Nat.not_lt.2 hdue), State.modFlt, hdel]
  exact State.each_ind (P := State.TilesOnly _) (fun t a h => h.modTile a _) _ _ (State.TilesOnly.refl _)

/-! ### SYNC_TIMEOUT (R302) -/

/-- A wait of SYNC_TIMEOUT ends its unit with a fault. -/
theorem syncTimeout_due {a t0 : Nat} {r : TileRun} {u : CUnit} {s : State} (hrun : (s.tile a).run = some r) (hwait : r.waitSince = some t0) (hu : s.unit? r.unit = some u)
    (hhalted : (s.client u.client).dbg.halted = false) (hpause : tabHas s.flt.retrims (a / 16) = false) (hdue : t0 + 1000 * s.flt.syncTimeout ≤ s.now) :
    syncTimeout a s = s.faultUnit u.id cSYNC_TIMEOUT := by
  simp only [syncTimeout, hrun, hwait, hu, hhalted, hpause, Nat.not_lt.2 hdue, decide_false, Bool.or_self, Bool.false_eq_true, if_false]

/-! ### The obligation -/

/-- Settles O20: each clause is one of the equations above; the unit of SYNC_TIMEOUT ends as any unit that has not committed does. -/
theorem stripAndPartitionUpkeep : Obligations.stripAndPartitionUpkeep := by
  unfold Obligations.stripAndPartitionUpkeep
  refine ⟨?bist, ?idle, ?forced, ?done, ?timeout⟩
  case bist =>
    intro p s hpower hbist
    exact exec_on hpower rfl (by rw [partitionBistDone_passed hbist]; rfl)
  case idle =>
    intro k s ⟨hpower, hready⟩ hk hnone hidle
    exact exec_on hpower rfl (by rw [retrim_idle hready hk hnone hidle]; rfl)
  case forced =>
    intro k s ⟨hpower, hready⟩ hk hnone hdue
    obtain ⟨t, hcounted, heq⟩ := retrimForced_overdue hready hk hnone hdue
    obtain ⟨T, Q, rfl⟩ := hcounted.eq
    refine answers_on hpower rfl ?_
    rw [heq]
    obtain ⟨C, O, F, hnotice⟩ := State.notice_eq _ 0x10 k 0 none
    rw [hnotice]
    refine ⟨rfl, rfl, rfl, fun a => ?_⟩
    exact Prod.mk.inj (hcounted.stored a)
  case done =>
    intro k t0 s hpower hone hdue
    refine answers_on hpower rfl ?_
    obtain ⟨T, heq⟩ := retrimDone_alone hone hdue
    rw [heq]
    exact ⟨rfl, rfl⟩
  case timeout =>
    intro a r u t0 s hpower hrun hwait hu hphase hhalted hpause hdue
    refine answers_on hpower rfl ?_
    rw [syncTimeout_due hrun hwait hu hhalted hpause hdue]
    obtain ⟨⟨hgone, -⟩, -⟩ := s.faultUnit_ended u cSYNC_TIMEOUT hu hphase
    exact hgone

end Sys2Proof.Machine

/-! PROOFS. A flit slot with nothing to send writes its port back as it is, which lists the port in its place of the table of ports (R420, R425; State.putFlit). -/

namespace Sys2Proof.Machine

open Sys2Proof Sys2Proof.Safety

/-- Port 0 is ACTIVE with nothing to send, and is listed behind port 1. -/
def lateListed : State := { live with ports := [(1, {}), (0, { state := .active })] }

/-- The flit slot lists port 0 before port 1 too. -/
theorem lateListed_idles : ∃ t, exec (.flitSend 0) lateListed = .next t ∧ t.ports.length = 3 :=
  ⟨_, exec_on rfl rfl rfl, by decide +kernel⟩

/-- Refutes O32: of a flit slot in which an IDLE flit goes out it says that nothing changes but what has been sent. `State.putFlit` writes the port's NAK and its counters back as they are, and `tabPut` puts a key before the first greater one that it meets: in `lateListed`, whose table of ports is not in rising order, port 0 is found behind port 1 and written before it. -/
theorem not_flits : ¬ Obligations.flits := by
  unfold Obligations.flits
  rintro ⟨-, -, -, -, -, -, -, -, -, hidle, -⟩
  obtain ⟨t, hexec, hlength⟩ := lateListed_idles
  have hsame := Host.Outcome.next.inj ((hidle 0 lateListed rfl rfl rfl (by decide) rfl rfl rfl).symm.trans hexec)
  rw [← hsame] at hlength
  exact absurd hlength (by decide)

end Sys2Proof.Machine

/-! PROOFS. What every command does to the repair ledger: those that go through `run` keep it, and of the six that do not, four keep it and the others program bits of slots (R328, R474). -/

namespace Sys2Proof.Machine

open Sys2Proof Sys2Proof.Safety

/-! ### What a command goes through -/

/-- Every command goes through `run`, but the six that may change device time, power or one-time programmable bits. -/
theorem exec_run_or (c : Instr) :
    (∃ f, ∀ s, exec c s = run f s) ∨ (∃ x, c = .powerGood x) ∨ c = .powerGoodLoss ∨ (∃ r, c = .stackFormDone r) ∨ (∃ v, c = .ledgerCommitDone v)
      ∨ c = .ceilingProgrammed ∨ ∃ op, c = .fuse op := by
  cases c with
  | powerGood x => exact .inr (.inl ⟨x, rfl⟩)
  | powerGoodLoss => exact .inr (.inr (.inl rfl))
  | stackFormDone r => exact .inr (.inr (.inr (.inl ⟨r, rfl⟩)))
  | ledgerCommitDone v => exact .inr (.inr (.inr (.inr (.inl ⟨v, rfl⟩))))
  | ceilingProgrammed => exact .inr (.inr (.inr (.inr (.inr (.inl rfl)))))
  | fuse op => exact .inr (.inr (.inr (.inr (.inr (.inr ⟨op, rfl⟩)))))
  | _ => exact .inl ⟨_, fun _ => rfl⟩

/-! ### Ledgers that grow (R328) -/

section
variable {s t : State}

theorem ledgerGrows_of_same (h : t.frm.ledger = s.frm.ledger) : LedgerGrows s t := fun k => by
  simp only [Frm.slot, h, BitVec.and_self]

/-- A slot that is programmed keeps the bits that it has, and every other slot is as before. -/
theorem ledgerGrows_of_program {k : Nat} {v : SlotBits} (h : t.frm.ledger = (s.frm.program k v).ledger) : LedgerGrows s t := fun j => by
  by_cases hj : j = k
  · subst hj
    have hslot : t.frm.slot j = s.frm.slot j ||| v := by rw [Frm.slot, h]; exact tabGet_tabPut_self ..
    rw [hslot]
    ext i
    simpa using Or.inl
  · have hslot : t.frm.slot j = s.frm.slot j := by rw [Frm.slot, h]; exact tabGet_tabPut_ne _ _ _ hj
    rw [hslot, BitVec.and_self]

/-- What a command does that goes through `runAny` is its effect. -/
theorem ledgerGrows_of_runAny {f : State → State} (h : LedgerGrows s (f s)) (hrun : runAny f s = .next t) : LedgerGrows s t := by
  cases Host.Outcome.next.inj hrun
  exact h

end

/-! ### Effects that keep the ledger -/

section
variable (s : State)

theorem tick_frm : (tick s).frm = s.frm := by
  unfold tick
  split <;> rfl

theorem powerGood_ledger (x : Straps) : (powerGood x s).frm.ledger = s.frm.ledger := by
  unfold powerGood
  split <;> rfl

theorem ceilingProgrammed_frm : (ceilingProgrammed s).frm = s.frm := by
  unfold ceilingProgrammed
  split
  · rfl
  · split <;> rfl

theorem ceilingLower_frm (via : Via) (v : W32) : (ceilingLower via v s).frm = s.frm := by
  unfold ceilingLower
  dsimp only
  split
  · rfl
  · split <;> rfl

theorem State.follow_ledger (l : Nat) : (s.follow l).frm.ledger = s.frm.ledger := by
  unfold State.follow
  cases s.stk.leadTime <;> rfl

theorem State.becomeReady_ledger : s.becomeReady.frm.ledger = s.frm.ledger := rfl

theorem stackFormDone_ledger (r : FormResult) : (stackFormDone r s).frm.ledger = s.frm.ledger := by
  unfold stackFormDone
  split
  · rfl
  · cases r with
    | idConflict => dsimp only; split <;> rfl
    | noLead => dsimp only; split <;> rfl
    | formed =>
      dsimp only
      split
      · exact ((s.follow _).becomeReady_ledger).trans (s.follow_ledger _)
      · split
        · rfl
        · split <;> rfl

/-! ### Effects that program the ledger -/

/-- A commit that power cuts off spends its slot, where it had one to program. -/
theorem powerGoodLoss_ledgerGrows : LedgerGrows s (powerGoodLoss s) := by
  unfold powerGoodLoss State.ledgerCut
  split
  · exact ledgerGrows_of_same rfl
  · cases s.frm.programming with
    | none => exact ledgerGrows_of_same rfl
    | some x => exact ledgerGrows_of_program rfl

theorem State.ledgerEnd_ledger (result index : Nat) : (s.ledgerEnd result index).frm.ledger = s.frm.ledger := by
  rw [State.ledgerEnd, State.notice_frm]
  rfl

/-- The end of a commit programs its image, or, where the read-back fails, some of its bits, into the slot that it found, or nothing. -/
theorem ledgerCommitDone_ledgerGrows (v : Bool) : LedgerGrows s (ledgerCommitDone v s) := by
  unfold ledgerCommitDone
  split
  · exact ledgerGrows_of_same rfl
  · cases s.frm.programming with
    | none => exact ledgerGrows_of_same (s.ledgerEnd_ledger _ _)
    | some x =>
      cases v with
      | false => exact ledgerGrows_of_program (State.ledgerEnd_ledger _ _ _)
      | true => exact ledgerGrows_of_program (State.ledgerEnd_ledger _ _ _)

theorem fuse_ledgerGrows (op : FuseOp) : LedgerGrows s (fuse op s) := by
  unfold fuse
  split
  · exact ledgerGrows_of_same rfl
  · cases op with
    | readLedger k => exact ledgerGrows_of_same (by dsimp only; split <;> rfl)
    | programLedger k v =>
      dsimp only
      split
      · exact ledgerGrows_of_program rfl
      · exact ledgerGrows_of_same rfl
    | readCeiling => exact ledgerGrows_of_same rfl
    | programCeiling v => exact ledgerGrows_of_same (congrArg Frm.ledger (ceilingLower_frm _ _ _))
    | readSerial => exact ledgerGrows_of_same rfl

end

/-! ### The obligation -/

theorem exec_ledgerGrows {c : Instr} {s t : State} (h : exec c s = .next t) : LedgerGrows s t := by
  obtain ⟨f, hrun⟩ | ⟨x, rfl⟩ | rfl | ⟨r, rfl⟩ | ⟨v, rfl⟩ | rfl | ⟨op, rfl⟩ := exec_run_or c
  · obtain ⟨-, -, -, -, hledger, -⟩ := run_keeps s f t ((hrun s).symm.trans h)
    exact ledgerGrows_of_same hledger
  · exact ledgerGrows_of_runAny (ledgerGrows_of_same (powerGood_ledger s x)) h
  · exact ledgerGrows_of_runAny (powerGoodLoss_ledgerGrows s) h
  · exact ledgerGrows_of_runAny (ledgerGrows_of_same (stackFormDone_ledger s r)) h
  · exact ledgerGrows_of_runAny (ledgerCommitDone_ledgerGrows s v) h
  · exact ledgerGrows_of_runAny (ledgerGrows_of_same (congrArg Frm.ledger (ceilingProgrammed_frm s))) h
  · exact ledgerGrows_of_runAny (fuse_ledgerGrows s op) h

/-- Settles O7: time leaves the ledger alone, and the command in front keeps it or programs bits into it. -/
theorem ledgerOnlyGrows : Obligations.ledgerOnlyGrows := by
  unfold Obligations.ledgerOnlyGrows
  intro s t hstep
  cases hp : s.pending with
  | nil =>
    rw [step_nil s hp] at hstep
    cases hstep
    exact ledgerGrows_of_same (congrArg Frm.ledger (tick_frm s))
  | cons c r =>
    rw [step_cons c r s hp] at hstep
    exact exec_ledgerGrows (s := { s with pending := r }) hstep

end Sys2Proof.Machine

/-! PROOFS. Ledger commits and probation: what a request finds, what the end of a commit writes, and what a comparison does to its record (R326 to R335). -/

namespace Sys2Proof.Machine

open Sys2Proof Sys2Proof.Safety

/-- What a command that goes through `runAny` answers, with what holds of it. -/
theorem answers_any {c : Instr} {s : State} {f : State → State} {P : State → Prop} (e : exec c s = runAny f s)
    (h : P { f s with pending := s.pending }) : Answers c s P :=
  ⟨_, exec_any e rfl, h⟩

/-! ### Ledger commits (R327 to R329) -/

section
variable {s : State}

/-- A commit that is accepted captures the map and the time. -/
theorem ledgerCommit_accepted {via : Via} {v : W32} (hopen : s.frmOpen via = true) (hready : s.frm.state = .ready) (hcommit : bit v.toNat 0 = true)
    (hkey : bits v.toNat 31 16 = 0x4C47) (hreason : reasonOk (bits v.toNat 15 8) = true) (hidle : s.frm.ledgerOp = none) :
    ledgerCommit via v s = s.modFrm fun f => { f with ledgerOp := some {
      reason := bits v.toNat 15 8, force := bit v.toNat 1, time := s.now, tiles := f.rTiles, lanes := f.rLanes, pch := f.rPch } } := by
  simp [ledgerCommit, hopen, hready, hcommit, hkey, hreason, hidle]

/-- A commit without COMMIT or its key, of a reserved REASON, or before READY is answered with RESULT 5. -/
theorem ledgerCommit_refused {via : Via} {v : W32} (hopen : s.frmOpen via = true)
    (hbad : bit v.toNat 0 = false ∨ bits v.toNat 31 16 ≠ 0x4C47 ∨ reasonOk (bits v.toNat 15 8) = false ∨ s.frm.state ≠ .ready) :
    ledgerCommit via v s = s.modFrm fun f => { f with ledgerResult := 5 } := by
  have hrefused : (!bit v.toNat 0 || bits v.toNat 31 16 != 0x4C47 || !reasonOk (bits v.toNat 15 8) || s.frm.state != .ready) = true := by
    simpa [or_assoc] using hbad
  simp only [ledgerCommit, hopen, hrefused, Bool.not_true, Bool.false_eq_true, if_false, if_true]

/-- With no valid slot in the ledger a commit programs the first slot that is unprogrammed. -/
theorem Frm.programming_first {f : Frm} {o : LedgerOp} {k : Nat} {r : List Nat} (hop : f.ledgerOp = some o) (hempty : f.emptySlots = k :: r)
    (hnewest : f.newest = none) : f.programming = some (k, o) := by
  simp only [Frm.programming, hop, hempty, hnewest, Bool.false_and, Bool.false_eq_true, if_false]

/-- With no unprogrammed slot left a commit programs none. -/
theorem Frm.programming_full {f : Frm} (hempty : f.emptySlots = []) : f.programming = none := by
  rw [Frm.programming, hempty]
  cases f.ledgerOp <;> rfl

/-- The end of a commit that no other request met stores its result and raises one notice. -/
theorem State.ledgerEnd_eq {o : LedgerOp} (hop : s.frm.ledgerOp = some o) (hagain : o.again = false) (result index : Nat) :
    ∃ N C O, s.ledgerEnd result index = { s with frm := { s.frm with ledgerOp := none, ledgerResult := result }, ntc := N, clients := C, out := O }
      ∧ N.head = s.ntc.head + 1 := by
  obtain ⟨C, O, F, h⟩ := (s.modFrm fun f => { f with ledgerOp := none, ledgerResult := result }).notice_eq 0x12 index 0 none
  have hend : s.ledgerEnd result index = (s.modFrm fun f => { f with ledgerOp := none, ledgerResult := result }).notice 0x12 index 0 none := by
    simp only [State.ledgerEnd, hop, hagain, Bool.false_eq_true, if_false]
  exact ⟨_, C, O, hend.trans h, rfl⟩

/-- A slot that verifies ends its commit with RESULT 1. -/
theorem ledgerCommitDone_verified {o : LedgerOp} {k : Nat} (hpower : s.power = true) (hop : s.frm.ledgerOp = some o)
    (hslot : s.frm.programming = some (k, o)) : ledgerCommitDone true s = (s.modFrm fun f => f.program k (slotImage k o)).ledgerEnd 1 k := by
  simp [ledgerCommitDone, hpower, hop, hslot]

/-- With no slot left a commit ends with RESULT 3, whatever it would have read back. -/
theorem ledgerCommitDone_full {o : LedgerOp} (verified : Bool) (hpower : s.power = true) (hop : s.frm.ledgerOp = some o) (hempty : s.frm.emptySlots = []) :
    ledgerCommitDone verified s = s.ledgerEnd 3 0xFFFF := by
  simp [ledgerCommitDone, hpower, hop, Frm.programming_full hempty, hempty]

/-! ### Requests for probation (R331) -/

/-- A request for a retired unit that no record runs takes the record that is found. -/
theorem probationRequest_starts {v : W32} {k : Nat} (hboot : s.frm.state ≠ .frameBoot) (hstart : bit v.toNat 31 = true) (hlane : bits v.toNat 17 16 ≠ 1)
    (hunit : bits v.toNat 13 0 < classSize (bits v.toNat 17 16)) (hretired : s.isRetired (bits v.toNat 17 16) (bits v.toNat 13 0) = true)
    (hnone : s.probeOf (bits v.toNat 17 16) (bits v.toNat 13 0) = none) (hk : ((upTo 16).find? fun k => (tabGet ({} : Probe) s.frm.probes k).state != 1) = some k) :
    probationRequest v s = s.modFrm fun f => { f with
      probes := tabPut f.probes k { unit := bits v.toNat 13 0, cls := bits v.toNat 17 16, state := 1, steps := 0, next := s.order } } := by
  simp [probationRequest, hboot, hstart, Nat.not_le.2 hunit, hretired, hnone, hk, hlane]

/-- A unit that is not retired is none to put on probation. -/
theorem probationRequest_inService {v : W32} (hboot : s.frm.state ≠ .frameBoot) (hstart : bit v.toNat 31 = true)
    (hretired : s.isRetired (bits v.toNat 17 16) (bits v.toNat 13 0) = false) : probationRequest v s = s.probeErr := by
  simp [probationRequest, hboot, hstart, hretired]

/-! ### The source of a comparison (R332) -/

section
variable {p : Probe}

theorem State.probeSource_notTile (hcls : p.cls ≠ 0) : s.probeSource p = some p := if_pos hcls

theorem mem_of_least {l : List Nat} {x : Nat} (h : least l = some x) : x ∈ l := by
  induction l generalizing x with
  | nil => cases h
  | cons a r ih =>
    cases hr : least r with
    | none => simp_all [least]
    | some b =>
      have hb := ih hr
      simp only [least, hr, Option.some.injEq] at h
      split at h <;> simp_all

/-- A unit with which a tile's record may be compared next: it has committed on a working tile of the swatch, and the record has not moved past it. -/
def State.comparable (s : State) (p : Probe) (u : CUnit) : Bool :=
  u.phase == .committed && decide (p.next ≤ u.commitNo) && u.allTiles.any fun a => s.working a && swatchOf (a / 16) == swatchOf (p.unit / 17)

theorem State.probeSource_least (hcls : p.cls = 0) :
    s.probeSource p = (least ((s.units.filter (s.comparable p)).map CUnit.commitNo)).map fun no => { p with next := no + 1 } :=
  if_neg (not_not.2 hcls)

theorem State.probeSource_noUnits (hcls : p.cls = 0) (hunits : s.units = []) : s.probeSource p = none := by
  rw [State.probeSource_least hcls, hunits, List.filter_nil, List.map_nil, least_nil, Option.map_none]

/-- A tile's record takes a unit that has committed on a working tile of its swatch, and moves on past it. -/
theorem State.probeSource_tile {u : CUnit} {a : Nat} (hcls : p.cls = 0) (hu : u ∈ s.units) (hphase : u.phase = .committed) (hnext : p.next ≤ u.commitNo)
    (ha : a ∈ u.allTiles) (hworks : s.working a = true) (hswatch : swatchOf (a / 16) = swatchOf (p.unit / 17)) :
    ∃ no, p.next ≤ no ∧ s.probeSource p = some { p with next := no + 1 } := by
  have hfits : s.comparable p u = true := by
    simp only [State.comparable, hphase, hnext, decide_true, beq_self_eq_true, Bool.true_and, List.any_eq_true]
    exact ⟨a, ha, by simp [hworks, hswatch]⟩
  obtain ⟨no, hno⟩ := least_mem (List.mem_map_of_mem (f := CUnit.commitNo) (List.mem_filter.2 ⟨hu, hfits⟩))
  obtain ⟨w, hw, rfl⟩ := List.mem_map.1 (mem_of_least hno)
  obtain ⟨-, hcomparable⟩ := List.mem_filter.1 hw
  simp only [State.comparable, Bool.and_eq_true, decide_eq_true_eq] at hcomparable
  obtain ⟨⟨-, hpast⟩, -⟩ := hcomparable
  exact ⟨w.commitNo, hpast, by rw [State.probeSource_least hcls, hno, Option.map_some]⟩

end

/-! ### Comparisons (R332 to R335) -/

section
variable {k : Nat} {p : Probe} (hp : tabGet ({} : Probe) s.frm.probes k = p)
include hp

/-- A comparison without a source is none. -/
theorem probationStep_noSource (hsource : s.probeSource p = none) : probationStep k .equal s = s ∧ probationStep k .mismatch s = s := by
  constructor <;> simp [probationStep, hp, hsource]

variable (hk : k < 16) (hstate : p.state = 1) (hready : s.probeReady p = true)
include hk hstate hready

/-- An equal result counts one step; the step that reaches PROBE_STEPS passes the unit. -/
theorem probationStep_equal {q : Probe} (hsource : s.probeSource p = some q) :
    probationStep k .equal s = if s.frm.probeSteps ≤ q.steps + 1 then s.probePass k { q with steps := q.steps + 1 }
      else s.modFrm fun f => { f with probes := tabPut f.probes k { q with steps := q.steps + 1 } } := by
  simp [probationStep, hp, hstate, hready, Nat.not_le.2 hk, hsource]

theorem probationStep_mismatch {q : Probe} (hsource : s.probeSource p = some q) : probationStep k .mismatch s = s.probeFail k 0x0E := by
  simp [probationStep, hp, hstate, hready, Nat.not_le.2 hk, hsource]

end

/-- A comparison that is abandoned is none. -/
theorem probationStep_abandoned (k : Nat) : probationStep k .abandoned s = s := by
  simp [probationStep]

theorem State.probeReady_pc {p : Probe} (hcls : p.cls = 2) : s.probeReady p = (s.ctl (p.unit / 32)).up := by
  simp only [State.probeReady, hcls]

/-- A pseudo-channel that passes is not retired, and its own granules read again. -/
theorem State.probePass_unmapped {p : Probe} (k : Nat) (hcls : p.cls = 2) (hunmapped : s.frm.unmapped.contains p.unit = true) :
    s.probePass k p = { s with
      frm := { s.frm with
        rPch := s.frm.rPch &&& ~~~ BitVec.twoPow 768 p.unit, probes := tabPut s.frm.probes k { p with state := 2 }
        unmapped := s.frm.unmapped.filter (· != p.unit) }
      flt := { s.flt with history := tabDel s.flt.history (histKey 2 p.unit) } } := by
  obtain ⟨unit, cls, state, steps, next⟩ := p
  subst hcls
  exact if_pos hunmapped

/-- A pseudo-channel whose probation fails is logged as PERMANENT, and no more of FRM changes than its record. -/
theorem State.probeFail_pc {k : Nat} {p : Probe} (hp : tabGet ({} : Probe) s.frm.probes k = p) (hcls : p.cls = 2) (source : Nat) :
    ∃ N C O, s.probeFail k source = { s with
      frm := { s.frm with probes := tabPut s.frm.probes k { p with state := 3 } }
      flt := { s.flt with
        log := tabPut s.flt.log (s.flt.head.toNat % 64) { time := s.now, source := source, result := 2, cls := 2, unit := p.unit, client := none }
        head := s.flt.head + 1, upsets := s.flt.upsets + 1, permanent := s.flt.permanent + 1 }
      ntc := N, clients := C, out := O } := by
  obtain ⟨N, C, O, h⟩ := (s.modFrm fun f => { f with probes := tabPut f.probes k { p with state := 3 } }).fltLog_eq source 2 2 p.unit none
  obtain ⟨unit, cls, state, steps, next⟩ := p
  subst hcls
  rw [State.probeFail, hp]
  exact ⟨N, C, O, h⟩

end

/-! ### The obligation -/

/-- Settles O17: each clause is one of the equations above. -/
theorem repairs : Obligations.repairs := by
  unfold Obligations.repairs
  refine ⟨?accepted, ?refused, ?verified, ?full, ?starts, ?inService, ?counts, ?countsTile, ?noSource, ?abandoned, ?passes, ?fails⟩
  case accepted =>
    intro via v s hpower hopen hready hcommit hkey hreason hidle
    exact exec_on hpower rfl (by rw [ledgerCommit_accepted hopen hready hcommit hkey hreason hidle]; rfl)
  case refused =>
    intro via v s hpower hopen hbad
    exact exec_on hpower rfl (by rw [ledgerCommit_refused hopen hbad]; rfl)
  case verified =>
    intro o k r s hpower hop hempty hnewest hagain
    obtain ⟨N, C, O, hend, hhead⟩ := State.ledgerEnd_eq (s := s.modFrm fun f => f.program k (slotImage k o)) hop hagain 1 k
    refine answers_any rfl ?_
    rw [ledgerCommitDone_verified hpower hop (Frm.programming_first hop hempty hnewest), hend]
    exact ⟨rfl, hhead, rfl⟩
  case full =>
    intro o v s hpower hop hempty hagain
    obtain ⟨N, C, O, hend, -⟩ := State.ledgerEnd_eq hop hagain 3 0xFFFF
    refine answers_any rfl ?_
    rw [ledgerCommitDone_full v hpower hop hempty, hend]
    exact ⟨rfl, rfl⟩
  case starts =>
    intro v k s hpower hboot hstart hlane hunit hretired hnone hk
    exact exec_on hpower rfl (by rw [probationRequest_starts hboot hstart hlane hunit hretired hnone hk]; rfl)
  case inService =>
    intro v s hpower hboot hstart hretired
    exact exec_on hpower rfl (by rw [probationRequest_inService hboot hstart hretired]; rfl)
  case counts =>
    intro k p s hpower hk hp hstate hcls hready hsteps
    exact exec_on hpower rfl (by
      rw [probationStep_equal hp hk hstate hready (State.probeSource_notTile hcls), if_neg (Nat.not_le.2 hsteps)]; rfl)
  case countsTile =>
    intro k p u a s hpower hk hp hstate hcls hready hsteps hu hphase hnext ha hworks hswatch
    obtain ⟨no, hno, hsource⟩ := State.probeSource_tile hcls hu hphase hnext ha hworks hswatch
    refine answers_on hpower rfl ?_
    rw [probationStep_equal hp hk hstate hready hsource, if_neg (Nat.not_le.2 hsteps)]
    have hrecord : tabGet ({} : Probe) (tabPut s.frm.probes k { p with next := no + 1, steps := p.steps + 1 }) k = _ := tabGet_tabPut_self _ _ _ _
    exact ⟨congrArg Probe.steps hrecord, (congrArg Probe.state hrecord).trans hstate,
      (Nat.lt_succ_of_le hno).trans_eq (congrArg Probe.next hrecord).symm, rfl⟩
  case noSource =>
    intro k p s hpower hp hcls hunits
    obtain ⟨hequal, hmismatch⟩ := probationStep_noSource hp (State.probeSource_noUnits hcls hunits)
    exact ⟨exec_idle hpower rfl hequal, exec_idle hpower rfl hmismatch⟩
  case abandoned =>
    intro k s hpower
    exact exec_idle hpower rfl (probationStep_abandoned k)
  case passes =>
    intro k p s hpower hk hp hstate hcls hunit hup hsteps hunmapped
    have hready : s.probeReady p = true := (State.probeReady_pc hcls).trans hup
    have hclear : (s.frm.rPch &&& ~~~ BitVec.twoPow 768 p.unit).getLsbD p.unit = false := by simp
    refine answers_on hpower rfl ?_
    rw [probationStep_equal hp hk hstate hready (State.probeSource_notTile (by omega)), if_pos hsteps, State.probePass_unmapped (p := { p with steps := p.steps + 1 }) k hcls hunmapped]
    exact ⟨hclear, tabGet_tabPut_self _ _ _ _, rfl⟩
  case fails =>
    intro k p s hpower hk hp hstate hcls hup
    have hready : s.probeReady p = true := (State.probeReady_pc hcls).trans hup
    obtain ⟨N, C, O, hfail⟩ := State.probeFail_pc hp hcls 0x0E
    refine answers_on hpower rfl ?_
    rw [probationStep_mismatch hp hk hstate hready (State.probeSource_notTile (by omega)), hfail]
    exact ⟨rfl, rfl, rfl, rfl⟩

end Sys2Proof.Machine

/-! PROOFS. Device time and the ceiling: what passing time changes, which commands may move time, and that a command leaves the fuses of the ceiling as they are or programs one lower value (R339, R349, R350, R474). -/

namespace Sys2Proof.Machine

open Sys2Proof Sys2Proof.Safety

/-! ### Time passes (R337, R339, R443) -/

/-- A table whose values are changed one by one keeps at each key what relates each value to its change. -/
theorem tabGet_map_rel {α : Type} {R : α → α → Prop} {d : α} {f : Nat → α → α} (hd : R d d) (hf : ∀ k x, R x (f k x)) (t : Tab α) (i : Nat) :
    R (tabGet d t i) (tabGet d (t.map fun x => (x.1, f x.1 x.2)) i) := by
  induction t with
  | nil => exact hd
  | cons p r ih =>
    obtain ⟨k, v⟩ := p
    simp only [List.map_cons, tabGet]
    split
    · exact hf k v
    · exact ih

/-- Domain `d` once one nanosecond has passed: its cycles count, and demand is noted. -/
def State.tickDom (s : State) (d : Nat) (x : Dom) : Dom :=
  { x with ticks := x.ticks + x.rate s.pwr.pausing, quiet := if s.working? d then s.now + 1 else x.quiet }

/-- A nanosecond leaves a domain's state as it is, and its cycles do not fall; a domain that no table entry holds stays at its reset values. -/
theorem State.map_tickDom (s : State) (d : Nat) :
    (tabGet {} (s.pwr.doms.map fun p => (p.1, s.tickDom p.1 p.2)) d).state = (s.dom d).state
      ∧ (s.dom d).ticks ≤ (tabGet {} (s.pwr.doms.map fun p => (p.1, s.tickDom p.1 p.2)) d).ticks :=
  tabGet_map_rel (R := fun x y : Dom => y.state = x.state ∧ x.ticks ≤ y.ticks) (f := s.tickDom) ⟨rfl, le_rfl⟩
    (fun _ _ => ⟨rfl, Nat.le_add_right _ _⟩) s.pwr.doms d

section
variable {s : State}

theorem tick_off (hpower : s.power = false) : tick s = s := by
  simp only [tick, hpower, Bool.not_false, if_true]

/-- A nanosecond moves device time on by one, or by 0 or 2 while a slew is applied, and counts the cycles of each domain. -/
theorem tick_on (hpower : s.power = true) : ∃ n k, s.now ≤ n ∧ n ≤ s.now + 2 ∧ (s.stk.slew = 0 → n = s.now + 1)
    ∧ tick s = { s with now := n, stk := { s.stk with slew := k }, pwr := { s.pwr with doms := s.pwr.doms.map fun p => (p.1, s.tickDom p.1 p.2) } } := by
  simp only [tick, hpower, Bool.not_true, Bool.false_eq_true, if_false]
  refine ⟨_, _, Nat.le_add_right _ _, Nat.add_le_add_left ?_ _, ?_, rfl⟩
  · split
    · exact le_rfl
    · split <;> omega
  · intro hslew
    simp [hslew]

theorem tick_now_le (s : State) : s.now ≤ (tick s).now := by
  cases hpower : s.power with
  | false => rw [tick_off hpower]
  | true =>
    obtain ⟨n, k, hle, -, -, h⟩ := tick_on hpower
    rw [h]
    exact hle

theorem tick_fuses (s : State) : (tick s).pwr.fuses = s.pwr.fuses := by
  unfold tick
  split <;> rfl

end

/-- Settles O2: `tick_on` says what a nanosecond changes, and of a domain it changes the cycles and the time of its last demand. -/
theorem idleStep : Obligations.idleStep := by
  unfold Obligations.idleStep
  refine ⟨?off, ?on⟩
  case off =>
    intro s hnil hpower
    rw [step_nil s hnil, tick_off hpower]
  case on =>
    intro s hnil hpower
    obtain ⟨n, k, hle, hmax, hone, htick⟩ := tick_on hpower
    refine ⟨tick s, step_nil s hnil, ?_⟩
    rw [htick]
    exact ⟨hle, hmax, hone, fun d => s.map_tickDom d, rfl⟩

/-! ### Effects that leave device time and the fuses of the ceiling alone -/

section
variable (s : State)

theorem State.ledgerEnd_now (result index : Nat) : (s.ledgerEnd result index).now = s.now := by
  rw [State.ledgerEnd, State.notice_now]
  rfl

theorem State.ledgerEnd_pwr (result index : Nat) : (s.ledgerEnd result index).pwr = s.pwr := by
  rw [State.ledgerEnd, State.notice_pwr]
  rfl

/-- The end of a ledger commit changes neither device time nor PWR. -/
theorem ledgerCommitDone_frame (v : Bool) : (ledgerCommitDone v s).now = s.now ∧ (ledgerCommitDone v s).pwr = s.pwr := by
  unfold ledgerCommitDone
  split
  · exact ⟨rfl, rfl⟩
  · cases s.frm.programming with
    | none => exact ⟨s.ledgerEnd_now _ _, s.ledgerEnd_pwr _ _⟩
    | some x => cases v <;> exact ⟨State.ledgerEnd_now _ _ _, State.ledgerEnd_pwr _ _ _⟩

/-- A write of PWR_CEIL_CTRL programs nothing yet. -/
theorem ceilingLower_frame (via : Via) (v : W32) : (ceilingLower via v s).now = s.now ∧ (ceilingLower via v s).pwr.fuses = s.pwr.fuses := by
  unfold ceilingLower
  dsimp only
  split
  · exact ⟨rfl, rfl⟩
  · split <;> exact ⟨rfl, rfl⟩

/-- FUSE programs no value into the ceiling at once: one that it is given is programmed as a write of PWR_CEIL_CTRL is. -/
theorem fuse_frame (op : FuseOp) : (fuse op s).now = s.now ∧ (fuse op s).pwr.fuses = s.pwr.fuses := by
  unfold fuse
  split
  · exact ⟨rfl, rfl⟩
  · cases op with
    | readLedger k => dsimp only; split <;> exact ⟨rfl, rfl⟩
    | programLedger k v => dsimp only; split <;> exact ⟨rfl, rfl⟩
    | readCeiling => exact ⟨rfl, rfl⟩
    | programCeiling v => exact ceilingLower_frame (s.tap 6) _ _
    | readSerial => exact ⟨rfl, rfl⟩

theorem ceilingProgrammed_now : (ceilingProgrammed s).now = s.now := by
  unfold ceilingProgrammed
  split
  · rfl
  · split <;> rfl

theorem powerGood_fuses (x : Straps) : (powerGood x s).pwr.fuses = s.pwr.fuses := by
  unfold powerGood
  split <;> rfl

theorem State.ledgerCut_fuses : s.ledgerCut.pwr.fuses = s.pwr.fuses := by
  unfold State.ledgerCut
  cases s.frm.programming <;> rfl

theorem powerGoodLoss_fuses : (powerGoodLoss s).pwr.fuses = s.pwr.fuses := by
  unfold powerGoodLoss
  split
  · rfl
  · exact s.ledgerCut_fuses

theorem State.follow_fuses (l : Nat) : (s.follow l).pwr.fuses = s.pwr.fuses := by
  unfold State.follow
  cases s.stk.leadTime <;> rfl

theorem State.becomeReady_fuses : s.becomeReady.pwr.fuses = s.pwr.fuses := rfl

theorem stackFormDone_fuses (r : FormResult) : (stackFormDone r s).pwr.fuses = s.pwr.fuses := by
  unfold stackFormDone
  split
  · rfl
  · cases r with
    | idConflict => dsimp only; split <;> rfl
    | noLead => dsimp only; split <;> rfl
    | formed =>
      dsimp only
      split
      · exact ((s.follow _).becomeReady_fuses).trans (s.follow_fuses _)
      · split
        · rfl
        · split <;> rfl

end

/-! ### Device time (R339) -/

/-- A command that neither brings nor ends power-good nor forms the stack leaves device time as it is. -/
theorem exec_now {c : Instr} {s t : State} (hgood : ∀ x, c ≠ .powerGood x) (hloss : c ≠ .powerGoodLoss) (hform : ∀ r, c ≠ .stackFormDone r)
    (h : exec c s = .next t) : t.now = s.now := by
  obtain ⟨f, hrun⟩ | ⟨x, rfl⟩ | rfl | ⟨r, rfl⟩ | ⟨v, rfl⟩ | rfl | ⟨op, rfl⟩ := exec_run_or c
  · obtain ⟨-, -, hnow, -⟩ := run_keeps s f t ((hrun s).symm.trans h)
    exact hnow
  · exact absurd rfl (hgood x)
  · exact absurd rfl hloss
  · exact absurd rfl (hform r)
  · cases Host.Outcome.next.inj h
    exact (ledgerCommitDone_frame s v).1
  · cases Host.Outcome.next.inj h
    exact ceilingProgrammed_now s
  · cases Host.Outcome.next.inj h
    exact (fuse_frame s op).1

/-- Settles O8: on an empty queue time moves on, and each command but the three that are left out keeps it. -/
theorem timeNeverFalls : Obligations.timeNeverFalls := by
  unfold Obligations.timeNeverFalls
  intro s t hgood hloss hform hstep
  cases hp : s.pending with
  | nil =>
    rw [step_nil s hp] at hstep
    cases hstep
    exact tick_now_le s
  | cons c r =>
    rw [step_cons c r s hp] at hstep
    refine (exec_now (fun x e => hgood x r ?_) (fun e => hloss r ?_) (fun x e => hform x r ?_) hstep).ge <;> rw [hp, e]

/-! ### The ceiling (R349, R350, R474) -/

/-- `v` may be programmed into the ceiling's fuses: it is at least 4,000 W and below the ceiling in force, and a slot is left (R350). -/
def Pwr.MayLower (p : Pwr) (v : Nat) : Prop := 4000 ≤ v ∧ v < p.ceiling ∧ p.lowerings ≠ 0

theorem ceilingProgrammed_fuses (s : State) : (ceilingProgrammed s).pwr.fuses = s.pwr.fuses
    ∨ ∃ v, s.pwr.MayLower v ∧ (ceilingProgrammed s).pwr.fuses = s.pwr.fuses ++ [v] := by
  unfold ceilingProgrammed
  split
  · exact .inl rfl
  · next v _ =>
    split
    · next hv => exact .inr ⟨v, hv, rfl⟩
    · exact .inl rfl

/-- What a command does to the fuses of the ceiling: nothing, or it programs one value that R350 allows. -/
theorem exec_fuses {c : Instr} {s t : State} (h : exec c s = .next t) :
    t.pwr.fuses = s.pwr.fuses ∨ ∃ v, s.pwr.MayLower v ∧ t.pwr.fuses = s.pwr.fuses ++ [v] := by
  obtain ⟨f, hrun⟩ | ⟨x, rfl⟩ | rfl | ⟨r, rfl⟩ | ⟨v, rfl⟩ | rfl | ⟨op, rfl⟩ := exec_run_or c
  · obtain ⟨-, -, -, -, -, hfuses⟩ := run_keeps s f t ((hrun s).symm.trans h)
    exact .inl hfuses
  all_goals cases Host.Outcome.next.inj h
  · exact .inl (powerGood_fuses s x)
  · exact .inl (powerGoodLoss_fuses s)
  · exact .inl (stackFormDone_fuses s r)
  · exact .inl (congrArg Pwr.fuses (ledgerCommitDone_frame s v).2)
  · exact ceilingProgrammed_fuses s
  · exact .inl (fuse_frame s op).2

theorem step_fuses {s t : State} (h : step s = .next t) : t.pwr.fuses = s.pwr.fuses ∨ ∃ v, s.pwr.MayLower v ∧ t.pwr.fuses = s.pwr.fuses ++ [v] := by
  cases hp : s.pending with
  | nil =>
    rw [step_nil s hp] at h
    cases h
    exact .inl (tick_fuses s)
  | cons c r =>
    rw [step_cons c r s hp] at h
    exact exec_fuses (s := { s with pending := r }) h

theorem least_le {l : List Nat} {x y : Nat} (h : least l = some x) (hy : y ∈ l) : x ≤ y := by
  induction l generalizing x with
  | nil => cases hy
  | cons a r ih =>
    cases hr : least r with
    | none =>
      simp only [least, hr, Option.some.injEq] at h
      obtain rfl | hy := List.mem_cons.1 hy
      · exact h.ge
      · obtain ⟨z, hz⟩ := least_mem hy
        rw [hr] at hz
        cases hz
    | some b =>
      simp only [least, hr, Option.some.injEq] at h
      obtain rfl | hy := List.mem_cons.1 hy
      · split at h <;> omega
      · have := ih hr hy
        split at h <;> omega

/-- The ceiling is no higher than any value programmed. -/
theorem Pwr.ceiling_le {p : Pwr} {v : Nat} (hv : v ∈ p.fuses) : p.ceiling ≤ v := by
  obtain ⟨x, hx⟩ := least_mem hv
  rw [Pwr.ceiling, hx]
  exact least_le hx hv

/-- The ceiling is the value as shipped, or one that has been programmed. -/
theorem Pwr.ceiling_cases (p : Pwr) : p.ceiling = 20000 ∨ p.ceiling ∈ p.fuses := by
  unfold Pwr.ceiling
  cases h : least p.fuses with
  | none => exact .inl rfl
  | some x => exact .inr (mem_of_least h)

section
variable {s t : State}

theorem ceiling_le_of_ceilingOk (hok : CeilingOk s) : s.pwr.ceiling ≤ 20000 := by
  obtain ⟨-, hrange, -⟩ := hok
  obtain h | h := s.pwr.ceiling_cases
  · exact h.le
  · exact (hrange _ h).2.le

/-- A value that may be programmed keeps the values in order and within range. -/
theorem ceilingOk_of_lowered {v : Nat} (hok : CeilingOk s) (hv : s.pwr.MayLower v) (hfuses : t.pwr.fuses = s.pwr.fuses ++ [v]) : CeilingOk t := by
  have hmax := ceiling_le_of_ceilingOk hok
  obtain ⟨hlen, hrange, horder⟩ := hok
  obtain ⟨hmin, hbelow, hleft⟩ := hv
  have hroom : s.pwr.fuses.length < 4 := Nat.lt_of_sub_ne_zero hleft
  have hone : ∀ w ∈ [v], 4000 ≤ w ∧ w < 20000 := fun w hw => by
    rw [List.mem_singleton.1 hw]
    exact ⟨hmin, hbelow.trans_le hmax⟩
  refine ⟨?length, ?range, ?order⟩ <;> rw [hfuses]
  case length => simpa using hroom
  case range => exact fun w hw => (List.mem_append.1 hw).elim (hrange w) (hone w)
  case order =>
    refine List.pairwise_append.2 ⟨horder, List.pairwise_singleton _ _, fun a ha w hw => ?_⟩
    rw [List.mem_singleton.1 hw]
    exact hbelow.trans_le (Pwr.ceiling_le ha)

theorem ceiling_le_of_lowered {v : Nat} (hv : s.pwr.MayLower v) (hfuses : t.pwr.fuses = s.pwr.fuses ++ [v]) : t.pwr.ceiling ≤ s.pwr.ceiling := by
  obtain ⟨-, hbelow, -⟩ := hv
  have hmem : v ∈ t.pwr.fuses := by rw [hfuses]; exact List.mem_append_right _ (List.mem_singleton_self v)
  exact (Pwr.ceiling_le hmem).trans hbelow.le

end

/-- Settles O6: a step leaves the fuses as they are or programs one more value, below the ceiling in force. -/
theorem ceilingOnlyFalls : Obligations.ceilingOnlyFalls := by
  unfold Obligations.ceilingOnlyFalls
  intro s t hok hstep
  obtain hfuses | ⟨v, hv, hfuses⟩ := step_fuses hstep
  · have hceiling : t.pwr.ceiling = s.pwr.ceiling := by rw [Pwr.ceiling, hfuses, Pwr.ceiling]
    refine ⟨?_, hceiling.le, [], (List.append_nil _).trans hfuses.symm⟩
    rw [CeilingOk, hfuses]
    exact hok
  · exact ⟨ceilingOk_of_lowered hok hv hfuses, ceiling_le_of_lowered hv hfuses, [v], hfuses.symm⟩

/-! ### After reset (R339, R349, R355, R209, R227) -/

/-- Settles O3: each table of the state after reset is empty, so whatever is read of one is its default. -/
theorem resetValues : Obligations.resetValues := by
  unfold Obligations.resetValues
  refine ⟨rfl, rfl, rfl, rfl, rfl, rfl, fun n q => ?queues, fun _ => ⟨rfl, rfl⟩, fun _ => rfl, fun _ _ => rfl, fun _ => rfl⟩
  case queues =>
    have hqueue : State.reset.queue n q = {} := ite_self _
    rw [hqueue]
    exact ⟨rfl, rfl, rfl, rfl⟩

/-- Settles O4: nothing is programmed into the fuses, no store holds a byte, and each watermark group has LEVEL and PEAK 0. -/
theorem resetInvariants : Obligations.resetInvariants := by
  unfold Obligations.resetInvariants
  exact ⟨⟨Nat.zero_le 4, fun _ hv => absurd hv List.not_mem_nil, List.Pairwise.nil⟩, rfl, fun _ => rfl, le_rfl, le_rfl⟩

end Sys2Proof.Machine

/-! PROOFS. Compute domains: frequency steps, targets, rests, wakes and power-up (R337, R338, R342 to R346, R360). -/

namespace Sys2Proof.Machine

open Sys2Proof Sys2Proof.Safety

/-! ### Commands that change one domain -/

/-- A change of a domain depends on what the change makes of the domain's content only. -/
theorem State.modDom_congr {s : State} {d : Nat} {f g : Dom → Dom} (h : f (s.dom d) = g (s.dom d)) : s.modDom d f = s.modDom d g := by
  rw [State.modDom, tabMod_congr h, State.modDom]

section
variable {s : State} {d : Nat}

/-- What a powered command answers that changes one domain. -/
theorem exec_modDom {c : Instr} {e : State → State} {f : Dom → Dom} (hpower : s.power = true) (hrun : exec c s = run e s) (he : e s = s.modDom d f) :
    exec c s = .next (s.modDom d f) :=
  exec_on hpower hrun (by rw [he]; rfl)

/-- What a powered command answers that changes one domain into `x`. -/
theorem answers_modDom {c : Instr} {e : State → State} {f : Dom → Dom} {x : Dom} (hpower : s.power = true) (hrun : exec c s = run e s)
    (he : e s = s.modDom d f) (hx : f (s.dom d) = x) :
    Answers c s fun t => t.dom d = x ∧ (∀ k, k ≠ d → t.dom k = s.dom k) ∧ t = { s with pwr := { s.pwr with doms := t.pwr.doms } } :=
  ⟨_, exec_modDom hpower hrun he, (s.modDom_self d f).trans hx, fun k hk => s.modDom_ne d k f hk, rfl⟩

theorem State.pwrOpen_of_ready (hready : s.frm.state = .ready) : s.pwrOpen = true := by
  rw [State.pwrOpen, hready]
  rfl

/-! ### Frequency steps (R337, R338) -/

section
variable {x : Dom}

/-- A domain that runs at its effective code begins no step. -/
theorem Dom.restep_settled (heff : x.eff = x.code) : x.restep = x := by
  simp [Dom.restep, heff]

theorem Dom.restep_down (hactive : x.state = .active) (hstep : x.step = .none) (hlt : x.eff < x.code) : x.restep = { x with step := .changing x.eff } := by
  simp [Dom.restep, hactive, hstep, hlt, hlt.ne]

theorem Dom.restep_up (hactive : x.state = .active) (hstep : x.step = .none) (hlt : x.code < x.eff) : x.restep = { x with step := .rising x.eff } := by
  simp [Dom.restep, hactive, hstep, hlt.ne', Nat.not_lt.2 hlt.le]

/-- Once the voltage has risen for a code that is still in force, the frequency changes to it. -/
theorem Dom.risen_eq {c : Nat} (hstep : x.step = .rising c) (hle : c ≤ x.eff) (hne : c ≠ x.code) : x.risen = { x with step := .changing c } := by
  simp [Dom.risen, hstep, Nat.not_lt.2 hle, hne]

/-- Once the frequency has changed to the code in force, the tiles run at it and no further step begins. -/
theorem Dom.changed_eq {c : Nat} (hstep : x.step = .changing c) (heff : x.eff = c) : x.changed = { x with step := .none, code := c } := by
  simp only [Dom.changed, hstep]
  exact Dom.restep_settled heff

end

theorem freqSetpoint_eq {c : Nat} (hopen : s.pwrOpen = true) (hd : d < 16) (hc : c ≤ 18) :
    freqSetpoint d c s = s.modDom d fun x => { x with freq := c }.restep := by
  simp [freqSetpoint, hopen, Nat.not_le.2 hd, Nat.not_lt.2 hc]

/-- A change that ends counts the cycles that have passed, and changes beside that its domain. -/
theorem frequencyStepDone_eq : ∃ t, s.Counted t ∧ frequencyStepDone d s = t.modDom d Dom.changed :=
  ⟨_, s.counted_each _, rfl⟩

/-! ### Targets and wakes (R342 to R345) -/

/-- A domain that begins to rest keeps its code and its step until the transition ends. -/
theorem Dom.goTo_rest {x : Dom} {dest : DomState} {now : Nat} (hrest : dest ≠ .active) : x.goTo dest now = { x with trans := some (dest, now) } := by
  simp [Dom.goTo, hrest]

section
variable (hready : s.frm.state = .ready) (htrans : (s.dom d).trans = none) (hbist : (s.dom d).bist = false)
include hready htrans hbist

/-- An ACTIVE domain leaves at once for OFF alone. -/
theorem State.followTarget_active (hstate : (s.dom d).state = .active) (htarget : (s.dom d).target ≠ 0) : s.followTarget d = s := by
  simp [State.followTarget, hready, htrans, hbist, hstate, htarget]

/-- A domain in RETAIN stays there while its target is RETAIN. -/
theorem State.followTarget_retain (hstate : (s.dom d).state = .retain) (htarget : (s.dom d).target = 1) : s.followTarget d = s := by
  simp [State.followTarget, hready, htrans, hbist, hstate, htarget]

/-- A domain that is OFF wakes for every other target. -/
theorem State.followTarget_off (hstate : (s.dom d).state = .off) (htarget : (s.dom d).target ≠ 0) :
    s.followTarget d = s.modDom d fun x => x.goTo .active s.now := by
  simp [State.followTarget, hready, htrans, hbist, hstate, htarget]

end

theorem domainTarget_refused (hopen : s.pwrOpen = true) (hd : d < 16) (hoff : s.offOk d = false) :
    domainTarget d 0 s = s.modDom d fun x => { x with reqErr := true } := by
  simp [domainTarget, hopen, Nat.not_le.2 hd, hoff]

/-- A target other than OFF is stored and followed. -/
theorem domainTarget_eq {target : Nat} (hopen : s.pwrOpen = true) (hd : d < 16) (hpos : 0 < target) (hlt : target < 4) :
    domainTarget d target s = (s.modDom d fun x => { x with target := target }).followTarget d := by
  simp [domainTarget, hopen, Nat.not_le.2 hd, Nat.not_le.2 hlt, hpos.ne']

theorem domainTarget_active {target : Nat} (hready : s.frm.state = .ready) (hd : d < 16) (hpos : 0 < target) (hlt : target < 4)
    (htrans : (s.dom d).trans = none) (hbist : (s.dom d).bist = false) (hstate : (s.dom d).state = .active) :
    domainTarget d target s = s.modDom d fun x => { x with target := target } := by
  rw [domainTarget_eq (State.pwrOpen_of_ready hready) hd hpos hlt]
  exact State.followTarget_active hready (by simpa using htrans) (by simpa using hbist) (by simpa using hstate) (by simpa using hpos.ne')

theorem domainTarget_wakes {target : Nat} (hready : s.frm.state = .ready) (hd : d < 16) (hpos : 0 < target) (hlt : target < 4)
    (htrans : (s.dom d).trans = none) (hbist : (s.dom d).bist = false) (hstate : (s.dom d).state = .off) :
    domainTarget d target s = s.modDom d fun x => { x with target := target }.goTo .active s.now := by
  rw [domainTarget_eq (State.pwrOpen_of_ready hready) hd hpos hlt]
  have hwakes := State.followTarget_off (s := s.modDom d fun x => { x with target := target }) (d := d) hready (by simpa using htrans) (by simpa using hbist)
    (by simpa using hstate) (by simpa using hpos.ne')
  exact hwakes.trans (s.modDom_modDom d _ _)

section
variable (hready : s.frm.state = .ready) (hstate : (s.dom d).state = .active) (htrans : (s.dom d).trans = none) (hdemand : s.hasDemand d = false)
  (hquiet : (s.dom d).quiet + 1000 * s.pwr.retainDelay ≤ s.now)
include hready hstate htrans hdemand hquiet

/-- An ACTIVE domain that has had no demand for RETAIN_DELAY begins to move to RETAIN or IDLE, as its target says. -/
theorem retainExpiry_retain (htarget : (s.dom d).target = 1) : retainExpiry d s = s.modDom d fun x => { x with trans := some (.retain, s.now) } := by
  simp [retainExpiry, hready, hstate, htrans, hdemand, Nat.not_lt.2 hquiet, htarget, Dom.goTo_rest]

theorem retainExpiry_idle (htarget : (s.dom d).target = 2) : retainExpiry d s = s.modDom d fun x => { x with trans := some (.idle, s.now) } := by
  simp [retainExpiry, hready, hstate, htrans, hdemand, Nat.not_lt.2 hquiet, htarget, Dom.goTo_rest]

end

theorem domainWake_eq (hstate : (s.dom d).state = .idle ∨ (s.dom d).state = .retain) (htrans : (s.dom d).trans = none) (hdemand : s.hasDemand d = true) :
    domainWake d s = s.modDom d fun x => x.goTo .active s.now := by
  simp [domainWake, hstate, htrans, hdemand]

/-! ### Ends of transitions (R342, R345, R346) -/

/-- A domain that has moved to RETAIN stays there while that is its target. -/
theorem transitionDone_retain {t0 : Nat} (hready : s.frm.state = .ready) (hstate : (s.dom d).state = .active) (htrans : (s.dom d).trans = some (.retain, t0))
    (htarget : (s.dom d).target = 1) (hbist : (s.dom d).bist = false) :
    transitionDone d s = s.modDom d fun x => { x with state := .retain, trans := none, step := .none } := by
  have hrests : transitionDone d s = (s.modDom d fun x => { x with state := .retain, trans := none, step := .none }).followTarget d := by
    simp [transitionDone, hstate, htrans, State.modDom_modDom]
  rw [hrests]
  exact State.followTarget_retain hready (by simp) (by simpa using hbist) (by simp) (by simpa using htarget)

/-- When the tile clocks of a domain start, its cycles count from 0, and beside it only tiles change. -/
theorem State.clocksStart_eq : ∃ T, s.clocksStart d = { s.modDom d fun x => { x with ticks := 0 } with tiles := T } :=
  State.each_ind (P := State.TilesOnly _) (fun _ a h => h.modTile a _) _ _ (State.TilesOnly.refl _)

/-- A domain whose BIST-lite begins after power-up (R346). -/
def Dom.poweredUp (x : Dom) : Dom := { x with code := x.eff, step := .none, ticks := 0, bist := true }

/-- Outside DOMAIN_UP, 2 ms after a switch-on the tile clocks of a domain start, and its BIST-lite begins. -/
theorem powerUpDone_eq {t0 : Nat} (hready : s.frm.state = .ready) (hstate : (s.dom d).state = .off) (htrans : (s.dom d).trans = some (.active, t0))
    (hbist : (s.dom d).bist = false) (hdue : t0 + 2000000 ≤ s.now) :
    ∃ T, powerUpDone d s = { s.modDom d Dom.poweredUp with tiles := T } := by
  obtain ⟨T, hclocks⟩ := State.clocksStart_eq (s := s.modDom d fun x => { x with code := x.eff, step := .none }) (d := d)
  refine ⟨T, ?_⟩
  have hstarts : powerUpDone d s = ((s.modDom d fun x => { x with code := x.eff, step := .none }).clocksStart d).modDom d fun x => { x with bist := true } := by
    have hstays : ((s.modDom d fun x => { x with code := x.eff, step := .none }).clocksStart d).frm = s.frm := by rw [hclocks]; rfl
    simp [powerUpDone, hstate, htrans, hbist, Nat.not_lt.2 hdue, hstays, hready]
  rw [hstarts, hclocks]
  simp only [State.modDom, tabMod_tabMod]
  rfl

/-- A domain whose BIST-lite has ended at `now` (R345). -/
def Dom.passed (x : Dom) (now : Nat) : Dom := { x with state := .active, trans := none, bist := false, quiet := now }

/-- A BIST-lite that no tile fails ends with the domain ACTIVE at the code that it runs at. -/
theorem bistLiteDone_passed (hready : s.frm.state = .ready) (hbist : (s.dom d).bist = true) (htarget : (s.dom d).target ≠ 0) (heff : (s.dom d).eff = (s.dom d).code) :
    bistLiteDone d [] s = (s.probeRestart d).modDom d fun x => x.passed s.now := by
  have hends : bistLiteDone d [] s = (((s.probeRestart d).modDom d fun x => x.passed s.now).modDom d Dom.restep).followTarget d := by
    rw [bistLiteDone, hbist]
    rfl
  have hsettled : ((s.dom d).passed s.now).restep = (s.dom d).passed s.now := Dom.restep_settled heff
  have hkeeps : ((s.probeRestart d).modDom d fun x => x.passed s.now).modDom d Dom.restep = (s.probeRestart d).modDom d fun x => x.passed s.now :=
    (State.modDom_modDom ..).trans (State.modDom_congr hsettled)
  rw [hends, hkeeps]
  have hdom : ((s.probeRestart d).modDom d fun x => x.passed s.now).dom d = (s.dom d).passed s.now := State.modDom_self ..
  exact State.followTarget_active hready (by rw [hdom]; rfl) (by rw [hdom]; rfl) (by rw [hdom]; rfl) (by rw [hdom]; exact htarget)

end

/-! ### The obligation -/

/-- Settles O15: each clause is one of the equations above. -/
theorem domains : Obligations.domains := by
  unfold Obligations.domains
  refine ⟨?setpoint, fun _ => Dom.restep_down, fun _ => Dom.restep_up, ?risen, ?changed, ?refused, ?stored, ?switchOn, ?retains, ?idles, ?wakes,
    ?rests, ?powersUp, ?passes⟩
  case setpoint =>
    intro d c s hpower hopen hd hc
    exact exec_modDom hpower rfl (freqSetpoint_eq hopen hd hc)
  case risen =>
    intro d c s hpower hstep hle hne
    exact answers_modDom (e := fun s => s.modDom d Dom.risen) hpower rfl rfl (Dom.risen_eq hstep hle hne)
  case changed =>
    intro d c s hpower hstep heff
    obtain ⟨t, hcounted, hdone⟩ := frequencyStepDone_eq (s := s) (d := d)
    obtain ⟨T, Q, heq⟩ := hcounted.eq
    have hdom : ∀ k, t.dom k = s.dom k := fun k => by rw [heq]; rfl
    refine answers_on (f := frequencyStepDone d) hpower rfl ?_
    rw [hdone]
    refine ⟨?_, fun k hk => (t.modDom_ne d k _ hk).trans (hdom k), by rw [heq]; rfl, fun a => ?_⟩
    · rw [State.keep_dom, State.modDom_self, hdom, Dom.changed_eq hstep heff]
    · have hstored := hcounted.stored a
      exact ⟨congrArg Prod.fst hstored, congrArg Prod.snd hstored⟩
  case refused =>
    intro d s hpower hopen hd hoff
    exact exec_modDom hpower rfl (domainTarget_refused hopen hd hoff)
  case stored =>
    intro d x s hpower hready hd hpos hlt htrans hbist hstate
    exact ⟨_, exec_modDom hpower rfl (domainTarget_active hready hd hpos hlt htrans hbist hstate), rfl⟩
  case switchOn =>
    intro d s hpower hready hd htrans hbist hstate
    obtain ⟨t, hexec, hdom, hne, heq⟩ := answers_modDom (c := .domainTargetWrite d 3) hpower rfl (domainTarget_wakes hready hd (by decide) (by decide) htrans hbist hstate) rfl
    exact ⟨t, hexec, by rw [hdom]; rfl, by rw [hdom]; rfl, hne, heq⟩
  case retains =>
    intro d s hlive hstate htrans hdemand hquiet htarget
    obtain ⟨hpower, hready⟩ := hlive
    exact exec_modDom hpower rfl (retainExpiry_retain hready hstate htrans hdemand hquiet htarget)
  case idles =>
    intro d s hlive hstate htrans hdemand hquiet htarget
    obtain ⟨hpower, hready⟩ := hlive
    exact exec_modDom hpower rfl (retainExpiry_idle hready hstate htrans hdemand hquiet htarget)
  case wakes =>
    intro d s hpower hstate htrans hdemand
    exact exec_modDom hpower rfl (domainWake_eq hstate htrans hdemand)
  case rests =>
    intro d t0 s hpower hstate htrans htarget hready hbist
    exact exec_modDom hpower rfl (transitionDone_retain hready hstate htrans htarget hbist)
  case powersUp =>
    intro d t0 s hlive hd hstate htrans hbist hdue
    obtain ⟨hpower, hready⟩ := hlive
    obtain ⟨T, hup⟩ := powerUpDone_eq hready hstate htrans hbist hdue
    refine answers_on (f := powerUpDone d) hpower rfl ?_
    rw [hup]
    have hdom : (s.modDom d Dom.poweredUp).dom d = (s.dom d).poweredUp := s.modDom_self d _
    exact ⟨congrArg Dom.bist hdom, congrArg Dom.ticks hdom, (congrArg Dom.state hdom).trans hstate, fun k hk => s.modDom_ne d k Dom.poweredUp hk, rfl⟩
  case passes =>
    intro d s hlive hbist htarget hstep heff
    obtain ⟨hpower, hready⟩ := hlive
    refine answers_on (f := bistLiteDone d []) hpower rfl ?_
    rw [bistLiteDone_passed hready hbist htarget heff]
    have hdom : ((s.probeRestart d).modDom d fun x => x.passed s.now).dom d = (s.dom d).passed s.now := State.modDom_self ..
    exact ⟨hdom, fun k hk => (s.probeRestart d).modDom_ne d k (fun x => x.passed s.now) hk, rfl⟩

end Sys2Proof.Machine


/-! PROOFS. A DEP_TIMEOUT of a LOT whose chain is still to be completed has no effect of its own (R194, R205; depTimeout). -/

namespace Sys2Proof.Machine

open Sys2Proof Sys2Proof.Safety

/-- Refutes O60: its clause for DEP_TIMEOUT says that a waiting descriptor with an unseen dependency ends once the time has passed, whether its chain is complete or not. In `openChainWaits` the chain has a stage to come, so DEP_TIMEOUT leaves it as it is (R194), and no record is written. -/
theorem not_everyCommandCompletes : ¬ Obligations.everyCommandCompletes := by
  unfold Obligations.everyCommandCompletes
  rintro ⟨-, -, -, -, -, -, -, -, -, -, -, -, -, -, -, -, -, -, -, -, -, -, -, htimeout, -⟩
  have hwait : openChainWaits.waiting? 127 1 7 = some openHead := by decide +kernel
  obtain ⟨t, hexec, -, hcount⟩ := htimeout 127 1 7 openHead 0 openChainWaits rfl hwait (by decide +kernel) (by decide) (by decide +kernel) rfl (.inr (by decide +kernel)) rfl
  have hsame : exec (.depTimeout 127 1 7) openChainWaits = .next openChainWaits := exec_on rfl rfl (by rw [depTimeout_open hwait rfl]; rfl)
  obtain rfl : t = openChainWaits := Host.Outcome.next.inj (hexec.symm.trans hsame)
  exact absurd hcount (by decide +kernel)

end Sys2Proof.Machine


/-! PROOFS. What `step` and `exec` answer whatever the command: a step runs the command in front, every command answers a next state and leaves the queue of commands, and without power only POWER_GOOD acts (R368, R493; log 1). -/

namespace Sys2Proof.Machine

open Sys2Proof Sys2Proof.Safety

/-- Settles O1: the step takes the command in front off the queue and runs it. -/
theorem stepRunsFront : Obligations.stepRunsFront := by
  unfold Obligations.stepRunsFront
  intro c r s hpending
  exact step_cons c r s hpending

/-- A command that goes through `runAny` answers a next state with the same queue of commands. -/
theorem runAny_answers (f : State → State) (s : State) : ∃ t, runAny f s = .next t ∧ t.pending = s.pending :=
  ⟨_, rfl, rfl⟩

/-- A command that goes through `run` answers a next state with the same queue of commands. -/
theorem run_answers (f : State → State) (s : State) : ∃ t, run f s = .next t ∧ t.pending = s.pending := by
  obtain ⟨t, ht⟩ := run_total (s := s) f
  obtain ⟨hpending, -⟩ := run_keeps s f t ht
  exact ⟨t, ht, hpending⟩

/-- A command that goes through `runAny` and checks power itself changes nothing without power. -/
theorem runAny_unpowered {f : State → State} {s : State} (h : f s = s) : runAny f s = .next s := by
  rw [runAny, h]

/-- Settles O5: a command goes through `run`, which does nothing without power, or is one of the six that check power themselves. -/
theorem everyCommandAnswers : Obligations.everyCommandAnswers := by
  unfold Obligations.everyCommandAnswers
  refine ⟨?answers, ?unpowered⟩
  case answers =>
    intro c s
    obtain ⟨f, hrun⟩ | ⟨x, rfl⟩ | rfl | ⟨r, rfl⟩ | ⟨v, rfl⟩ | rfl | ⟨op, rfl⟩ := exec_run_or c
    · rw [hrun]
      exact run_answers f s
    · exact runAny_answers (powerGood x) s
    · exact runAny_answers powerGoodLoss s
    · exact runAny_answers (stackFormDone r) s
    · exact runAny_answers (ledgerCommitDone v) s
    · exact runAny_answers ceilingProgrammed s
    · exact runAny_answers (fuse op) s
  case unpowered =>
    intro c s hpower hc
    obtain ⟨f, hrun⟩ | ⟨x, rfl⟩ | rfl | ⟨r, rfl⟩ | ⟨v, rfl⟩ | rfl | ⟨op, rfl⟩ := exec_run_or c
    · rw [hrun, run, hpower]
      rfl
    · exact absurd rfl (hc x)
    · exact runAny_unpowered (by simp [powerGoodLoss, hpower])
    · exact runAny_unpowered (by simp [stackFormDone, hpower])
    · exact runAny_unpowered (by simp [ledgerCommitDone, hpower])
    · exact runAny_unpowered (by simp [ceilingProgrammed, hpower])
    · exact runAny_unpowered (by simp [fuse, hpower])

end Sys2Proof.Machine


/-! PROOFS. Watermark groups: what a clear of CROSSED, a write of MARK and the end of a window store, and the one notice where CROSSED rises (R455, R456, R458). -/

namespace Sys2Proof.Machine

open Sys2Proof Sys2Proof.Safety

/-! ### Reading a group after an update -/

section
variable (s : State)

@[simp] theorem State.wmPut_wmGet (w : WmId) (x : Wm) : (s.wmPut w x).wmGet w = x := by
  cases w with
  | queue n q => by_cases hq : q = 0 <;> simp [State.wmPut, State.wmGet, hq]
  | defer n => simp [State.wmPut, State.wmGet]
  | slowdown p => simp [State.wmPut, State.wmGet]
  | _ => rfl

@[simp] theorem State.wmPut_ntc (w : WmId) (x : Wm) : (s.wmPut w x).ntc = s.ntc := by cases w <;> rfl

@[simp] theorem State.msix4_ntc : s.msix4.ntc = s.ntc := by
  obtain ⟨_, _, h⟩ := s.msix4_eq
  rw [h]

@[simp] theorem State.msix_ntc (n v : Nat) : (s.msix n v).ntc = s.ntc := by
  obtain ⟨_, _, h⟩ := s.msix_eq n v
  rw [h]

/-- A notice is one entry of the NTC log. -/
@[simp] theorem State.notice_head (code index value : Nat) (client : Option Nat) : (s.notice code index value client).ntc.head = s.ntc.head + 1 := by
  unfold State.notice
  cases client <;> dsimp only <;> split <;> simp [State.ntcWrite]

/-- A notice leaves every watermark group as it is. -/
@[simp] theorem State.notice_wmGet (code index value : Nat) (client : Option Nat) (w : WmId) : (s.notice code index value client).wmGet w = s.wmGet w := by
  cases w with
  | queue n q =>
    have h0 := s.notice_client Client.wmQ0 (fun _ _ => rfl) code index value client n
    have h1 := s.notice_client Client.wmQ1 (fun _ _ => rfl) code index value client n
    simp only [State.wmGet, h0, h1]
  | defer n => exact s.notice_client Client.wmDefer (fun _ _ => rfl) code index value client n
  | _ => simp [State.wmGet]

/-- A group's new value stands, and its notice is the only one. -/
theorem State.wmSet_raises {r : Wm × Bool} (w : WmId) (hraise : r.2 = true) : (s.wmSet w r).wmGet w = r.1 ∧ (s.wmSet w r).ntc.head = s.ntc.head + 1 := by
  simp [State.wmSet, hraise]

/-- Where no notice is raised, the group's value is all that changes. -/
theorem State.wmSet_quiet {r : Wm × Bool} (w : WmId) (hraise : r.2 = false) : s.wmSet w r = s.wmPut w r.1 := by
  simp [State.wmSet, hraise]

theorem State.keep_wmPut (w : WmId) (x : Wm) : s.keep (s.wmPut w x) = s.wmPut w x := by cases w <;> rfl

theorem State.keep_wmGet (t : State) (w : WmId) : (s.keep t).wmGet w = t.wmGet w := by cases w <;> rfl

end

/-! ### Clearing CROSSED (R456) -/

/-- Settles O11: LEVEL above a MARK that is not 0 decides whether CROSSED rises again. -/
theorem watermarkClear : Obligations.watermarkClear := by
  unfold Obligations.watermarkClear
  refine ⟨?below, ?above⟩
  case below =>
    intro w s hpower hopen hle
    have hclear : wmClear (s.wmGet w) = ({ s.wmGet w with crossed := false, count := 0, peak := (s.wmGet w).level }, false) := by
      rcases hle with h | h
      · simp [wmClear, h]
      · simp [wmClear, Nat.not_lt.2 h]
    refine exec_on hpower rfl ?_
    rw [crossedClear, if_pos hopen, s.wmSet_quiet w (by rw [hclear]), hclear]
    exact s.keep_wmPut w _
  case above =>
    intro w s hpower hopen hmark hlt
    have hclear : wmClear (s.wmGet w) = ({ s.wmGet w with crossed := true, count := 0, peak := (s.wmGet w).level }, true) := by
      simp [wmClear, hmark, hlt]
    refine answers_on (f := crossedClear w) hpower rfl ?_
    rw [crossedClear, if_pos hopen, s.keep_wmGet]
    obtain ⟨hget, hhead⟩ := s.wmSet_raises w (r := wmClear (s.wmGet w)) (by rw [hclear])
    exact ⟨by rw [hget, hclear], hhead⟩

/-! ### MARK writes and windows (R455, R458) -/

/-- Settles O12: a MARK write counts a crossing only where LEVEL is above the new MARK and not above the old one; a window's end updates the group with the window's count. -/
theorem watermarkMarkAndWindows : Obligations.watermarkMarkAndWindows := by
  unfold Obligations.watermarkMarkAndWindows
  refine ⟨?below, ?crosses, ?deferred, ?upsets⟩
  case below =>
    intro w m s hpower hopen hle
    have hset : wmSetMark (s.wmGet w) (wmMark w m) = ({ s.wmGet w with mark := wmMark w m }, false) := by
      rcases hle with h | h
      · simp [wmSetMark, h]
      · simp [wmSetMark, Nat.not_lt.2 h]
    refine exec_on hpower rfl ?_
    rw [markWrite, if_pos hopen, s.wmSet_quiet w (by rw [hset]), hset]
    exact s.keep_wmPut w _
  case crosses =>
    intro w m s hpower hopen hcrossed hcount hmark hlt hle
    have hsat : satTo 0xFFFF ((s.wmGet w).count + 1) = (s.wmGet w).count + 1 := by
      unfold satTo
      split <;> omega
    have hset : wmSetMark (s.wmGet w) (wmMark w m) = ({ s.wmGet w with mark := wmMark w m, crossed := true, count := (s.wmGet w).count + 1 }, true) := by
      simp [wmSetMark, hmark, hlt, hle, hcrossed, hsat]
    refine answers_on (f := markWrite w m) hpower rfl ?_
    rw [markWrite, if_pos hopen, s.keep_wmGet]
    obtain ⟨hget, hhead⟩ := s.wmSet_raises w (r := wmSetMark (s.wmGet w) (wmMark w m)) (by rw [hset])
    exact ⟨by rw [hget, hset], hhead⟩
  case deferred =>
    intro n s hlive hn htime hend
    obtain ⟨hpower, hready⟩ := hlive
    refine answers_on (f := deferWindow n) hpower rfl ?_
    have hclosed : deferWindow n s = (s.modClient n fun c => { c with deferNow := 0, deferEnd := s.now }).wmSet (.defer n) (wmUpdate (s.client n).wmDefer (s.client n).deferNow) := by
      simp [deferWindow, hready, htime, hend, Nat.not_le.2 hn]
    rw [hclosed]
    cases hraise : (wmUpdate (s.client n).wmDefer (s.client n).deferNow).2 with
    | false => simp [State.wmSet_quiet _ _ hraise, State.wmPut]
    | true =>
      simp only [State.wmSet, hraise, State.when, if_true, State.keep_client]
      have h0 := fun (t : State) (a b c : Nat) (d : Option Nat) => t.notice_client (fun c => (c.wmDefer, c.deferNow, c.deferEnd)) (fun _ _ => rfl) a b c d n
      simp only [Prod.mk.injEq] at h0
      simp [h0, State.wmPut]
  case upsets =>
    intro s hlive htime hend
    obtain ⟨hpower, hready⟩ := hlive
    refine answers_on (f := upsetWindow) hpower rfl ?_
    have hclosed : upsetWindow s = (s.modFlt fun f => { f with upsetNow := 0, upsetEnd := s.now }).wmSet .upset (wmUpdate s.flt.wm s.flt.upsetNow) := by
      simp [upsetWindow, hready, htime, hend]
    rw [hclosed]
    cases hraise : (wmUpdate s.flt.wm s.flt.upsetNow).2 with
    | false => simp [State.wmSet_quiet _ _ hraise, State.wmPut, State.modFlt, State.keep]
    | true => simp [State.wmSet, hraise, State.wmPut, State.modFlt, State.keep]

end Sys2Proof.Machine

/-! PROOFS. What SMBus and PLDM commands answer (R463). -/

namespace Sys2Proof.Machine

open Sys2Proof Sys2Proof.Safety

section
variable {s : State} {completion : Nat} {data : List W32}

/-- A command that only answers on SMBus. -/
theorem run_answersBus {f : State → State} (hpower : s.power = true) (h : f s = s.answerBus completion data) :
    run f s = .next { s with out := .smbus completion data :: s.out } := by
  rw [run_on _ _ hpower, h]
  rfl

/-- A sensor of the device answers its reading. -/
theorem answerSensor_some {v : Option Nat} {x : Nat} (h : v = some x) : s.answerSensor v = s.answerBus 0 [BitVec.ofNat 32 x] := by
  rw [h, State.answerSensor]

end

/-- Settles O13: each SMBus command is one answer. -/
theorem smbusAnswers : Obligations.smbusAnswers := by
  unfold Obligations.smbusAnswers
  refine ⟨?endpoint, ?tid, ?types, ?version, ?commands, ?unsupportedType, ?repository, ?record, ?power, ?hottest, ?temperature, ?occupancy, ?upsets, ?startup, ?reason, ?unsupported⟩
  case endpoint =>
    intro eid s hpower
    show execSetEndpointId eid s = _
    rw [execSetEndpointId, run_on _ _ hpower]
    rfl
  case tid =>
    intro s hpower
    show execGetTid s = _
    exact run_answersBus hpower rfl
  case types =>
    intro s hpower
    show execGetPldmTypes s = _
    exact run_answersBus hpower rfl
  case version =>
    intro typ s hpower htyp
    show execGetPldmVersion typ s = _
    exact run_answersBus hpower (if_pos htyp)
  case commands =>
    intro typ s hpower htyp
    show execGetPldmCommands typ s = _
    exact run_answersBus hpower (if_pos htyp)
  case unsupportedType =>
    intro typ s hpower h0 h2
    have hother : ¬ (typ = 0 ∨ typ = 2) := not_or.2 ⟨h0, h2⟩
    refine ⟨?version, ?commands⟩
    · show execGetPldmVersion typ s = _
      exact run_answersBus hpower (if_neg hother)
    · show execGetPldmCommands typ s = _
      exact run_answersBus hpower (if_neg hother)
  case repository =>
    intro s hpower
    show execGetPdrRepositoryInfo s = _
    exact run_answersBus hpower rfl
  case record =>
    intro handle s hpower
    show execGetPdr handle s = _
    exact run_answersBus hpower rfl
  case power =>
    intro s hpower
    show execGetSensorReading 1 s = _
    exact run_answersBus hpower (answerSensor_some rfl)
  case hottest =>
    intro s hpower
    show execGetSensorReading 2 s = _
    exact run_answersBus hpower (answerSensor_some rfl)
  case temperature =>
    intro k s hpower hk
    have hread : s.sensor (0x100 + k) = some (tabGet 0 s.pwr.temps k) := by
      have h1 : 0x100 + k ≠ 1 := by omega
      have h2 : 0x100 + k ≠ 2 := by omega
      have hrange : 0x100 + k ≤ 0x143 := by omega
      simp only [State.sensor, h1, h2, hrange, Nat.le_add_right, Nat.add_sub_cancel_left, if_false, if_true, and_self]
    show execGetSensorReading (0x100 + k) s = _
    exact run_answersBus hpower (answerSensor_some hread)
  case occupancy =>
    intro s hpower
    show execGetSensorReading 0x200 s = _
    exact run_answersBus hpower (answerSensor_some rfl)
  case upsets =>
    intro s hpower
    show execGetSensorReading 0x201 s = _
    exact run_answersBus hpower (answerSensor_some rfl)
  case startup =>
    intro s hpower
    show execGetStateSensorReadings 0x300 s = _
    exact run_answersBus hpower (answerSensor_some rfl)
  case reason =>
    intro s hpower
    show execGetStateSensorReadings 0x301 s = _
    exact run_answersBus hpower (answerSensor_some rfl)
  case unsupported =>
    intro typ cmd s hpower
    show execUnsupportedPldmCmd typ cmd s = _
    exact run_answersBus hpower rfl

end Sys2Proof.Machine


/-! PROOFS. The stack-wide work of a wafer: loss of the lead and claims (R441, R446, R447, R453), beacons, stack time and forwarded notices (R438, R442, R443, R462). -/

namespace Sys2Proof.Machine

open Sys2Proof Sys2Proof.Safety

/-! ### Commands that take in a transaction -/

section
variable (s : State) (m : Trans)

@[simp] theorem State.takeIn_frm : (s.takeIn m).frm = s.frm := rfl
@[simp] theorem State.takeIn_stk : (s.takeIn m).stk = s.stk := rfl
@[simp] theorem State.takeIn_ntc : (s.takeIn m).ntc = s.ntc := rfl
@[simp] theorem State.takeIn_now : (s.takeIn m).now = s.now := rfl

end

/-- What a command that takes in a transaction for this wafer answers, with what holds of it. -/
theorem answers_here {c : Instr} {s : State} {m : Trans} {ok : Bool} {f : State → State} {P : State → Prop} (hp : s.power = true) (hhere : Here s m) (hok : ok = true)
    (e : exec c s = run (fun s => s.onTrans m ok f) s) (h : P (s.keep (f (s.takeIn m)))) : Answers c s P :=
  ⟨_, exec_here hp hhere hok e, h⟩

/-! ### What sending leaves -/

/-- `t` is `s` after transactions have been sent: the ports, what is outstanding and unsent, and clients may differ. -/
def State.Sent (s t : State) : Prop :=
  ∃ P C T R U, t = { s with ports := P, clients := C, stk := { s.stk with nextTid := T, requests := R, unsent := U } }

namespace State.Sent
variable {s t : State}

theorem refl (s : State) : s.Sent s := ⟨_, _, _, _, _, rfl⟩

theorem trans {u : State} (h : s.Sent t) (h' : t.Sent u) : s.Sent u := by
  obtain ⟨_, _, _, _, _, rfl⟩ := h
  obtain ⟨P, C, T, R, U, rfl⟩ := h'
  exact ⟨P, C, T, R, U, rfl⟩

theorem sendFor (h : s.Sent t) (uid : Nat) (m : Trans) : s.Sent (t.sendFor uid m) := by
  refine h.trans ?_
  unfold State.sendFor
  split <;> exact ⟨_, _, _, _, _, rfl⟩

theorem send (h : s.Sent t) (m : Trans) : s.Sent (t.send m) := h.sendFor 0 _

theorem request (h : s.Sent t) (uid : Nat) (m : Trans) : s.Sent (t.request uid m).2 :=
  (h.trans ⟨_, _, _, _, _, rfl⟩).sendFor uid _

theorem modClient (h : s.Sent t) (n : Nat) (f : Client → Client) : s.Sent (t.modClient n f) :=
  h.trans ⟨_, _, _, _, _, rfl⟩

theorem each {α : Type} (h : s.Sent t) {f : State → α → State} (hf : ∀ x a, s.Sent x → s.Sent (f x a)) (l : List α) : s.Sent (t.each l f) :=
  State.each_ind hf l t h

theorem frm (h : s.Sent t) : t.frm = s.frm := by
  obtain ⟨_, _, _, _, _, rfl⟩ := h
  rfl

theorem lead (h : s.Sent t) : t.stk.lost = s.stk.lost ∧ t.stk.lastBeacon = s.stk.lastBeacon ∧ t.stk.beacons = s.stk.beacons ∧ t.stk.counts = s.stk.counts
    ∧ t.stk.rebuilding = s.stk.rebuilding ∧ t.stk.leadTime = s.stk.leadTime := by
  obtain ⟨_, _, _, _, _, rfl⟩ := h
  exact ⟨rfl, rfl, rfl, rfl, rfl, rfl⟩

end State.Sent

/-- A command may send. -/
theorem State.keep_send {s t : State} (h : s.keep t = t) (m : Trans) : s.keep (t.send m) = t.send m := by
  obtain ⟨P, K, hsend⟩ := t.send_eq m
  rw [hsend]
  exact congrArg (fun x : State => { x with ports := P, stk := K }) h

/-- A waiting ADMIT that asks again sends. -/
theorem State.Sent.askAgain {s t : State} (h : s.Sent t) : s.Sent t.askAgain := by
  refine h.each (fun x n hx => hx.each (fun y a hy => ?_) _) _
  cases y.admitDesc n a.q a.tag with
  | none => exact hy
  | some d => exact (hy.request 0 _).modClient n _

/-! ### Elections (R446) -/

section
variable (s : State)

/-- The deputy is noted where there is one. -/
theorem State.setDeputy_eq : ∃ w, s.setDeputy = { s with frm := { s.frm with deputy := w } } := by
  unfold State.setDeputy
  split <;> exact ⟨_, rfl⟩

/-- A follower that is not the deputy notes who is. -/
theorem State.elect_other {w : Nat} (hdeputy : s.deputyOf = some w) (hother : w ≠ s.frm.waferId) : s.elect = { s with frm := { s.frm with deputy := w } } := by
  simp only [State.elect, hdeputy, State.modFrm, hother, false_and, if_false]

/-- The deputy that reaches more than half of the map claims. -/
theorem State.elect_self (hdeputy : s.deputyOf = some s.frm.waferId) (hmost : s.mapWafers.length < 2 * (s.mapWafers.filter s.reach).length) :
    s.elect = State.claim { s with frm := { s.frm with deputy := s.frm.waferId } } := by
  rw [State.elect, hdeputy]
  exact if_pos ⟨rfl, hmost⟩

/-- A wafer that has claimed leads, counts anew and starts its beacons. -/
theorem State.claim_leads : s.claim.frm.role = 1 ∧ s.claim.frm.leadId = s.frm.waferId ∧ s.claim.stk.lost = false ∧ s.claim.stk.beacons = 0 ∧ s.claim.stk.counts = []
    ∧ s.claim.stk.rebuilding ≠ none := by
  obtain ⟨w, hw⟩ := State.setDeputy_eq ((s.leaveMap s.frm.leadId).modFrm fun f => { f with role := 1, leadId := f.waferId })
  unfold State.claim
  dsimp only
  rw [hw]
  refine State.each_ind (P := fun t => t.frm.role = 1 ∧ t.frm.leadId = s.frm.waferId ∧ t.stk.lost = false ∧ t.stk.beacons = 0 ∧ t.stk.counts = [] ∧ t.stk.rebuilding ≠ none)
    (fun t a ht => ?_) _ _ ⟨rfl, rfl, rfl, rfl, rfl, nofun⟩
  have hsent := (State.Sent.refl t).request 0 { typ := tID, dst := a, len := 64, data := t.identity true }
  obtain ⟨hlost, -, hbeacons, hcounts, hrebuilding, -⟩ := hsent.lead
  rw [hsent.frm, hlost, hbeacons, hcounts, hrebuilding]
  exact ht

/-- A follower that accepts a CLAIM follows the wafer that claimed. -/
theorem State.acceptClaim_follows (w : Nat) : (s.acceptClaim w).frm.leadId = w ∧ (s.acceptClaim w).stk.lost = false ∧ (s.acceptClaim w).frm.role = s.frm.role
    ∧ (s.acceptClaim w).stk.lastBeacon = s.now ∧ (s.acceptClaim w).frm.members = s.frm.members &&& ~~~(BitVec.twoPow 16 s.frm.leadId) := by
  unfold State.acceptClaim
  dsimp only
  obtain ⟨d, hd⟩ := State.setDeputy_eq ((((s.leaveMap s.frm.leadId).modStk fun k => { k with
    lost := false, lastBeacon := (s.leaveMap s.frm.leadId).now, requests := k.requests.filter fun r => !(r.2.1 == s.frm.leadId && r.2.2.1 == 0) })).modFrm fun f => { f with leadId := w })
  rw [hd]
  have hsent := fun (t : State) m => ((State.Sent.refl t).send m).askAgain
  rw [(hsent _ _).frm, (hsent _ _).lead.1, (hsent _ _).lead.2.1]
  exact ⟨rfl, rfl, rfl, rfl, rfl⟩

/-! ### Identities (R441) -/

/-- An identity block that is taken in concerns the peers and, of a lead, the stack configuration only. -/
theorem State.learn_eq (m : Trans) : ∃ S C F, s.learn m = { s with freeCtr := C, frm := { s.frm with stack := F }, stk := { s.stk with peers := S } } := by
  unfold State.learn
  split
  · exact ⟨_, _, _, rfl⟩
  · dsimp only
    split <;> exact ⟨_, _, _, rfl⟩

/-- The identity of a wafer that does not lead is noted. -/
theorem State.learn_follower {m : Trans} (hlen : m.data.length = 64) (hver : leVal (m.data.take 2) = 1) (hlead : (peerOf m.data).lead = false) :
    s.learn m = s.modStk fun k => { k with peers := tabPut k.peers (leVal ((m.data.drop 3).take 1)) (peerOf m.data) } := by
  simp [State.learn, hlen, hver, hlead]

/-- Of a lead the stack configuration is taken over where it differs. -/
theorem State.learn_lead {m : Trans} (hlen : m.data.length = 64) (hver : leVal (m.data.take 2) = 1) (hlead : (peerOf m.data).lead = true) (hkind : (peerOf m.data).kindEp = 0)
    (hfollows : (s.modStk fun k => { k with peers := tabPut k.peers (leVal ((m.data.drop 3).take 1)) (peerOf m.data) }).leading = false) :
    (s.learn m).frm.stack.crc = (peerOf m.data).cfgCrc := by
  simp only [State.learn, hlen, hver, ne_eq, not_true_eq_false, or_self, if_false, hlead, hkind, hfollows]
  by_cases hcrc : (peerOf m.data).cfgCrc = s.frm.stack.crc
  · simp [hcrc, State.modStk]
  · simp [hcrc, State.modStk, State.modFrm]

/-- The answer to an identity leaves the wafer's place in the stack as it is. -/
theorem State.learn_send (m r : Trans) : ((s.learn m).send r).frm.role = s.frm.role ∧ ((s.learn m).send r).frm.leadId = s.frm.leadId ∧ ((s.learn m).send r).frm.deputy = s.frm.deputy
    ∧ ((s.learn m).send r).frm.members = s.frm.members ∧ ((s.learn m).send r).stk.lost = s.stk.lost ∧ ((s.learn m).send r).now = s.now := by
  obtain ⟨_, _, _, hlearn⟩ := s.learn_eq m
  rw [hlearn]
  obtain ⟨_, _, _, _, _, hsent⟩ := (State.Sent.refl _).send r
  rw [hsent]
  exact ⟨rfl, rfl, rfl, rfl, rfl, rfl⟩

/-- A lead's identity that is noted makes no wafer lead. -/
theorem State.learned_leading {k : Nat} {p : Peer} (hlead : p.lead = true) (hkind : p.kindEp = 0) (h : s.leading = false) :
    (s.modStk fun x => { x with peers := tabPut x.peers k p }).leading = false := by
  have hseen : s.leadSeen.isSome = true → (s.modStk fun x => { x with peers := tabPut x.peers k p }).leadSeen.isSome = true := by
    cases htime : s.stk.leadTime.isSome with
    | true => simp [State.leadSeen, State.modStk, htime]
    | false =>
      simp only [State.leadSeen, State.modStk, htime, Bool.false_eq_true, if_false, Option.isSome_map, List.find?_isSome]
      rintro ⟨q, hq, hpred⟩
      rcases mem_tabPut_or (d := {}) (t := s.stk.peers) (i := k) (x := p) hq with hmem | hold
      · exact ⟨q, hmem, hpred⟩
      · have hkey : q.1 = k := congrArg Prod.fst hold
        exact ⟨(k, p), mem_tabPut_self _ _ _, by simpa [hlead, hkind, hkey] using (Bool.and_eq_true_iff.1 hpred).2⟩
  have hisLead : (s.modStk fun x => { x with peers := tabPut x.peers k p }).isLead = s.isLead := rfl
  have hfrm : (s.modStk fun x => { x with peers := tabPut x.peers k p }).frm = s.frm := rfl
  rw [State.leading, hisLead, hfrm]
  rw [State.leading] at h
  cases hnone : s.leadSeen with
  | none => simp_all
  | some l =>
    obtain ⟨l', hl'⟩ := Option.isSome_iff_exists.1 (hseen (by rw [hnone]; rfl))
    simp_all

end

/-! ### The obligations -/

/-- Settles O38: a follower that loses its lead computes the deputy, which alone claims and is followed. -/
theorem leadership : Obligations.leadership := by
  unfold Obligations.leadership
  refine ⟨?loses, ?claims, ?leaves, ?identified, ?accepts, ?answered, ?configured⟩
  case loses =>
    intro w s hpower hrole hlost hdue hdeputy hother
    refine exec_on hpower rfl ?_
    have hdeputy' : (s.modStk fun k => { k with lost := true, claimSince := s.now }).deputyOf = some w := hdeputy
    rw [leadLossTimeout, if_neg (by simp [hrole, hlost, hdue]), State.elect_other _ hdeputy' hother]
    rfl
  case claims =>
    intro s hpower hrole hlost hdue hdeputy hmost
    have hdeputy' : (s.modStk fun k => { k with lost := true, claimSince := s.now }).deputyOf = some s.frm.waferId := hdeputy
    refine answers_on hpower rfl ?_
    rw [leadLossTimeout, if_neg (by simp [hrole, hlost, hdue]), State.elect_self _ hdeputy' hmost]
    exact State.claim_leads _
  case leaves =>
    intro w s hpower hrole hlost hdue hself hdeputy hother
    have hdeputy' : ((s.modStk fun k => { k with claimSince := s.now }).leaveMap s.frm.deputy).deputyOf = some w := hdeputy
    have hleft : claimTimeout s = ((s.modStk fun k => { k with claimSince := s.now }).leaveMap s.frm.deputy).elect := by
      rw [claimTimeout, if_neg (by simp [hrole, hlost, hdue])]
      exact congrArg State.elect (if_neg hself)
    refine answers_on hpower rfl ?_
    rw [hleft, State.elect_other _ hdeputy' hother]
    exact ⟨rfl, rfl, hrole, hlost, rfl⟩
  case identified =>
    intro m s hpower hhere htyp hresp hlen hver hlead hignored
    rw [exec_here hpower hhere (by simp [htyp, hresp]) rfl]
    dsimp only
    rw [if_neg]
    · rw [State.learn_follower _ hlen hver hlead]
      exact congrArg _ (State.keep_send rfl _)
    · obtain ⟨hrole, -, hdeputy, -, hlost, -⟩ := (s.takeIn m).learn_send m (transReply m 0 (((s.takeIn m).learn m).identity false))
      rw [hrole, hdeputy, hlost]
      rcases hignored with h | h | h | h
      · simp [h]
      · simp [h]
      · simp [h]
      · simp [h]
  case accepts =>
    intro m s hpower hhere htyp hresp hclaim hrole hlost hsrc
    refine answers_here hpower hhere (by simp [htyp, hresp]) rfl ?_
    dsimp only
    obtain ⟨hrole', hlead', hdeputy', hmembers', hlost', hnow'⟩ := (s.takeIn m).learn_send m (transReply m 0 (((s.takeIn m).learn m).identity false))
    rw [hrole', hdeputy', hlost', if_pos (by simp [hclaim, hrole, hlost, hsrc])]
    generalize ((s.takeIn m).learn m).send (transReply m 0 (((s.takeIn m).learn m).identity false)) = t at *
    obtain ⟨hlead, hfound, hfollower, hbeacon, hmembers⟩ := t.acceptClaim_follows m.src
    generalize t.acceptClaim m.src = x at *
    rw [hlead', hmembers'] at hmembers
    exact ⟨hlead, hfound, hfollower.trans (hrole'.trans hrole), hbeacon.trans hnow', hmembers⟩
  case answered =>
    intro m s hpower hhere htyp hresp hawaited hlen hver hlead
    have hawaited' : (s.takeIn m).awaited m ≠ none := hawaited
    rw [exec_here hpower hhere (by simp [htyp, hresp]) rfl, if_neg (by simpa using hawaited'), State.learn_follower _ hlen hver hlead]
    rfl
  case configured =>
    intro m s hpower hhere htyp hresp hawaited hlen hver hlead hkind hleading
    have hawaited' : (s.takeIn m).awaited m ≠ none := hawaited
    have hleading' : ((s.takeIn m).answered m).leading = false := hleading
    refine answers_here hpower hhere (by simp [htyp, hresp]) rfl ?_
    rw [if_neg (by simpa using hawaited')]
    exact State.learn_lead _ hlen hver hlead hkind (State.learned_leading _ hlead hkind hleading')

/-- Settles O39: a follower that is not the deputy only notes who is, and a CLAIM of another wafer is no more than its identity. -/
theorem claimOnlyByDeputy : Obligations.claimOnlyByDeputy := by
  unfold Obligations.claimOnlyByDeputy
  refine ⟨?loses, ?ignores⟩
  case loses =>
    intro w s hpower hrole hdeputy hother
    have hdeputy' : (s.modStk fun k => { k with lost := true, claimSince := s.now }).deputyOf = some w := hdeputy
    refine answers_on hpower rfl ?_
    rw [leadLossTimeout]
    split
    · exact ⟨hrole, rfl, rfl, rfl⟩
    · rw [State.elect_other _ hdeputy' hother]
      exact ⟨hrole, rfl, rfl, rfl⟩
  case ignores =>
    intro m s hpower hrole hlost hhere htyp hresp hclaim hsrc
    refine answers_here hpower hhere (by simp [htyp, hresp]) rfl ?_
    dsimp only
    obtain ⟨hrole', hlead', hdeputy', -, hlost', -⟩ := (s.takeIn m).learn_send m (transReply m 0 (((s.takeIn m).learn m).identity false))
    rw [hdeputy', if_neg (by simp [hsrc])]
    exact ⟨hlead', hrole'.trans hrole, hlost'.trans hlost⟩

end Sys2Proof.Machine

/-! PROOFS. Beacons, stack time and forwarded notices (R438, R442, R443, R462). -/

namespace Sys2Proof.Machine

open Sys2Proof Sys2Proof.Safety

/-! ### Beacons (R442, R443) -/

section
variable (s : State)

/-- The state in which the lead sends a beacon: the map has every wafer that has joined, and the beacon is counted. -/
def State.beaconCounted : State :=
  { s with frm := { s.frm with members := s.frm.members ||| s.memberMap }, stk := { s.stk with lastBeacon := s.now, beacons := (s.stk.beacons + 1) % 2 ^ 32 } }

theorem leadBeaconSend_due {s : State} (hleading : s.leading = true) (hdue : s.stk.lastBeacon = 0 ∨ s.stk.lastBeacon + 100000 ≤ s.now) :
    leadBeaconSend s = s.beaconCounted.each s.beaconTo fun t e =>
      t.send { typ := tTIME, dst := e, len := 16, arg := BitVec.ofNat 64 t.now, data := s.beaconCounted.beaconData } := by
  rw [leadBeaconSend, if_neg]
  · rfl
  · rcases hdue with h | h
    · simp [hleading, h]
    · simp [hleading, Nat.not_lt.2 h]

/-- A wafer with a route sends at once. -/
theorem State.send_routed {s : State} {m : Trans} {p : Nat} (hroute : s.route m.dst = some p) : s.send m = s.sendOn p { m with src := s.frm.waferId } := by
  simp only [State.send, State.sendFor, hroute]

theorem List.getD_set_self {α : Type} (l : List α) (i : Nat) (x d : α) : (l.set i x).getD i d = if i < l.length then x else l.getD i d := by
  by_cases h : i < l.length
  · simp [h]
  · simp [h, List.set_eq_of_length_le (Nat.not_lt.1 h)]

/-- What is sent on a port waits behind what its virtual channel holds. -/
theorem State.sendOn_vcQ (p : Nat) (m : Trans) : ((s.sendOn p m).port p).vcQ.getD (transVc m) [] = (s.port p).vcQ.getD (transVc m) []
    ++ if transVc m < (s.port p).vcQ.length then transChunks m else [] := by
  rw [State.sendOn, State.modPort_self]
  simp only [List.getD_set_self]
  split <;> simp

/-- A beacon that is taken in. -/
theorem State.beaconIn_eq (m : Trans) : ∃ d, s.beaconIn m = { s with
    frm := { s.frm with members := BitVec.ofNat 16 (leVal (m.data.take 2)), leadId := m.src, deputy := d }
    stk := { s.stk with lastBeacon := s.now, lost := false, leadTime := some (m.arg.toNat, s.now) } } := by
  unfold State.beaconIn
  obtain ⟨d, hd⟩ := State.setDeputy_eq ((s.modFrm fun f => { f with members := BitVec.ofNat 16 (leVal (m.data.take 2)), leadId := m.src }).modStk fun k => { k with
    lastBeacon := s.now, lost := false, leadTime := some (m.arg.toNat, s.now) })
  exact ⟨d, hd⟩

/-- A request is outstanding. -/
theorem State.request_requests (uid : Nat) (m : Trans) : (s.request uid m).2.stk.requests = s.stk.requests ++ [(s.stk.nextTid, m.dst, uid, s.route m.dst)] := by
  unfold State.request State.sendFor
  dsimp only
  split <;> rfl

end

/-- A request that has a route leaves at once. -/
theorem State.request_routed {s : State} {uid p : Nat} {m : Trans} (hroute : s.route m.dst = some p) : (s.request uid m).2
    = (s.modStk fun k => { k with nextTid := (s.stk.nextTid + 1) % 2 ^ 32, requests := k.requests ++ [(s.stk.nextTid, m.dst, uid, some p)] }).sendOn p
      { m with src := s.frm.waferId, tid := BitVec.ofNat 32 s.stk.nextTid } := by
  have hroute' : ∀ K : Stack, State.route { s with stk := K } m.dst = some p := fun _ => hroute
  simp only [State.request, State.sendFor, State.modStk, hroute, hroute']

/-! ### Vector-4 messages (R461) -/

theorem State.msix4_unrouted {s : State} (hroute : s.ntc.route = 0) : s.msix4 = s := by
  simp [State.msix4, hroute, bit]

theorem State.msix4_first {s : State} (hroute : s.ntc.route = 1) : s.msix4 = s.msix 0 4 := by
  have h1 : Nat.testBit 1 1 = false := by decide
  have h2 : Nat.testBit 1 2 = false := by decide
  have h3 : Nat.testBit 1 3 = false := by decide
  simp [State.msix4, hroute, bit, State.when, h1, h2, h3]

/-! ### The obligation -/

/-- Settles O40: beacons go out and are taken in, a follower's time request is answered and its offset slewed away, and notices go to the lead. -/
theorem stackTimeAndNotices : Obligations.stackTimeAndNotices := by
  unfold Obligations.stackTimeAndNotices
  refine ⟨?counted, ?carries, ?follows, ?joins, ?asks, ?answers, ?slews, ?logs, ?signals, ?forwards, ?waits⟩
  case counted =>
    intro s hpower hleading hdue
    refine answers_on hpower rfl ?_
    rw [leadBeaconSend_due hleading hdue]
    have hsent := (State.Sent.refl s.beaconCounted).each (f := fun t e => t.send { typ := tTIME, dst := e, len := 16, arg := BitVec.ofNat 64 t.now, data := s.beaconCounted.beaconData })
      (fun x a hx => hx.send _) s.beaconTo
    obtain ⟨_, _, _, _, _, heq⟩ := hsent
    rw [heq]
    exact ⟨rfl, rfl, rfl⟩
  case carries =>
    intro e p s hpower hleading hdue hto hroute
    have hroute' : s.beaconCounted.route e = some p := hroute
    refine answers_on hpower rfl ?_
    rw [leadBeaconSend_due hleading hdue, hto, State.each_cons, State.each_nil, State.send_routed hroute']
    exact State.sendOn_vcQ s.beaconCounted p _
  case follows =>
    intro m s hpower hhere htyp hresp hlen hsrc hrole hlead
    refine answers_here hpower hhere (by simp [htyp, hresp, hlen]) rfl ?_
    obtain ⟨d, hin⟩ := (s.takeIn m).beaconIn_eq m
    have hreceive : timeBeaconReceive m (s.takeIn m) = (s.takeIn m).beaconIn m := by
      simp [timeBeaconReceive, Nat.not_le.2 (hlead ▸ hsrc), hrole, hlead]
    rw [hreceive, hin]
    exact ⟨rfl, rfl, rfl, rfl, rfl, rfl⟩
  case joins =>
    intro m s hpower hhere htyp hresp hlen hsrc hstate hrole htime
    refine answers_here hpower hhere (by simp [htyp, hresp, hlen]) rfl ?_
    obtain ⟨d, hin⟩ := (s.takeIn m).beaconIn_eq m
    have hreceive : timeBeaconReceive m (s.takeIn m)
        = (((s.takeIn m).beaconIn m).request 0 { typ := tID, dst := m.src, len := 64, data := ((s.takeIn m).beaconIn m).identity false }).2 := by
      simp [timeBeaconReceive, Nat.not_le.2 hsrc, hstate, hrole, htime]
    have hsent := (State.Sent.refl ((s.takeIn m).beaconIn m)).request 0 { typ := tID, dst := m.src, len := 64, data := ((s.takeIn m).beaconIn m).identity false }
    have hrequests := ((s.takeIn m).beaconIn m).request_requests 0 { typ := tID, dst := m.src, len := 64, data := ((s.takeIn m).beaconIn m).identity false }
    obtain ⟨-, -, -, -, -, hlead⟩ := hsent.lead
    rw [hreceive]
    refine ⟨(congrArg Frm.leadId hsent.frm).trans ?_, hlead.trans ?_, ?_⟩
    · rw [hin]
    · rw [hin]; rfl
    · have hkept : ∀ t : State, (s.keep t).stk = t.stk := fun _ => rfl
      rw [hkept, hrequests, hin]
      simp
  case asks =>
    intro e p s hpower hrole hdue hnearer hroute
    refine exec_on hpower rfl ?_
    rw [timeSyncSend, if_neg (by simp [hrole, hdue]), hnearer]
    dsimp only
    rw [State.request_routed (m := { typ := tTIME, dst := e, arg := BitVec.ofNat 64 s.now }) hroute]
    rfl
  case answers =>
    intro m s hpower hhere htyp hresp hlen hsrc
    rw [exec_here hpower hhere (by simp [htyp, hresp, hlen]) rfl, if_neg (Nat.not_le.2 hsrc)]
    exact congrArg _ (State.keep_send rfl _)
  case slews =>
    intro m s hpower hhere htyp hresp hstatus hawaited hsync
    have hawaited' : (s.takeIn m).awaited m ≠ none := hawaited
    refine answers_here hpower hhere (by simp [htyp, hresp]) rfl ?_
    rw [timeSyncReply]
    dsimp only
    rw [if_neg (by simpa using hawaited'), if_neg (by simp [hsync, hstatus])]
    exact ⟨rfl, rfl, rfl, rfl⟩
  case logs =>
    intro m s hpower hhere htyp hresp hrole hroute
    rw [exec_here hpower hhere (by simp [htyp, hresp]) rfl]
    dsimp only
    rw [if_neg (show ¬ (s.takeIn m).frm.role = 2 from hrole), State.msix4_unrouted (s := (s.takeIn m).ntcWrite _) hroute]
    rfl
  case signals =>
    intro m s hpower hhere htyp hresp hrole hroute hmask hfunc hdma
    refine answers_here hpower hhere (by simp [htyp, hresp]) rfl ?_
    dsimp only
    rw [if_neg (show ¬ (s.takeIn m).frm.role = 2 from hrole), State.msix4_first (s := (s.takeIn m).ntcWrite _) hroute, State.msix_sent (s := (s.takeIn m).ntcWrite _) hmask hfunc hdma]
    exact ⟨rfl, rfl⟩
  case forwards =>
    intro e r s hpower hqueue hrole hlost
    refine exec_on hpower rfl ?_
    rw [noticeForward, hqueue]
    dsimp only
    rw [if_neg (by simp [hrole, hlost])]
    exact State.keep_send rfl _
  case waits =>
    intro s hpower hlost
    refine exec_on hpower rfl ?_
    unfold noticeForward
    split
    · rfl
    · rw [if_pos (.inr hlost)]
      rfl

end Sys2Proof.Machine


/-! PROOFS. Remote reads and writes: what an access that arrives does here, and what its answer does to the unit that waits for it (R46, R202, R433 to R435, R439). -/

namespace Sys2Proof.Machine

open Sys2Proof Sys2Proof.Safety

/-! ### Accesses that need not wait (R372, R448) -/

section
variable {s : State} {m : Trans} {a o : Nat}

theorem State.targetWaits_hbm (htarget : s.target m = .hbm a) (hwaits : s.hbmWaits a m.len = false) : s.targetWaits m = false := by
  simp [State.targetWaits, htarget, hwaits]

theorem State.targetWaits_vat (htarget : s.target m = .vat a o) (hwaits : (s.partOfTile a).any s.flipWaits = false) : s.targetWaits m = false := by
  simp [State.targetWaits, htarget, hwaits]

theorem State.targetWaits_refused (htarget : s.target m = .refused) : s.targetWaits m = false := by
  simp [State.targetWaits, htarget]

theorem State.targetWaits_elsewhere (hdst : m.dst ≠ s.frm.waferId) : s.targetWaits m = false := by
  simp [State.targetWaits, hdst]

end

/-! ### Reads and writes (R434, R435) -/

section
variable {s : State} {m : Trans} {a o : Nat}

theorem State.keep_hbmWrite (a : Nat) (bs : List Byte) : s.keep ((s.takeIn m).hbmWrite a bs) = (s.takeIn m).hbmWrite a bs := by
  unfold State.hbmWrite
  dsimp only
  split <;> rfl

/-- A read for this wafer answers the bytes that it finds. -/
theorem exec_rd {bs : List Byte} (hpower : s.power = true) (hhere : Here s m) (htyp : m.typ = 1) (hresp : m.resp = false) (hwaits : s.targetWaits m = false)
    (hread : s.remoteRead m = some bs) : exec (.rd m) s = .next ((s.takeIn m).send (transReply m 0 bs)) := by
  have hread' : (s.takeIn m).remoteRead m = some bs := hread
  rw [exec_here (ok := m.typ == tRD && !m.resp && !s.targetWaits m) hpower hhere (by simp [htyp, hresp, hwaits]) rfl, hread']
  exact congrArg _ (State.keep_send rfl _)

/-- A read for this wafer that finds none is refused. -/
theorem exec_rd_refused (hpower : s.power = true) (hhere : Here s m) (htyp : m.typ = 1) (hresp : m.resp = false) (hwaits : s.targetWaits m = false)
    (hread : s.remoteRead m = none) : exec (.rd m) s = .next ((s.takeIn m).send (transReply m 1 [])) := by
  have hread' : (s.takeIn m).remoteRead m = none := hread
  rw [exec_here (ok := m.typ == tRD && !m.resp && !s.targetWaits m) hpower hhere (by simp [htyp, hresp, hwaits]) rfl, hread']
  exact congrArg _ (State.keep_send rfl _)

/-- A transaction for another wafer goes on towards it. -/
theorem State.onTrans_passed {p : Nat} {ok : Bool} (hok : ok = true) (hfirst : s.firstIn m = true) (hdst : m.dst ≠ s.frm.waferId) (hroute : s.route m.dst = some p) (f : State → State) :
    s.onTrans m ok f = (s.takeIn m).sendOn p m := by
  rw [State.onTrans, if_neg (by simp [hok, hfirst]), if_pos hdst, hroute]

/-- A write for this wafer that is let through is acknowledged. -/
theorem exec_wr {t : State} (hpower : s.power = true) (hhere : Here s m) (htyp : m.typ = 2) (hresp : m.resp = false) (hwaits : s.targetWaits m = false)
    (hwrite : (s.takeIn m).remoteWrite m = some t) (hkeep : s.keep t = t) : exec (.wr m) s = .next (t.send (transReply m 0 [])) := by
  rw [exec_here (ok := m.typ == tWR && !m.resp && !s.targetWaits m) hpower hhere (by simp [htyp, hresp, hwaits]) rfl, hwrite]
  exact congrArg _ (State.keep_send hkeep _)

/-- A posted write for this wafer is carried out, or dropped where it is refused. -/
theorem exec_wrp (hpower : s.power = true) (hhere : Here s m) (htyp : m.typ = 3) (hwaits : s.targetWaits m = false) (hfabric : isFabric m = false) :
    exec (.wrp m) s = .next (s.keep (((s.takeIn m).remoteWrite m).getD (s.takeIn m))) := by
  rw [exec_here (ok := m.typ == tWRP && !s.targetWaits m) hpower hhere (by simp [htyp, hwaits]) rfl, if_neg (by simp [hfabric])]

end

/-! ### Answers (R46, R142, R202) -/

section
variable {s : State} {m : Trans} {u : CUnit}

/-- An answer reaches the unit that awaits it. -/
theorem State.onAnswer_awaited (hawaits : Awaits s m u) (f : State → CUnit → State) : (s.takeIn m).onAnswer m f = f ((s.takeIn m).answered m) u := by
  obtain ⟨hawaited, hunit⟩ := hawaits
  have hawaited' : (s.takeIn m).awaited m = some u.id := hawaited
  have hunit' : (s.takeIn m).unit? u.id = some u := hunit
  simp only [State.onAnswer, hawaited', hunit']

/-- A run of unit `uid` whose long word stalls for the read `tid` takes its data. -/
def TileRun.takeData (r : TileRun) (uid tid : Nat) (data : List Byte) : TileRun :=
  match r.stall with
  | some (.remote (.wafer k) n none since) => if r.unit = uid ∧ k = tid then { r with stall := some (.remote (.wafer k) n (some data) since) } else r
  | _ => r

theorem TileRun.takeData_stalled {r : TileRun} {uid tid n since : Nat} (hunit : r.unit = uid) (hstall : r.stall = some (.remote (.wafer tid) n none since)) (data : List Byte) :
    r.takeData uid tid data = { r with stall := some (.remote (.wafer tid) n (some data) since) } := by
  simp only [TileRun.takeData, hstall, hunit, and_self, if_true]

/-- Data that no drain and no operand waits for goes to the long words that stall for it. -/
theorem State.readArrives_stalls {tid : Nat} (hmerge : ∀ x ∈ u.waitMerge, x.1 ≠ tid) (hread : ∀ x ∈ u.waitRd, x.1 ≠ tid) (data : List Byte) :
    s.readArrives u tid data = s.each u.allTiles fun s a => s.modRun a fun r => r.takeData u.id tid data := by
  have hm : (u.waitMerge.find? fun x => x.1 == tid) = none := List.find?_eq_none.2 fun x hx => by simpa using hmerge x hx
  have hr : (u.waitRd.find? fun x => x.1 == tid) = none := List.find?_eq_none.2 fun x hx => by simpa using hread x hx
  rw [State.readArrives, hm, hr]
  rfl

end

/-- A fabric write's result in flight. -/
theorem fabricBody_result {bs : List Byte} (h : leVal (bs.take 1) = 2) : fabricBody bs = .result (leVal ((bs.drop 4).take 4)) := by
  simp [fabricBody, h]

/-- Settles O34: an access that need not wait is judged by its target, and its answer reaches the unit that awaits it. -/
theorem remoteAccesses : Obligations.remoteAccesses := by
  unfold Obligations.remoteAccesses
  refine ⟨?readHbm, ?readVat, ?readRefused, ?passedOn, ?arrives, ?ends, ?ended, ?writeHbm, ?writeVat, ?writeRefused, ?acknowledged, ?postedHbm, ?postedRefused, ?fabric⟩
  case readHbm =>
    intro m a s hpower hhere htyp hresp htarget hwaits
    exact exec_rd hpower hhere htyp hresp (State.targetWaits_hbm htarget hwaits) (by rw [State.remoteRead, htarget])
  case readVat =>
    intro m a o s hpower hhere htyp hresp htarget hwaits
    exact exec_rd hpower hhere htyp hresp (State.targetWaits_vat htarget hwaits) (by rw [State.remoteRead, htarget])
  case readRefused =>
    intro m s hpower hhere htyp hresp htarget
    exact exec_rd_refused hpower hhere htyp hresp (State.targetWaits_refused htarget) (by rw [State.remoteRead, htarget])
  case passedOn =>
    intro m p s hpower hfirst hdst htyp hresp hroute
    show execRd m s = _
    rw [execRd, run_on _ _ hpower, State.onTrans_passed (by simp [htyp, hresp, State.targetWaits_elsewhere hdst]) hfirst hdst hroute]
    rfl
  case arrives =>
    intro m a k since r u s hpower hhere htyp hresp hstatus hawaits hmerge hread htiles hrun hunit hstall
    refine answers_here hpower hhere (by simp [htyp, hresp]) rfl ?_
    rw [State.onAnswer_awaited hawaits, if_neg (by simp [hstatus]), State.readArrives_stalls hmerge hread, htiles, State.each_cons, State.each_nil]
    refine ⟨?_, rfl⟩
    have hrun' : (((s.takeIn m).answered m).tile a).run = some r := hrun
    rw [State.keep_tile, State.modRun_run _ _ hrun', TileRun.takeData_stalled hunit hstall]
  case ends =>
    intro m u s hpower hhere htyp hresp hstatus hawaits hphase
    refine answers_here hpower hhere (by simp [htyp, hresp]) rfl ?_
    obtain ⟨-, hunit⟩ := id hawaits
    rw [State.onAnswer_awaited hawaits, if_pos hstatus, State.readRefused, if_neg hphase]
    obtain ⟨⟨hgone, -⟩, -⟩ := State.faultUnit_ended ((s.takeIn m).answered m) u cACCESS (r := u.id) hunit hphase
    exact hgone
  case ended =>
    intro m u s hpower hhere htyp hresp hstatus hawaits hphase
    rw [exec_here hpower hhere (by simp [htyp, hresp]) rfl, State.onAnswer_awaited hawaits, if_pos hstatus, State.readRefused, if_pos hphase]
    rfl
  case writeHbm =>
    intro m a s hpower hhere htyp hresp htarget hwaits
    have htarget' : (s.takeIn m).target m = .hbm a := htarget
    exact exec_wr hpower hhere htyp hresp (State.targetWaits_hbm htarget hwaits) (by rw [State.remoteWrite, htarget']) (State.keep_hbmWrite a _)
  case writeVat =>
    intro m a o s hpower hhere htyp hresp htarget hwaits
    have htarget' : (s.takeIn m).target m = .vat a o := htarget
    exact exec_wr hpower hhere htyp hresp (State.targetWaits_vat htarget hwaits) (by rw [State.remoteWrite, htarget']) rfl
  case writeRefused =>
    intro m s hpower hhere htyp hresp htarget
    have htarget' : (s.takeIn m).target m = .refused := htarget
    rw [exec_here (ok := m.typ == tWR && !m.resp && !s.targetWaits m) hpower hhere (by simp [htyp, hresp, State.targetWaits_refused htarget]) rfl, State.remoteWrite, htarget']
    exact congrArg _ (State.keep_send rfl _)
  case acknowledged =>
    intro m u s hpower hhere htyp hresp hawaits
    rw [exec_here hpower hhere (by simp [htyp, hresp]) rfl, State.onAnswer_awaited hawaits]
    rfl
  case postedHbm =>
    intro m a s hpower hhere htyp htarget hfabric hwaits
    have htarget' : (s.takeIn m).target m = .hbm a := htarget
    rw [exec_wrp hpower hhere htyp (State.targetWaits_hbm htarget hwaits) hfabric, State.remoteWrite, htarget']
    exact congrArg _ (State.keep_hbmWrite a _)
  case postedRefused =>
    intro m s hpower hhere htyp htarget hfabric
    have htarget' : (s.takeIn m).target m = .refused := htarget
    rw [exec_wrp hpower hhere htyp (State.targetWaits_refused htarget) hfabric, State.remoteWrite, htarget']
    rfl
  case fabric =>
    intro m u d s hpower hhere htyp htarget hfabric hunit hfirst htiles htile hbody
    have hunit' : (s.takeIn m).fabricUnit m = some u := hunit
    rw [exec_here (ok := m.typ == tWRP && !s.targetWaits m) hpower hhere (by simp [htyp, State.targetWaits_refused htarget]) rfl, if_pos hfabric]
    simp only [State.fabricIn, hunit', htile, fabricBody_result hbody, State.fabricTo, hfirst, htiles, Nat.le_refl, if_true, Nat.sub_self, List.getElem?_cons_zero]
    rfl

end Sys2Proof.Machine


/-! PROOFS. HANDOFFs for a stage slot of this wafer (R449, R450). -/

namespace Sys2Proof.Machine

open Sys2Proof Sys2Proof.Safety

/-- The answer to a HANDOFF that starts no unit. -/
def handoffNo (m : Trans) (status : Nat) : Trans := { typ := tHANDBACK, dst := m.src, tid := m.tid, client := m.client, status := status }

/-- Bytes of operand `i` that a HANDOFF for a template carries, whose record image is `img`. -/
def operandSize (d : BitVec 512) (i : Nat) (img : List Byte) : Nat := if dHandle d i = 0 then 0 else (parseRec (leVal img)).bytes

section
variable {s : State} {m : Trans}

theorem exec_handoffTransaction (hpower : s.power = true) (hhere : Here s m) (htyp : m.typ = 5) :
    exec (.handoffTransaction m) s = .next (s.keep (handoffIn m (s.takeIn m))) :=
  exec_here hpower hhere (by simp [htyp]) rfl

theorem exec_handoffNo {status : Nat} (hpower : s.power = true) (hhere : Here s m) (htyp : m.typ = 5) (h : handoffIn m (s.takeIn m) = (s.takeIn m).send (handoffNo m status)) :
    exec (.handoffTransaction m) s = .next ((s.takeIn m).send (handoffNo m status)) := by
  rw [exec_handoffTransaction hpower hhere htyp, h, State.keep_send rfl]

/-- Operands that do not fit the template are answered so. -/
theorem handoffIn_badOperand {x : StageSlot} (hsrc : m.src < 16) (hslot : s.stageSlot (bits m.addr.toNat 5 0) = x) (hen : x.en = true)
    (hbad : dKind x.template ≠ kOP ∨ s.stageMatch x.client (dHandle x.template 0) (m.data.take 64) = false ∨ s.stageMatch x.client (dHandle x.template 1) ((m.data.drop 64).take 64) = false) :
    handoffIn m s = s.send (handoffNo m 4) := by
  subst hslot
  rw [handoffIn, if_neg (Nat.not_le.2 hsrc), if_neg (by simp [hen])]
  refine if_pos ?_
  rcases hbad with h | h | h
  · exact .inl h
  · exact .inr (.inl (by simpa using h))
  · exact .inr (.inr (.inl (by simpa using h)))

/-- Operands that fit the template make a unit of the slot's client, which will answer. -/
theorem handoffIn_accepted {x : StageSlot} (hsrc : m.src < 16) (hslot : s.stageSlot (bits m.addr.toNat 5 0) = x) (hen : x.en = true) (hkind : dKind x.template = kOP)
    (h0 : s.stageMatch x.client (dHandle x.template 0) (m.data.take 64) = true) (h1 : s.stageMatch x.client (dHandle x.template 1) ((m.data.drop 64).take 64) = true)
    (hlen : m.data.length = 192 + operandSize x.template 0 (m.data.take 64) + operandSize x.template 1 ((m.data.drop 64).take 64)) (hcodes : s.templateCodes x.client x.template = []) :
    ∃ u, handoffIn m s = { s with units := s.units ++ [u], nextUnit := s.nextUnit + 1 } ∧ u.id = s.nextUnit ∧ u.phase = .killed ∧ u.kind = kOP ∧ u.client = x.client
      ∧ u.answers = some (m.src, m.tid.toNat) := by
  subst hslot
  have hcodes' : ∀ U N, State.templateCodes { s with units := U, nextUnit := N } (s.stageSlot (bits m.addr.toNat 5 0)).client (s.stageSlot (bits m.addr.toNat 5 0)).template = [] := fun _ _ => hcodes
  rw [handoffIn, if_neg (Nat.not_le.2 hsrc), if_neg (by simp [hen])]
  dsimp only
  rw [if_neg (by rw [operandSize, operandSize] at hlen; simp [hkind, h0, h1, hlen]), hcodes']
  exact ⟨_, rfl, rfl, rfl, hkind, rfl, rfl⟩

end

/-- Settles O42: a HANDOFF becomes a unit where its slot is enabled and its operands fit, and is answered otherwise. -/
theorem handoffsReceived : Obligations.handoffsReceived := by
  unfold Obligations.handoffsReceived
  refine ⟨?partner, ?disabled, ?badOperand, ?accepted⟩
  case partner =>
    intro m s hpower hhere htyp hsrc
    exact exec_handoffNo hpower hhere htyp (if_pos hsrc)
  case disabled =>
    intro m s hpower hhere htyp hsrc hen
    have hen' : ((s.takeIn m).stageSlot (bits m.addr.toNat 5 0)).en = false := hen
    refine exec_handoffNo hpower hhere htyp ?_
    rw [handoffIn, if_neg (Nat.not_le.2 hsrc)]
    exact if_pos (by simp [hen'])
  case badOperand =>
    intro m x s hpower hhere htyp hsrc hslot hen hbad
    exact exec_handoffNo hpower hhere htyp (handoffIn_badOperand hsrc hslot hen hbad)
  case accepted =>
    intro m x s hpower hhere htyp hsrc hslot hen hkind h0 h1 hlen hcodes
    obtain ⟨u, hin, hid, hphase, hukind, hclient, hanswers⟩ := handoffIn_accepted (s := s.takeIn m) hsrc hslot hen hkind h0 h1 hlen hcodes
    refine ⟨_, exec_handoffTransaction hpower hhere htyp, ?_⟩
    rw [hin]
    exact ⟨rfl, u, rfl, hid, hphase, hukind, hclient, hanswers⟩

end Sys2Proof.Machine

/-! PROOFS. Forwarded descriptors and members (R436, R437, R448). -/

namespace Sys2Proof.Machine

open Sys2Proof Sys2Proof.Safety

/-- Home partition, entry word and descriptor of a DESC_FWD. -/
def fwdPart (m : Trans) : Nat := leVal (((m.data.drop 64).drop 8).take 1) % 64
def fwdWord (m : Trans) : Nat := leVal (((m.data.drop 64).drop 12).take 4)
def fwdDesc (m : Trans) : BitVec 512 := BitVec.ofNat 512 (leVal (m.data.take 64))

/-- The unit that a DESC_FWD makes on the lent partition `p`. -/
def State.fwdUnit (s : State) (m : Trans) (p : Nat) : CUnit :=
  let f := fun (o k : Nat) => leVal (((m.data.drop 64).drop o).take k)
  { id := s.nextUnit, client := m.client, q := bits (f 8 1) 6 6, tag := dTag (fwdDesc m), part := p, kind := dKind (fwdDesc m), stages := s.resolve m.client [fwdDesc m]
    tiles := s.tilesOf p, first := f 0 4, total := f 6 2, phase := .killed, start := f 16 8, startNo := s.order, home := some (m.src, m.tid.toNat) }

theorem State.fwdUnit_tiles (s : State) (m : Trans) (p : Nat) : (s.fwdUnit m p).tiles = s.tilesOf p := by rw [State.fwdUnit]

/-- That unit is live, and waits for its tiles. -/
def State.fwdMade (s : State) (m : Trans) (p : Nat) : State :=
  { s with order := s.order + 1, units := s.units ++ [s.fwdUnit m p], nextUnit := s.nextUnit + 1 }

section
variable {s : State} {m : Trans} {p : Nat}

theorem State.fwdMade_unit? (hfresh : s.unit? s.nextUnit = none) : (s.fwdMade m p).unit? s.nextUnit = some (s.fwdUnit m p) := by
  have hnone : (s.units.find? fun u => u.id == s.nextUnit) = none := hfresh
  simp [State.unit?, State.fwdMade, State.fwdUnit, hnone]

/-- A DESC_FWD for a partition that is lent here, whose descriptor passes the checks at start. -/
theorem descFwd_lent (hlent : s.lentPart m.src (fwdPart m) = some p) (hlen : m.data.length = 96) (hcodes : s.startCodes m.client [fwdDesc m] = []) :
    descFwd m s = if bit (fwdWord m) 31 then State.takeMember { s with order := s.order + 1 } (s.fwdUnit m p) (fwdWord m % 2 ^ 21) (s.tilesOf p)
      else unitRerunStart s.nextUnit (s.fwdMade m p) := by
  have hcodes' : ∀ k, State.startCodes { s with order := k } m.client [fwdDesc m] = [] := fun _ => hcodes
  rw [fwdPart] at hlent
  rw [fwdDesc] at hcodes'
  rw [descFwd]
  dsimp only
  rw [hlent]
  dsimp only
  rw [if_neg (not_not.2 hlen), hcodes']
  rfl

/-- A forwarded member is placed on the one tile that there is. -/
theorem State.takeMember_single (s : State) (u : CUnit) (seq a : Nat) : ∃ v k,
    s.takeMember u seq [a] = State.modTile { s with freeCtr := k, units := s.units ++ [v], nextUnit := s.nextUnit + 1 } a (fun t => { t with queue := t.queue ++ [u.id] })
      ∧ v.id = u.id ∧ v.phase = .placed ∧ v.tiles = [a] ∧ v.part = u.part ∧ v.home = u.home ∧ v.client = u.client ∧ v.entry = farEntry seq := by
  unfold State.takeMember
  dsimp only [minBy, State.draw]
  exact ⟨_, s.freeCtr + 1 + 1 + 1, rfl, rfl, rfl, rfl, rfl, rfl, rfl, rfl⟩

/-- A unit forwarded to a partition that is rebuilding waits. -/
theorem unitRerunStart_rebuilding {uid : Nat} {u : CUnit} (hu : s.unit? uid = some u) (hphase : u.phase = .killed) (hhome : u.home.isSome = true)
    (hrebuilding : (s.part u.part).rebuilding = true) : unitRerunStart uid s = s := by
  have hgate : s.unitGate u = false := by simp [State.unitGate, hhome, State.lentGate, hrebuilding]
  simp [unitRerunStart, hu, hphase, hgate]

end

/-- Settles O35: a forwarded descriptor for a lent partition becomes a unit or a placed member, and the end of forwarded work ends the wait for it. -/
theorem forwardedUnits : Obligations.forwardedUnits := by
  unfold Obligations.forwardedUnits
  refine ⟨?refused, ?placed, ?waits, ?finished, ?failed⟩
  case refused =>
    intro m s hpower hhere htyp hresp hlent
    have hlent' : (s.takeIn m).lentPart m.src (leVal (((m.data.drop 64).drop 8).take 1) % 64) = none := hlent
    rw [exec_here hpower hhere (by simp [htyp, hresp]) rfl, descFwd]
    dsimp only
    rw [hlent']
    exact congrArg _ (State.keep_send rfl _)
  case placed =>
    intro m p a s hpower hhere htyp hresp hlent hlen hcodes hmember htiles
    refine answers_here hpower hhere (by simp [htyp, hresp]) rfl ?_
    have htiles' : (s.takeIn m).tilesOf p = [a] := htiles
    rw [descFwd_lent (s := s.takeIn m) (p := p) hlent hlen hcodes, if_pos (show bit (fwdWord m) 31 = true from hmember), htiles']
    obtain ⟨v, k, hplaced, hid, hphase, hvtiles, hpart, hhome, hclient, hentry⟩ :=
      State.takeMember_single { s.takeIn m with order := (s.takeIn m).order + 1 } ((s.takeIn m).fwdUnit m p) (fwdWord m % 2 ^ 21) a
    rw [hplaced]
    refine ⟨?_, rfl, v, rfl, hid, hphase, hvtiles, hpart, hhome, hclient, hentry⟩
    rw [State.keep_tile, State.modTile_self]
    rfl
  case waits =>
    intro m p s hpower hhere htyp hresp hlent hlen hcodes hmember hrebuilding hfresh
    refine answers_here hpower hhere (by simp [htyp, hresp]) rfl ?_
    rw [descFwd_lent (s := s.takeIn m) (p := p) hlent hlen hcodes, if_neg (by rw [fwdWord, hmember]; exact Bool.false_ne_true)]
    rw [unitRerunStart_rebuilding (s := (s.takeIn m).fwdMade m p) ((s.takeIn m).fwdMade_unit? hfresh) rfl rfl hrebuilding]
    exact ⟨rfl, (s.takeIn m).fwdUnit m p, rfl, rfl, rfl, rfl, ((s.takeIn m).fwdUnit_tiles m p).trans (State.tilesOf_congr rfl rfl), rfl, rfl⟩
  case finished =>
    intro m u s hpower hhere htyp hresp hawaits hfinished
    rw [exec_here hpower hhere (by simp [htyp, hresp]) rfl, State.onAnswer_awaited hawaits, if_pos hfinished]
    rfl
  case failed =>
    intro m u s hpower hhere htyp hresp hawaits hstatus hcommitted hkilled
    refine answers_here hpower hhere (by simp [htyp, hresp]) rfl ?_
    rw [State.onAnswer_awaited hawaits, if_neg (by simp [hstatus, hcommitted, hkilled])]
    exact State.endUnit_unit? _ u 7 pFAILED

end Sys2Proof.Machine


/-! PROOFS. Power-good and start-up as far as LEDGER_MERGE (R357, R360 to R362, R368, R493). -/

namespace Sys2Proof.Machine

open Sys2Proof Sys2Proof.Safety

/-! ### Frame boot (R357, R358) -/

/-- Device Readiness Status goes out on ports whose links are up. -/
theorem State.readiness_eq (s : State) : ∃ O, (s.each [0, 1, 2, 3] fun s p => s.when (tabGet false s.linkUp p) fun s => s.emit (.deviceReadiness p)) = { s with out := O } := by
  refine State.each_ind (P := fun t => ∃ O, t = { s with out := O }) ?_ _ s ⟨_, rfl⟩
  rintro _ p ⟨O, rfl⟩
  unfold State.when
  split <;> exact ⟨_, rfl⟩

/-- The state in which an image is chosen: what was found of both is noted. -/
def State.imagesJudged (s : State) (a b : BootImage) : State := s.modFrm fun f => { f with aValid := imageValid a, bValid := imageValid b }

/-- The image that is chosen starts DOMAIN_UP. -/
def State.booted (s : State) (a b x : BootImage) : State :=
  ((s.imagesJudged a b).modFrm fun f => { f with image := b2n (!imageValid a), bootVersion := x.version, subsystem := x.subsystem, stack := x.cfg }).enter .domainUp

section
variable {s : State} {a b : BootImage}

theorem frameBootDone_boots {x : BootImage} (hstate : s.frm.state = .frameBoot) (hvalid : imageValid a = true ∨ imageValid b = true)
    (hx : (if imageValid a then a else b) = x) : ∃ O, frameBootDone a b s = { s.booted a b x with out := O } := by
  obtain ⟨O, hready⟩ := (s.imagesJudged a b).readiness_eq
  rw [State.imagesJudged] at hready
  refine ⟨O, ?_⟩
  rw [frameBootDone, if_neg (by simp [hstate])]
  dsimp only
  rw [hready, if_neg (by rcases hvalid with h | h <;> simp [h]), hx]
  rfl

theorem frameBootDone_fails (hstate : s.frm.state = .frameBoot) (ha : imageValid a = false) (hb : imageValid b = false) :
    (frameBootDone a b s).frm.state = .failed ∧ (frameBootDone a b s).frm.reason = 1 := by
  rw [frameBootDone, if_neg (by simp [hstate])]
  dsimp only
  rw [if_pos (by simp [ha, hb])]
  exact ⟨rfl, rfl⟩

end

/-! ### BIST rounds (R361) -/

theorem mem_insertUp {x y : Nat} {l : List Nat} (h : y ∈ insertUp x l) : y = x ∨ y ∈ l := by
  induction l with
  | nil => exact .inl (List.mem_singleton.1 h)
  | cons a r ih =>
    unfold insertUp at h
    split at h
    · exact .inr h
    · split at h
      · exact List.mem_cons.1 h
      · rcases List.mem_cons.1 h with rfl | h
        · exact .inr List.mem_cons_self
        · exact (ih h).imp_right (List.mem_cons_of_mem _)

/-- Of a tile that failed a free value says whether its router has failed too (log 69). -/
def State.routerDraw (s : State) (pt : Nat) : State :=
  let (v, s) := s.draw 203
  s.when (v.getLsbD 0) fun s => s.modFrm fun f => { f with badRouters := insertUp pt f.badRouters }

/-- One draw for each failed tile, and routers of failed tiles only are bad. -/
theorem State.routerDraw_each (l : List Nat) : ∀ s : State, ∃ R, s.each l State.routerDraw = { s with freeCtr := s.freeCtr + l.length, frm := { s.frm with badRouters := R } }
    ∧ ∀ pt ∈ R, pt ∈ s.frm.badRouters ∨ pt ∈ l := by
  induction l with
  | nil => exact fun s => ⟨s.frm.badRouters, rfl, fun _ => .inl⟩
  | cons a l ih =>
    intro s
    have hone : ∃ R, s.routerDraw a = { s with freeCtr := s.freeCtr + 1, frm := { s.frm with badRouters := R } } ∧ ∀ pt ∈ R, pt ∈ s.frm.badRouters ∨ pt = a := by
      unfold State.routerDraw State.draw State.when
      dsimp only
      split
      · exact ⟨insertUp a s.frm.badRouters, rfl, fun pt hpt => (mem_insertUp hpt).symm⟩
      · exact ⟨s.frm.badRouters, rfl, fun _ => .inl⟩
    obtain ⟨R, hR, hbad⟩ := hone
    obtain ⟨R', hR', hbad'⟩ := ih (s.routerDraw a)
    refine ⟨R', ?_, fun pt hpt => ?_⟩
    · rw [State.each_cons, hR', hR]
      simp only [List.length_cons, Nat.add_assoc, Nat.add_comm 1]
    · rw [hR] at hbad'
      rcases hbad' pt hpt with h | h
      · exact (hbad pt h).imp_right fun h => List.mem_cons.2 (.inl h)
      · exact .inr (List.mem_cons_of_mem _ h)

/-- A round of which every failed tile is one of its tiles. -/
theorem bistRoundDone_eq {s : State} {r : Nat} {l : List Nat} (hstate : s.frm.state = .tileBist) (hr : r = s.frm.rounds) (hl : ∀ pt ∈ l, pt < 8704 ∧ domOfStrip (pt / 17) / 4 = r) :
    bistRoundDone r l s = (let t := (s.modFrm fun f => { f with bistFailed := f.bistFailed ++ l, rounds := r + 1 }).each l State.routerDraw
      if r = 3 then t.enter .ledgerMerge else t) := by
  have hbad : (l.filter fun pt => decide (pt < Config.physTiles) && domOfStrip (pt / 17) / 4 == r) = l :=
    List.filter_eq_self.2 fun pt hpt => by simpa using hl pt hpt
  rw [bistRoundDone, if_neg (by simp [hstate, hr])]
  dsimp only
  rw [hbad]
  rfl

/-! ### The ledger's map (R362) -/

/-- A bit of a map of tiles is set where it was set or its tile is added. -/
theorem getLsbD_foldl_twoPow {w : Nat} (l : List Nat) {i : Nat} (hi : i < w) : ∀ v : BitVec w,
    (l.foldl (fun v pt => v ||| BitVec.twoPow w pt) v).getLsbD i = (v.getLsbD i || decide (i ∈ l)) := by
  induction l with
  | nil => simp
  | cons a l ih =>
    intro v
    rw [List.foldl_cons, ih]
    have hbit : (BitVec.twoPow w a).getLsbD i = decide (i = a) := by
      by_cases h : i = a
      · simp [← h, hi]
      · simp [BitVec.getLsbD_twoPow, h, Ne.symm h]
    simp only [BitVec.getLsbD_or, hbit, List.mem_cons, Bool.decide_or, Bool.or_assoc]

/-- Retiring lanes changes ports only. -/
theorem State.retireLanes_eq (s : State) (l : List Nat) : ∃ P, (s.each l fun s k => s.modPort (k / 68) fun p => { p with
    lanes := tabMod {} p.lanes (k % 68) fun x => { x with state := .retired, logical := none } }) = { s with ports := P } := by
  refine State.each_ind (P := fun t => ∃ P, t = { s with ports := P }) ?_ _ s ⟨_, rfl⟩
  rintro _ k ⟨P, rfl⟩
  exact ⟨_, rfl⟩

/-- The map that LEDGER_MERGE finds: that of the newest slot with the tiles that failed BIST. -/
theorem ledgerMerge_newest {s : State} {k : Nat} (hstate : s.frm.state = .ledgerMerge) (hnewest : s.frm.newest = some k) :
    (ledgerMerge s).frm.state = .hbmTrain ∧ (ledgerMerge s).frm.rLanes = (slotMap (s.frm.slot k)).2.1 ∧ (ledgerMerge s).frm.rPch = (slotMap (s.frm.slot k)).2.2
      ∧ (ledgerMerge s).frm.rTiles = s.frm.bistFailed.foldl (fun (v : BitVec 8704) pt => v ||| BitVec.twoPow 8704 pt) (slotMap (s.frm.slot k)).1 := by
  rw [ledgerMerge, if_neg (by simp [hstate]), hnewest]
  dsimp only
  obtain ⟨P, hP⟩ := State.retireLanes_eq (s.modFrm fun f => { f with
    rTiles := s.frm.bistFailed.foldl (fun (v : BitVec 8704) pt => v ||| BitVec.twoPow 8704 pt) (slotMap (s.frm.slot k)).1, rLanes := (slotMap (s.frm.slot k)).2.1, rPch := (slotMap (s.frm.slot k)).2.2
    colmaps := ((upTo Config.strips).filter fun i => bits (s.frm.bistFailed.foldl (fun (v : BitVec 8704) pt => v ||| BitVec.twoPow 8704 pt) (slotMap (s.frm.slot k)).1).toNat (17 * i + 16) (17 * i) != 0).foldl
      (fun (t : Tab ColMap) i => tabPut t i (startMap fun c => (s.frm.bistFailed.foldl (fun (v : BitVec 8704) pt => v ||| BitVec.twoPow 8704 pt) (slotMap (s.frm.slot k)).1).getLsbD (17 * i + c))) [] })
    ((upTo 544).filter fun i => (slotMap (s.frm.slot k)).2.1.getLsbD i)
  rw [hP]
  exact ⟨rfl, rfl, rfl, rfl⟩

/-- Without a slot and with every tile sound nothing is retired. -/
theorem ledgerMerge_none {s : State} (hstate : s.frm.state = .ledgerMerge) (hnewest : s.frm.newest = none) (hsound : s.frm.bistFailed = []) :
    ledgerMerge s = (s.modFrm fun f => { f with rTiles := 0, rLanes := 0, rPch := 0, colmaps := [] }).enter .hbmTrain := by
  have hstrips : ((upTo Config.strips).filter fun i => bits (0 : BitVec 8704).toNat (17 * i + 16) (17 * i) != 0) = [] :=
    List.filter_eq_nil_iff.2 fun i _ => by
      have hzero : (0 : BitVec 8704).toNat = 0 := BitVec.toNat_zero
      rw [bits, hzero, Nat.zero_div, Nat.zero_mod]
      exact Bool.false_ne_true
  have hlanes : ((upTo 544).filter fun k => (0 : BitVec 544).getLsbD k) = [] :=
    List.filter_eq_nil_iff.2 fun k _ => by simp
  rw [ledgerMerge, if_neg (by simp [hstate]), hnewest, hsound]
  dsimp only [List.foldl_nil]
  rw [hstrips, hlanes]
  rfl

/-! ### The obligation -/

/-- Settles O29: power-good makes a cold state, a valid image starts DOMAIN_UP, and each round and the ledger's map are noted. -/
theorem coldStart : Obligations.coldStart := by
  unfold Obligations.coldStart
  refine ⟨?cold, ?again, ?lost, ?imageA, ?imageB, ?noImage, ?switchOn, ?round, ?lastRound, ?merged, ?empty⟩
  case cold =>
    intro x s hpower
    refine answers_any (f := powerGood x) rfl ?_
    rw [powerGood, if_neg (by simp [hpower])]
    exact ⟨rfl, rfl, rfl, rfl, rfl, rfl, rfl, rfl, rfl, rfl, rfl, rfl, rfl, rfl, rfl, rfl, rfl, rfl, rfl, rfl⟩
  case again =>
    intro x s hpower
    refine exec_any (f := powerGood x) rfl ?_
    rw [powerGood, if_pos hpower]
  case lost =>
    intro s hpower hidle
    have hcut : s.ledgerCut = s := by simp [State.ledgerCut, Frm.programming, hidle]
    refine answers_any (f := powerGoodLoss) rfl ?_
    rw [powerGoodLoss, if_neg (by simp [hpower]), hcut]
    exact ⟨rfl, rfl, rfl, rfl, rfl, rfl, rfl, rfl, rfl⟩
  case imageA =>
    intro a b s hpower hstate ha
    obtain ⟨O, hboot⟩ := frameBootDone_boots (b := b) hstate (.inl ha) (if_pos ha)
    refine answers_on (f := frameBootDone a b) hpower rfl ?_
    rw [hboot]
    exact ⟨rfl, rfl, congrArg (fun v => b2n (!v)) ha, rfl, rfl, rfl, ha, rfl⟩
  case imageB =>
    intro a b s hpower hstate ha hb
    obtain ⟨O, hboot⟩ := frameBootDone_boots (a := a) hstate (.inr hb) (if_neg (by simp [ha]))
    refine answers_on (f := frameBootDone a b) hpower rfl ?_
    rw [hboot]
    exact ⟨rfl, congrArg (fun v => b2n (!v)) ha, rfl, rfl, rfl⟩
  case noImage =>
    intro a b s hpower hstate ha hb
    exact answers_on (f := frameBootDone a b) hpower rfl (frameBootDone_fails hstate ha hb)
  case switchOn =>
    intro d s hpower hstate hd hlt hdue
    refine answers_on (f := domainSwitchOn d) hpower rfl ?_
    rw [domainSwitchOn, if_neg (by simp [hstate, ← hd, Nat.not_le.2 hlt, Nat.not_lt.2 hdue])]
    refine ⟨rfl, ?_, fun k hk => s.modDom_ne d k (fun x => x.goTo .active s.now) hk⟩
    exact congrArg Dom.trans (s.modDom_self d fun x => x.goTo .active s.now)
  case round =>
    intro r l s hpower hstate hr hlt hl
    obtain ⟨R, hR, hbad⟩ := State.routerDraw_each l (s.modFrm fun f => { f with bistFailed := f.bistFailed ++ l, rounds := r + 1 })
    refine answers_on (f := bistRoundDone r l) hpower rfl ?_
    rw [bistRoundDone_eq hstate hr hl]
    dsimp only
    rw [if_neg (by omega), hR]
    exact ⟨rfl, hbad, rfl⟩
  case lastRound =>
    intro l s hpower hstate hr hl
    obtain ⟨R, hR, hbad⟩ := State.routerDraw_each l (s.modFrm fun f => { f with bistFailed := f.bistFailed ++ l, rounds := 3 + 1 })
    refine answers_on (f := bistRoundDone 3 l) hpower rfl ?_
    rw [bistRoundDone_eq hstate hr.symm hl]
    dsimp only
    rw [if_pos rfl, hR]
    exact ⟨rfl, hbad, rfl⟩
  case merged =>
    intro k s hpower hstate hnewest
    obtain ⟨hentered, hlanes, hpch, htiles⟩ := ledgerMerge_newest hstate hnewest
    refine answers_on (f := ledgerMerge) hpower rfl ⟨hentered, hlanes, hpch, fun pt hpt => ?_⟩
    exact (congrArg (fun v : BitVec 8704 => v.getLsbD pt) htiles).trans (getLsbD_foldl_twoPow _ hpt _)
  case empty =>
    intro s hpower hstate hnewest hsound
    refine exec_on hpower rfl ?_
    rw [ledgerMerge_none hstate hnewest hsound]
    rfl

end Sys2Proof.Machine


/-! PROOFS. Start-up from HBM_TRAIN to READY, its timeouts, and warm resets (R356, R363 to R369, R373, R400, R488). -/

namespace Sys2Proof.Machine

open Sys2Proof Sys2Proof.Safety

/-! ### Doing something for each element of a list -/

section
variable {α : Type} {f : State → α → State}

/-- What a step brings about for its element, and no other step undoes, holds for every element. -/
theorem State.each_reaches {Q : α → State → Prop} (hself : ∀ t a, Q a (f t a)) (hkeep : ∀ t a b, Q b t → Q b (f t a)) (l : List α) :
    ∀ (s : State), ∀ b ∈ l, Q b (s.each l f) := by
  induction l with
  | nil => exact fun _ _ hb => nomatch hb
  | cons a l ih =>
    intro s b hb
    rcases List.mem_cons.1 hb with rfl | hb
    · exact State.each_ind (P := Q b) (fun t a => hkeep t a b) l _ (hself s b)
    · exact ih _ b hb

/-- Steps that leave the state as it is. -/
theorem State.each_noop {s : State} {l : List α} (h : ∀ a ∈ l, f s a = s) : s.each l f = s := by
  induction l with
  | nil => rfl
  | cons a l ih =>
    rw [State.each_cons, h a List.mem_cons_self]
    exact ih fun b hb => h b (List.mem_cons_of_mem _ hb)

theorem State.each_append (s : State) (l l' : List α) : s.each (l ++ l') f = (s.each l f).each l' f := List.foldl_append ..

/-- Where one element's step alone changes the state, the others may be left out. -/
theorem State.each_single {s : State} {l : List α} {a : α} (ha : a ∈ l) (hnd : l.Nodup) (hbefore : ∀ b ∈ l, b ≠ a → f s b = s) (hafter : ∀ b ∈ l, b ≠ a → f (f s a) b = f s a) :
    s.each l f = f s a := by
  obtain ⟨l1, l2, rfl⟩ := List.append_of_mem ha
  obtain ⟨-, hnd2, hdisjoint⟩ := List.nodup_append.1 hnd
  have h1 : s.each l1 f = s := State.each_noop fun b hb => hbefore b (List.mem_append_left _ hb) (hdisjoint b hb a List.mem_cons_self)
  have h2 : (f s a).each l2 f = f s a := State.each_noop fun b hb =>
    hafter b (List.mem_append_right _ (List.mem_cons_of_mem _ hb)) fun h => (List.nodup_cons.1 hnd2).1 (h ▸ hb)
  rw [State.each_append, h1, State.each_cons, h2]

end

/-! ### HBM_TRAIN (R363) -/

section
variable (s : State)

/-- With no stack down and no pseudo-channel retired every stack is up, and every port begins its training. -/
theorem hbmTrainDone_up {s : State} (hstate : s.frm.state = .hbmTrain) (hpch : s.frm.rPch = 0) :
    hbmTrainDone [] [] s = (((s.modFrm fun f => { f with hbmDown := [] }).each (upTo 24) fun s m => s.modCtl m fun c => { c with up := true }).each (upTo 8) State.fullTraining).enter .txTrain := by
  have hdowns : ((upTo 24).filter fun m => ([] : List Nat).contains m || (upTo 32).all fun i => s.frm.rPch.getLsbD (32 * m + i)) = [] :=
    List.filter_eq_nil_iff.2 fun m _ => by simp [hpch, List.range_succ]
  have hout : ((upTo 768).filter fun n => s.frm.rPch.getLsbD n || ([] : List Nat).contains (n / 32)) = [] :=
    List.filter_eq_nil_iff.2 fun n _ => by simp [hpch]
  rw [hbmTrainDone, if_neg (by simp [hstate])]
  dsimp only [List.filter_nil, List.foldl_nil]
  rw [show (s.modFrm fun f => f).frm.rPch = s.frm.rPch from rfl, hdowns]
  rw [show ((s.modFrm fun f => f).modFrm fun f => { f with hbmDown := [] }).frm.rPch = s.frm.rPch from rfl, hout]
  rfl

/-- With every stack down start-up fails. -/
theorem hbmTrainDone_down {s : State} (hstate : s.frm.state = .hbmTrain) :
    (hbmTrainDone (upTo 24) [] s).frm.state = .failed ∧ (hbmTrainDone (upTo 24) [] s).frm.reason = 3 := by
  have hdowns : ((upTo 24).filter fun m => (upTo 24).contains m || (upTo 32).all fun i => s.frm.rPch.getLsbD (32 * m + i)) = upTo 24 :=
    List.filter_eq_self.2 fun m hm => by rw [List.contains_iff_mem.2 hm, Bool.true_or]
  rw [hbmTrainDone, if_neg (by simp [hstate])]
  dsimp only [List.filter_nil, List.foldl_nil]
  rw [show (s.modFrm fun f => f).frm.rPch = s.frm.rPch from rfl, hdowns, if_pos List.length_range]
  exact ⟨rfl, rfl⟩

/-- Full training of ports leaves everything else. -/
theorem State.fullTraining_ports (l : List Nat) : ∃ P, s.each l State.fullTraining = { s with ports := P } := by
  refine State.each_ind (P := fun t => ∃ P, t = { s with ports := P }) ?_ l s ⟨_, rfl⟩
  rintro _ n ⟨P, rfl⟩
  exact ⟨_, rfl⟩

theorem State.fullTraining_detect {l : List Nat} {p : Nat} (hp : p ∈ l) : ((s.each l State.fullTraining).port p).state = .detect := by
  refine State.each_reaches (Q := fun p t => (t.port p).state = .detect) (fun t a => ?_) (fun t a b h => ?_) l s p hp
  · rw [State.fullTraining, State.modPort_self]
  · by_cases hb : b = a
    · rw [hb, State.fullTraining, State.modPort_self]
    · rw [State.fullTraining, State.modPort_ne _ _ _ _ hb]
      exact h

/-- Stacks brought up leave everything else. -/
theorem State.stacksUp_ctls (l : List Nat) : ∃ C, (s.each l fun s m => s.modCtl m fun c => { c with up := true }) = { s with hbmCtl := C } := by
  refine State.each_ind (P := fun t => ∃ C, t = { s with hbmCtl := C }) ?_ l s ⟨_, rfl⟩
  rintro _ n ⟨P, rfl⟩
  exact ⟨_, rfl⟩

theorem State.stacksUp_up {l : List Nat} {m : Nat} (hm : m ∈ l) : ((s.each l fun s m => s.modCtl m fun c => { c with up := true }).ctl m).up = true := by
  refine State.each_reaches (Q := fun m t => (t.ctl m).up = true) (fun t a => ?_) (fun t a b h => ?_) l s m hm
  · rw [State.modCtl_self]
  · by_cases hb : b = a
    · rw [hb, State.modCtl_self]
    · rw [State.modCtl_ne _ _ _ _ hb]
      exact h

end

/-! ### TX_TRAIN (R364, R441) -/

/-- The identity goes out on a port that is up. -/
def State.idOut (s : State) (claim : Bool) (p e : Nat) : State :=
  (s.modStk fun k => { k with nextTid := (s.stk.nextTid + 1) % 2 ^ 32, requests := k.requests ++ [(s.stk.nextTid, e, 0, some p)] }).sendOn p
    { typ := tID, src := s.frm.waferId, dst := e, tid := BitVec.ofNat 32 s.stk.nextTid, len := 64, data := s.identity claim }

section
variable {s : State}

theorem txTrainDone_eq (hstate : s.frm.state = .txTrain) (hports : ∀ p, p < 8 → (s.port p).state = .active ∨ (s.port p).state = .down) :
    txTrainDone s = (s.enter .stackForm).sendIds false := by
  have hall : ((upTo 8).all fun p => (s.port p).state == .active || (s.port p).state == .down) = true :=
    List.all_eq_true.2 fun p hp => by simpa using hports p (List.mem_range.1 hp)
  rw [txTrainDone, if_neg (by simp [hstate, hall])]

/-- No identity goes out where no port is up. -/
theorem State.sendIds_down (hports : ∀ p, p < 8 → (s.port p).state = .down) (claim : Bool) : s.sendIds claim = s :=
  State.each_noop fun p hp => by simp only [hports p (List.mem_range.1 hp)]

/-- Where one port is up, the identity goes out on it. -/
theorem State.sendIds_one {p e : Nat} (hp : p < 8) (hup : (s.port p).state = .active) (hfar : (s.port p).farEp = some e) (hdown : ∀ k, k < 8 → k ≠ p → (s.port k).state = .down) (claim : Bool) :
    s.sendIds claim = s.idOut claim p e := by
  have hone : ∀ (f : State → Nat → State), f s p = s.idOut claim p e → (∀ k, k < 8 → k ≠ p → f s k = s ∧ f (s.idOut claim p e) k = s.idOut claim p e) → s.each (upTo 8) f = s.idOut claim p e := by
    intro f hself hother
    rw [State.each_single (List.mem_range.2 hp) List.nodup_range (fun k hk hne => (hother k (List.mem_range.1 hk) hne).1)
      (fun k hk hne => by rw [hself]; exact (hother k (List.mem_range.1 hk) hne).2), hself]
  refine hone _ (by simp only [hup, hfar]; rfl) fun k hk hne => ?_
  have hport : (s.idOut claim p e).port k = s.port k := State.modPort_ne _ _ _ _ hne
  simp only [hport, hdown k hk hne, and_self]

end

/-! ### Warm reset (R369, R373) -/

/-- The state that a warm reset for `reason` makes. -/
theorem warmReset_goes {s : State} {r : Nat} (hreq : s.frm.resetReq = some r) (hledger : s.frm.ledgerOp = none) (hlowering : s.pwr.lowering = none) :
    warmReset s = (let c := s.cold { waferId := s.frm.waferId, leadLow := s.frm.lead, serial := s.frm.serial }
      { c with
        now := s.now, numVfs := s.numVfs, linkUp := s.linkUp, jtag := s.jtag, flt := s.flt.warm
        clients := s.clients.map fun x => (x.1, x.2.warm)
        frm := { c.frm with
          guard := s.frm.guard, resetReason := r, warms := satTo 0xFFFF (s.frm.warms + 1), resetTime := s.now, afterWarm := true, stateTime := s.now } }) := by
  rw [warmReset, hreq]
  dsimp only
  rw [if_neg (by simp [hledger, hlowering])]

/-! ### The obligation -/

/-- Settles O30: each state of start-up goes over into the next, or fails, and a warm reset starts it again. -/
theorem trainingAndResets : Obligations.trainingAndResets := by
  unfold Obligations.trainingAndResets
  refine ⟨?stacksUp, ?stacksDown, ?portsDown, ?portUp, ?alone, ?noLead, ?timeout, ?asked, ?elsewhere, ?reset⟩
  case stacksUp =>
    intro s hpower hstate hpch
    refine answers_on (f := hbmTrainDone [] []) hpower rfl ?_
    rw [hbmTrainDone_up hstate hpch]
    obtain ⟨C, hC⟩ := (s.modFrm fun f => { f with hbmDown := [] }).stacksUp_ctls (upTo 24)
    have hup := fun m (hm : m < 24) => (s.modFrm fun f => { f with hbmDown := [] }).stacksUp_up (List.mem_range.2 hm)
    rw [hC] at hup ⊢
    have hdetect := fun p (hp : p < 8) => State.fullTraining_detect { s.modFrm fun f => { f with hbmDown := [] } with hbmCtl := C } (List.mem_range.2 hp)
    obtain ⟨P, hP⟩ := State.fullTraining_ports { s.modFrm fun f => { f with hbmDown := [] } with hbmCtl := C } (upTo 8)
    rw [hP] at hdetect ⊢
    exact ⟨rfl, rfl, rfl, hup, hdetect⟩
  case stacksDown =>
    intro s hpower hstate
    exact answers_on (f := hbmTrainDone (upTo 24) []) hpower rfl (hbmTrainDone_down hstate)
  case portsDown =>
    intro s hpower hstate hports
    refine exec_on hpower rfl ?_
    rw [txTrainDone_eq hstate fun p hp => .inr (hports p hp), State.sendIds_down (s := s.enter .stackForm) hports]
    rfl
  case portUp =>
    intro p e s hpower hstate hp hup hfar hdown
    have hports : ∀ k, k < 8 → (s.port k).state = .active ∨ (s.port k).state = .down := fun k hk =>
      if hkp : k = p then .inl (hkp ▸ hup) else .inr (hdown k hk hkp)
    refine answers_on (f := txTrainDone) hpower rfl ?_
    rw [txTrainDone_eq hstate hports, State.sendIds_one (s := s.enter .stackForm) hp hup hfar hdown]
    exact ⟨rfl, rfl⟩
  case alone =>
    intro s hpower hstate hseen halone
    refine answers_any (f := stackFormDone .formed) rfl ?_
    rw [stackFormDone, if_neg (by simp [hpower, hstate])]
    dsimp only
    rw [hseen]
    dsimp only
    rw [if_pos (by simp [halone])]
    exact ⟨rfl, rfl, rfl, rfl, rfl, rfl, rfl⟩
  case noLead =>
    intro s hpower hstate hlead hseen hothers hlate
    refine exec_any (f := stackFormDone .noLead) rfl ?_
    rw [stackFormDone, if_neg (by simp [hpower, hstate])]
    dsimp only
    rw [if_pos (by simp [hlead, hseen, hothers, hlate])]
    rfl
  case timeout =>
    intro m s hpower hmax hlate
    refine exec_on hpower rfl ?_
    rw [startupTimeout, hmax]
    dsimp only
    rw [if_neg (Nat.not_le.2 hlate)]
    rfl
  case asked =>
    intro p v s hpower hstate hkey hwarm hreq
    refine exec_on (f := frmReset (.pf p) v) hpower rfl ?_
    rw [frmReset, if_neg (by simp [Via.isPf, hstate, hkey, hwarm]), State.askReset, if_neg (by simp [hreq])]
    rfl
  case elsewhere =>
    intro n v s hpower
    have hkept : ∀ via, Via.isPf via = false → exec (.frmReset via v) s = .next s := fun via hvia =>
      exec_on (f := frmReset via v) hpower rfl (by rw [frmReset, if_pos (by simp [hvia])]; rfl)
    exact ⟨hkept _ rfl, hkept _ rfl, hkept _ rfl⟩
  case reset =>
    intro r s hpower hreq hledger hlowering
    refine answers_on (f := warmReset) hpower rfl ?_
    rw [warmReset_goes hreq hledger hlowering]
    have hclient : ∀ n, tabGet {} (s.clients.map fun x => (x.1, x.2.warm)) n = (s.client n).warm := fun n => tabGet_map {} s.clients (fun _ => Client.warm) (fun _ => rfl) n
    refine ⟨rfl, rfl, rfl, rfl, ?_, rfl, rfl, rfl, rfl, rfl, rfl, rfl, rfl, rfl, rfl, rfl, rfl, rfl, rfl, fun n => ?_⟩
    · show satTo 0xFFFF (s.frm.warms + 1) = _
      unfold satTo
      split <;> omega
    · exact ⟨(congrArg Client.en (hclient n) :), (congrArg (fun c => c.func.msixTable) (hclient n) :), (congrArg (fun c => c.func.bme) (hclient n) :)⟩

end Sys2Proof.Machine


/-! PROOFS. A Tranyx port in training, in a recovery and going down; lane errors and port control (R412, R414, R415, R426 to R428). -/

namespace Sys2Proof.Machine

open Sys2Proof Sys2Proof.Safety

/-! ### What going down leaves of the ports (R371, R428) -/

/-- Every port of `t` is as in `s`, but for what waits to be sent. -/
def State.SamePorts (s t : State) : Prop := ∀ n, ∃ q, t.port n = { s.port n with vcQ := q }

namespace State.SamePorts
variable {s t : State}

theorem refl (s : State) : s.SamePorts s := fun _ => ⟨_, rfl⟩

variable (h : s.SamePorts t)
include h

theorem trans {r : State} (h' : t.SamePorts r) : s.SamePorts r := fun n => by
  obtain ⟨q, hq⟩ := h n
  obtain ⟨q', hq'⟩ := h' n
  exact ⟨q', by rw [hq', hq]⟩

/-- A step that changes no port. -/
theorem same {t' : State} (ht : t'.ports = t.ports) : s.SamePorts t' := fun n => by
  unfold State.port at *
  rw [ht]
  exact h n

theorem sendOn (p : Nat) (m : Trans) : s.SamePorts (t.sendOn p m) := by
  refine h.trans fun n => ?_
  by_cases hn : n = p
  · rw [hn, State.sendOn, State.modPort_self]
    exact ⟨_, rfl⟩
  · rw [State.sendOn, State.modPort_ne _ _ _ _ hn]
    exact ⟨_, rfl⟩

theorem sendFor (uid : Nat) (m : Trans) : s.SamePorts (t.sendFor uid m) := by
  unfold State.sendFor
  split
  · exact h.sendOn _ m
  · exact h.same rfl

theorem modStk (f : Stack → Stack) : s.SamePorts (t.modStk f) := h.same rfl

theorem modUnit (uid : Nat) (f : CUnit → CUnit) : s.SamePorts (t.modUnit uid f) := h.same rfl

theorem request (uid : Nat) (m : Trans) : s.SamePorts (t.request uid m).2 := (h.modStk _).sendFor uid _

theorem each {α : Type} {f : State → α → State} (hf : ∀ x a, s.SamePorts x → s.SamePorts (f x a)) (l : List α) : s.SamePorts (t.each l f) :=
  State.each_ind hf l t h

theorem tell (u : CUnit) (go : Bool) (l : List Nat) : s.SamePorts (t.tell u go l) := h.each (fun _ _ hx => hx.request _ _) l

theorem drainSend (u : CUnit) : s.SamePorts (t.drainSend u) := by
  refine h.each (fun x b hx => ?_) _
  split
  · exact (hx.request u.id _).modUnit u.id _
  · exact (hx.request u.id _).modUnit u.id _

theorem trace1 (r : TraceRec) : s.SamePorts (t.trace1 r) := by
  obtain ⟨_, _, e⟩ := t.trace1_eq r
  exact h.same (by rw [e])

theorem killUnit (uid cause : Nat) : s.SamePorts (t.killUnit uid cause) := by
  unfold State.killUnit
  split
  · exact h
  · next u _ =>
    refine iteInduction (motive := fun x : State => s.SamePorts x) (fun _ => h) fun _ => ?_
    extract_lets t1 t2 t3
    obtain ⟨_, _, _, e⟩ := t.discardOn_eq uid u.allTiles
    have hgone : s.SamePorts ((t.discardOn uid u.allTiles).dropRequests uid) := h.same (by rw [e]; rfl)
    have htold : s.SamePorts t1 := hgone.tell u false u.others
    exact (htold.same rfl : s.SamePorts t3).trace1 _

theorem killThrough (n : Nat) : s.SamePorts (t.killThrough n) := by
  unfold State.killThrough
  extract_lets out t1
  refine (h.same rfl : s.SamePorts t1).each (fun x uid hx => ?_) _
  split
  · exact hx
  · next u _ =>
    refine iteInduction (motive := fun x : State => s.SamePorts x) (fun _ => ?_) fun _ => hx.killUnit uid 0
    extract_lets lost x1
    have htold : s.SamePorts x1 := by
      unfold x1
      split
      · exact hx
      · exact hx.tell u true _
    split
    · exact (htold.modUnit uid _).drainSend u
    · exact htold

theorem notice (code index value : Nat) (client : Option Nat) : s.SamePorts (t.notice code index value client) := h.same (by simp)

end State.SamePorts

section
variable (s : State) (n : Nat)

/-- A port that is reset starts its link over. -/
theorem State.portReset_port : ∃ q, (s.portReset n).port n = { (s.port n).resetLink with vcQ := q } := by
  obtain ⟨q, hq⟩ := (State.SamePorts.refl (s.modPort n Port.resetLink)).killThrough n n
  rw [State.modPort_self] at hq
  exact ⟨q, hq⟩

/-- A port that goes down has no lanes and an empty retry buffer. -/
theorem State.portDown_port : ∃ q, (s.portDown n).port n = { (s.port n).resetLink with state := .down, width := 0, since := s.now, lastTry := s.now, resetting := true, vcQ := q } := by
  unfold State.portDown
  extract_lets was t
  obtain ⟨q, hq⟩ : ∃ q, t.port n = { (s.port n).resetLink with state := .down, width := 0, since := s.now, lastTry := s.now, resetting := true, vcQ := q } := by
    obtain ⟨q, hq⟩ := (s.modPort n fun p => { p with state := .down, width := 0, since := s.now, lastTry := s.now, resetting := true }).portReset_port n
    rw [State.modPort_self] at hq
    exact ⟨q, hq⟩
  refine State.when_ind (P := fun x : State => ∃ q, x.port n = { (s.port n).resetLink with state := .down, width := 0, since := s.now, lastTry := s.now, resetting := true, vcQ := q }) t _ _ ?_ ⟨q, hq⟩
  exact ⟨q, by rw [State.notice_port', hq]⟩

/-- Nothing waits through a port for which no request is outstanding. -/
theorem State.killThrough_idle {s : State} {n : Nat} (h : ∀ r ∈ s.stk.requests, r.2.2.2 ≠ some n) : s.killThrough n = s := by
  have hnone : (s.stk.requests.filter fun r => r.2.2.2 == some n) = [] := List.filter_eq_nil_iff.2 fun r hr => by simpa using h r hr
  have hall : (s.stk.requests.filter fun r => r.2.2.2 != some n) = s.stk.requests := List.filter_eq_self.2 fun r hr => by simpa using h r hr
  rw [State.killThrough, hnone]
  show s.modStk (fun k => { k with requests := k.requests.filter fun r => r.2.2.2 != some n }) = s
  rw [State.modStk, hall]

theorem State.modPort_congr {f g : Port → Port} (h : f (s.port n) = g (s.port n)) : s.modPort n f = s.modPort n g :=
  congrArg (fun P => { s with ports := P }) (tabMod_congr h)

end

/-! ### Lanes that fail in training (R414) -/

section
variable {s : State} {n l : Nat}

/-- A lane that is retired in this wafer's map, and what its port keeps. -/
theorem State.laneGone_retired (hn : n < 8) (hl : l < 68) : (s.laneGone n l).isRetired 1 (68 * n + l) = true ∧ ((s.laneGone n l).port n).pass = (s.port n).pass := by
  unfold State.laneGone
  dsimp only
  split
  · next h => exact ⟨h, rfl⟩
  · obtain ⟨H, V, e⟩ := State.trace1_eq ((s.modFrm fun f => f.setRetired 1 (68 * n + l) true).modFlt fun f => { f with history := tabDel f.history (histKey 1 (68 * n + l)) })
      { event := 7, detail := 1, unit := 68 * n + l }
    rw [e]
    refine ⟨?_, ?_⟩
    · have hbit : (s.frm.rLanes ||| BitVec.twoPow 544 (68 * n + l)).getLsbD (68 * n + l) = true := by
        simp [BitVec.getLsbD_twoPow]
        omega
      exact hbit
    · have hport : (68 * n + l) / 68 = n := by omega
      rw [State.laneOut, hport, State.modPort_self]
      rfl

/-- A training state that ends with one lane failed. -/
theorem State.trainStep_fails {at_ next : PState} (hn : n < 8) (hl : l < 68) (hstate : (s.port n).state = at_) :
    ((s.trainStep n at_ next [l]).port n).state = next ∧ ((s.trainStep n at_ next [l]).port n).pass.getLsbD l = false
      ∧ (s.trainStep n at_ next [l]).isRetired 1 (68 * n + l) = true := by
  have hfail : s.lanesFail n [l] = (s.modPort n fun p => { p with pass := p.pass &&& ~~~ BitVec.twoPow 68 l }).laneGone n l := by
    simp [State.lanesFail, hl]
  obtain ⟨hretired, hpass⟩ := (State.laneGone_retired hn hl : ((s.modPort n fun p => { p with pass := p.pass &&& ~~~ BitVec.twoPow 68 l }).laneGone n l).isRetired 1 (68 * n + l) = true ∧ _)
  rw [State.trainStep, if_neg (by simp [hstate]), hfail, State.portTo, State.modPort_self]
  refine ⟨rfl, ?_, hretired⟩
  rw [hpass, State.modPort_self]
  simp [hl]

/-- A training state that ends with every lane good. -/
theorem State.trainStep_good {at_ next : PState} (hstate : (s.port n).state = at_) : s.trainStep n at_ next [] = s.modPort n fun p => { p with state := next, since := s.now } := by
  rw [State.trainStep, if_neg (by simp [hstate])]
  rfl

end

/-! ### The lane map (R412) -/

/-- What each change of its key brings about in a table holds of every key that is changed. -/
theorem tabGet_foldl_tabMod {α : Type} {P : Nat → α → Prop} (d : α) {g : Nat → α → α} (hg : ∀ i x, P i (g i x)) (l : List Nat) :
    ∀ (t : Tab α) (k : Nat), (k ∈ l ∨ P k (tabGet d t k)) → P k (tabGet d (l.foldl (fun t i => tabMod d t i (g i)) t) k) := by
  induction l with
  | nil => exact fun t k h => h.resolve_left nofun
  | cons a l ih =>
    intro t k h
    refine ih _ k ?_
    by_cases hk : k = a
    · subst hk
      rw [tabGet_tabMod_self]
      exact .inr (hg k _)
    · rw [tabGet_tabMod_ne _ _ _ _ hk]
      exact h.imp_left fun h => (List.mem_cons.1 h).resolve_left hk

/-- The state of a lane once both ends' maps have met: one in probation stays so, one that both mark is a spare until the map places it, any other is retired. -/
def stateJudged (probed marked : Bool) : LaneState := if probed then .probation else if marked then .spare else .retired

/-- A lane once both ends' maps have met. -/
def laneJudged (probed marked : Bool) (x : Lane) : Lane := { x with logical := none, state := stateJudged probed marked }

/-- The 68 lanes of a port, each judged as `f` says. -/
@[irreducible] def judgedLanes (f : Nat → Lane → Lane) (t : Tab Lane) : Tab Lane := (upTo 68).foldl (fun t l => tabMod {} t l (f l)) t

theorem judgedLanes_state {f : Nat → Lane → Lane} {g : Nat → LaneState} (h : ∀ l x, (f l x).state = g l) (t : Tab Lane) {l : Nat} (hl : l < 68) :
    (tabGet {} (judgedLanes f t) l).state = g l := by
  unfold judgedLanes
  exact tabGet_foldl_tabMod (P := fun l x => x.state = g l) {} h (upTo 68) t l (.inl (List.mem_range.2 hl))

/-- A port whose lanes are judged. -/
def Port.judged (p : Port) (f : Nat → Lane → Lane) : Port := { p with lanes := judgedLanes f p.lanes }

theorem Port.judged_state {p : Port} {f : Nat → Lane → Lane} {g : Nat → LaneState} (h : ∀ l x, (f l x).state = g l) {l : Nat} (hl : l < 68) :
    ((p.judged f).lane l).state = g l := by
  unfold Port.lane Port.judged
  exact judgedLanes_state h _ hl

section
variable {s : State} {n : Nat}

/-- What is judged of lane `l` of port `n`. -/
def State.verdict (s : State) (n : Nat) (both : BitVec 68) (l : Nat) : LaneState := stateJudged (s.probeOf 1 (68 * n + l)).isSome (both.getLsbD l)

/-- A port once both ends' maps have met. -/
def State.lanesJudged (s : State) (n : Nat) (both : BitVec 68) : Port :=
  (s.port n).judged fun l => laneJudged (s.probeOf 1 (68 * n + l)).isSome (both.getLsbD l)

theorem State.lanesJudged_lane {both : BitVec 68} {l : Nat} (hl : l < 68) : ((s.lanesJudged n both).lane l).state = s.verdict n both l := by
  unfold State.lanesJudged
  exact Port.judged_state (g := s.verdict n both) (fun _ _ => rfl) hl

/-- The state once the lanes of a port are mapped. -/
def State.lanesMapped (s : State) (n : Nat) (both : BitVec 68) : State := s.modPort n fun _ => (s.lanesJudged n both).mapLanes

theorem State.lanesMapped_port (both : BitVec 68) : (s.lanesMapped n both).port n = (s.lanesJudged n both).mapLanes := by
  rw [State.lanesMapped, State.modPort_self]

theorem laneMapDone_eq {farMap : BitVec 68} (hstate : (s.port n).state = .laneMap) :
    laneMapDone n farMap s = if ((s.lanesMapped n (s.passMap n &&& farMap)).port n).width = 0 then (s.lanesMapped n (s.passMap n &&& farMap)).portDown n
      else (s.lanesMapped n (s.passMap n &&& farMap)).portTo n .deskew := by
  rw [laneMapDone, if_neg (by simp [hstate])]
  have hmap : ∀ both : BitVec 68, (s.modPort n fun p => { p with lanes := judgedLanes (fun l => laneJudged (s.probeOf 1 (68 * n + l)).isSome (both.getLsbD l)) p.lanes }).modPort n Port.mapLanes
      = s.lanesMapped n both := fun both => by
    rw [State.modPort_modPort]
    exact State.modPort_congr s n rfl
  rw [← hmap]
  unfold judgedLanes
  rfl

/-- A fold whose steps change nothing. -/
theorem foldl_of_fixed {α β : Type} {f : β → α → β} {b : β} {l : List α} (h : ∀ a ∈ l, f b a = b) : l.foldl f b = b := by
  induction l with
  | nil => rfl
  | cons a l ih =>
    rw [List.foldl_cons, h a List.mem_cons_self]
    exact ih fun x hx => h x (List.mem_cons_of_mem _ hx)

/-- With no lane retired the pass map is what training found. -/
theorem State.passMap_sound (h : ∀ l, l < 68 → s.isRetired 1 (68 * n + l) = false) : s.passMap n = (s.port n).pass :=
  foldl_of_fixed fun l hl => by simp [h l (List.mem_range.1 hl)]

theorem Port.mapLanes_width (p : Port) : p.mapLanes.width = portWidth p.workingLanes.length := rfl

/-- All 68 lanes marked carry the full width. -/
theorem State.lanesJudged_full (hprobe : ∀ l, l < 68 → s.probeOf 1 (68 * n + l) = none) : (s.lanesJudged n (BitVec.allOnes 68)).mapLanes.width = 64 := by
  have hworking : (s.lanesJudged n (BitVec.allOnes 68)).workingLanes = upTo 68 := List.filter_eq_self.2 fun l hl => by
    have hl := List.mem_range.1 hl
    rw [State.lanesJudged_lane hl, State.verdict, hprobe l hl]
    rw [BitVec.getLsbD_allOnes, decide_eq_true hl]
    rfl
  rw [Port.mapLanes_width, hworking, List.length_range]
  rfl

/-- No lane marked carries none. -/
theorem State.lanesJudged_none : (s.lanesJudged n 0).mapLanes.width = 0 := by
  have hworking : (s.lanesJudged n 0).workingLanes = [] := List.filter_eq_nil_iff.2 fun l hl => by
    rw [State.lanesJudged_lane (List.mem_range.1 hl), State.verdict]
    cases (s.probeOf 1 (68 * n + l)).isSome <;> simp [stateJudged]
  rw [Port.mapLanes_width, hworking]
  rfl

end

/-- An aligned port sends INIT. -/
theorem State.portTo_sendInit (s : State) (n : Nat) : (s.portTo n .init).sendInit n
    = (s.modPort n fun p => { p with state := .init, since := s.now, lastInit := s.now }).emit (.flit n (flitBits (initOf s.frm.waferId n (s.port n)))) := by
  have hinit : initOf s.frm.waferId n ((s.portTo n .init).port n) = initOf s.frm.waferId n (s.port n) := by
    rw [State.portTo, State.modPort_self]
    rfl
  rw [← hinit, ← State.modPort_modPort s n (fun p => { p with state := .init, since := s.now }) fun p => { p with lastInit := s.now }]
  rfl

/-! ### Recoveries and resets of a port (R415, R428) -/

section
variable {s : State} {n : Nat}

/-- An active port that starts a recovery keeps its retry buffer. -/
theorem State.startRecovery_eq (hstate : (s.port n).state = .active) : s.startRecovery n = s.modPort n fun p => { p with
    state := .recovery, since := s.now, recSince := some s.now, keeping := true, recoveries := p.recoveries + 1, retireWait := none
    peerGood := false, peerSeenUs := false } := by
  rw [State.startRecovery, if_neg (by simp [hstate])]

theorem recoveryTimeout_eq {t0 : Nat} (hrec : (s.port n).recSince = some t0) :
    recoveryTimeout n s = if s.now < t0 + 1000000 then s else s.fullTraining n := by
  rw [recoveryTimeout, hrec]

/-- The wait of lanes that retire, over. -/
theorem retireExpiry_eq {q : Nat} {t0 : Nat} (hwait : (s.port n).retireWait = some (q, t0)) (hdue : t0 + 2000 ≤ s.now) :
    retireExpiry n s = if (s.port n).needsRecovery then (s.modPort n fun p => { p with retireWait := none }).startRecovery n
      else s.modPort n fun p => { p with retireWait := none } := by
  have hneed : ((s.modPort n fun p => { p with retireWait := none }).port n).needsRecovery = (s.port n).needsRecovery := by
    rw [State.modPort_self]
    rfl
  rw [retireExpiry, hwait, ← hneed]
  exact if_neg (Nat.not_lt.2 hdue)

/-- The reset of an enabled port through which nothing waits. -/
theorem txlReset_eq (hopen : s.txlOpen n = true) (hen : (s.port n).enable = true) (hidle : ∀ r ∈ s.stk.requests, r.2.2.2 ≠ some n) :
    txlReset n s = s.modPort n fun p => { ({ p with resetting := true } : Port).resetLink with
      state := .detect, since := s.now, pass := BitVec.allOnes 68, trainings := p.trainings + 1, width := 0, recSince := none, peerGood := false, peerSeenUs := false } := by
  have hreset : (s.modPort n fun p => { p with resetting := true }).portReset n = s.modPort n fun p => ({ p with resetting := true } : Port).resetLink := by
    rw [State.portReset, State.modPort_modPort, State.killThrough_idle]
    exact hidle
  rw [txlReset, if_neg (by simp [hopen]), hreset]
  dsimp only
  rw [if_pos, State.fullTraining, State.modPort_modPort]
  · rfl
  · rw [State.modPort_self]
    exact hen

end

/-! ### The obligations -/

/-- Settles O31: each state ends in the next, or takes the port down with its lanes and its retry buffer. -/
theorem portTraining : Obligations.portTraining := by
  unfold Obligations.portTraining
  refine ⟨?detected, ?equalized, ?locked, ?tested, ?equalizeFails, ?lockFails, ?mapped, ?unmapped, ?aligned, ?timeout, ?recovery, ?retry⟩
  case detected =>
    intro n l s hpower hstate hsignal
    refine exec_on hpower rfl ?_
    rw [detectDone, if_neg (by simp [hstate, hsignal])]
    rfl
  case equalized =>
    intro n s hpower hstate
    show execTrainingEqualizeDone n [] s = _
    rw [execTrainingEqualizeDone, run_on _ _ hpower, State.trainStep_good hstate]
    rfl
  case locked =>
    intro n s hpower hstate
    show execTrainingFecLockDone n [] s = _
    rw [execTrainingFecLockDone, run_on _ _ hpower, State.trainStep_good hstate]
    rfl
  case tested =>
    intro n s hpower hstate hdue
    show execTrainingLaneTestDone n [] s = _
    rw [execTrainingLaneTestDone, run_on _ _ hpower, if_neg (Nat.not_lt.2 hdue), State.trainStep_good hstate]
    rfl
  case equalizeFails =>
    intro n l s hpower hn hl hstate
    exact answers_on (f := fun s => s.trainStep n .equalize .fecLock [l]) hpower rfl (State.trainStep_fails hn hl hstate)
  case lockFails =>
    intro n l s hpower hn hl hstate
    exact answers_on (f := fun s => s.trainStep n .fecLock .laneTest [l]) hpower rfl (State.trainStep_fails hn hl hstate)
  case mapped =>
    intro n s hpower hn hstate hsound hpass
    have hboth : s.passMap n &&& BitVec.allOnes 68 = BitVec.allOnes 68 := by
      rw [State.passMap_sound fun l hl => (hsound l hl).1, hpass, BitVec.and_self]
    have hwidth : ((s.lanesMapped n (BitVec.allOnes 68)).port n).width = 64 := by
      rw [State.lanesMapped_port, State.lanesJudged_full fun l hl => (hsound l hl).2]
    refine answers_on (f := laneMapDone n (BitVec.allOnes 68)) hpower rfl ?_
    rw [laneMapDone_eq hstate, hboth, if_neg (by rw [hwidth]; decide), State.keep_port, State.portTo, State.modPort_self]
    exact ⟨rfl, hwidth⟩
  case unmapped =>
    intro n s hpower hn hstate
    have hboth : s.passMap n &&& 0 = 0 := BitVec.and_zero
    have hwidth : ((s.lanesMapped n 0).port n).width = 0 := by rw [State.lanesMapped_port, State.lanesJudged_none]
    refine answers_on (f := laneMapDone n 0) hpower rfl ?_
    obtain ⟨q, hdown⟩ := (s.lanesMapped n 0).portDown_port n
    rw [laneMapDone_eq hstate, hboth, if_pos hwidth, State.keep_port, hdown]
    exact ⟨rfl, rfl, rfl⟩
  case aligned =>
    intro n s hpower hstate
    refine exec_on hpower rfl ?_
    rw [deskewDone]
    dsimp only
    rw [if_pos (by simp [hstate]), State.portTo_sendInit]
    rfl
  case timeout =>
    intro n s hpower hmax hrec hlate
    refine answers_on (f := trainingTimeout n) hpower rfl ?_
    obtain ⟨q, hdown⟩ := s.portDown_port n
    rw [trainingTimeout, if_neg (by simp [hmax, hrec, hlate]), State.keep_port, hdown]
    exact ⟨rfl, rfl, rfl, rfl⟩
  case recovery =>
    intro n t0 s hpower hrec hlate
    refine exec_on hpower rfl ?_
    rw [recoveryTimeout_eq hrec, if_neg (Nat.not_lt.2 hlate)]
    rfl
  case retry =>
    intro n s hlive hstate hen hlate
    obtain ⟨hpower, hready⟩ := hlive
    refine exec_on hpower rfl ?_
    rw [downRetry, if_neg (by simp [hstate, hen, hready, hlate])]
    rfl

/-- Settles O33: an upset of a lane is noted and costs the port what the lane carries; control of a port starts it over, starts a recovery, or holds it down. -/
theorem portControl : Obligations.portControl := by
  unfold Obligations.portControl
  refine ⟨?badWord, ?badFlit, ?lockLost, ?lockRecovers, ?expires, ?retires, ?reset, ?retrain, ?enable, ?disable⟩
  case badWord =>
    intro n l s hpower hn hl hstate hsteady
    have hsteady' : Steady (s.modPort n fun p => { p with lanes := tabMod {} p.lanes l fun x => { x with uncorr := x.uncorr + 1 } }) 1 (68 * n + l) := hsteady
    refine exec_on hpower rfl ?_
    rw [badCodeword, if_neg (by omega)]
    dsimp only
    rw [if_neg (by simp [hstate]), State.upset_steady hsteady']
    rfl
  case badFlit =>
    intro n l s hpower hn hl hstate hlane hepisode hsteady
    refine exec_on hpower rfl ?_
    rw [badCodeword, if_neg (by omega)]
    dsimp only
    have hcarries : ((s.modPort n fun p => { p with lanes := tabMod {} p.lanes l fun x => { x with uncorr := x.uncorr + 1 } }).port n).lane l
        = { (s.port n).lane l with uncorr := ((s.port n).lane l).uncorr + 1 } := by
      rw [State.modPort_self]
      rw [Port.lane, tabGet_tabMod_self]
      rfl
    rw [hcarries, if_pos (by simp [hstate, hlane]), State.flitDiscard, if_neg (by simp [hepisode]), State.modPort_modPort]
    rw [State.upset_steady]
    · rfl
    · exact hsteady
  case lockLost =>
    intro n l s hpower hn hl hlane hsteady
    refine exec_on hpower rfl ?_
    rw [lockLoss, if_neg (by omega)]
    dsimp only
    rw [if_neg (by simp [hlane]), State.upset_steady hsteady]
    rfl
  case lockRecovers =>
    intro n l s hpower hn hl hstate hlane hsteady
    refine answers_on (f := lockLoss n l) hpower rfl ?_
    rw [lockLoss, if_neg (by omega)]
    dsimp only
    rw [if_pos (by simp [hlane]), State.upset_steady hsteady]
    rw [State.startRecovery_eq (s := { s with flt := upsetFlt s 0x09 1 (68 * n + l) none }) hstate, State.keep_port, State.modPort_self]
    exact ⟨rfl, rfl, rfl, rfl, rfl⟩
  case expires =>
    intro n q t0 s hpower hwait hdue hneed
    refine exec_on hpower rfl ?_
    rw [retireExpiry_eq hwait hdue, hneed]
    rfl
  case retires =>
    intro n q t0 s hpower hstate hwait hdue hneed
    refine answers_on (f := retireExpiry n) hpower rfl ?_
    have hstate' : ((s.modPort n fun p => { p with retireWait := none }).port n).state = .active := by
      rw [State.modPort_self]
      exact hstate
    rw [retireExpiry_eq hwait hdue, if_pos hneed, State.startRecovery_eq hstate', State.modPort_modPort, State.keep_port, State.modPort_self]
    exact ⟨rfl, rfl, rfl⟩
  case reset =>
    intro n s hlive hn hen hidle
    obtain ⟨hpower, hready⟩ := hlive
    refine answers_on (f := txlReset n) hpower rfl ?_
    rw [txlReset_eq (by simp [State.txlOpen, hready, hn]) hen hidle, State.keep_port]
    rw [State.modPort_self]
    exact ⟨rfl, rfl, rfl, rfl, rfl, rfl, rfl, fun k hk => by rw [State.keep_port, State.modPort_ne _ _ _ _ hk], rfl⟩
  case retrain =>
    intro n s hlive hn hstate
    obtain ⟨hpower, hready⟩ := hlive
    show execTxlRetrain n s = _
    rw [execTxlRetrain, run_on _ _ hpower, if_pos (by simp [State.txlOpen, hready, hn]), State.startRecovery_eq hstate]
    rfl
  case enable =>
    intro n s hlive hn hen
    obtain ⟨hpower, hready⟩ := hlive
    refine exec_on (f := txlEnable n true) hpower rfl ?_
    rw [txlEnable, if_neg (by simp [State.txlOpen, hready, hn, hen])]
    rfl
  case disable =>
    intro n s hlive hn hen
    obtain ⟨hpower, hready⟩ := hlive
    refine answers_on (f := txlEnable n false) hpower rfl ?_
    obtain ⟨q, hdown⟩ := (s.modPort n fun p => { p with enable := false }).portDown_port n
    rw [State.modPort_self] at hdown
    rw [txlEnable, if_neg (by simp [State.txlOpen, hready, hn, hen]), if_neg Bool.false_ne_true, State.keep_port, hdown]
    exact ⟨rfl, rfl, rfl, rfl, rfl⟩

end Sys2Proof.Machine


/-! PROOFS. Function resets and the accesses and events of the host ports (R225, R375, R376, R384 to R387, R389, R491). -/

namespace Sys2Proof.Machine

open Sys2Proof Sys2Proof.Safety

/-! ### What a function reset leaves of the clients (R225, R464) -/

/-- A client's work under a function reset: parked time is counted, drains reach their place, and its units, windows, partitions and entries go. -/
def State.flrLeave (s : State) (n : Nat) : State :=
  let s := s.countParked n
  let s := s.each (s.committedOf n) State.drainLocal
  let s := s.each (s.unitsOf n) fun s u => ((s.discardOn u.id u.allTiles).dropUnit u.id).dropRequests u.id
  ((s.freeClient n).unseat n).retireAll n

/-- What a function reset leaves of the client itself. -/
def Client.flrTorn (c : Client) (now : Nat) : Client :=
  ({ c.torn with q0 := {}, q1 := {}, out := { epoch := c.out.epoch }, func := { c.func with held := [] } } : Client).flrClear now

theorem State.flrTear_eq (s : State) (n : Nat) : s.flrTear n = ((s.endHalt n).flrLeave n).modClient n fun c => c.flrTorn s.now := by
  unfold State.flrTear State.teardown State.flrLeave
  rw [if_pos rfl]
  dsimp only
  rw [State.modClient_modClient]
  rfl

section
variable {α : Type} {g : Client → α} (hfunc : ∀ c f, g { c with func := f } = g c) (hacct : ∀ c a p, g { c with acct := a, parkedSince := p } = g c) (s : State) (n m : Nat)

theorem State.drainByte_clients (x : StagedByte) : (s.drainByte n x).clients = s.clients := by
  unfold State.drainByte
  split
  · obtain ⟨H, e⟩ := s.hbmWrite_eq (bits x.1 51 0) [mergeByte (memGet s.hbm (bits x.1 51 0)) x.2.1 x.2.2]
    rw [e]
  · split <;> rfl

theorem State.drainLocal_clients (u : CUnit) : (s.drainLocal u).clients = s.clients := by
  unfold State.drainLocal
  extract_lets t1
  have h1 : t1.clients = s.clients := State.each_ind (P := fun t => t.clients = s.clients) (fun t x ht => (t.drainByte_clients u.client x).trans ht) _ _ rfl
  exact State.each_ind (f := fun s a => s.modTile a fun t => t.freeWhere fun x => x.wetOf u.id) (P := fun t => t.clients = s.clients) (fun _ _ ht => ht) _ _ h1

include hacct in
theorem State.countParked_client : g ((s.countParked n).client m) = g (s.client m) := by
  unfold State.countParked
  dsimp only
  split
  · rw [State.modAcct, State.modClient_modClient]
    by_cases hm : m = n
    · rw [hm, State.modClient_self]
      exact hacct (s.client n) _ _
    · rw [State.modClient_ne _ _ _ _ hm]
  · rfl

include hfunc hacct in
/-- A function reset changes of a client's device-side state only its accounting before the client itself is torn down. -/
theorem State.flrLeave_client : g ((s.flrLeave n).client m) = g (s.client m) := by
  unfold State.flrLeave
  extract_lets t1 t2 t3
  have h1 : g (t1.client m) = g (s.client m) := s.countParked_client hacct n m
  have h2 : t2.clients = t1.clients := State.each_ind (P := fun t => t.clients = t1.clients) (fun t u ht => (t.drainLocal_clients u).trans ht) _ _ rfl
  have h3 : t3.clients = t2.clients := State.each_ind (P := fun t => t.clients = t2.clients) (fun t u ht => by
    obtain ⟨T, Q, F, e⟩ := t.discardOn_eq u.id u.allTiles
    rw [e]
    exact ht) _ _ rfl
  obtain ⟨P, h4⟩ := (t3.freeClient n).unseat_eq n
  have hseat : ((t3.freeClient n).unseat n).clients = t1.clients := by rw [h4, ← h2, ← h3]; rfl
  have hret : g ((((t3.freeClient n).unseat n).retireAll n).client m) = g (((t3.freeClient n).unseat n).client m) :=
    State.each_ind (P := fun t => g (t.client m) = g (((t3.freeClient n).unseat n).client m)) (fun t i ht => (t.setEntry_client g hfunc i _ m).trans ht) _ _ rfl
  rw [hret, ← h1, State.client, hseat]
  rfl

include hfunc hacct in
/-- A function reset leaves the other clients as they are, but for their accounting and for messages of notices. -/
theorem State.flrTear_other (hm : m ≠ n) : g ((s.flrTear n).client m) = g (s.client m) := by
  rw [State.flrTear_eq, State.modClient_ne _ _ _ _ hm, State.flrLeave_client hfunc hacct, State.endHalt, State.modClient_ne _ _ _ _ hm]

end

/-- The client itself after a function reset. -/
theorem State.flrTear_client (s : State) (n : Nat) : (s.flrTear n).client n = (((s.endHalt n).flrLeave n).client n).flrTorn s.now := by
  rw [State.flrTear_eq, State.modClient_self]

/-- What is left of a port's clients when their functions are reset. -/
def Client.Gone (c : Client) : Prop := c.en = false ∧ c.q0 = {}

/-- Every client of a list whose functions are reset is torn down. -/
theorem State.flrTear_each (s : State) {l : List Nat} {n : Nat} (hn : n ∈ l) : ((s.each l State.flrTear).client n).Gone := by
  refine State.each_reaches (Q := fun n t => (t.client n).Gone) (fun t a => ?_) (fun t a b hb => ?_) l s n hn
  · rw [State.flrTear_client]
    exact ⟨rfl, rfl⟩
  · by_cases hab : b = a
    · rw [hab, State.flrTear_client]
      exact ⟨rfl, rfl⟩
    · have h := t.flrTear_other (g := fun c => (c.en, c.q0)) (fun _ _ => rfl) (fun _ _ _ => rfl) a b hab
      obtain ⟨hen, hq0⟩ := Prod.mk.inj h
      exact ⟨hen.trans hb.1, hq0.trans hb.2⟩

theorem mem_clientsOf {p f : Nat} (hf : f < 32) : 32 * p + f ∈ clientsOf p := by
  unfold clientsOf
  exact List.mem_map_of_mem (f := fun f => 32 * p + f) (List.mem_range.2 hf)

/-- A port without its link and its VFs. -/
def State.portOff (s : State) (p : Nat) : State := { s with numVfs := tabPut s.numVfs p 0, linkUp := tabPut s.linkUp p false }

/-- A port of which nothing is left: no link, no VF, and no context. -/
def State.PortGone (s : State) (p : Nat) : Prop :=
  tabGet false s.linkUp p = false ∧ tabGet 0 s.numVfs p = 0 ∧ ∀ f, f < 32 → (s.client (32 * p + f)).en = false ∧ (s.client (32 * p + f)).q0 = {}

theorem State.portOff_gone {s : State} {p : Nat} (h : ∀ f, f < 32 → (s.client (32 * p + f)).Gone) : (s.portOff p).PortGone p :=
  ⟨tabGet_tabPut_self .., tabGet_tabPut_self .., h⟩

theorem State.keep_gone {s t : State} {p : Nat} (h : t.PortGone p) : (s.keep t).PortGone p := h

theorem State.portGone_gone (s : State) (p : Nat) : (s.portGone p).PortGone p :=
  State.portOff_gone fun _ hf => s.flrTear_each (mem_clientsOf hf)

/-- Held traffic of clients that may not reach the host stays held. -/
theorem State.dmaRelease_silent {s : State} {n : Nat} (h : (s.client n).func.bme = false) : s.dmaRelease n = s := by
  have hsilent : s.canDma n = false := by simp [State.canDma, h]
  rw [State.dmaRelease, hsilent]
  rfl

/-- A link that comes up after FRAME_BOOT, with no function of its port that may reach the host. -/
theorem linkUp_silent {s : State} {p : Nat} (hp : p < 4) (hstate : s.frm.state ≠ .frameBoot) (hbme : ∀ f, f < 32 → (s.client (32 * p + f)).func.bme = false) :
    linkUp p s = ({ s with linkUp := tabPut s.linkUp p true } : State).emit (.deviceReadiness p) := by
  rw [linkUp, if_neg (by omega)]
  dsimp only
  rw [State.when, if_pos (by simp [hstate]), State.each_noop]
  intro n hn
  obtain ⟨f, hf, rfl⟩ := List.mem_map.1 hn
  exact State.dmaRelease_silent (hbme f (List.mem_range.1 hf))

/-! ### BAR2 (R384, R385) -/

theorem State.hbmAccess_write {s : State} {a : Nat} {l : List Byte} (hmap : s.frm.unmapped = []) (hin : a + l.length ≤ s.hbmTop) : s.hbmAccess a (.write l) = { s with hbm := memWrite s.hbm a l } := by
  have hall : List.take (s.hbmTop - a) l = l := List.take_of_length_le (by omega)
  rw [State.hbmAccess, State.hbmWrite, hall]
  simp [hmap]

section
variable {s : State} {p n o k : Nat} {x : Access} (hlen : accessLen x = k)
include hlen

/-- A BAR2 access of a PF that answers, at READY. -/
theorem pfBar2_ready (hready : s.frm.state = .ready) (hp : p < 4) (hok : s.memOk (32 * p) = true) (hin : o + k ≤ 2 ^ 36) :
    pfBar2 p o x s = if s.hbmTop < 2 ^ 30 * tabGet 0 s.frm.bar2Base p + o + k then s.emit .unsupportedRequest
      else s.hbmAccess (2 ^ 30 * tabGet 0 s.frm.bar2Base p + o) x := by
  subst hlen
  rw [pfBar2, if_neg (by omega), if_neg (by simp [hok]), if_neg (by simp [hready])]

/-- A BAR2 access of a VF that answers, at READY. -/
theorem vfBar2_ready (hready : s.frm.state = .ready) (hvf : funOf n ≠ 0) (hn : n < 128) (hok : s.memOk n = true) (hin : o + k ≤ 2 ^ 32) :
    vfBar2 n o x s = if (s.client n).areas.hi < (s.client n).areas.lo + o + k ∨ s.hbmTop < (s.client n).areas.lo + o + k then
        (s.modClient n fun c => { c with pcieBar2 := true }).emit .unsupportedRequest
      else s.hbmAccess ((s.client n).areas.lo + o) x := by
  subst hlen
  rw [vfBar2, if_neg (not_or.2 ⟨hvf, not_or.2 ⟨Nat.not_le.2 hn, Nat.not_lt.2 hin⟩⟩), if_neg (by simp [hok]), if_neg (by simp [hready])]

end

/-- Settles O22: an access of a function that answers reaches HBM or is refused as a whole, and what a port loses is torn down client by client. -/
theorem hostAccesses : Obligations.hostAccesses := by
  unfold Obligations.hostAccesses
  refine ⟨?pfRead, ?pfWrite, ?pfBeyond, ?vfRead, ?vfWrite, ?vfBeyond, ?early, ?silent, ?poisoned, ?linkUp, ?linkDown, ?linkEarly, ?perst, ?config, ?retry⟩
  case pfRead =>
    intro p o n s hlive hp hok hin hbelow
    obtain ⟨hpower, hready⟩ := hlive
    refine exec_on hpower rfl ?_
    rw [pfBar2_ready (k := n) rfl hready hp hok hin, if_neg (Nat.not_lt.2 hbelow)]
    rfl
  case pfWrite =>
    intro p o l s hlive hp hok hin hbelow hmap
    obtain ⟨hpower, hready⟩ := hlive
    refine exec_on hpower rfl ?_
    rw [pfBar2_ready (k := l.length) rfl hready hp hok hin, if_neg (Nat.not_lt.2 hbelow), State.hbmAccess_write hmap hbelow]
    rfl
  case pfBeyond =>
    intro p o x s hlive hp hok hin hbeyond
    obtain ⟨hpower, hready⟩ := hlive
    refine exec_on hpower rfl ?_
    rw [pfBar2_ready rfl hready hp hok hin, if_pos hbeyond]
    rfl
  case vfRead =>
    intro n o k s hlive hvf hn hok hin hhi htop
    obtain ⟨hpower, hready⟩ := hlive
    refine exec_on hpower rfl ?_
    rw [vfBar2_ready (k := k) rfl hready hvf hn hok hin, if_neg (not_or.2 ⟨Nat.not_lt.2 hhi, Nat.not_lt.2 htop⟩)]
    rfl
  case vfWrite =>
    intro n o l s hlive hvf hn hok hin hhi htop hmap
    obtain ⟨hpower, hready⟩ := hlive
    refine exec_on hpower rfl ?_
    rw [vfBar2_ready (k := l.length) rfl hready hvf hn hok hin, if_neg (not_or.2 ⟨Nat.not_lt.2 hhi, Nat.not_lt.2 htop⟩), State.hbmAccess_write hmap htop]
    rfl
  case vfBeyond =>
    intro n o x s hlive hvf hn hok hin hbeyond
    obtain ⟨hpower, hready⟩ := hlive
    refine exec_on hpower rfl ?_
    rw [vfBar2_ready rfl hready hvf hn hok hin, if_pos hbeyond]
    rfl
  case early =>
    intro p o x s hpower hready hp hok hin
    refine exec_on hpower rfl ?_
    rw [pfBar2, if_neg (by omega), if_neg (by simp [hok]), if_pos (by simp [hready])]
    cases x with
    | read n => rfl
    | write l => rfl
  case silent =>
    intro p o x s hpower hp hok hin
    refine exec_on hpower rfl ?_
    rw [pfBar2, if_neg (by omega), if_pos (by simp [hok])]
    cases x with
    | read n => rfl
    | write l => rfl
  case poisoned =>
    intro n b o s hpower hn hexists
    show execPoisonedWrite n b o s = _
    rw [execPoisonedWrite, run_on _ _ hpower, if_neg (by simp [hexists, Nat.not_le.2 hn])]
    rfl
  case linkUp =>
    intro p s hpower hp hstate hbme
    refine exec_on hpower rfl ?_
    rw [linkUp_silent hp hstate hbme]
    rfl
  case linkDown =>
    intro p s hlive hp
    obtain ⟨hpower, hready⟩ := hlive
    refine answers_on (f := linkDown p) hpower rfl ?_
    rw [linkDown, if_neg (by omega), if_pos (by simp [hready])]
    exact State.keep_gone (s.portGone_gone p)
  case linkEarly =>
    intro p s hpower hready hp
    refine exec_on hpower rfl ?_
    rw [linkDown, if_neg (by omega), if_neg (by simp [hready])]
    rfl
  case perst =>
    intro p s hpower hp
    refine answers_on (f := perst p) hpower rfl ?_
    rw [perst, if_neg (by omega)]
    exact State.keep_gone (s.portGone_gone p)
  case config =>
    intro n f s hpower hn hlink htime hstate hexists
    refine exec_on hpower rfl ?_
    rw [configRequest, if_neg (by simp [Nat.not_le.2 hn, hlink, Nat.not_lt.2 htime]), if_neg (by simp [hstate]), if_neg (by simp [hexists])]
    rfl
  case retry =>
    intro n f s hpower hn hlink htime hstate hcold
    refine exec_on hpower rfl ?_
    rw [configRequest, if_neg (by simp [Nat.not_le.2 hn, hlink, Nat.not_lt.2 htime]), if_pos (by simp [hstate, hcold])]
    rfl

end Sys2Proof.Machine


/-! PROOFS. The FLR of a function whose outcome ring has been enabled before (R387, R222). -/

namespace Sys2Proof.Machine

open Sys2Proof Sys2Proof.Safety

/-- A VF with no context, whose outcome ring has been enabled once. -/
def ringEnabledOnce : State := { power := true, numVfs := [(0, 1)], clients := [(1, { out := { epoch := 1 } })] }

/-- A function reset leaves the outcome ring at its reset values, but for how often it has been enabled, which the model counts. -/
theorem State.flrTear_out (s : State) (n : Nat) : ((s.flrTear n).client n).out = { epoch := (s.client n).out.epoch } := by
  have hout : (((s.endHalt n).flrLeave n).client n).out = (s.client n).out := by
    rw [State.flrLeave_client (g := Client.out) (fun _ _ => rfl) (fun _ _ _ => rfl), State.endHalt, State.modClient_self]
  rw [State.flrTear_client, ← hout]
  rfl

/-- The FLR of a VF that exists and has no context leaves its outcome ring so too. -/
theorem vfFlr_out {s : State} {n : Nat} (hvf : funOf n ≠ 0) (hn : n < 128) (hexists : s.functionExists n = true) (hen : (s.client n).en = false) :
    ((vfFlr n s).client n).out = { epoch := (s.client n).out.epoch } := by
  have hhad : (if (s.client n).en = true then ((s.flrTear n).modClient n fun c => { c with func := { c.func with flr := true } }).createContext n
      else (s.flrTear n).modClient n fun c => { c with func := { c.func with flr := true } }) = (s.flrTear n).modClient n fun c => { c with func := { c.func with flr := true } } :=
    if_neg (by simp [hen])
  rw [vfFlr, if_neg (by simp [hvf, Nat.not_le.2 hn, hexists]), State.flrClient]
  dsimp only
  rw [hhad, State.modClient_self, ← State.flrTear_out]

/-- Refutes O21: its first clause has the whole outcome ring of the function at `{}` after the FLR, but `OutRing.epoch`, the model's own count of how often the ring has been enabled, which tells a slot that was reserved in an earlier enabling (R222), goes on. In `ringEnabledOnce` it is 1 before the FLR and after it. -/
theorem not_functions : ¬ Obligations.functions := by
  unfold Obligations.functions
  rintro ⟨hflr, -⟩
  have hexists : ringEnabledOnce.functionExists 1 = true := by decide
  obtain ⟨t, hexec, -, -, -, -, -, hout, -⟩ := hflr 1 ringEnabledOnce rfl (by decide) (by decide) hexists
  have hdone : exec (.vfFlr 1) ringEnabledOnce = .next (ringEnabledOnce.keep (vfFlr 1 ringEnabledOnce)) := exec_on (f := vfFlr 1) rfl rfl rfl
  obtain rfl : t = ringEnabledOnce.keep (vfFlr 1 ringEnabledOnce) := Host.Outcome.next.inj (hexec.symm.trans hdone)
  rw [State.keep_client, vfFlr_out (by decide) (by decide) hexists rfl] at hout
  exact absurd (congrArg OutRing.epoch hout) (by decide)

end Sys2Proof.Machine


/-! PROOFS. Halt, steps and release of a client, and the trace ring (R404, R466 to R469, R473). -/

namespace Sys2Proof.Machine

open Sys2Proof Sys2Proof.Safety

/-! ### What is held during a halt (R318, R468) -/

/-- No unit holds a HANDBACK. -/
def State.NoneHeld (s : State) : Prop := ∀ u ∈ s.units, u.handoff.bind (fun h : HandoffRun => h.held) = none

section
variable {s : State} {n a : Nat}

/-- Where no HANDBACK is held, none is delivered. -/
theorem State.deliverHeld_none (h : s.NoneHeld) : s.deliverHeld n = s := by
  refine State.each_noop fun u _ => ?_
  split
  · rfl
  · next v hv =>
    have hheld := h v (List.mem_of_find?_eq_some hv)
    split
    · rfl
    · next x hx =>
      rw [hx, Option.bind_some] at hheld
      rw [hheld]

/-- Where no tile of the client holds an upset, none acts. -/
theorem State.heldUpsets_none (h : ∀ a ∈ s.seatTiles n, (s.tile a).heldUpset = false) : s.heldUpsets n = s :=
  State.each_noop fun a ha => if_neg (by simp [h a ha])

/-! ### Changing the runs of a client -/

/-- Changing a client's runs changes tiles alone, and no upset that one holds. -/
theorem State.modRuns_tiles (f : Nat → TileRun → TileRun) : ∃ T, s.modRuns n f = { s with tiles := T } ∧ ∀ a, ((s.modRuns n f).tile a).heldUpset = (s.tile a).heldUpset := by
  obtain ⟨T, hT⟩ : ∃ T, s.modRuns n f = { s with tiles := T } :=
    State.each_ind (P := fun t => ∃ T, t = { s with tiles := T }) (fun t x ht => by obtain ⟨T, rfl⟩ := ht; exact ⟨_, rfl⟩) _ s ⟨_, rfl⟩
  refine ⟨T, hT, fun a => ?_⟩
  refine State.each_ind (P := fun t => (t.tile a).heldUpset = (s.tile a).heldUpset) (fun t x ht => ?_) _ s rfl
  by_cases hx : a = x.1
  · rw [State.modRun, ← hx, State.modTile_self]
    exact ht
  · rw [State.modRun_ne _ _ hx, ht]

/-- Changing the only run of a client. -/
theorem State.modRuns_single {r : TileRun} (h : s.runsOf n = [(a, r)]) (f : Nat → TileRun → TileRun) : s.modRuns n f = s.modRun a (f a) := by
  rw [State.modRuns, h]
  rfl

/-- Whose unit a number names. -/
def State.ownerOf (s : State) (id : Nat) : Option Nat := (s.unit? id).map CUnit.client

theorem State.runsOf_congr {t : State} (htiles : t.tiles = s.tiles) (howner : ∀ id, t.ownerOf id = s.ownerOf id) : t.runsOf n = s.runsOf n := by
  have hany : ∀ (x : State) (id : Nat), (x.unit? id).any (fun u => u.client == n) = (x.ownerOf id).any (· == n) := fun x id => by
    rw [State.ownerOf, Option.any_map]
  unfold State.runsOf
  simp only [htiles, hany, howner]

/-- A run of a client that a change leaves with its unit is one of its runs still. -/
theorem State.mem_runsOf_modRun {r : TileRun} {f : TileRun → TileRun} (hmem : (a, r) ∈ s.runsOf n) (hrun : (s.tile a).run = some r) (hf : (f r).unit = r.unit) :
    (a, f r) ∈ (s.modRun a f).runsOf n := by
  have howner : (s.unit? r.unit).any (fun u => u.client == n) = true := by
    obtain ⟨⟨k, T⟩, -, h⟩ := List.mem_filterMap.1 hmem
    dsimp only at h
    split at h
    · split at h
      · next r' _ hany =>
        obtain ⟨-, rfl⟩ := Prod.mk.inj (Option.some.inj h)
        exact hany
      · cases h
    · cases h
  have htile : (a, { s.tile a with run := some (f r) }) ∈ (s.modRun a f).tiles := by
    have h : (a, { s.tile a with run := (s.tile a).run.map f }) ∈ (s.modRun a f).tiles := mem_tabPut_self _ _ _
    rwa [hrun] at h
  refine List.mem_filterMap.2 ⟨_, htile, ?_⟩
  dsimp only
  rw [hf]
  exact if_pos howner

/-- A run that goes on from where its tile is. -/
def TileRun.Resumed (r : TileRun) (cyc : Nat) : Prop := r.stopped = false ∧ r.stepOne = false ∧ cyc ≤ r.nextCyc

theorem TileRun.resume_resumed (r : TileRun) (cyc : Nat) : (r.resume cyc).Resumed cyc := by
  refine ⟨rfl, rfl, ?_⟩
  show cyc ≤ if r.nextCyc < cyc then cyc else r.nextCyc
  split <;> omega

/-- Each run of a client resumes. -/
theorem State.resume_runs {r : TileRun} {c : Nat → Nat} (hmem : (a, r) ∈ s.runsOf n) (hrun : (s.tile a).run = some r) :
    ∃ r', ((s.modRuns n fun a r => r.resume (c a)).tile a).run = some r' ∧ r'.Resumed (c a) := by
  have hany : ∀ (t : State) (x : Nat × TileRun), (∃ r', (t.tile a).run = some r') → ∃ r', ((t.modRun x.1 fun r => r.resume (c x.1)).tile a).run = some r' := by
    rintro t x ⟨r', h⟩
    by_cases hx : a = x.1
    · exact ⟨_, by rw [← hx, t.modRun_run _ h]⟩
    · exact ⟨r', by rw [State.modRun_ne _ _ hx, h]⟩
  have hkeep : ∀ (t : State) (x : Nat × TileRun), (∃ r', (t.tile a).run = some r' ∧ r'.Resumed (c a)) →
      ∃ r', ((t.modRun x.1 fun r => r.resume (c x.1)).tile a).run = some r' ∧ r'.Resumed (c a) := by
    rintro t x ⟨r', h, hr⟩
    by_cases hx : a = x.1
    · exact ⟨_, by rw [← hx, t.modRun_run _ h], r'.resume_resumed _⟩
    · exact ⟨r', by rw [State.modRun_ne _ _ hx, h], hr⟩
  obtain ⟨l, l', hsplit⟩ := List.append_of_mem hmem
  rw [State.modRuns, hsplit, State.each_append, State.each_cons]
  obtain ⟨r', hr'⟩ := State.each_ind (P := fun t => ∃ r', (t.tile a).run = some r') hany l s ⟨r, hrun⟩
  exact State.each_ind (P := fun t => ∃ r', (t.tile a).run = some r' ∧ r'.Resumed (c a)) hkeep l' _ ⟨_, State.modRun_run _ _ hr' _, r'.resume_resumed _⟩

end

/-! ### Timers after a halt (R468) -/

/-- The timers of a queue's descriptors, moved on. -/
def Queue.resumed (x : Queue) (since now : Nat) : Queue := { x with accepted := x.accepted.map fun d => { d with timer := pausedBase d.timer since now } }

/-- The timer of a unit's handoff, moved on. -/
def CUnit.resumed (u : CUnit) (since now : Nat) : CUnit :=
  { u with handoff := u.handoff.map fun h => if h.firstSend = 0 then h else { h with firstSend := pausedBase h.firstSend since now } }

/-- The wait of a run, moved on. -/
def TileRun.waitMoved (r : TileRun) (since now : Nat) : TileRun :=
  match r.waitSince with
  | some t => r.shiftWait (pausedBase t since now - t)
  | none => r

theorem TileRun.waitMoved_unit (r : TileRun) (since now : Nat) : (r.waitMoved since now).unit = r.unit := by
  unfold TileRun.waitMoved
  split <;> rfl

/-- A client whose queues' timers have moved on. -/
def Client.queuesResumed (c : Client) (now : Nat) : Client := { c with q0 := c.q0.resumed c.dbg.since now, q1 := c.q1.resumed c.dbg.since now }

section
variable (s : State) (n : Nat)

/-- The timers of a client's queues move on. -/
def State.queuesResumed : State := s.modClient n fun c => c.queuesResumed s.now

/-- The timers of a client's units move on. -/
def State.unitsResumed (since : Nat) : State := s.each (s.unitsOf n) fun s u => s.modUnit u.id fun u => u.resumed since s.now

theorem State.resumeTimers_eq : s.resumeTimers n = ((s.queuesResumed n).unitsResumed n (s.client n).dbg.since).modRuns n fun _ r =>
    r.waitMoved (s.client n).dbg.since ((s.queuesResumed n).unitsResumed n (s.client n).dbg.since).now := by
  have hqueues : (s.each [0, 1] fun t q => t.modQueue n q fun x => { x with accepted := x.accepted.map fun d => { d with timer := pausedBase d.timer (s.client n).dbg.since t.now } })
      = s.queuesResumed n := by
    rw [State.each_cons, State.each_cons, State.each_nil, State.modQueue, State.modQueue, State.modClient_modClient]
    exact State.modClient_congr s rfl
  rw [State.resumeTimers, hqueues]
  rfl

/-- Moving the timers of units on changes units alone, none of their owners, and no HANDBACK that one holds. -/
theorem State.unitsResumed_units (since : Nat) (h : s.NoneHeld) :
    ∃ U, s.unitsResumed n since = { s with units := U } ∧ (s.unitsResumed n since).NoneHeld ∧ ∀ id, (s.unitsResumed n since).ownerOf id = s.ownerOf id := by
  refine State.each_ind (P := fun t => ∃ U, t = { s with units := U } ∧ t.NoneHeld ∧ ∀ id, t.ownerOf id = s.ownerOf id) (fun t u ht => ?_) _ s ⟨_, rfl, h, fun _ => rfl⟩
  obtain ⟨U, ht, hheld, howner⟩ := ht
  refine ⟨_, by rw [ht]; rfl, ?_, fun id => ?_⟩
  · intro v hv
    obtain ⟨w, hw, rfl⟩ := List.mem_map.1 hv
    split
    · have hnone := hheld w hw
      show (w.handoff.map _).bind _ = none
      cases hh : w.handoff with
      | none => rfl
      | some x =>
        rw [hh, Option.bind_some] at hnone
        simp only [Option.map_some, Option.bind_some]
        split <;> exact hnone
    · exact hheld w hw
  · rw [← howner, State.ownerOf, State.ownerOf, State.unit?, State.modUnit_units, List.find?_map, Option.map_map]
    have hid : ((fun v : CUnit => v.id == id) ∘ fun v => if v.id = u.id then v.resumed since t.now else v) = fun v => v.id == id :=
      funext fun v => by dsimp only [Function.comp]; split <;> rfl
    have hclient : (CUnit.client ∘ fun v => if v.id = u.id then v.resumed since t.now else v) = CUnit.client :=
      funext fun v => by dsimp only [Function.comp]; split <;> rfl
    rw [hid, hclient]
    rfl

end

/-! ### Halts and steps (R467, R469) -/

section
variable {s : State} {n : Nat}

theorem State.NoneHeld.modRuns (h : s.NoneHeld) (f : Nat → TileRun → TileRun) : (s.modRuns n f).NoneHeld := by
  obtain ⟨T, hT, -⟩ := s.modRuns_tiles (n := n) f
  rw [hT]
  exact h

theorem State.modRuns_client (f : Nat → TileRun → TileRun) (m : Nat) : (s.modRuns n f).client m = s.client m := by
  obtain ⟨T, hT, -⟩ := s.modRuns_tiles (n := n) f
  rw [hT]
  rfl

/-- Runs that go on, and no HANDBACK to deliver, leave the clients. -/
theorem State.modRuns_deliver_client (h : s.NoneHeld) (f : Nat → TileRun → TileRun) (m : Nat) : ((s.modRuns n f).deliverHeld n).client m = s.client m := by
  rw [State.deliverHeld_none (h.modRuns f), State.modRuns_client]

theorem State.modRuns_deliver_run {a : Nat} {r : TileRun} {f : Nat → TileRun → TileRun} (h : s.NoneHeld) (hruns : s.runsOf n = [(a, r)]) (hrun : (s.tile a).run = some r) :
    (((s.modRuns n f).deliverHeld n).tile a).run = some (f a r) := by
  rw [State.deliverHeld_none (h.modRuns f), State.modRuns_single hruns, State.modRun_run _ _ hrun]

/-- A break whose runs have stopped becomes a halt, with its BREAK record. -/
theorem haltComplete_eq (hbreaking : (s.client n).dbg.breaking = true) (hhalted : (s.client n).dbg.halted = false) (hdone : s.haltReady n = true) :
    ∃ H R, haltComplete n s = { s.modDbg n (fun d => { d with
      halted := true, breaking := false, stepping := false, stepped := false, parked := !(s.client n).resident, since := s.now }) with hbm := H, trace := R } := by
  rw [haltComplete]
  dsimp only
  rw [if_neg (by simp [hbreaking, hhalted, hdone])]
  exact State.trace1_eq _ _

end

/-! ### The end of a halt (R468, R469) -/

/-- What RELEASE leaves of a client's debug state: the held descriptor is let past its break. -/
def Dbg.released (d : Dbg) : Dbg := { d with halted := false, stepping := false, stepped := false, breaking := false, pass := d.held, held := none, stepDesc := none }

/-- A client whose halt has ended. -/
def Client.unhalted (c : Client) (now : Nat) : Client := { c.queuesResumed now with dbg := c.dbg.released }

/-- A halted client with the BREAK record of its release written and its timers moved on. -/
def State.timersResumed (s : State) (n : Nat) : State :=
  (s.trace1 { event := 10, client := n, q := (s.client n).dbg.q, tag := (s.client n).dbg.tag.toNat, part := (s.client n).bindPart }).resumeTimers n

/-- The same with its runs resumed and its halt ended. -/
def State.unhalted (s : State) (n : Nat) : State :=
  ((s.timersResumed n).modRuns n fun a r => r.resume ((s.timersResumed n).cycle a)).modDbg n Dbg.released

section
variable {s : State} {n : Nat}

/-- Before a client's runs resume their waits, its timers have moved on: queues, units and the trace have changed. -/
theorem State.timersResumed_runs (hheld : s.NoneHeld) : ∃ H R U x, x = { s.queuesResumed n with hbm := H, trace := R, units := U } ∧ x.NoneHeld
    ∧ (∀ id, x.ownerOf id = s.ownerOf id) ∧ s.timersResumed n = x.modRuns n fun _ r => r.waitMoved (s.client n).dbg.since x.now := by
  unfold State.timersResumed
  obtain ⟨H, R, e⟩ := s.trace1_eq { event := 10, client := n, q := (s.client n).dbg.q, tag := (s.client n).dbg.tag.toNat, part := (s.client n).bindPart }
  rw [e, State.resumeTimers_eq]
  obtain ⟨U, hunits, hnone, howner⟩ := State.unitsResumed_units (({ s with hbm := H, trace := R } : State).queuesResumed n) n (s.client n).dbg.since hheld
  exact ⟨H, R, U, _, hunits, hnone, howner, rfl⟩

/-- A client whose halt has ended: its own queues and debug state, units, tiles and the trace have changed, and what is held stays. -/
theorem State.unhalted_eq (hheld : s.NoneHeld) : ∃ H R U T, s.unhalted n = { s.modClient n (fun c => c.unhalted s.now) with hbm := H, trace := R, units := U, tiles := T }
    ∧ (s.unhalted n).NoneHeld ∧ ∀ a, ((s.unhalted n).tile a).heldUpset = (s.tile a).heldUpset := by
  obtain ⟨H, R, U, x, hx, hnone, -, hruns⟩ := State.timersResumed_runs (n := n) hheld
  obtain ⟨T, hT, hupset⟩ := x.modRuns_tiles (n := n) fun _ r => r.waitMoved (s.client n).dbg.since x.now
  rw [← hruns] at hT hupset
  obtain ⟨T', hT', hupset'⟩ := (s.timersResumed n).modRuns_tiles (n := n) fun a r => r.resume ((s.timersResumed n).cycle a)
  have htile : ∀ a, (x.tile a).heldUpset = (s.tile a).heldUpset := fun a => by rw [hx]; rfl
  have hdbg : (s.queuesResumed n).modDbg n Dbg.released = s.modClient n fun c => c.unhalted s.now := by
    rw [State.queuesResumed, State.modDbg, State.modClient_modClient]
    rfl
  refine ⟨H, R, U, T', ?_, ?_, fun a => ?_⟩
  · rw [State.unhalted, hT', hT, hx, ← hdbg]
    rfl
  · have hunits : (s.unhalted n).units = x.units := by
      rw [State.unhalted, hT', hT]
      rfl
    intro u hu
    rw [hunits] at hu
    exact hnone u hu
  · exact (hupset' a).trans ((hupset a).trans (htile a))

theorem State.unhalted_client (hheld : s.NoneHeld) : (s.unhalted n).client n = (s.client n).unhalted s.now := by
  obtain ⟨H, R, U, T, heq, -⟩ := State.unhalted_eq (n := n) hheld
  rw [heq]
  exact State.modClient_self s n fun c => c.unhalted s.now

/-- RELEASE of a halted client that holds no HANDBACK and no upset. -/
theorem dbgRelease_eq (hopen : s.dbgOpen n = true) (hhalted : (s.client n).dbg.halted = true) (hheld : s.NoneHeld) (hupset : ∀ a ∈ s.seatTiles n, (s.tile a).heldUpset = false) :
    dbgRelease n s = s.unhalted n := by
  obtain ⟨H, R, U, T, heq, hnone, htile⟩ := State.unhalted_eq (n := n) hheld
  have hseats : (s.unhalted n).seats n = s.seats n := by
    rw [State.seats, State.unhalted_client hheld]
    rfl
  have hseat : (s.unhalted n).seatTiles n = s.seatTiles n := by
    rw [State.seatTiles, hseats]
    refine congrArg (fun f => (s.seats n).flatMap f) (funext fun p => State.tilesOf_congr ?_ ?_) <;> rw [heq] <;> rfl
  have hquiet : (s.unhalted n).heldUpsets n = s.unhalted n := State.heldUpsets_none fun a ha => by
    rw [htile a]
    exact hupset a (hseat ▸ ha)
  rw [dbgRelease]
  dsimp only
  rw [if_neg (by simp [hopen, hhalted])]
  show ((s.unhalted n).deliverHeld n).heldUpsets n = _
  rw [State.deliverHeld_none hnone, hquiet]

end

/-- After the halt a run of its client goes on from where its tile is. -/
theorem State.unhalted_run {s : State} {n a : Nat} {r : TileRun} (hheld : s.NoneHeld) (hruns : s.runsOf n = [(a, r)]) (hrun : (s.tile a).run = some r) :
    ∃ r', ((s.unhalted n).tile a).run = some r' ∧ r'.Resumed (s.cycle a) := by
  obtain ⟨H, R, U, x, hx, -, howner, htimers⟩ := State.timersResumed_runs (n := n) hheld
  have hxruns : x.runsOf n = [(a, r)] := hruns ▸ State.runsOf_congr (by rw [hx]; rfl) howner
  have hxrun : (x.tile a).run = some r := by rw [hx]; exact hrun
  rw [State.modRuns_single hxruns] at htimers
  have hmem := State.mem_runsOf_modRun (f := fun r => r.waitMoved (s.client n).dbg.since x.now) (hxruns ▸ List.mem_cons_self) hxrun (TileRun.waitMoved_unit _ _ _)
  have hmoved := x.modRun_run a hxrun fun r => r.waitMoved (s.client n).dbg.since x.now
  have hcycle : (s.timersResumed n).cycle a = s.cycle a := by rw [htimers, hx]; rfl
  rw [← htimers] at hmem hmoved
  rw [← hcycle]
  exact State.resume_runs (c := fun a => (s.timersResumed n).cycle a) hmem hmoved

/-- Settles O23: a halt is a change of the client's debug state; steps and the release change its runs, and the release moves its timers on. -/
theorem debugging : Obligations.debugging := by
  unfold Obligations.debugging
  refine ⟨?halt, ?halted, ?stepDesc, ?stepStarts, ?stepLw, ?stepped, ?release, ?resumes, ?trace⟩
  case halt =>
    intro n s hpower hopen hhalted hbreaking
    refine exec_on hpower rfl ?_
    rw [dbgHalt]
    dsimp only
    rw [if_neg (by simp [hopen, hhalted, hbreaking])]
    rfl
  case halted =>
    intro n s hpower hbreaking hhalted hdone
    refine answers_on (f := haltComplete n) hpower rfl ?_
    obtain ⟨H, R, e⟩ := haltComplete_eq hbreaking hhalted hdone
    rw [e]
    rfl
  case stepDesc =>
    intro n q x s hpower hopen hhalted hstepping hnext hheld
    refine answers_on (f := dbgStepDesc n) hpower rfl ?_
    rw [dbgStepDesc]
    dsimp only
    rw [if_neg (by simp [hopen, hhalted, hstepping]), hnext]
    dsimp only
    rw [State.keep_client, State.modRuns_deliver_client, State.modDbg, State.modClient_self]
    exact hheld
  case stepStarts =>
    intro n q x s hpower hopen hhalted hstepping hruns hnext
    refine exec_on hpower rfl ?_
    rw [dbgStepLw]
    dsimp only
    rw [if_neg (by simp [hopen, hhalted, hstepping]), if_pos (by simp [hruns]), hnext]
    rfl
  case stepLw =>
    intro n a r s hpower hopen hhalted hstepping hruns hready hrun hheld
    refine answers_on (f := dbgStepLw n) hpower rfl ?_
    rw [dbgStepLw]
    dsimp only
    rw [if_neg (by simp [hopen, hhalted, hstepping]), if_neg (by simp [hruns]), State.keep_client, State.keep_tile]
    refine ⟨?_, ?_⟩
    · rw [State.modRuns_deliver_client, State.modDbg, State.modClient_self]
      exact hheld
    · have hgo := fun g f => State.modRuns_deliver_run (s := s.modDbg n g) (f := f) hheld hruns hrun
      rw [hgo, hready]
      rfl
  case stepped =>
    intro n s hpower hhalted hstepping hdesc hpass hdone
    refine answers_on (f := stepComplete n) hpower rfl ?_
    rw [stepComplete]
    dsimp only
    rw [if_neg (by simp [hhalted, hstepping, hdesc, hpass, hdone])]
    split
    · rw [State.keep_client, State.modDbg, State.modClient_self, State.modDbg, State.modClient_self, State.modRuns_client]
      exact ⟨rfl, rfl, hhalted⟩
    · rw [State.keep_client, State.modDbg, State.modClient_self, State.modRuns_client]
      exact ⟨rfl, rfl, hhalted⟩
  case release =>
    intro n s hpower hopen hhalted hheld hupset
    refine answers_on (f := dbgRelease n) hpower rfl ?_
    rw [dbgRelease_eq hopen hhalted hheld hupset, State.keep_client, State.unhalted_client hheld]
    exact ⟨rfl, rfl, rfl⟩
  case resumes =>
    intro n a r s hpower hopen hhalted hheld hupset hruns hrun
    refine answers_on (f := dbgRelease n) hpower rfl ?_
    rw [dbgRelease_eq hopen hhalted hheld hupset]
    exact State.unhalted_run hheld hruns hrun
  case trace =>
    intro v s hlive
    obtain ⟨hpower, hready⟩ := hlive
    refine exec_on hpower rfl ?_
    rw [traceEnable, if_neg (by simp [hready])]
    rfl

end Sys2Proof.Machine


/-! PROOFS. Admission across the stack: what the lead grants, counts and rebuilds, and what an ADMIT that waits becomes (R235, R236, R445, R447). -/

namespace Sys2Proof.Machine

open Sys2Proof Sys2Proof.Safety

/-! ### A COUNT (R447) -/

section
variable {α : Type} {key : Nat → Nat} {v : Nat → α} (d : α)

/-- Values put at keys of their own read back. -/
theorem tabGet_foldl_tabPut (hkey : ∀ a b, key a = key b → a = b) {x : Nat} (l : List Nat) :
    ∀ (t : Tab α), (x ∈ l ∨ tabGet d t (key x) = v x) → tabGet d (l.foldl (fun t i => tabPut t (key i) (v i)) t) (key x) = v x := by
  induction l with
  | nil => exact fun t h => h.resolve_left nofun
  | cons a l ih =>
    intro t h
    refine ih _ ?_
    by_cases hx : x = a
    · rw [hx, tabGet_tabPut_self]
      exact .inr rfl
    · rw [tabGet_tabPut_ne _ _ _ (fun e => hx (hkey _ _ e))]
      exact h.imp_left fun h => (List.mem_cons.1 h).resolve_left hx

/-- Other keys are left alone. -/
theorem tabGet_foldl_tabPut_ne {k : Nat} (l : List Nat) : ∀ (t : Tab α), (∀ a ∈ l, k ≠ key a) → tabGet d (l.foldl (fun t i => tabPut t (key i) (v i)) t) k = tabGet d t k := by
  induction l with
  | nil => exact fun _ _ => rfl
  | cons a l ih =>
    intro t h
    rw [List.foldl_cons, ih _ fun b hb => h b (List.mem_cons_of_mem _ hb), tabGet_tabPut_ne _ _ _ (h a List.mem_cons_self)]

end

/-- The lead's counts once a COUNT has replaced those of its wafer. -/
@[irreducible] def countsTaken (m : Trans) (t : Tab Nat) : Tab Nat := (upTo 128).foldl (fun c n => tabPut c (128 * m.src + n) (leVal ((m.data.drop (4 * n)).take 4))) t

theorem countsTaken_own (m : Trans) (t : Tab Nat) {n : Nat} (hn : n < 128) : tabGet 0 (countsTaken m t) (128 * m.src + n) = leVal ((m.data.drop (4 * n)).take 4) := by
  unfold countsTaken
  exact tabGet_foldl_tabPut (key := fun n => 128 * m.src + n) (v := fun n => leVal ((m.data.drop (4 * n)).take 4)) 0 (fun _ _ => Nat.add_left_cancel) (upTo 128) t
    (.inl (List.mem_range.2 hn))

theorem countsTaken_other (m : Trans) (t : Tab Nat) {k : Nat} (hk : k / 128 ≠ m.src) : tabGet 0 (countsTaken m t) k = tabGet 0 t k := by
  unfold countsTaken
  refine tabGet_foldl_tabPut_ne (key := fun n => 128 * m.src + n) (v := fun n => leVal ((m.data.drop (4 * n)).take 4)) 0 (upTo 128) t fun n hn => ?_
  have := List.mem_range.1 hn
  omega

/-! ### What a record of the rims leaves (R217) -/

section
variable (s : State) (n m : Nat)

theorem State.putRec_apart (r : Rec) : ((s.putRec n r).client m).apart = (s.client m).apart := by
  unfold State.putRec
  split
  · rw [State.modClient_apart, State.modQueue, State.modClient_apart]
    · exact fun c => c.modQueue_apart _ _
    · exact fun _ => rfl
  · obtain ⟨H, -, hbeside⟩ := s.recWrite_beside n r
    exact congrFun (congrArg (fun x => x.2.2) hbeside) m

/-- A commit of the rims whose record may be held leaves the Lot Table and, apart from rings, the clients. -/
theorem State.rimDone_leaves (q : Nat) (d : ADesc) : (s.rimDone n q d).beyondRecords = s.beyondRecords ∧ ((s.rimDone n q d).client m).apart = (s.client m).apart := by
  obtain ⟨H, V, h⟩ := s.trace1_eq (s.rimTrace n q d)
  have hput : s.rimDone n q d = ((s.trace1 (s.rimTrace n q d)).countCommit n).putRec n ((s.trace1 (s.rimTrace n q d)).rimRec q d) := rfl
  rw [hput, h]
  exact ⟨State.putRec_beyond _ _ _, State.putRec_apart _ _ _ _⟩

end

/-! ### The end of an ADMIT that waited (R235, R236) -/

section
variable (s : State) (n q : Nat) (d : ADesc) (ring : Nat)

/-- An ADMIT that is granted or refused is kept no more. -/
theorem State.admitGranted_admits : ((s.admitGranted n q d ring).client n).admits = (s.client n).admits.filter fun a => !(a.q == q && a.tag == dTag d.desc) := by
  have hset : ((s.setEntry (seqIdOf d.desc % 2 ^ 17) (s.admitEntry n d)).client n).admits = (s.client n).admits := s.setEntry_client Client.admits (fun _ _ => rfl) _ _ n
  have hout := (s.setEntry (seqIdOf d.desc % 2 ^ 17) (s.admitEntry n d)).outcome_offRing n (seqIdOf d.desc % 2 ^ 17) ring 0 s.now (out := 6) (by decide)
  rw [State.admitGranted, State.admitGone, State.modClient_self, ← hset]
  exact congrArg (List.filter _) (congrArg Client.admits hout :)

theorem State.admitRefused_admits (why : Nat) : ((s.admitRefused n q d ring why).client n).admits = (s.client n).admits.filter fun a => !(a.q == q && a.tag == dTag d.desc) := by
  have hout := (s.refusalNoted n d why).outcome_offRing n (seqIdOf d.desc % 2 ^ 17) ring why s.now (out := 5) (by decide)
  rw [State.refusalNoted, State.modClient_self] at hout
  rw [State.admitRefused, State.admitGone, State.modClient_self]
  exact congrArg (List.filter _) (congrArg Client.admits hout :)

theorem State.admitEnd_admits (why : Nat) : ((s.admitEnd n q d ring why).client n).admits = (s.client n).admits.filter fun a => !(a.q == q && a.tag == dTag d.desc) := by
  by_cases hwhy : why = 0
  · subst hwhy
    rw [State.admitEnd_granted]
    exact (congrArg Client.admits ((s.admitGranted n q d ring).rimDone_leaves n n q d).2 :).trans (s.admitGranted_admits n q d ring)
  · rw [State.admitEnd_refused s n q d ring hwhy]
    exact (congrArg Client.admits ((s.admitRefused n q d ring why).rimDone_leaves n n q d).2 :).trans (s.admitRefused_admits n q d ring why)

/-- One that is granted has its entry. -/
theorem State.admitEnd_entry : (s.admitEnd n q d ring 0).entry (seqIdOf d.desc % 2 ^ 17) = s.admitEntry n d := by
  have hbeyond := ((s.admitGranted n q d ring).rimDone_leaves n n q d).1
  rw [State.admitEnd_granted]
  exact (congrFun (congrArg Prod.snd (State.table_of_beyond hbeyond)) _).trans (s.admitGranted_entry n q d ring)

/-- One that is refused has its reason noted, and the Lot Table stays. -/
theorem State.admitEnd_refusal {why : Nat} (hwhy : why ≠ 0) : ((s.admitEnd n q d ring why).client n).refuse = why + 256 * (seqIdOf d.desc % 2 ^ 17)
    ∧ (s.admitEnd n q d ring why).north = s.north ∧ (s.admitEnd n q d ring why).south = s.south := by
  obtain ⟨hdone, happart⟩ := (s.admitRefused n q d ring why).rimDone_leaves n n q d
  have hbeyond := hdone.trans (s.admitRefused_beyond n q d ring why)
  rw [State.admitEnd_refused s n q d ring hwhy]
  exact ⟨(congrArg Client.refuse happart :).trans (s.admitRefused_client n q d ring why).1, (congrArg (fun x => x.2.2.1) hbeyond :), (congrArg (fun x => x.2.2.2.1) hbeyond :)⟩

end

/-! ### The answer to an ADMIT that waits (R235, R445) -/

/-- The answer to a client's one waiting ADMIT is noted. -/
def State.answerNoted (s : State) (n : Nat) (w : AdmitWait) (r : Nat) : State := s.modClient n fun c => { c with admits := [{ w with answer := some r }] }

section
variable {s : State} {n : Nat} {w : AdmitWait} {d : ADesc} {r : Nat}

theorem State.answerNoted_client : (s.answerNoted n w r).client n = { s.client n with admits := [{ w with answer := some r }] } := by
  rw [State.answerNoted, State.modClient_self]

theorem State.admitAnswered_eq (h : (s.client n).admits = [w]) : s.admitAnswered n w r = (s.answerNoted n w r).admitGo n := by
  rw [State.admitAnswered, State.answerNoted, State.modClient_congr s (g := fun c => { c with admits := [{ w with answer := some r }] }) (by simp [h])]

/-- While a build of the context is in progress the answer is kept. -/
theorem State.admitAnswered_kept (h : (s.client n).admits = [w]) (hbuild : (s.client n).build ≠ none) : s.admitAnswered n w r = s.answerNoted n w r := by
  have hbuild' : ((s.answerNoted n w r).client n).build.isSome = true := by
    rw [State.answerNoted_client]
    exact Option.isSome_iff_ne_none.2 hbuild
  rw [State.admitAnswered_eq h, State.admitGo]
  refine State.each_noop fun a _ => ?_
  split
  · exact if_pos (by simp [hbuild'])
  · rfl

/-- The one waiting ADMIT has its answer, and its commit instant may come. -/
structure State.AdmitComes (s : State) (n : Nat) (w : AdmitWait) (d : ADesc) : Prop where
  waits : (s.client n).admits = [w]
  desc : s.admitDesc n w.q w.tag = some d
  tag : dTag d.desc = w.tag
  build : (s.client n).build = none
  records : s.recordsDone n w.q = true

variable (h : s.AdmitComes n w d)
include h

theorem State.AdmitComes.admitGo_step : (s.answerNoted n w r).admitGo n = if r ≠ 0 then (s.answerNoted n w r).admitEnd n w.q d w.ring r
    else ((s.answerNoted n w r).admitEnd n w.q d w.ring ((s.answerNoted n w r).refusal n d)).when ((s.answerNoted n w r).refusal n d != 0 && ((s.answerNoted n w r).admitEnd n w.q d w.ring ((s.answerNoted n w r).refusal n d)).frm.role == 2)
      fun s => s.send (lotSync 2 n s.frm.leadId (admitData (seqIdOf d.desc) n)) := by
  have hdesc : (s.answerNoted n w r).admitDesc n w.q w.tag = some d := by
    rw [← h.desc, State.admitDesc, State.admitDesc, State.queue, State.queue, State.answerNoted_client]
    rfl
  have hmay : ¬ (((s.answerNoted n w r).client n).build.isSome || !(s.answerNoted n w r).recordsDone n w.q) = true := by
    have hrec : (s.answerNoted n w r).recordsDone n w.q = true := h.records
    rw [State.answerNoted_client]
    simp [h.build, hrec]
  unfold State.admitGo
  rw [State.answerNoted_client]
  simp only [State.each_cons, State.each_nil, hdesc]
  rw [if_neg hmay]

/-- No other ADMIT of the client waits. -/
theorem State.AdmitComes.none_left : [({ w with answer := some r } : AdmitWait)].filter (fun a => !(a.q == w.q && a.tag == dTag d.desc)) = [] := by
  simp [h.tag]

/-- A refusal ends the waiting ADMIT with its reason, and the Lot Table stays. -/
theorem State.AdmitComes.refused (hr : r ≠ 0) : ((s.admitAnswered n w r).client n).admits = [] ∧ ((s.admitAnswered n w r).client n).refuse = r + 256 * (seqIdOf d.desc % 2 ^ 17)
    ∧ (s.admitAnswered n w r).north = s.north ∧ (s.admitAnswered n w r).south = s.south := by
  rw [State.admitAnswered_eq h.waits, h.admitGo_step, if_pos hr]
  refine ⟨?_, State.admitEnd_refusal _ n w.q d w.ring hr⟩
  rw [State.admitEnd_admits, State.answerNoted_client]
  exact h.none_left

/-- A grant that nothing else refuses ends it with its entry. -/
theorem State.AdmitComes.granted (hnone : s.refusal n d = 0) : ((s.admitAnswered n w 0).client n).admits = []
    ∧ ∃ a, (s.admitAnswered n w 0).entry (seqIdOf d.desc % 2 ^ 17) = { client := n, state := .admitted, period := seqArg d.desc, deadline := firstDeadline d, spillAddr := a } := by
  have hnone' : (s.answerNoted n w 0).refusal n d = 0 := by
    rw [← hnone]
    simp only [State.refusal, State.spillArea, State.answerNoted_client]
    rfl
  rw [State.admitAnswered_eq h.waits, h.admitGo_step, if_neg (not_not.2 rfl), hnone']
  refine ⟨?_, _, State.admitEnd_entry _ n w.q d w.ring⟩
  rw [State.when, if_neg (by simp), State.admitEnd_admits, State.answerNoted_client]
  exact h.none_left

end

/-! ### The lead's counts (R445, R447) -/

section
variable {s : State} {m : Trans}

theorem State.keep_entry (t : State) (i : Nat) : (s.keep t).entry i = t.entry i := rfl

theorem State.takeIn_settled (h : s.stk.rebuilding = none) : ¬ (s.takeIn m).stk.rebuilding.isSome = true := by
  rw [show (s.takeIn m).stk.rebuilding = none from h]
  exact Bool.false_ne_true

theorem admitReq_lead (hrole : s.frm.role = 1) (hsrc : m.src < 16) : ¬ (s.frm.role ≠ 1 ∨ 16 ≤ m.src) := not_or.2 ⟨not_not.2 hrole, Nat.not_le.2 hsrc⟩

/-- A COUNT at the lead. -/
theorem lotSyncCount_here (hpower : s.power = true) (hhere : Here s m) (hsync : isSync m 3 = true) (hrole : s.frm.role = 1) (hsrc : m.src < 16) :
    exec (.lotSyncCount m) s = .next (s.keep ((s.takeIn m).modStk fun k => { k with
      counts := countsTaken m k.counts, rebuilding := k.rebuilding.map fun x => (x.1.filter (· != m.src), x.2) })) := by
  rw [exec_here hpower hhere hsync rfl, if_neg (admitReq_lead (s := s.takeIn m) hrole hsrc)]
  unfold countsTaken
  rfl

theorem State.admitAnswer_grants (h : s.stackCount (leVal ((m.data.drop 4).take 1) % 128) < (s.client (leVal ((m.data.drop 4).take 1) % 128)).stackQuota) :
    s.admitAnswer m = (s.modStk fun k => { k with counts := tabMod 0 k.counts (128 * m.src + leVal ((m.data.drop 4).take 1) % 128) (· + 1) }).send (transReply m 0 []) :=
  if_pos h

theorem State.admitAnswer_refuses (h : (s.client (leVal ((m.data.drop 4).take 1) % 128)).stackQuota ≤ s.stackCount (leVal ((m.data.drop 4).take 1) % 128)) :
    s.admitAnswer m = s.send (transReply m 1 []) :=
  if_neg (Nat.not_lt.2 h)

/-- Where no ADMIT of this wafer waits, none is judged. -/
theorem State.ownAdmits_none (h : ∀ n, n < 128 → (s.client n).admits = []) : s.ownAdmits = s :=
  State.each_noop fun n hn => by rw [h n (List.mem_range.1 hn)]; rfl

/-- A rebuild for which every COUNT is there ends. -/
theorem countRebuildEnd_eq {t0 : Nat} (hrebuild : s.stk.rebuilding = some ([], t0)) (hwaiting : s.stk.waitingReqs = []) :
    countRebuildEnd s = (s.modStk fun k => { k with rebuilding := none, waitingReqs := [] }).ownAdmits := by
  rw [countRebuildEnd, hrebuild]
  dsimp only
  rw [if_neg (by simp), hwaiting, State.each_nil]

end

/-! ### The obligation -/

section
variable {s : State} {m : Trans} {w : AdmitWait}

/-- The answer of the lead to the one ADMIT that waits for it. -/
theorem admitReqResponse_here (hpower : s.power = true) (hhere : Here s m) (htyp : m.typ = 7) (hresp : m.resp = true) (hsub : bits m.arg.toNat 7 0 = 1) (hawaited : s.awaited m = some 0)
    (hadmits : (s.client m.client).admits = [w]) (htid : w.tid = m.tid.toNat) (hanswer : w.answer = none) :
    exec (.admitReqResponse m) s = .next (s.keep (((s.takeIn m).answered m).admitAnswered m.client w (if m.status = 0 then 0 else 7))) := by
  have hfind : (((s.takeIn m).answered m).client m.client).admits.find? (fun a => a.tid == m.tid.toNat && a.answer.isNone) = some w := by
    rw [show (((s.takeIn m).answered m).client m.client).admits = [w] from hadmits]
    simp [htid, hanswer]
  have hsome : ¬ ((s.takeIn m).awaited m).isNone = true := by
    rw [show (s.takeIn m).awaited m = some 0 from hawaited]
    exact Bool.false_ne_true
  rw [exec_here hpower hhere (by simp [htyp, hresp, hsub]) rfl, if_neg hsome]
  dsimp only
  rw [hfind]

end

/-- Settles O37: the lead's answers are sends and counts of its own; an answer, or the end of the wait for one, ends the ADMIT that waits. -/
theorem stackAdmissions : Obligations.stackAdmissions := by
  unfold Obligations.stackAdmissions
  refine ⟨?grants, ?refuses, ?waits, ?notLead, ?release, ?count, ?rebuilt, ?granted, ?refused, ?kept, ?timeout⟩
  case grants =>
    intro m n s hpower hhere hsync hrole hsrc hrebuild hn hquota
    subst hn
    rw [exec_here hpower hhere hsync rfl, if_neg (admitReq_lead (s := s.takeIn m) hrole hsrc), if_neg (State.takeIn_settled hrebuild), State.admitAnswer_grants (s := s.takeIn m) hquota]
    exact congrArg _ (State.keep_send rfl _)
  case refuses =>
    intro m n s hpower hhere hsync hrole hsrc hrebuild hn hquota
    subst hn
    rw [exec_here hpower hhere hsync rfl, if_neg (admitReq_lead (s := s.takeIn m) hrole hsrc), if_neg (State.takeIn_settled hrebuild), State.admitAnswer_refuses (s := s.takeIn m) hquota]
    exact congrArg _ (State.keep_send rfl _)
  case waits =>
    intro m s hpower hhere hsync hrole hsrc hrebuild
    rw [exec_here hpower hhere hsync rfl, if_neg (admitReq_lead (s := s.takeIn m) hrole hsrc), if_pos (show (s.takeIn m).stk.rebuilding.isSome = true from Option.isSome_iff_ne_none.2 hrebuild)]
    rfl
  case notLead =>
    intro m s hpower hhere hsync hnot
    rw [exec_here hpower hhere hsync rfl, if_pos (show (s.takeIn m).frm.role ≠ 1 ∨ 16 ≤ m.src from hnot)]
    exact congrArg _ (State.keep_send rfl _)
  case release =>
    intro m n s hpower hhere hsync hrole hsrc hn
    subst hn
    rw [exec_here hpower hhere hsync rfl]
    dsimp only
    rw [if_neg (admitReq_lead (s := s.takeIn m) hrole hsrc)]
    rfl
  case count =>
    intro m s hpower hhere hsync hrole hsrc
    exact ⟨_, lotSyncCount_here hpower hhere hsync hrole hsrc, fun _ hn => countsTaken_own _ _ hn, fun _ hk => countsTaken_other _ _ hk, rfl⟩
  case rebuilt =>
    intro t0 s hpower hrebuild hwaiting hadmits
    refine exec_on hpower rfl ?_
    rw [countRebuildEnd_eq hrebuild hwaiting, State.ownAdmits_none (s := s.modStk _) hadmits]
    rfl
  case granted =>
    intro m w d s hpower hhere htyp hresp hsub hstatus hawaited hadmits htid hanswer hdesc htag hnone hbuild hrecords _
    have h : ((s.takeIn m).answered m).AdmitComes m.client w d := ⟨hadmits, hdesc, htag, hbuild, hrecords⟩
    obtain ⟨hgone, a, hentry⟩ := h.granted hnone
    refine ⟨_, admitReqResponse_here hpower hhere htyp hresp hsub hawaited hadmits htid hanswer, ?_⟩
    rw [if_pos hstatus]
    dsimp only
    rw [State.keep_client, State.keep_entry, hentry]
    exact ⟨hgone, rfl, rfl, rfl, rfl⟩
  case refused =>
    intro m w d s hpower hhere htyp hresp hsub hstatus hawaited hadmits htid hanswer hdesc htag hbuild hrecords
    have h : ((s.takeIn m).answered m).AdmitComes m.client w d := ⟨hadmits, hdesc, htag, hbuild, hrecords⟩
    refine ⟨_, admitReqResponse_here hpower hhere htyp hresp hsub hawaited hadmits htid hanswer, ?_⟩
    rw [if_neg hstatus]
    exact h.refused (by decide)
  case kept =>
    intro m w s hpower hhere htyp hresp hsub hawaited hadmits htid hanswer hbuild
    rw [admitReqResponse_here hpower hhere htyp hresp hsub hawaited hadmits htid hanswer, State.admitAnswered_kept (s := (s.takeIn m).answered m) hadmits hbuild]
    rfl
  case timeout =>
    intro n w d s hpower hadmits hanswer hlate hdesc htag hbuild hrecords
    have h : s.AdmitComes n w d := ⟨hadmits, hdesc, htag, hbuild, hrecords⟩
    have hfind : (s.client n).admits.find? (fun a => a.q == w.q && a.tag == w.tag && a.answer.isNone) = some w := by
      rw [hadmits]
      simp [hanswer]
    refine answers_on (f := admitTimeout n w.q w.tag) hpower rfl ?_
    rw [admitTimeout, hfind]
    dsimp only
    rw [if_neg (Nat.not_lt.2 hlate)]
    exact h.refused (by decide)

end Sys2Proof.Machine
